-- ==== Sys2Proof/Word.lean ====
section
/-! DEFINITION. The word types of the model: bit vectors of the widths the spec uses, and the table type
that every array of registers, every memory and every sparse store of the model is held in. -/

namespace Sys2Proof

abbrev Byte := BitVec 8
abbrev W16 := BitVec 16
abbrev W32 := BitVec 32
abbrev W64 := BitVec 64

/-- A shingle: 256 data bits in [255:0] and the four check symbols in [287:256] (R54). -/
abbrev Shingle := BitVec 288

/-- A sparse array: pairs of an index and an entry, the indexes strictly rising, no entry equal to
what an unlisted index reads as. `Machine/Tab.lean` reads and writes it in that one form. -/
abbrev Tab (α : Type) := List (Nat × α)

end Sys2Proof
end

