-- ==== Sys2Proof/Types.lean ====
section
/-! DEFINITION. What the commands carry: ports, requesters, frames, identity records, transfers, images and
the measured values of the outside world. Plain data; `Syntax.lean` holds the commands themselves. -/

namespace Sys2Proof

/-- The two devices of the model: the module and the Jalem block. -/
inductive Dev where
  | module
  | jalem
deriving DecidableEq, Repr, Inhabited

/-- A Phiax port: one of the module's 144 (R15), a rafter port of the Jalem block (R129) or one of its tray ports (R131). -/
inductive PortRef where
  | module (n : Fin 144)
  | rafter (q : Fin 18)
  | tray (t : Fin 2)
deriving DecidableEq, Repr, Inhabited

/-- Who accesses a register: the requesters that R8, R149, R161 and R341 to R344 tell apart. On the fabric side of a Jalem block each
module is a requester of its own (R8, R150). -/
inductive Requester where
  | ethernet
  | rackController
  | thatch
  | inBand
  | localSide
  | fabricSide (m : BitVec 4)
deriving DecidableEq, Repr, Inhabited

/-- Roles of a port (R15, PRT_STATUS.ROLE). -/
inductive Role where
  | unused
  | rafter
  | hip
  | service
deriving DecidableEq, Repr, Inhabited

/-- The fields of a header slot (R59). -/
structure Header where
  opcode : Byte
  course : BitVec 3
  sub : BitVec 1
  len : BitVec 4
  poison : Byte
  attr : Byte
  fpa : W64
  srcNode : Byte
  srcRack : Byte
  srcEngine : Byte
  tag : W16
  bayTag : W16
  status : Byte
  aux : W64
  rsvd : W32
deriving DecidableEq, Repr, Inhabited

/-- A frame whose header has been decoded: the header, its data shingles (R58), and the bits in which the header slot as received differs
from the encoding of its fields, so that it is forwarded unchanged (R56, R70). A header that its agent creates has none. -/
structure Frame where
  hdr : Header
  data : List Shingle
  err : Shingle := 0
deriving DecidableEq, Repr, Inhabited

/-- A frame as it stands in the slots of a link: the header shingle and the data shingles (R58, R59). -/
structure RawFrame where
  hdr : Shingle
  data : List Shingle
deriving DecidableEq, Repr, Inhabited

/-- Rack coordinates (R17). -/
structure Coord where
  x : BitVec 3
  y : BitVec 3
  z : BitVec 2
deriving DecidableEq, Repr, Inhabited

/-- A bay shape: origin and size, the fields of SOF_BAY_SHAPE [17:0] (R20, R36). -/
structure Shape where
  org : Coord
  sx : BitVec 4
  sy : BitVec 3
  sz : BitVec 3
deriving DecidableEq, Repr, Inhabited

/-- The identity record of R48. `node` and `link` are those of a Jalem block or a service partner,
`index`, `coord` and `port` those of a module; `rev` is the highest minor revision, `feats` the feature mask. -/
structure Identity where
  jalem : Bool
  role : Role
  node : Byte
  link : BitVec 5
  index : BitVec 4
  coord : Coord
  port : Byte
  rev : BitVec 2
  feats : W16
deriving DecidableEq, Repr, Inhabited

/-- What a host read of the Jalem block returned: the 64-bit words, whether it completed with an error,
and whether it arrived on the bound IDE stream (R137, R140, R159). -/
structure HostRead where
  words : List W64
  failed : Bool
  ide : Bool
deriving DecidableEq, Repr, Inhabited

/-- The operations an engine hands to its Jalem block (R141). -/
inductive TOp where
  | load
  | store
  | widenLoad
  | atomic
  | fadd
  | put
  | get
  | batten
deriving DecidableEq, Repr, Inhabited

/-- A transfer (R141, R164). `attr` is the ATTR of R106; `operand` the shingle of an ATOMIC or FADD;
`entries` the list of a BATTEN. -/
structure Transfer where
  op : TOp
  attr : Byte
  engine : Byte
  task : W16
  ctx : BitVec 6
  rva : W64
  lva : W64
  rows : Nat
  rowBytes : Nat
  rpitch : Nat
  lpitch : Nat
  comp : Option (BitVec 12)
  ord : BitVec 3
  operand : BitVec 256
  entries : List W32
deriving DecidableEq, Repr, Inhabited

/-- A FENCE transfer: the fields of R141 but for its addresses, its KIND and ORD (R164). -/
structure FenceReq where
  engine : Byte
  task : W16
  kind : BitVec 3
  comp : Option (BitVec 12) := none
  ord : BitVec 3 := 0
deriving DecidableEq, Repr, Inhabited

/-- Which request a home performs: request `i` of the home queue of eave `n`, or a frame that arrives
at the Jalem block on one of its links (R120, R123). -/
inductive HomeSel where
  | eave (n : Fin 32) (i : Nat)
  | jalem (p : PortRef) (f : Frame)
deriving DecidableEq, Repr, Inhabited

/-- Where a batten frame stands: at the head of the course-2 queue of eave group `g`, or arriving at the Jalem block (R116, R196). -/
inductive BattenSel where
  | group (g : Fin 4)
  | jalem (p : PortRef) (f : Frame)
deriving DecidableEq, Repr, Inhabited

/-- An open batten list: list `i` of eave group `g`, or list `i` of the Jalem block (R117). -/
inductive ListSel where
  | group (g : Fin 4) (i : Nat)
  | jalem (i : Nat)
deriving DecidableEq, Repr, Inhabited

/-- Why a port enters RETRAIN (R44). -/
inductive RetrainCause where
  | resends
  | naks
  | partner
deriving DecidableEq, Repr, Inhabited

/-- An entry of the local route table as the image gives it (R78). -/
structure LrtCfg where
  index : Byte
  value : W32
deriving DecidableEq, Repr, Inhabited

/-- The per-port settings of sections 0x02, 0x03 and 0x04 (R348). -/
structure PortCfg where
  port : Fin 144
  role : Role
  width : BitVec 2
  featMask : Byte
  latCap : Byte
  quantum : W64
  grants : List Nat
deriving DecidableEq, Repr, Inhabited

/-- The content of an image's sections (R348). A section that the image does not carry is `none` or empty.
The byte layout of a section body is not in the spec; the content stands here beside the bytes. -/
structure CfgBody where
  location : Option (BitVec 4 × Coord)
  torus : Nat × Nat × Nat
  ports : List PortCfg
  lrt : Option (List LrtCfg)
  pairSeed : BitVec 6
  shareCfg : Option W32
  bundleCtrl : Option W32
  serviceNodes : List (Fin 144 × Byte)
  fmNode : Option Byte
  hashCfg : Option W32
  scrubCfg : Option W32
  skewCfg : Option W32
  srcCfg : List (Nat × W32)
  gutCtrl : Option W32
  pwrCap : Option W16
  pwrSlew : Option W32
  brakeFloor : Option W16
  thermCfg : Option W32
  rcCert : BitVec 384
  bench : Bool
deriving DecidableEq, Repr, Inhabited

/-- A configuration image: its bytes (header, sections, signature, check word; R347), the content of its sections, the digest of the key that
signed it, and whether its signature verifies under that key (log entry 10). -/
structure CfgImage where
  bytes : List Byte
  body : CfgBody
  signer : BitVec 384
  sigOk : Bool
deriving DecidableEq, Repr, Inhabited

/-- A Thatch image: the header's fields (R352), the signed bytes, and whether the signature verifies (log entry 10). -/
structure FwImage where
  major : Byte
  minor : Byte
  svn : W16
  bytes : List Byte
  sigOk : Bool
deriving DecidableEq, Repr, Inhabited

/-- What an update of a Thatch image or a configuration copy does (R337, R350, R355): it begins, its image is complete, or it ends without that. -/
inductive UpdateStep where
  | begins
  | completes
  | breaksOff
deriving DecidableEq, Repr, Inhabited

/-- A service access to the flash (R367): QSPI_EXT_N falls (`true`) or rises; or the external programmer replaces what stands in a slot or in a copy,
or writes a byte of the factory data. -/
inductive QspiAccess where
  | ext (low : Bool)
  | slot (i : Fin 2) (img : FwImage)
  | copy (i : Fin 2) (img : Option CfgImage)
  | factory (offset : Fin 1048576) (b : Byte)
deriving DecidableEq, Repr, Inhabited

/-- Gauge's own measurements of a beat (R310): energy in µJ, the input voltage in 10 mV, the power in W. -/
structure GaugeMeas where
  energy : W64
  volts : W16
  watts : W16
deriving DecidableEq, Repr, Inhabited

/-- What the power sensors report for a governor interval or a beat (R323, R327, R329). -/
structure PwrMeas where
  power : W16
  demand : W16
  peak : W16
deriving DecidableEq, Repr, Inhabited

/-- The coolant and junction readings (R329): °C, and flow in 0.1 L/min. -/
structure CoolMeas where
  tj : Byte
  inlet : Byte
  outlet : Byte
  flow : Byte
deriving DecidableEq, Repr, Inhabited

/-- The object whose margin Soffit measures (R304). -/
inductive MarginObj where
  | port (n : Fin 144)
  | eave (n : Fin 32)
  | rail (n : Fin 16)
deriving DecidableEq, Repr, Inhabited

/-- A margin measurement (R304): for a port, per lane, the eye openings in µV and in 1/100000 UI and the bit
error ratio as 1000 × (−log10); for an eave the timing margin in fs, for a rail the margin in 1/1000 of a
percent of the setpoint. -/
structure MarginMeas where
  lanes : List (Nat × Nat × Nat)
  value : Nat
deriving DecidableEq, Repr, Inhabited

/-- A key request's payload (R266). `node` keys are listed in ascending node. -/
structure KeyReq where
  tag : W16
  slot : Byte
  zero : Byte
  gen : W32
  key : BitVec 256
  nodes : BitVec 256
  transport : List (BitVec 256)
deriving DecidableEq, Repr, Inhabited

end Sys2Proof
end

