-- ==== Sys2Proof/Syntax.lean ====
section
/-! DEFINITION. The commands of the block: one constructor per row of spec/opcode_table.json, in the table's
order, with the row's operands. `p` is a port, `beat` the beat at which a scheduled event happens. -/

namespace Sys2Proof

/-- The commands. Each docstring names the rows' rule. -/
inductive Instr where
  -- registers (R6, R8)
  | registerWrite (who : Requester) (dev : Dev) (addr : W32) (wide : Bool) (value : W64)
  | rcRead (who : Requester) (dev : Dev) (addr : W32) (wide : Bool)
  | lowerHalfWrite (who : Requester) (dev : Dev) (addr : W32) (value : W32)
  | upperHalfWrite (who : Requester) (dev : Dev) (addr : W32) (value : W32)
  | lowerHalfRead (who : Requester) (dev : Dev) (addr : W32)
  | upperHalfRead (who : Requester) (dev : Dev) (addr : W32)
  -- rack time (R28 to R34, R67)
  | epochMark (dev : Dev) (cycles : W32)
  | refclkLost (dev : Dev)
  | refclkReturn (dev : Dev)
  | freeRun (dev : Dev) (cycles : W32)
  | stampExchange (k : Fin 12) (beat : W64)
  | stampReq (p : PortRef) (t1 : W64) (replayed : Bool) (sealFailed : Bool)
  | stampRsp (p : PortRef) (t2 : W64) (t1 : W64) (t3 : W64) (replayed : Bool) (sealFailed : Bool)
  -- links (R37 to R68)
  | lathReceive (p : PortRef) (bytes : List Byte)
  | nak (p : PortRef) (ack : BitVec 12)
  | arbitration (p : PortRef)
  | credit (p : PortRef) (counts : List W16)
  | retrain (p : PortRef) (cause : RetrainCause)
  | retrainRelock (p : PortRef) (ident : Identity)
  | retrainTimeout (p : PortRef)
  | partnerDetected (p : PortRef)
  | equaliseDone (p : PortRef)
  | equaliseTimeout (p : PortRef)
  | lockDone (p : PortRef)
  | lockTimeout (p : PortRef)
  | identityRecord (p : PortRef) (ident : Identity)
  | negotiate (p : PortRef) (rev : Option (BitVec 2)) (feats : W16)
  | initialCreditGrant (p : PortRef) (grants : List W16)
  | partnerIdle (p : PortRef)
  | prtCtrlRestart (p : PortRef)
  -- Purlin (R69 to R101, R124)
  | frameRouting (p : Fin 144) (raw : RawFrame)
  | bundleResponse
  | valleyAudit (beat : W64)
  | purLrtShadow (who : Requester) (n : Byte) (value : W32)
  | purEpochAt (who : Requester) (value : W64)
  | routeEpoch (beat : W64)
  | purNodeLostSet (who : Requester) (value : W32)
  -- the home (R102 to R123, R181 to R198)
  | load (h : HomeSel)
  | store (h : HomeSel)
  | atomic (h : HomeSel)
  | fadd (h : HomeSel)
  | faddLedger (n : Fin 32) (i : Nat)
  | widenLoad (h : HomeSel)
  | put (h : HomeSel)
  | get (h : HomeSel)
  | batten (h : BattenSel)
  | battenAccept (g : Fin 4)
  | battenCont (h : BattenSel)
  | listIncomplete (l : ListSel) (beat : W64)
  | stackTrainingLost (n : Fin 32)
  | homeQueueStopped (n : Fin 32) (beat : W64)
  | patrolScrub (n : Fin 32) (err : Shingle) (stackCorr : W16)
  -- durable regions (R200 to R207)
  | define (k : Fin 16)
  | sealRegion (k : Fin 16)
  | reopen (k : Fin 16)
  | silver (k : Fin 16)
  | advance (k : Fin 16)
  | declareLost (k : Fin 16)
  | dissolve (k : Fin 16)
  | digestDone (k : Fin 16)
  -- the Jalem block's issue side (R132 to R148, R164 to R173)
  | transfer (t : Transfer)
  | fence (f : FenceReq)
  | transferIssue (engine : Byte)
  | responseArrival (q : PortRef) (f : Frame)
  | jebInvTail (value : W32) (entries : List HostRead)
  | copy (data : HostRead)
  | invalVa
  | invalCtx
  | invalAll
  | gen
  | genComplete
  | jebGenErr
  | jebFltResume (task : W16)
  | jebFltHead (value : W32)
  | jebEpochAt (who : Requester) (value : W64)
  | jebRouteEpoch (beat : W64)
  | movedBucketUndrained (beat : W64)
  | movedBucketFatal (beat : W64)
  -- the Jalem block's inbound side, sends, teardown, keys (R149 to R160, R265 to R273)
  | seg (p : PortRef) (f : Frame)
  | signal (p : PortRef) (f : Frame)
  | sendArm (n : BitVec 10) (value : W64)
  | sendGo (n : BitVec 10)
  | send (n : BitVec 10)
  | tdispError
  | jebReset
  | jebTeardown (p : PortRef) (f : Frame)
  | teardownResume (p : PortRef) (f : Frame)
  | keyInstall (p : PortRef) (f : Frame)
  | keyActivate (p : PortRef) (f : Frame)
  | keyRetire (p : PortRef) (f : Frame)
  | keyDestroy (p : PortRef) (f : Frame)
  | keyAck (p : PortRef) (f : Frame)
  | keyAckTimeout
  | activateRetry (slot : BitVec 2)
  -- in-band register access and reports (R293, R342, R343, R357)
  | ctrlWr (h : Dev) (p : PortRef) (f : Frame)
  | ctrlRd (h : Dev) (p : PortRef) (f : Frame)
  | relayRequest
  | relayResponse
  | gutJebReport
  | test (p : PortRef) (f : Frame)
  | testEcho (p : PortRef) (f : Frame)
  -- bays, keys, attestation (R254 to R284)
  | admitBay
  | hipAdmissionCheck (expired : Bool)
  | measure
  | release
  | destroyTimeout (n : Fin 144)
  | zeroizationComplete
  | secWeight (k : Fin 16) (value : W64)
  | bayKeys (requester : Nat) (r : KeyReq)
  | rotate (requester : Nat) (r : KeyReq)
  | weightKey (requester : Nat) (slot : Byte) (zero : BitVec 24) (key : BitVec 256)
  | weightDestroy (requester : Nat) (slot : Byte)
  | signedMeasurements (nonce : BitVec 256) (indices : List Nat)
  -- Gutter (R285 to R307)
  | sourceWindowClose (n : Fin 23) (beat : W64)
  | gutTdCtlStop (who : Requester)
  | teardownStop (n : Fin 144) (f : Frame)
  | stopAckTimeout (n : Fin 144)
  | quiescent
  | gutTdCtlRestart (who : Requester)
  | resumeAcknowledged
  | gutTdCtlUnhold (who : Requester)
  | gutFencePort (who : Requester) (w : Fin 3) (value : W64)
  | gutFatalValid (who : Requester)
  | gutCapStatusClear (who : Requester)
  | jalemPoll (beat : W64) (order : List (Fin 144))
  | marginMeasurement (o : MarginObj) (m : MarginMeas) (beat : W64)
  -- Gable (R209 to R227)
  | contrib
  | stalled (slot : Byte) (chunk : BitVec 10) (lo : Byte) (hi : Byte)
  | gableAbandon (slot : Byte) (beat : W64)
  | slotFree
  -- the truss sequencer (R228 to R253)
  | start
  | runStart (comm : BitVec 6) (beat : W64)
  | stepInstr (ctx : BitVec 9) (beat : W64)
  | segment (ctx : BitVec 9)
  | slotGrant (slot : Byte)
  | signalInstruction (ctx : BitVec 9)
  | reduce (ctx : BitVec 9)
  | sendInstruction (ctx : BitVec 9)
  | wait (ctx : BitVec 9)
  | raise
  | relay
  | ready
  | trsProgDirValid (who : Requester) (n : BitVec 4) (value : W64)
  | trsCommCtlValid (who : Requester) (n : BitVec 6) (value : W64)
  | windowTableWrite (dev : Dev) (who : Requester) (n : Byte) (reg : BitVec 3) (value : W64)
  -- Gauge (R308 to R319)
  | gaugeBeatItem (beat : W64) (meas : GaugeMeas)
  | channelLost (beat : W64) (meas : GaugeMeas)
  | interval (beat : W64) (elapsed : W64) (ownClock : Bool)
  | powerLoss
  | powerUp (beat : W64)
  | tamper
  | logRead (first : W64) (count : Byte)
  | certRead
  -- power and cooling (R320 to R334)
  | governorInterval (beat : W64) (meas : PwrMeas)
  | pwrCap (who : Requester) (value : W32)
  | rcLost (beat : W64)
  | brakeAssert (lastBeatPower : W16)
  | brakeRelease (beat : W64)
  | vinRange (vin : W16)
  | inputLoss (vin : W16)
  | inletHigh (m : CoolMeas)
  | throttle (m : CoolMeas)
  | pumpLost (m : CoolMeas)
  | orderlyShutdown (m : CoolMeas) (pumpTenSeconds : Bool)
  -- start, reset, firmware, tests (R335 to R367)
  | pwrEnHigh
  | pwrEnLow
  | resetNLow (us : Nat)
  | moduleStart (coolTj : Byte) (flow : Byte) (slotId : BitVec 4) (stageOk : Bool)
  | watchdog (beat : W64)
  | trialTimeout
  | sofFwCtlCommit (who : Requester)
  | sofFwCtlAdvance (who : Requester)
  | firmwareUpdate (img : FwImage) (step : UpdateStep)
  | configurationUpdate (img : CfgImage) (step : UpdateStep)
  | prbs31 (n : Fin 144)
  | prbs13q (n : Fin 144)
  | patternOff (n : Fin 144)
  | genEn (n : Fin 144)
  | tdispStateChange (st : BitVec 2) (ideBound : Bool)
  | stackRetraining (n : Fin 32)
  | stackRetrained (n : Fin 32)
  | secureSessionOpen (session : Nat × Byte)
  | secureSessionEnd (i : Nat)
  | alertResponseAddress
  | qspiServiceAccess (access : QspiAccess)
deriving DecidableEq, Repr

end Sys2Proof
end

