-- ==== Sys2Proof/Machine/Tab.lean ====
section
/-! DEFINITION. Tables in canonical form, and the bit fields of register words: reading a field, setting it,
the access codes of R6, and counters that saturate. -/

namespace Sys2Proof

/-- The entry at index `i`; `d` where the table lists none. -/
def Tab.get {α : Type} (d : α) : Tab α → Nat → α
  | [], _ => d
  | (k, v) :: t, i => if k = i then v else Tab.get d t i

/-- The table with entry `v` listed at index `i`, before the first greater index. -/
def Tab.ins {α : Type} : Tab α → Nat → α → Tab α
  | [], i, v => [(i, v)]
  | (k, w) :: t, i, v => if i < k then (i, v) :: (k, w) :: t else if i = k then (i, v) :: t else (k, w) :: Tab.ins t i v

/-- The table with entry `v` at index `i`, in canonical form: an entry equal to `d` is not listed. -/
def Tab.put {α : Type} [DecidableEq α] (d : α) (t : Tab α) (i : Nat) (v : α) : Tab α :=
  if v = d then t.filter fun p => decide (p.1 ≠ i) else Tab.ins t i v

/-- The entry at `i` changed by `f`. -/
def Tab.upd {α : Type} [DecidableEq α] (d : α) (t : Tab α) (i : Nat) (f : α → α) : Tab α :=
  Tab.put d t i (f (Tab.get d t i))

/-- Every entry changed by `f`, for an `f` that keeps the entry of an unlisted index. -/
def Tab.mapAll {α : Type} [DecidableEq α] (d : α) (f : α → α) (t : Tab α) : Tab α :=
  (t.map Prod.fst).foldl (fun u k => Tab.put d u k (f (Tab.get d t k))) t

/-- The canonical form, with every index at or above `lo`: indexes strictly rising, no entry equal to `d`. -/
def Tab.wfFrom {α : Type} [DecidableEq α] (d : α) : Nat → Tab α → Bool
  | _, [] => true
  | lo, (k, v) :: t => decide (lo ≤ k) && decide (v ≠ d) && Tab.wfFrom d (k + 1) t

/-- The canonical form of a table. -/
def Tab.wf {α : Type} [DecidableEq α] (d : α) (t : Tab α) : Bool := Tab.wfFrom d 0 t

/-- `n` numbers from `a` upward. -/
def upFrom (a : Nat) : Nat → List Nat
  | 0 => []
  | n + 1 => a :: upFrom (a + 1) n

/-- The table with the entries at indexes `a` to `a + n − 1` set by `f`. -/
def Tab.fill {α : Type} [DecidableEq α] (d : α) (t : Tab α) (a n : Nat) (f : Nat → α) : Tab α :=
  (upFrom a n).foldl (fun t i => Tab.put d t i (f i)) t

/-- The list `l` with element `i` changed by `f`. -/
def listUpd {α : Type} (l : List α) (i : Nat) (f : α → α) : List α := l.modify i f

/-- Field of `len` bits at bit `lo`, as a number. -/
def fld {n : Nat} (w : BitVec n) (lo len : Nat) : Nat := (w.toNat >>> lo) % 2 ^ len

/-- Bit `i` of a word. -/
def bitAt {n : Nat} (w : BitVec n) (i : Nat) : Bool := w.getLsbD i

/-- The mask of `len` ones at bit `lo`. -/
def fieldMask (n lo len : Nat) : BitVec n := BitVec.ofNat n ((2 ^ len - 1) <<< lo)

/-- The word with the field of `len` bits at `lo` set to `v`. -/
def setFld {n : Nat} (w : BitVec n) (lo len v : Nat) : BitVec n :=
  (w &&& ~~~ fieldMask n lo len) ||| BitVec.ofNat n ((v % 2 ^ len) <<< lo)

/-- The word with bit `i` set to `b`. -/
def setBit {n : Nat} (w : BitVec n) (i : Nat) (b : Bool) : BitVec n := setFld w i 1 b.toNat

/-- A counter field that saturates (R68 and the other counters): `k` added. -/
def satFld {n : Nat} (w : BitVec n) (lo len k : Nat) : BitVec n :=
  setFld w lo len (min (fld w lo len + k) (2 ^ len - 1))

/-- A whole-word counter that saturates: `k` added. -/
def satAdd {n : Nat} (w : BitVec n) (k : Nat) : BitVec n := BitVec.ofNat n (min (w.toNat + k) (2 ^ n - 1))

/-- The effect of a write by R6: bits of `rw` take the written value, bits of `w1c` written 1 are cleared, the rest stay. -/
def accessWrite {n : Nat} (rw w1c old new : BitVec n) : BitVec n :=
  (old &&& ~~~ rw &&& ~~~ (w1c &&& new)) ||| (new &&& rw)

/-- The lower and the upper half of a 64-bit word (R8). -/
def lowHalf (w : W64) : W32 := w.truncate 32
def highHalf (w : W64) : W32 := (w >>> 32).truncate 32
def joinHalves (hi lo : W32) : W64 := (hi ++ lo : BitVec 64)

/-- The bytes of a word, least significant first. -/
def bytesOf {n : Nat} (w : BitVec n) (k : Nat) : List Byte :=
  (List.range k).map fun i => (w >>> (8 * i)).truncate 8

/-- The number whose bytes, least significant first, are `l`. -/
def natOfBytes : List Byte → Nat
  | [] => 0
  | b :: t => b.toNat + 256 * natOfBytes t

end Sys2Proof
end

