-- ==== Sys2Proof/Machine/Numfmt.lean ====
section
/-! DEFINITION. Number formats: binary floating point decoded to exact values and rounded once (R110, R193, R195), the
accumulators of ledger lines (R190 to R193), and the integer atomics (R108). -/

namespace Sys2Proof.Machine

open Sys2Proof

/-- An exact value: NaN, an infinity, or ±m × 2^e (zero keeps its sign). -/
inductive FVal where
  | nan
  | inf (neg : Bool)
  | fin (neg : Bool) (m : Nat) (e : Int)
deriving DecidableEq, Repr

/-- A binary format: exponent bits, fraction bits, and whether the top exponent holds infinities and NaNs. -/
structure FFmt where
  eb : Nat
  mb : Nat
  ieee : Bool
deriving DecidableEq, Repr

def fmtFp32 : FFmt := { eb := 8, mb := 23, ieee := true }
def fmtBf16 : FFmt := { eb := 8, mb := 7, ieee := true }
def fmtFp16 : FFmt := { eb := 5, mb := 10, ieee := true }
def fmtE5M2 : FFmt := { eb := 5, mb := 2, ieee := true }
def fmtE4M3 : FFmt := { eb := 4, mb := 3, ieee := false }
def fmtE2M1 : FFmt := { eb := 2, mb := 1, ieee := false }

def FFmt.bias (f : FFmt) : Nat := 2 ^ (f.eb - 1) - 1

/-- The exponent of the last place of subnormals. -/
def FFmt.minExp (f : FFmt) : Int := 1 - (f.bias : Int) - f.mb

/-- The sign bit's place. -/
def FFmt.top (f : FFmt) : Nat := f.eb + f.mb

/-- The value of a pattern. E4M3's one NaN is all ones; E2M1 has none. -/
def FFmt.decode (f : FFmt) (w : Nat) : FVal :=
  let neg := decide (w / 2 ^ f.top % 2 = 1)
  let e := w / 2 ^ f.mb % 2 ^ f.eb
  let m := w % 2 ^ f.mb
  if f.ieee ∧ e = 2 ^ f.eb - 1 then (if m = 0 then .inf neg else .nan)
  else if ¬ f.ieee ∧ f.eb = 4 ∧ e = 15 ∧ m = 7 then .nan
  else if e = 0 then .fin neg m f.minExp
  else .fin neg (2 ^ f.mb + m) (f.minExp + e - 1)

/-- `m / 2^k` rounded to nearest, ties to even. -/
def shiftRne (m k : Nat) : Nat :=
  let q := m / 2 ^ k
  let r := m % 2 ^ k
  if 2 ^ k < 2 * r ∨ (2 * r = 2 ^ k ∧ q % 2 = 1) then q + 1 else q

/-- m × 2^e rounded once to a last place of at least the format's, ties to even: the pattern without its sign,
possibly past the largest finite one. -/
def FFmt.roundMag (f : FFmt) (m : Nat) (e : Int) : Nat :=
  if m = 0 then 0
  else
    let q := max (e + (Nat.log2 m : Int) - f.mb) f.minExp
    let mant := if q ≤ e then m * 2 ^ (e - q).toNat else shiftRne m (q - e).toNat
    mant + (q - f.minExp).toNat * 2 ^ f.mb

/-- The pattern of an infinity, without its sign. -/
def FFmt.infMag (f : FFmt) : Nat := (2 ^ f.eb - 1) * 2 ^ f.mb

/-- The canonical quiet NaN of an IEEE format (R110). -/
def FFmt.qnan (f : FFmt) : Nat := f.infMag + 2 ^ (f.mb - 1)

/-- A value rounded to an IEEE format: subnormals kept, overflow to infinity, NaN to the canonical quiet NaN. -/
def FFmt.encode (f : FFmt) (v : FVal) : Nat :=
  match v with
  | .nan => f.qnan
  | .inf neg => f.infMag + neg.toNat * 2 ^ f.top
  | .fin neg m e => min (f.roundMag m e) f.infMag + neg.toNat * 2 ^ f.top

/-- A finite value as a signed integer at exponent `q`, for `q` at most its own. -/
def scaled (neg : Bool) (m : Nat) (e q : Int) : Int := (if neg then -1 else 1) * ((m * 2 ^ (e - q).toNat : Nat) : Int)

/-- The exact sum of two values; a zero sum is −0 only where both are −0. -/
def FVal.add : FVal → FVal → FVal
  | .nan, _ => .nan
  | _, .nan => .nan
  | .inf a, .inf b => if a = b then .inf a else .nan
  | .inf a, .fin _ _ _ => .inf a
  | .fin _ _ _, .inf b => .inf b
  | .fin na ma ea, .fin nb mb eb =>
    let q := min ea eb
    let t := scaled na ma ea q + scaled nb mb eb q
    if t = 0 then .fin (decide (ma = 0 ∧ mb = 0) && na && nb) 0 q else .fin (decide (t < 0)) t.natAbs q

/-- IEEE 754 addition in a format (R110). -/
def FFmt.add (f : FFmt) (a b : Nat) : Nat := f.encode ((f.decode a).add (f.decode b))

/-- A shingle's elements of `w` bits. -/
def elements (w : Nat) (s : BitVec 256) : List Nat := (List.range (256 / w)).map fun i => fld s (w * i) w

/-- Elements of `w` bits put into a shingle. -/
def ofElements (w : Nat) (l : List Nat) : BitVec 256 :=
  BitVec.ofNat 256 (l.zipIdx.foldl (fun acc p => acc + p.1 % 2 ^ w * 2 ^ (w * p.2)) 0)

/-- Element-wise arrival-mode add of two shingles (R109, R110): FMT 0 FP32, 1 BF16. -/
def faddShingle (bf16 : Bool) (a b : BitVec 256) : BitVec 256 :=
  let f := if bf16 then fmtBf16 else fmtFp32
  let w := if bf16 then 16 else 32
  ofElements w (List.zipWith f.add (elements w a) (elements w b))

/-! ### Integer atomics (R108) -/

/-- The number as two's complement of a width. -/
def toSigned (w v : Nat) : Int := if 2 ^ (w - 1) ≤ v then (v : Int) - 2 ^ w else v

/-- Whether `a` is less than `b`, as SIGNED selects. -/
def atomLess (w : Nat) (signed : Bool) (a b : Nat) : Bool :=
  if signed then decide (toSigned w a < toSigned w b) else decide (a < b)

/-- The new target value of R108 for OP, on numbers of width `w`. -/
def atomicNew (op w : Nat) (signed : Bool) (old operand cmp : Nat) : Nat :=
  match op with
  | 0 => (old + operand) % 2 ^ w
  | 1 => if atomLess w signed operand old then operand else old
  | 2 => if atomLess w signed old operand then operand else old
  | 3 => old &&& operand
  | 4 => old ||| operand
  | 5 => old ^^^ operand
  | 6 => operand
  | _ => if old = cmp then operand else old

/-! ### Ledger accumulators (R190 to R193) -/

/-- An accumulator: V and the three flags. -/
structure Accum where
  v : Int
  pinf : Bool
  ninf : Bool
  nan : Bool
deriving DecidableEq, Repr

/-- The 384 bits of an accumulator. -/
def Accum.pack (a : Accum) : Nat :=
  (a.v % 2 ^ 376).toNat + a.pinf.toNat * 2 ^ 376 + a.ninf.toNat * 2 ^ 377 + a.nan.toNat * 2 ^ 378

/-- The accumulator in 384 bits. -/
def Accum.unpack (w : Nat) : Accum :=
  { v := toSigned 376 (w % 2 ^ 376), pinf := decide (w / 2 ^ 376 % 2 = 1), ninf := decide (w / 2 ^ 377 % 2 = 1),
    nan := decide (w / 2 ^ 378 % 2 = 1) }

/-- An accumulator set to a stored FP32 value (R193). -/
def Accum.ofFp32 (w : Nat) : Accum :=
  match fmtFp32.decode w with
  | .nan => { v := 0, pinf := false, ninf := false, nan := true }
  | .inf neg => { v := 0, pinf := !neg, ninf := neg, nan := false }
  | .fin neg m e => { v := scaled neg m e (-149), pinf := false, ninf := false, nan := false }

/-- An operand added (R192). A sum outside the range of V sets NAN; what V then holds is free (log entry 5). -/
def Accum.add (free : Nat) (a : Accum) (w : Nat) : Accum :=
  match fmtFp32.decode w with
  | .nan => { a with nan := true }
  | .inf neg => if neg then { a with ninf := true } else { a with pinf := true }
  | .fin neg m e =>
    let t := a.v + scaled neg m e (-149)
    if -(2 ^ 375 : Int) ≤ t ∧ t < 2 ^ 375 then { a with v := t }
    else { a with v := toSigned 376 (free % 2 ^ 376), nan := true }

/-- The FP32 value that a read returns (R193). -/
def Accum.read (a : Accum) : Nat :=
  if a.nan ∨ (a.pinf ∧ a.ninf) then 0x7FC00000
  else if a.pinf then 0x7F800000
  else if a.ninf then 0xFF800000
  else fmtFp32.encode (.fin (decide (a.v < 0)) a.v.natAbs (-149))

/-! ### Widening (R113, R195) -/

/-- An FP8 byte as BF16: E5M2 or E4M3. The sign of a NaN is kept. -/
def widenByte (e5m2 : Bool) (b : Nat) : Nat :=
  let f := if e5m2 then fmtE5M2 else fmtE4M3
  match f.decode b with
  | .nan => 0x7FC0 + b / 128 % 2 * 0x8000
  | v => fmtBf16.encode v

/-- Source bytes widened, each result shingle of 16 elements. -/
def widenBytes (e5m2 : Bool) (bytes : List Byte) : List (BitVec 256) :=
  (List.range ((bytes.length + 15) / 16)).map fun k =>
    ofElements 16 (((bytes.drop (16 * k)).take 16).map fun b => widenByte e5m2 b.toNat)

end Sys2Proof.Machine
end

