-- ==== Sys2Proof/Machine/Crypto.lean ====
section
/-! DEFINITION. The algorithms that the spec names: AES-256 and its GCM (R61), key wrap (RFC 3394) and SHA-384
(R202, R263, R314) and AES-256-XTS (R197). Byte strings are lists, the first byte first. -/

namespace Sys2Proof.Machine

open Sys2Proof

/-! ### AES-256 -/

/-- Doubling in AES's field, polynomial 0x11B. -/
def aesDouble (a : Byte) : Byte := (a <<< 1) ^^^ (if bitAt a 7 then 0x1B else 0)

def aesMulBits (a b : Byte) : Nat → Byte → Byte
  | 0, acc => acc
  | n + 1, acc => aesMulBits a b n (aesDouble acc ^^^ (if bitAt b n then a else 0))

def aesMul (a b : Byte) : Byte := aesMulBits a b 8 0

def aesPow (a : Byte) : Nat → Byte
  | 0 => 1
  | n + 1 => aesMul a (aesPow a n)

/-- The substitution: inverse, then the affine map. -/
def aesSub (a : Byte) : Byte :=
  let b := aesPow a 254
  b ^^^ b.rotateLeft 1 ^^^ b.rotateLeft 2 ^^^ b.rotateLeft 3 ^^^ b.rotateLeft 4 ^^^ 0x63

/-- The inverse substitution: the inverse affine map, then the inverse. -/
def aesInvSub (a : Byte) : Byte := aesPow (a.rotateLeft 1 ^^^ a.rotateLeft 3 ^^^ a.rotateLeft 6 ^^^ 0x05) 254

def xorBytes (a b : List Byte) : List Byte := List.zipWith (· ^^^ ·) a b

/-- The next key word from the previous one (index i) and the one eight before. -/
def aesNextWord (i : Nat) (prev old : List Byte) : List Byte :=
  let t :=
    if i % 8 = 0 then xorBytes ((prev.drop 1 ++ prev.take 1).map aesSub) [aesPow 2 (i / 8 - 1), 0, 0, 0]
    else if i % 8 = 4 then prev.map aesSub
    else prev
  xorBytes old t

/-- The key words from index 8 on, latest first. -/
def aesExpand : Nat → Nat → List (List Byte) → List (List Byte)
  | 0, _, ws => ws
  | n + 1, i, ws => aesExpand n (i + 1) (aesNextWord i (ws.headD []) (ws.getD 7 []) :: ws)

/-- The fifteen round keys of a 32-byte key. -/
def aesKeys (key : List Byte) : List (List Byte) :=
  let w := (aesExpand 52 8 (((List.range 8).map fun i => (key.drop (4 * i)).take 4).reverse)).reverse
  (List.range 15).map fun r => ((w.drop (4 * r)).take 4).flatten

/-- Rows shifted: byte r + 4c takes the byte of column c + r. -/
def aesShiftRows (s : List Byte) : List Byte := (List.range 16).map fun i => s.getD ((i + 4 * (i % 4)) % 16) 0

def aesInvShiftRows (s : List Byte) : List Byte := (List.range 16).map fun i => s.getD ((i + 12 * (i % 4)) % 16) 0

/-- Each column times the circulant of the four coefficients. -/
def aesMix (c0 c1 c2 c3 : Byte) (s : List Byte) : List Byte :=
  (List.range 16).map fun i =>
    let col := i / 4 * 4
    let g := fun k => s.getD (col + (i + k) % 4) 0
    aesMul c0 (g 0) ^^^ aesMul c1 (g 1) ^^^ aesMul c2 (g 2) ^^^ aesMul c3 (g 3)

/-- AES-256 on a 16-byte block. -/
def aesBlock (keys : List (List Byte)) (b : List Byte) : List Byte :=
  let mid := ((keys.drop 1).take 13).foldl
    (fun s k => xorBytes (aesMix 2 3 1 1 (aesShiftRows (s.map aesSub))) k) (xorBytes b (keys.headD []))
  xorBytes (aesShiftRows (mid.map aesSub)) (keys.getD 14 [])

/-- The inverse of AES-256 on a 16-byte block. -/
def aesUnblock (keys : List (List Byte)) (b : List Byte) : List Byte :=
  let s0 := (aesInvShiftRows (xorBytes b (keys.getD 14 []))).map aesInvSub
  let mid := (((keys.drop 1).take 13).reverse).foldl
    (fun s k => (aesInvShiftRows (aesMix 14 11 13 9 (xorBytes s k))).map aesInvSub) s0
  xorBytes mid (keys.headD [])

/-- The bytes of a 256-bit key: byte 0 is bits [7:0] (log entry 14). -/
def keyBytes (k : BitVec 256) : List Byte := bytesOf k 32

/-! ### XTS (R197) -/

/-- A tweak's multiplication by the primitive element of GF(2^128), the tweak a little-endian number. -/
def xtsDouble (t : BitVec 128) : BitVec 128 := (t <<< 1) ^^^ (if bitAt t 127 then 0x87 else 0)

/-- A block run through the cipher between two additions of its tweak. -/
def xtsBlock (f : List Byte → List Byte) (t : BitVec 128) (b : List Byte) : List Byte := xorBytes (f (xorBytes b (bytesOf t 16))) (bytesOf t 16)

/-- The encrypted number of a data unit, of which each block's tweak is a multiple; Key2 is the high half of the pair (log entry 91). -/
def xtsStart (pair : BitVec 512) (unit : Nat) : BitVec 128 :=
  BitVec.ofNat 128 (natOfBytes (aesBlock (aesKeys (bytesOf (pair >>> 256) 32)) (bytesOf (BitVec.ofNat 128 unit) 16)))

/-- Key1 of a pair. -/
def xtsKey (pair : BitVec 512) : List (List Byte) := aesKeys (bytesOf pair 32)

/-- A data unit of 36 bytes encrypted: one whole block, and the last block and a quarter with ciphertext stealing. -/
def xtsEncrypt (pair : BitVec 512) (unit : Nat) (l : List Byte) : List Byte :=
  let t := xtsStart pair unit
  let f := xtsBlock (aesBlock (xtsKey pair))
  let cc := f (xtsDouble t) ((l.drop 16).take 16)
  f t (l.take 16) ++ f (xtsDouble (xtsDouble t)) (l.drop 32 ++ cc.drop 4) ++ cc.take 4

/-- A data unit of 36 bytes decrypted. -/
def xtsDecrypt (pair : BitVec 512) (unit : Nat) (l : List Byte) : List Byte :=
  let t := xtsStart pair unit
  let f := xtsBlock (aesUnblock (xtsKey pair))
  let pp := f (xtsDouble (xtsDouble t)) ((l.drop 16).take 16)
  f t (l.take 16) ++ f (xtsDouble t) (l.drop 32 ++ pp.drop 4) ++ pp.take 4

/-! ### GCM -/

/-- A number as `k` bytes, most significant first. -/
def bigEndian (k n : Nat) : List Byte := (List.range k).map fun i => BitVec.ofNat 8 (n / 256 ^ (k - 1 - i))

def natOfBig (l : List Byte) : Nat := l.foldl (fun a b => a * 256 + b.toNat) 0

/-- Multiplication in GCM's field: bit 127 of the vector is the coefficient of x^0. -/
def ghashMulBits (x : BitVec 128) : Nat → BitVec 128 → BitVec 128 → BitVec 128
  | 0, _, z => z
  | n + 1, v, z =>
    ghashMulBits x n ((v >>> 1) ^^^ (if bitAt v 0 then (0xE1 : BitVec 128) <<< 120 else 0)) (if bitAt x n then z ^^^ v else z)

def ghashMul (x y : BitVec 128) : BitVec 128 := ghashMulBits x 128 y 0

/-- The 16-byte blocks of a byte string, the last padded with zeros. -/
def blocks16 : Nat → List Byte → List (List Byte)
  | 0, _ => []
  | n + 1, l => if l.isEmpty then [] else (l ++ List.replicate 15 0).take 16 :: blocks16 n (l.drop 16)

def ghash (h : BitVec 128) (bs : List (List Byte)) : BitVec 128 :=
  bs.foldl (fun y b => ghashMul (y ^^^ BitVec.ofNat 128 (natOfBig b)) h) 0

/-- Counter mode from counter value 2 on a 12-byte nonce. -/
def gcmCtr (keys : List (List Byte)) (nonce l : List Byte) : List Byte :=
  (((blocks16 (l.length / 16 + 1) l).zipIdx.map fun p => xorBytes p.1 (aesBlock keys (nonce ++ bigEndian 4 (p.2 + 2)))).flatten).take
    l.length

/-- The GCM tag of associated data and ciphertext. -/
def gcmTag (keys : List (List Byte)) (nonce aad c : List Byte) : List Byte :=
  let h := BitVec.ofNat 128 (natOfBig (aesBlock keys (List.replicate 16 0)))
  let y := ghash h (blocks16 (aad.length / 16 + 1) aad ++ blocks16 (c.length / 16 + 1) c
    ++ [bigEndian 8 (8 * aad.length) ++ bigEndian 8 (8 * c.length)])
  xorBytes (bigEndian 16 y.toNat) (aesBlock keys (nonce ++ bigEndian 4 1))

/-! ### Key wrap, RFC 3394 -/

/-- One step of wrapping: register i of the list and the running A. -/
def wrapStep (keys : List (List Byte)) (a : List Byte) (r : List Byte) (t : Nat) : List Byte × List Byte :=
  let b := aesBlock keys (a ++ r)
  (xorBytes (b.take 8) (bigEndian 8 t), b.drop 8)

def unwrapStep (keys : List (List Byte)) (a : List Byte) (r : List Byte) (t : Nat) : List Byte × List Byte :=
  let b := aesUnblock keys (xorBytes a (bigEndian 8 t) ++ r)
  (b.take 8, b.drop 8)

def wrapIv : List Byte := List.replicate 8 0xA6

/-- A 32-byte key wrapped under a 32-byte key: 40 bytes. -/
def keyWrap (kek key : List Byte) : List Byte :=
  let ks := aesKeys kek
  match (List.range 24).foldl (fun (p : List Byte × List (List Byte)) t =>
      match wrapStep ks p.1 (p.2.getD (t % 4) []) (t + 1) with
      | (a, r) => (a, p.2.set (t % 4) r)) (wrapIv, (List.range 4).map fun i => (key.drop (8 * i)).take 8) with
  | (a, rs) => a ++ rs.flatten

/-- The 40 bytes unwrapped; `none` where the check fails. -/
def keyUnwrap (kek w : List Byte) : Option (List Byte) :=
  let ks := aesKeys kek
  match (List.range 24).foldl (fun (p : List Byte × List (List Byte)) u =>
      let t := 23 - u
      match unwrapStep ks p.1 (p.2.getD (t % 4) []) (t + 1) with
      | (a, r) => (a, p.2.set (t % 4) r)) (w.take 8, (List.range 4).map fun i => (w.drop (8 + 8 * i)).take 8) with
  | (a, rs) => if a = wrapIv then some rs.flatten else none

/-! ### SHA-384 -/

/-- Whether a number has no divisor from 2 up to `n`. -/
def noDivisor (p : Nat) : Nat → Bool
  | 0 | 1 => true
  | n + 2 => decide (p % (n + 2) ≠ 0) && noDivisor p (n + 1)

/-- The first eighty primes. -/
def primes80 : List Nat := (List.range 410).filter fun p => decide (2 ≤ p) && noDivisor p (p - 1)

/-- The largest `r` below 2^`bits`, with the bits of `acc` above, whose `e`-th power is at most `x`. -/
def rootBits (e x : Nat) : Nat → Nat → Nat
  | 0, acc => acc
  | n + 1, acc => rootBits e x n (if (acc + 2 ^ n) ^ e ≤ x then acc + 2 ^ n else acc)

/-- The first 64 bits of the fraction of the `e`-th root of `p`: what SHA-384 takes its constants from. -/
def rootFraction (e p : Nat) : W64 := BitVec.ofNat 64 (rootBits e (p * 2 ^ (64 * e)) 70 0)

/-- The constant of each round: from the cube roots of the first eighty primes. -/
def shaK : List W64 := primes80.map (rootFraction 3)

/-- The initial digest: from the square roots of the ninth to the sixteenth prime. -/
def shaInit : List W64 := ((primes80.drop 8).take 8).map (rootFraction 2)

/-- A word turned right by each of several distances, the results added bit by bit. -/
def turns (x : W64) (l : List Nat) : W64 := (l.map x.rotateRight).foldl (· ^^^ ·) 0

/-- The next schedule word from the sixteen before it, latest first. -/
def shaNext (w : List W64) : W64 :=
  let near := w.getD 1 0
  let far := w.getD 14 0
  w.getD 15 0 + w.getD 6 0 + (turns far [1, 8] ^^^ (far >>> 7)) + (turns near [19, 61] ^^^ (near >>> 6))

def shaSchedule : Nat → List W64 → List W64
  | 0, w => w
  | n + 1, w => shaSchedule n (shaNext w :: w)

/-- Of each bit the value in `y` where `x` has a 1, else that in `z`. -/
def bitChoice (x y z : W64) : W64 := z ^^^ (x &&& (y ^^^ z))

/-- The value that at least two of three words have in each bit. -/
def bitMost (x y z : W64) : W64 := (x &&& (y ||| z)) ||| (y &&& z)

/-- One round on the eight working words; `k` is the schedule word and the round's constant added. -/
def shaRound (v : List W64) (k : W64) : List W64 :=
  match v with
  | [p0, p1, p2, p3, q0, q1, q2, q3] =>
    let mix := q3 + k + turns q0 [14, 18, 41] + bitChoice q0 q1 q2
    [mix + turns p0 [28, 34, 39] + bitMost p0 p1 p2, p0, p1, p2, p3 + mix, q0, q1, q2]
  | _ => v

def shaChunk (h : List W64) (l : List Byte) : List W64 :=
  let w := (shaSchedule 64 (((List.range 16).map fun i => BitVec.ofNat 64 (natOfBig ((l.drop (8 * i)).take 8))).reverse)).reverse
  List.zipWith (· + ·) h ((List.zipWith (· + ·) shaK w).foldl shaRound h)

def shaChunks : Nat → List W64 → List Byte → List W64
  | 0, h, _ => h
  | n + 1, h, l => if l.isEmpty then h else shaChunks n (shaChunk h (l.take 128)) (l.drop 128)

/-- SHA-384: 48 bytes. -/
def sha384 (l : List Byte) : List Byte :=
  let pad := l ++ 0x80 :: List.replicate ((239 - l.length % 128) % 128) 0 ++ bigEndian 16 (8 * l.length)
  (((shaChunks (pad.length / 128 + 1) shaInit pad).take 6).map fun w => bigEndian 8 w.toNat).flatten

/-- SHA-384 as a number: byte 0 of the digest in bits [7:0] (log entry 14). -/
def digestOf (l : List Byte) : BitVec 384 := BitVec.ofNat 384 (natOfBytes (sha384 l))

/-! ### CRC-32C -/

def crcBit (c : W32) : W32 := (c >>> 1) ^^^ (if bitAt c 0 then 0x82F63B78 else 0)

def crcByte (c : W32) (b : Byte) : W32 :=
  crcBit (crcBit (crcBit (crcBit (crcBit (crcBit (crcBit (crcBit (c ^^^ BitVec.zeroExtend 32 b))))))))

/-- CRC-32C of a byte string (R347). -/
def crc32c (l : List Byte) : W32 := ~~~ (l.foldl crcByte 0xFFFFFFFF)

end Sys2Proof.Machine
end

