-- ==== Sys2Proof/Config.lean ====
section
/-! DEFINITION. What an implementation fixes (manufacture, straps, macro build) and what the spec leaves
open. Every constant here is opaque or named in the assumption log: no proof can see a value. -/

namespace Sys2Proof

/-- The stream of free values: value `k` is what the model takes at the `k`-th place where the spec leaves a
number open (log entry 5). The state's counter `fresh` says which one is next. -/
opaque Config.freeNat : Nat → Nat

/-- The 256-bit words that Sarking's random bit generator yields (R267; log entry 5). -/
opaque Config.freeKey : Nat → BitVec 256

/-- The macro build of the Jalem block: rafter ports, less 4, modulo 15 (R129; log entry 4). -/
opaque Config.rafterPortsLess4 : Fin 15

/-- Tray ports built (R131; log entry 4). -/
opaque Config.trayPorts : Fin 3

/-- Whether a tray port faces an absent position (R131; log entry 4). -/
opaque Config.trayAbsent : Fin 2 → Bool

/-- TRAY_POS and SLOT_POS, the straps that give the Jalem block's node number (R130; log entry 4). -/
opaque Config.jebNode : BitVec 7

/-- The transport key that the accelerator's own attested means place in the Jalem block, the `k`-th one (R264, R271; log
entry 23). -/
opaque Config.transportKey : Nat → BitVec 256

/-- Whether the accelerator's memory supports poison marking (R119; log entry 4). -/
opaque Config.poisonMarking : Bool

/-- Values set at manufacture (R317, R319, R358; log entry 4): the module's serial number, Gauge's ROM and
calibration words, its certificate, the vendor's enterprise number. -/
opaque Config.serial : W64
opaque Config.gauId : W32
opaque Config.gauCert : List Byte
opaque Config.sofVendor : W32

/-- The factory data of the flash, by offset (R336; log entry 4). -/
opaque Config.factoryByte : Nat → Byte

/-- What manufacture wrote into the immutable stage, by offset (R335; log entry 4). -/
opaque Config.stageByte : Nat → Byte

/-- SHA-384 of the Sarking mask ROM and of the immutable stage (R263; log entry 4). -/
opaque Config.romDigest : BitVec 384
opaque Config.stageDigest : BitVec 384

/-- The device identity key and the digest of the owner's image key in the one-time-programmable memory (R335, R347; log entry 4). -/
opaque Config.deviceKey : BitVec 384
opaque Config.ownerKey : Option (BitVec 384)

/-- The ECDSA P-384 signature r then s, 96 bytes, by Gauge's key (R314) and by Sarking's alias key (R262): the
nonce of the algorithm makes it a free value of the message (log entry 10). -/
opaque Config.gaugeSign : List Byte → List Byte
opaque Config.aliasSign : BitVec 384 → BitVec 384 → BitVec 384 → List Byte → List Byte

/-- The certificates of slot 0 that manufacture fixes, Krymund's root and the device's, and the alias certificate that Sarking issues at each
start, bound to measurement indices 1 to 3 (R262). -/
opaque Config.rootCert : List Byte
opaque Config.deviceCert : List Byte
opaque Config.aliasCert : BitVec 384 → BitVec 384 → BitVec 384 → List Byte

/-- What stands in the device certificate's place once a programmer has written these bytes of the factory data (R367; log entry 124). -/
opaque Config.writtenCert : List (Nat × Option Byte) → List Byte

/-- The engine by which the bay's fabric manager issues its control requests (R344; log entry 129). -/
opaque Config.managerEngine : Byte

/-- Requests that an eave group takes in one beat; half of them bound course 0 (R187; log entry 11). -/
opaque Config.groupSlots : Nat

/-- Entries of the bundle table (R95; log entry 16). -/
opaque Config.bundleEntries : Nat

/-- Which of the slots still left the next guaranteed one is (R246). The spec does not number the 64 guaranteed slots (log
entry 25). -/
opaque Config.slotChoice : Nat → Nat

/-- The bits of the poisoned elements of a chunk, by input format, output format, input shingles and output shingle (R222, R252). The spec gives
none (log entry 96). -/
opaque Config.poisonBits : Nat → Nat → List (Option (BitVec 256 × Bool)) → Nat → BitVec 256

/-- By how much Gauge's hold-up is longer than 2 s, in 0.2 ns (R308; log entry 98). -/
opaque Config.holdUpMore : Nat

/-- The idle power, in W, to which an orderly shutdown lowers the ceiling (R330; log entry 12). -/
opaque Config.idlePower : Nat

/-- The plaintext of a 32 B weight ciphertext under a weight key and a tweak (R275). The spec names AES-256-XTS and one
256-bit key, and not how the key makes the pair that the mode needs (log entry 18). -/
opaque Config.weightPlain : BitVec 256 → BitVec 128 → BitVec 256 → BitVec 256

end Sys2Proof
end

