-- ==== Sys2Proof/Machine/State.lean ====
section
/-! DEFINITION. The state of the module, its Gauge island and the Jalem block, as plain data, and the state
right after reset. A register that software reads or writes whole stands as its word under the manual's
name; a status bit that the machine itself drives stands as a `Bool` or an enumeration and is packed when
read (`Machine/RegMap.lean`). Arrays are tables that list only the entries that differ from reset. -/

namespace Sys2Proof.Machine

/-! ### Links (R37 to R68) -/

/-- Training states (R46). -/
inductive PState where
  | disabled | detect | equalise | lock | identify | negotiate | credit | active | retrain | down | held
deriving DecidableEq, Repr, Inhabited

/-- Training of a port (R44 to R50). `width` as PRT_STATUS.WIDTH, `tryWidth` the width under trial (R47),
`limit` the image's width limit, `eqFails` the EQUALISE failures in a row, `partner` the stored identity,
`bayDown` that it went DOWN within an admitted bay, `asDown` that it is HELD after RETRAIN and counts as DOWN (R45), `destroyDue` that KEY
DESTROY is its first frame (R278, R280), `narrowOff` that a NEGOTIATE with this partner left NARROW off (R51), `sealFault` that a second tag
failure is to fence it (R61). -/
structure Train where
  state : PState
  width : BitVec 2
  tryWidth : BitVec 2
  limit : BitVec 2
  rev : BitVec 2
  role : Role
  features : Byte
  fail : BitVec 4
  eqFails : Nat
  partner : Option Identity
  bayDown : Bool
  asDown : Bool
  destroyDue : Bool
  narrowOff : Bool
  sealFault : Bool
deriving DecidableEq, Repr

/-- PRT_CTRL's fields, PRT_QUANTUM, and the grants that the image gives (R63, R68). -/
structure LinkCfg where
  featMask : Byte
  latCap : Byte
  quantum : W64
  grants : List Nat
deriving DecidableEq, Repr

/-- The error registers of a port (R68). -/
structure LinkErr where
  fecCorr : BitVec 48
  lathErr : W32
  retry : W32
  flashErr : BitVec 24
deriving DecidableEq, Repr

/-- Credits of a port, per virtual channel (R63): slots granted to the partner, slots the partner granted,
slots sent and slots freed so far (modulo 65,536), the partner's last count, the counts last reported, and
freed slots that the governor holds back (R324). -/
structure Credit where
  granted : List Nat
  txGrant : List Nat
  txSent : List W16
  txFreed : List W16
  rxFreed : List W16
  told : List W16
  paced : Bool
deriving DecidableEq, Repr

/-- A lath in the replay buffer: SEQ, key slot, the sixteen slots as sent, and how often it was resent (R43); for one that a receiver keeps,
the rack time at which it came. -/
structure KeptLath where
  seq : BitVec 12
  keyId : BitVec 2
  slots : List Shingle
  tries : Nat
  came : Nat := 0
deriving DecidableEq, Repr

/-- Lath transmitter, lath receiver and link retry (R38 to R43). `resume`: a retrain has ended, and the partner's first data
lath says from where to resend (R44). `reqAt` and `rspAt` are the rack times, in 0.2 ns, at which the laths that carried the last STAMP_REQ
and STAMP_RSP came (R67). -/
structure Retry where
  txSeq : BitVec 12
  txSlots : List Shingle
  replay : List KeptLath
  rxLast : BitVec 12
  rxKept : List KeptLath
  rxSlots : List Shingle
  rx : List RawFrame
  discarding : Bool
  nakBeat : Nat
  nakCount : Nat
  resume : Bool
  reqAt : Nat
  rspAt : Nat
deriving DecidableEq, Repr

/-- An ACTIVATE, or the acknowledgement of one, that waits to be sent: its slot, and the frame by its SRC_ENGINE and TAG. The group that it
announces is chosen as it goes (R272). -/
structure KeyDue where
  slot : BitVec 2
  ack : Bool
  engine : Byte
  tag : W16
deriving DecidableEq, Repr

/-- Link sealing of a port (R61, R270, R272). `txOn` and `rxOn`: the first key is active; `due` what waits to announce a change, `txNext` the
slot and group of a coming one; `anew`: the link has started again, and its partner may have lost its keys (R271; log entry 94); `rxFirst` the group
from which the partner seals, `rxNext` the group it has announced for a later key, `rxSlot` the slot that it announced last; `txLaths` the laths of the group that have gone; `rxGroup` the laths of the group being received and `rxAt` when each came; `failed` the group that failed once; `retiring` a slot to be
destroyed once no lath of it is kept, and `gone` the slots destroyed at a module's port (R273). -/
structure SealSt where
  txOn : Bool
  rxOn : Bool
  active : BitVec 2
  txGroup : W64
  due : List KeyDue
  txNext : Option (BitVec 2 × W64)
  anew : Bool
  txLaths : List (W32 × List Shingle)
  rxCount : W64
  rxFirst : Option W64
  rxNext : Option W64
  rxSlot : BitVec 2
  rxGroup : List (W32 × List Shingle)
  rxAt : List Nat
  failed : Option W64
  retiring : Option (BitVec 2)
  gone : BitVec 4
deriving DecidableEq, Repr

/-- A link-local frame that waits for slot 0 of a lath: a STAMP_REQ, or a STAMP_RSP with its t2 and the t1 it echoes (R67). The times t1 and
t3 are those of the lath that takes it. -/
inductive Stamping where
  | req
  | rsp (t2 t1 : W64)
deriving DecidableEq, Repr

/-- The arbiter of a port (R65, R66). Tokens are counted in 1/400 of a slot; `waited` counts the laths for
which a request of course c has been eligible without being picked; `roundQ` is PRT_QUANTUM as the round in progress took
it (R68: changes take effect at the next round). -/
structure Arb where
  tok4 : Nat
  tok0 : Nat
  roundQ : W64
  deficit : List Nat
  turn : Nat
  earned : Bool
  waited : List Nat
  sinceLocal : Nat
  linkLocal : List Stamping
deriving DecidableEq, Repr

/-- Neighbour offset of a hip port (R33, R34, R67): open t1, the last 16 offsets in 1/16 ns doubled, pairs
collected, reports above 200 ns in a row, and the fields of TIM_OFS_k. -/
structure Stamp where
  openT1 : Option W64
  last16 : List Int
  overRun : Nat
  offset : BitVec 20
  valid : Bool
  warn : Bool
  fault : Bool
deriving DecidableEq, Repr

/-- An entry of the pending log of a rafter port (R125): the request's identity, and what its completion needs. -/
structure Pend where
  hdr : Header
deriving DecidableEq, Repr

/-- The Spar engine of a port (R356, R357, R359): its registers, the stream's next frame number and the state of its PRBS31, the
same as the checker expects them of each stream, the send times of echoes awaited and the times at which echoes came. -/
structure Spar where
  ctl : W32
  gen : W64
  genCount : W64
  chk : W64
  lat : W64
  lanes : Tab W32
  txNum : W64
  txPrbs : BitVec 31
  rx : Tab (Option (W32 × BitVec 31))
  sentAt : List (W32 × Nat)
  echoAt : List (W32 × Nat)
deriving DecidableEq, Repr

/-- A port. `laneIdle`: its lanes are held in electrical idle (R23). `txq`: frames that wait in a Jalem block's
own port, oldest first; a module's frames wait in Purlin. -/
structure Port where
  train : Train
  cfg : LinkCfg
  err : LinkErr
  cred : Credit
  retry : Retry
  sealing : SealSt
  arb : Arb
  stamp : Stamp
  pendLog : List Pend
  spar : Spar
  laneIdle : Bool
  txq : List Frame
deriving DecidableEq, Repr

/-- The default grants of R64, virtual channel v = 2 × COURSE + SUB. -/
def defaultGrants : List Nat := [256, 256, 512, 64, 832, 832, 256, 256, 32, 32, 64, 64]

def zeros12 : List W16 := List.replicate 12 0

/-- A port after reset: the Reset columns of R68 and R359. -/
def Port.reset : Port :=
  { train := { state := .disabled, width := 0, tryWidth := 3, limit := 3, rev := 0, role := .unused, features := 0,
               fail := 0, eqFails := 0, partner := none, bayDown := false, asDown := false, destroyDue := false,
               narrowOff := false, sealFault := false }
    cfg := { featMask := 0xFF, latCap := 0x40, quantum := 0x0024048090090024, grants := defaultGrants }
    err := { fecCorr := 0, lathErr := 0, retry := 0, flashErr := 0 }
    cred := { granted := List.replicate 12 0, txGrant := List.replicate 12 0, txSent := zeros12, txFreed := zeros12,
              rxFreed := zeros12, told := zeros12, paced := false }
    retry := { txSeq := 0, txSlots := [], replay := [], rxLast := 0xFFF, rxKept := [], rxSlots := [], rx := [],
               discarding := false, nakBeat := 0, nakCount := 0, resume := false, reqAt := 0, rspAt := 0 }
    sealing := { txOn := false, rxOn := false, active := 0, txGroup := 0, due := [], txNext := none, anew := false, txLaths := [],
                 rxCount := 0, rxFirst := none, rxNext := none, rxSlot := 0, rxGroup := [], rxAt := [], failed := none,
                 retiring := none, gone := 0 }
    arb := { tok4 := 0, tok0 := 0, roundQ := 0x0024048090090024, deficit := [0, 0, 0, 0, 0], turn := 0, earned := false,
             waited := [0, 0, 0, 0, 0, 0], sinceLocal := 16, linkLocal := [] }
    stamp := { openT1 := none, last16 := [], overRun := 0, offset := 0, valid := false, warn := false, fault := false }
    pendLog := []
    spar := { ctl := 0x8, gen := 0x10014540, genCount := 0, chk := 0, lat := 0xFFFFFFFF, lanes := [], txNum := 0,
              txPrbs := 0x7FFFFFFF, rx := [], sentAt := [], echoAt := [] }
    laneIdle := true
    txq := [] }

/-! ### Rack time (R26 to R36) -/

/-- Rack time of one device in units of 0.2 ns, and the bits of TIM_STATUS or JEB_STATUS that speak of it.
`lastMark` is the time of the last mark, and 0 while none has come (log entry 127); `stamped` the module's t3 and
the block's own time at which its STAMP_RSP arrived (R132); `ahead` rack time less the time since the device's start, in 0.2 ns (R338). -/
structure Tim where
  fifths : Nat
  refclkOk : Bool
  sync : Bool
  freeRun : Bool
  slip : Bool
  ofsFault : Bool
  epochNum : BitVec 34
  arm : Bool
  slips : W16
  slipRun : Nat
  lastMark : Nat
  moveNext : Bool
  stamped : Option (Nat × Nat)
  ahead : Int
deriving DecidableEq, Repr

def Tim.reset : Tim :=
  { fifths := 0, refclkOk := false, sync := false, freeRun := false, slip := false, ofsFault := false, epochNum := 0,
    arm := false, slips := 0, slipRun := 0, lastMark := 0, moveNext := false, stamped := none, ahead := 0 }

/-! ### Purlin (R69 to R101) -/

/-- Owner tags (R98). -/
inductive Owner where
  | free
  | inTransit (port : Nat) (beat : Nat)
  | queue (q : Nat) (serial : BitVec 24)
  | quarantined
deriving DecidableEq, Repr

/-- A frame that Purlin holds: its descriptor and cell with their column rotation, the source whose reserve
stands behind it (`src`, R72), where it is charged (R73), its serial (R77), the ingress port, whether it is
cut through (R83), the bundle it carries (R95), its place in the order of all arrivals, and, once a window admitted it, its home address and eave. -/
structure Entry where
  frame : Frame
  desc : Nat
  cell : Option Nat
  rot : BitVec 3
  src : Nat
  shared : Bool
  serial : BitVec 24
  ingress : Option (Fin 144)
  cut : Bool
  bundle : Option Nat
  order : Nat
  ma : Nat
  eave : Nat
  ledger : Bool
deriving DecidableEq, Repr

/-- A queue (R76, R77). -/
structure Queue where
  head : BitVec 24
  tail : BitVec 24
  items : List Entry
deriving DecidableEq, Repr

def Queue.reset : Queue := { head := 0, tail := 0, items := [] }

/-- A bundle: its table index and its constituents in merge order, each with its operand (R95 to R97). -/
structure Bundle where
  index : Nat
  parts : List (Header × BitVec 256)
deriving DecidableEq, Repr

/-- Counters of entries of one kind, cells or descriptors (R98), with the free bitmap and the owner tags. -/
structure Pool where
  tags : Tab Owner
  used : Tab Bool
  free : Nat
  transit : Nat
  quar : Nat
  occ : Tab Nat
  sharedUsed : Nat
  reserved : Nat
  low : Nat
deriving DecidableEq, Repr

def Pool.reset : Pool :=
  { tags := [], used := [], free := 0, transit := 0, quar := 0, occ := [], sharedUsed := 0, reserved := 0, low := 0 }

/-- A write of a shingle that waits in the holding queue of its column unit since a core cycle (R71). -/
structure HeldWrite where
  unit : Nat
  cell : Nat
  shingle : Nat
  since : Nat
deriving DecidableEq, Repr

/-- Purlin; `arrivals` the frames linked so far, `held` the writes in the holding queues, oldest first, `reads` the reads due per
column unit, both as of core cycle `heldAt` (R71), `bytesIn` the bytes of each course admitted since Gauge's last item (R311), `auditRun` the beat at which the audit pass in progress began, `auditArmed` that PUR_AUDIT_FIRST may
be loaded (R101). -/
structure Pur where
  ready : Bool
  cells : Pool
  descs : Pool
  resCells : Tab Nat
  resDescs : Tab Nat
  queues : Tab Queue
  bundles : List Bundle
  lrt : Tab W32
  shadow : Tab W32
  shareCfg : W32
  epochBeat : BitVec 54
  epochArm : Bool
  epochDone : Bool
  epochReject : Bool
  pairSeed : BitVec 6
  bundleCtrl : W32
  bundleCount : W64
  auditRun : Option Nat
  auditLast : BitVec 4
  auditFirst : W64
  auditArmed : Bool
  prevB : List (Bool × Nat)
  prevC : List (Bool × Nat)
  prevD : Bool
  nodeLost : BitVec 128
  bytesIn : List Nat
  held : List HeldWrite
  reads : Tab Nat
  heldAt : Nat
  arrivals : Nat
deriving DecidableEq, Repr

def Pur.reset : Pur :=
  { ready := false, cells := Pool.reset, descs := Pool.reset, resCells := [], resDescs := [], queues := [], bundles := [],
    lrt := [], shadow := [], shareCfg := 0x553334, epochBeat := 0, epochArm := false, epochDone := false,
    epochReject := false, pairSeed := 0, bundleCtrl := 3, bundleCount := 0, auditRun := none, auditLast := 0,
    auditFirst := 0, auditArmed := true, prevB := [], prevC := [], prevD := false, nodeLost := 0, bytesIn := [0, 0, 0, 0, 0, 0],
    held := [], reads := [], heldAt := 0, arrivals := 0 }

/-! ### Eaves (R181 to R208) -/

/-- An eave and its controller: the registers of R208 and its home queue (R187, R189). -/
structure Eave where
  ready : Bool
  selfRefresh : Bool
  scrubRun : Bool
  zeroizing : Bool
  err : W64
  errFirst : W64
  scrubPos : W32
  scrubShingle : Nat
  linePeak : W32
  homeQ : List Entry
  retraining : Bool
  failed : Bool
  lastDone : Nat
deriving DecidableEq, Repr

def Eave.reset : Eave :=
  { ready := false, selfRefresh := false, scrubRun := false, zeroizing := false, err := 0, errFirst := 0, scrubPos := 0,
    scrubShingle := 0, linePeak := 0, homeQ := [], retraining := false, failed := false, lastDone := 0 }

/-- An open batten list (R116, R117): the BATTEN's header, the shingles received, the beat of its acceptance, and by which port and when among
all arrivals it came. -/
structure BList where
  hdr : Header
  got : List Shingle
  start : Nat
  port : Option (Fin 144)
  order : Nat
deriving DecidableEq, Repr

/-- An eave group: round robin and slots taken in the current beat (R187), and its batten unit (R196). -/
structure Group where
  turn : Nat
  beat : Nat
  taken : Nat
  lists : List BList
deriving DecidableEq, Repr

def Group.reset : Group := { turn := 1, beat := 0, taken := 0, lists := [] }

/-- A window table entry: EAV_WIN_BASE, LIMIT, SRC, ATTR, LOCAL (R122) or their JEB_WIN counterparts (R149). -/
structure Window where
  base : W64
  limit : W64
  src : W32
  attr : W32
  loc : W64
deriving DecidableEq, Repr

def Window.reset : Window := { base := 0, limit := 0, src := 0, attr := 0, loc := 0 }

/-- States of a durable region (R201). -/
inductive DurState where
  | empty | loading | sealing | sealed | silvering | verifying | lost
deriving DecidableEq, Repr, Inhabited

/-- A durable table entry (R200 to R203, R208). -/
structure Dur where
  base : W64
  limit : W64
  state : DurState
  err : Bool
  mark : BitVec 20
  digest : BitVec 384
  expect : BitVec 384
deriving DecidableEq, Repr

def Dur.reset : Dur := { base := 0, limit := 0, state := .empty, err := false, mark := 0, digest := 0, expect := 0 }

/-- A memory: the bytes stored, by stored shingle 36 at a time, and the shingles that carry the poison marker over bits that are no codeword,
which the marker's syndrome cannot tell (R183; log entry 90). -/
structure Mem where
  cells : List Host.Cell
  marked : Tab Bool
deriving DecidableEq, Repr

/-- A memory that nothing has written. -/
def Mem.empty : Mem := { cells := [], marked := [] }

structure Eav where
  eaves : Tab Eave
  groups : Tab Group
  wins : Tab Window
  durs : Tab Dur
  hashCfg : W32
  scrubCfg : W32
  retained : Bool
  lost : Bool
  cryptOn : Bool
  key : Option (BitVec 512)
  mem : Mem
deriving DecidableEq, Repr

def Eav.reset : Eav :=
  { eaves := [], groups := [], wins := [], durs := [], hashCfg := 0x100, scrubCfg := 0x1A01, retained := false, lost := false,
    cryptOn := false, key := none, mem := Mem.empty }

/-! ### Gable (R209 to R227) -/

inductive SlotState where
  | free | active | stalled | draining | zeroizing
deriving DecidableEq, Repr, Inhabited

/-- A tree node and a chunk at which a slot is stalled (R223). -/
structure Stall where
  chunk : Nat
  lo : Nat
  hi : Nat
deriving DecidableEq, Repr

/-- A Gable slot (R220 to R224). `got` holds the input shingles received, with their poison, under
rank × 16,384 + index, and `doneAt` the rack time at which a rank's chunk became whole, under rank × 1,024 + chunk; `next` the next chunk to hand over; `stalls` the nodes whose second child is late, and `stallAt`
the rack time at which the slot last entered STALLED. -/
structure Slot where
  state : SlotState
  ifmt : BitVec 4
  ofmt : BitVec 4
  leaves : Nat
  eunits : Nat
  next : Nat
  comm : Nat
  bundle : W32
  segment : W16
  got : Tab (Option (BitVec 256 × Bool))
  doneAt : Tab Nat
  stalls : List Stall
  stallAt : Nat
deriving DecidableEq, Repr

def Slot.reset : Slot :=
  { state := .free, ifmt := 0, ofmt := 0, leaves := 0, eunits := 0, next := 0, comm := 0, bundle := 0, segment := 0, got := [],
    doneAt := [], stalls := [], stallAt := 0 }

/-- Gable; `released` the slots to be zeroed, in order of release, and `told` GAB_WORK as Gauge's last item had it. -/
structure Gab where
  ready : Bool
  zeroizing : Bool
  skewCfg : W32
  err : W64
  stallFirst : W64
  refuseFirst : W64
  work : W64
  slots : Tab Slot
  released : List Nat
  told : W64
deriving DecidableEq, Repr

def Gab.reset : Gab :=
  { ready := false, zeroizing := false, skewCfg := 0x40001F40, err := 0, stallFirst := 0, refuseFirst := 0, work := 0,
    slots := [], released := [], told := 0 }

/-! ### The truss sequencer (R228 to R253) -/

/-- A directory entry's fields (R241, R253). -/
structure ProgDir where
  valid : Bool
  first : BitVec 13
  length : BitVec 10
  rev : BitVec 4
  refused : Bool
  code : BitVec 3
deriving DecidableEq, Repr

def ProgDir.reset : ProgDir := { valid := false, first := 0, length := 0, rev := 0, refused := false, code := 0 }

/-- A communicator entry (R231, R253). `ctl` is TRS_COMM_CTL; `doneSeq` the SEQ of its last instance to end (R246). -/
structure Comm where
  ctl : W64
  mem0 : W64
  mem1 : W64
  block : W32
  land : W64
  scratch : W64
  stride : W64
  lastSeq : BitVec 20
  outstanding : BitVec 4
  doneSeq : BitVec 20
deriving DecidableEq, Repr

def Comm.reset : Comm :=
  { ctl := 0x10000100, mem0 := 0, mem1 := 0, block := 0, land := 0, scratch := 0, stride := 0, lastSeq := 0xFFFFF,
    outstanding := 0, doneSeq := 0xFFFFF }

/-- An instance (R233, R243): its bundle identifier, communicator, K and lengths, the next run to start and the runs ended. -/
structure Instance where
  bundle : W32
  comm : Nat
  k : Nat
  eunits : Nat
  lastEunits : Nat
  nextRun : Nat
  ended : Nat
deriving DecidableEq, Repr

/-- An open SEND of a run (R240): its stage, RELAY or FORWARD, and the bytes still to come. -/
structure SendOpen where
  stage : Nat
  relay : Bool
  left : Nat
deriving DecidableEq, Repr

/-- A REDUCE in force for a stage of a run: DEST and the counter (R240). -/
structure Dest where
  stage : Nat
  dest : Nat
  counter : BitVec 12
deriving DecidableEq, Repr

/-- A chunk that Gable handed over before its segment's REDUCE took effect (R240): its first element in the part, its shingles. -/
structure Handed where
  stage : Nat
  off : Nat
  data : List (Shingle × Bool)
  last : Bool
deriving DecidableEq, Repr

/-- A run context (R243): the run k of an instance, its next instruction and the rack time at which it reached it, the stage
that each handle names, the stage for which it waits for a slot, the stages admitted and released, SENDs open and closed. -/
structure Run where
  ctx : Nat
  bundle : W32
  comm : Nat
  k : Nat
  pc : Nat
  since : Nat
  handles : List (Option Nat)
  waitSlot : Option Nat
  admitted : List Nat
  released : List Nat
  sends : List SendOpen
  closed : List (Nat × Bool)
  dests : List Dest
  handed : List Handed
deriving DecidableEq, Repr

/-- The truss sequencer. `readied` the segments whose READY has arrived, `relays` the RELAY frames that wait for their SEND. -/
structure Trs where
  ready : Bool
  lock : Bool
  prog : Tab W64
  dirs : Tab ProgDir
  meas : Tab (BitVec 384)
  comms : Tab Comm
  insts : List Instance
  runs : List Run
  readied : List (W32 × W16)
  relays : List Frame
  err : W64
  errFirst : W64
deriving DecidableEq, Repr

def Trs.reset : Trs :=
  { ready := false, lock := false, prog := [], dirs := [], meas := [], comms := [], insts := [], runs := [], readied := [],
    relays := [], err := 0, errFirst := 0 }

/-! ### Bays, keys, attestation (R254 to R284) -/

inductive BayState where
  | free | zeroizing | checking | forming | measured | running | teardown | held
deriving DecidableEq, Repr, Inhabited

/-- A link key and its generation (R265). -/
structure LinkKey where
  key : BitVec 256
  gen : W32
deriving DecidableEq, Repr

/-- A KEY frame whose ACK Sarking awaits: the port and the frame's ACTION and tag (R267, R273). -/
structure KeyWait where
  port : Fin 144
  action : BitVec 4
  tag : W16
deriving DecidableEq, Repr

/-- An installation or rotation in progress (R267, R273). -/
structure Install where
  rotation : Bool
  slot : BitVec 2
  requester : Nat
  newEaveKey : Bool
  oldSlot : BitVec 2
  waits : List KeyWait
  retiring : Bool
deriving DecidableEq, Repr

/-- Sarking. `askedShape` and `askedTag` are the shape and the tag that the ADMIT in progress took (R257, R259); `sessions` the open sessions, each
with its requester's public key and version (R262, R266). -/
structure Sec where
  state : BayState
  busy : Bool
  err : BitVec 4
  admitShape : BitVec 18
  admitTag : W16
  askedShape : BitVec 18
  askedTag : W16
  linkKeys : Tab (Option LinkKey)
  active : BitVec 2
  retiring : List (BitVec 2)
  keyErr : BitVec 4
  keyErrPort : Byte
  sessions : List (Nat × Byte)
  requester : Option Nat
  installed : Bool
  install : Option Install
  releaseDue : Bool
  lastGen : Option W32
  transport : Tab (Option (BitVec 256))
  weights : Tab W64
  weightKeys : Tab (Option (BitVec 256))
  pending : Bool
  cold : Bool
  done : Bool
  zeroTime : W64
  tag : W16
  rack : Byte
  shape : BitVec 18
  resumeTo : BayState
  meas3 : BitVec 384
  meas4 : BitVec 384
  meas5 : BitVec 384
  index39 : BitVec 384
  destroyWait : List (Fin 144 × W16)
  keyTag : W16
  lifted : List (Fin 144)
deriving DecidableEq, Repr

def Sec.reset : Sec :=
  { state := .free, busy := false, err := 0, admitShape := 0, admitTag := 0, askedShape := 0, askedTag := 0, linkKeys := [], active := 0, retiring := [], keyErr := 0,
    keyErrPort := 0, sessions := [], requester := none, installed := false, install := none, releaseDue := false,
    lastGen := none, transport := [], weights := [], weightKeys := [], pending := false, cold := false, done := false,
    zeroTime := 0, tag := 0, rack := 0, shape := 0, resumeTo := .forming, meas3 := 0, meas4 := 0, meas5 := 0, index39 := 0,
    destroyWait := [], keyTag := 0, lifted := [] }

/-! ### Gutter (R285 to R307) -/

inductive Phase where
  | none | stopping | draining | quiescent | resuming | held
deriving DecidableEq, Repr, Inhabited

/-- A Gutter source (R285, R286): GUT_SRC_CFG, TOTAL, IN_WINDOW, SEVERE and the opening beat of its window. -/
structure Src where
  cfg : W32
  total : W32
  inWin : W16
  severe : Bool
  openAt : Option Nat
deriving DecidableEq, Repr

/-- A captured event: address (first record only), the INFO word of R307 and its time (R289, R290). -/
structure Capture where
  addr : W64
  info : W64
  ns : W64
deriving DecidableEq, Repr

def Capture.reset : Capture := { addr := 0, info := 0, ns := 0 }

/-- Objects that a fatal fault fences (R287). -/
inductive FaultObj where
  | nothing
  | port (n : Fin 144)
  | node (n : BitVec 7)
  | module
deriving DecidableEq, Repr

/-- A health entry: SCORE, LANE, MEASURE, DEGRADED, and the runs of measurements below and at or above the level (R305). -/
structure Health where
  score : Byte
  lane : BitVec 3
  measure : BitVec 3
  degraded : Bool
  below : Nat
  above : Nat
deriving DecidableEq, Repr

def Health.reset : Health := { score := 0xFF, lane := 0, measure := 0, degraded := false, below := 0, above := 0 }

structure Gut where
  ctrl : W32
  first : Capture
  caps : List Capture
  dropped : W16
  fatal : W64
  fatalNs : W64
  fatalOfBay : Bool
  phase : Phase
  needService : Bool
  tdErr : Bool
  history : List (BitVec 54)
  fencePorts : BitVec 144
  srcs : Tab Src
  toFence : List FaultObj
  stopWait : List (Fin 144 × W16)
  resumeWait : List (Fin 144 × W16)
  polls : List (Fin 144 × W16)
  endHeld : Bool
  health : Tab Health
  common : Bool
  degradedAt : List Nat
  alert : Bool
deriving DecidableEq, Repr

def Src.zero : Src := { cfg := 0, total := 0, inWin := 0, severe := false, openAt := none }

/-- The table of R285: threshold, WIN (0 where the table gives no window; log entry 15) and operator scope. -/
def srcDefaults : List (Nat × Nat × Bool) :=
  [(64, 20, false), (4, 20, false), (256, 16, false), (8, 20, false), (2, 20, false), (1, 0, true), (1, 0, true),
   (1, 0, false), (4, 20, false), (4, 20, false), (16, 20, false), (64, 20, false), (4096, 20, false), (256, 26, false),
   (1024, 20, false), (1, 0, false), (256, 20, false), (1, 0, false), (1, 0, false), (0, 0, true), (1, 0, true),
   (1, 0, true), (1, 0, false)]

/-- GUT_SRC_CFG_n of a row of R285. -/
def srcCfg (r : Nat × Nat × Bool) : W32 := BitVec.ofNat 32 (r.1 + r.2.1 * 2 ^ 16 + r.2.2.toNat * 2 ^ 24)

/-- The sources after reset. -/
def srcTable : Tab Src := srcDefaults.zipIdx.map fun p => (p.2, { Src.zero with cfg := srcCfg p.1 })

def Gut.reset : Gut :=
  { ctrl := 0x00400101, first := Capture.reset, caps := [], dropped := 0, fatal := 0, fatalNs := 0, fatalOfBay := false, phase := .none,
    needService := false, tdErr := false, history := [], fencePorts := 0, srcs := srcTable, toFence := [], stopWait := [],
    resumeWait := [], polls := [], endHeld := false, health := [], common := false, degradedAt := [], alert := false }

/-! ### Gauge (R308 to R319) -/

/-- The running period of Gauge: what R311 and R314 record of it. -/
structure Period where
  start : W64
  energy : W64
  bytes : List W64
  occRest : Nat
  gable : W64
  vMin : W16
  vMax : W16
  pPeak : W16
  lost : Bool
  range : Bool
deriving DecidableEq, Repr

def Period.reset : Period :=
  { start := 0, energy := 0, bytes := [0, 0, 0, 0, 0, 0], occRest := 0, gable := 0, vMin := 0xFFFF, vMax := 0, pPeak := 0,
    lost := false, range := false }

/-- Gauge: its log by SEQ modulo 58,254, the running period and its attribution, `next` an attribution that begins at an interval
boundary, and what its status shows. -/
structure Gau where
  records : Tab (List Byte)
  nextSeq : Nat
  lastHash : BitVec 384
  period : Period
  admission : W64
  bayState : BitVec 3
  tag : W16
  shape : BitVec 18
  next : Option (BitVec 3 × W16 × BitVec 18)
  sync : Bool
  power : W16
  sealOk : Bool
  keyOk : Bool
  holdupOk : Bool
  channelOk : Bool
  powered : Bool
  lastBeat : W64
deriving DecidableEq, Repr

def Gau.reset : Gau :=
  { records := [], nextSeq := 0, lastHash := 0, period := Period.reset, admission := 0, bayState := 0, tag := 0, shape := 0,
    next := none, sync := false, power := 0, sealOk := true, keyOk := true, holdupOk := true, channelOk := false, powered := true, lastBeat := 0 }

/-! ### Power and cooling (R320 to R334) -/

/-- The governor and its sensors. `capHeld` and `slewHeld` are PWR_CAP and PWR_SLEW as the interval in progress took them (R322); `ceiling` and
`thermalCeiling` in µW, in which a step of R323 is whole; `braked` that the brake was on within the interval in progress; `lagFrom` the beats since the
start up to which LAG_BEATS is counted; `thermalFall` that the thermal ceiling still falls (R329); `offPorts` and `offEaves` the ports and eaves that an
orderly shutdown has dealt with and `offRest` the power in µW by which it has lowered the next one, `offLow` that RESET_N has been low since the module went OFF (R330). -/
structure Pwr where
  cap : W16
  slew : W32
  capHeld : W16
  slewHeld : W32
  brakeFloor : W16
  brakeCount : W16
  thermCfg : W32
  episodes : W16
  lagBeats : W16
  lagFrom : Nat
  now : W16
  ceiling : Nat
  started : Bool
  peak : W16
  ballast : W16
  paced : Bool
  capLag : Bool
  downLag : Bool
  downEpisode : Bool
  brake : Bool
  braked : Bool
  brakeTarget : Nat
  vinRange : Bool
  vin : W16
  vinMin : W16
  inputLost : Bool
  rcLost : Bool
  lastCap : Nat
  throttle : Bool
  thermalCeiling : Option Nat
  inletHigh : Bool
  flowLow : Bool
  pumpLost : Bool
  cool : CoolMeas
  tjPeak : Byte
  thermalFall : Bool
  ramp : Bool
  offPorts : Nat
  offEaves : Nat
  offRest : Nat
  off : Bool
  offLow : Bool
  restartBlocked : Bool
deriving DecidableEq, Repr

def Pwr.reset : Pwr :=
  { cap := 0, slew := 0x10000, capHeld := 0, slewHeld := 0x10000, brakeFloor := 0x352, brakeCount := 0, thermCfg := 0x0A1E6E5F, episodes := 0, lagBeats := 0, lagFrom := 0,
    now := 0, ceiling := 0, started := false, peak := 0, ballast := 0, paced := false, capLag := false, downLag := false,
    downEpisode := false, brake := false, braked := false, brakeTarget := 0, vinRange := false, vin := 0, vinMin := 0, inputLost := false,
    rcLost := false, lastCap := 0, throttle := false, thermalCeiling := none, inletHigh := false, flowLow := false,
    pumpLost := false, cool := { tj := 0, inlet := 0, outlet := 0, flow := 0 }, tjPeak := 0,
    thermalFall := false, ramp := false, offPorts := 0, offEaves := 0, offRest := 0, off := false, offLow := false, restartBlocked := false }

/-! ### Soffit (R335 to R358) and the pins (R364 to R367) -/

inductive FwState where
  | empty | ready | trial | committed
deriving DecidableEq, Repr, Inhabited

/-- A part of the flash that is written by itself (R336, R351). -/
inductive FlashPart where
  | header (i : Fin 2)
  | body (i : Fin 2)
  | copy (i : Fin 2)
  | log
  | reserved
  | factory
deriving DecidableEq, Repr

/-- A Thatch slot (R352): its state and the header's fields, among them whether the signature verifies (log entry 10); `bytes` the signed image. -/
structure FwSlot where
  state : FwState
  major : Byte
  minor : Byte
  svn : W16
  bytes : List Byte
  sigOk : Bool
deriving DecidableEq, Repr

def FwSlot.reset : FwSlot := { state := .empty, major := 0, minor := 0, svn := 0, bytes := [], sigOk := false }

/-- A relay request outstanding (R343): Soffit's own tag, the port, and the request's header. -/
structure RelaySt where
  tag : W16
  port : Fin 144
  hdr : Header
deriving DecidableEq, Repr

/-- An entry of the Soffit log (R338): time, kind, code and up to 28 words of data; `ofBay` that it concerns the bay that the module is in. -/
structure LogEntry where
  ns : W64
  kind : Byte
  code : W32
  data : List W64
  ofBay : Bool
deriving DecidableEq, Repr

/-- The one-time-programmable memory (R335): the device identity key, the digest of the immutable stage and that of the owner's image key
(`none`: the slot is blank, R347). Its fourth part, the security version counter, is `Sof.svnMin`. -/
structure Otp where
  device : BitVec 384
  stage : BitVec 384
  owner : Option (BitVec 384)
deriving DecidableEq, Repr

/-- Soffit; `sram` the bytes of its 2 MiB SRAM that differ from 0, `stage` what has failed in the immutable stage since manufacture (R335); `updating`
the part of the flash that an update is writing (R337, R355); `factory` the factory data that a programmer has written (R367);
`request` the register access that is being performed for a requester in band, which the events it raises name (R289). -/
structure Sof where
  started : Bool
  halted : Bool
  cfgDefault : Bool
  cfgOne : Bool
  cfgCopy : BitVec 1
  thatchRun : Bool
  thatchSlot : BitVec 1
  trial : Bool
  noThatch : Bool
  thatchFailed : Bool
  cfgSeq : W64
  copies : List (Option CfgImage)
  image : Option CfgImage
  slots : List FwSlot
  svnMin : W16
  expiries : List Nat
  log : Tab LogEntry
  logNext : W16
  logWrapped : Bool
  logHoldup : Bool
  location : BitVec 12
  torus : Nat × Nat × Nat
  fmNode : Option Byte
  serviceNodes : List (Fin 144 × Byte)
  bench : Bool
  relays : List RelaySt
  sofTag : W16
  otp : Otp
  sram : Tab Byte
  stage : Tab Byte
  updating : Option FlashPart
  factory : Tab (Option Byte)
  request : Option Header
deriving DecidableEq, Repr

def LogEntry.reset : LogEntry := { ns := 0, kind := 0, code := 0, data := [], ofBay := false }

/-- The one-time-programmable memory as manufacture and the owner left it. -/
def Otp.made : Otp := { device := Config.deviceKey, stage := Config.stageDigest, owner := Config.ownerKey }

def Sof.reset : Sof :=
  { started := false, halted := false, cfgDefault := false, cfgOne := false, cfgCopy := 0, thatchRun := false,
    thatchSlot := 0, trial := false, noThatch := false, thatchFailed := false, cfgSeq := 0, copies := [none, none], image := none,
    slots := [FwSlot.reset, FwSlot.reset], svnMin := 0, expiries := [], log := [], logNext := 0, logWrapped := false,
    logHoldup := false, location := 0, torus := (1, 1, 1), fmNode := none, serviceNodes := [], bench := false, relays := [],
    sofTag := 0, otp := Otp.made, sram := [], stage := [], updating := none, factory := [], request := none }

/-- The pins of J25 and J26 that carry state (R363 to R368). `sealUntil`: until when, by the time since the module's start in 0.2 ns, the hold-up of a
lost input drives GAUGE_SEAL (R308). `rails`: the rails are in regulation; `retain`: input
and PWR_EN have been held since the last reset (R199); `external`: the flash bus is with a programmer (R367); `vin`: the input voltage in
units of 0.1 V; `mated`: PRESENT_N is low. -/
structure Pins where
  resetN : Bool
  pwrEn : Bool
  brakeN : Bool
  rails : Bool
  retain : Bool
  qspiExtN : Bool
  external : Bool
  vin : W16
  mated : Bool
  sealUntil : Nat
deriving DecidableEq, Repr

def Pins.reset : Pins :=
  { resetN := false, pwrEn := true, brakeN := true, rails := true, retain := true, qspiExtN := true, external := false,
    vin := 3800, mated := true, sealUntil := 0 }

/-! ### The Jalem block (R129 to R161, R164 to R180) -/

/-- A part of a transfer that becomes one request (R146): the FPA, the bytes at the home, and the local virtual address. -/
structure Spec where
  remote : W64
  bytes : Nat
  lva : Nat
deriving DecidableEq, Repr

/-- An outstanding request (R146, R150): its transfer, header, link (`none` on the own node) and part; for a LOAD in place
of a WIDEN_LOAD the source's place in the shingles fetched (R51); its bucket, its epoch, and responses whose local side a
fence holds (R173). -/
structure Req where
  xfer : Nat
  hdr : Header
  link : Option (Fin 18)
  spec : Spec
  widen : Option Nat
  bucket : Option (BitVec 6)
  epoch : Nat
  held : List Frame
deriving DecidableEq, Repr

/-- A transfer that passed its check (R142, R147): the MODE of its page, its parts not yet issued, the local pages by
granule, the failed request with the lowest remote address, whether a write that a release must answer for has failed
(R171), the value an ATOMIC returned, and the tag and link of a gather done by GETs (R51). `sent`: a request of it has gone. -/
structure Xfer where
  id : Nat
  t : Transfer
  fmode : Bool
  toIssue : List Spec
  lmap : List (Nat × Nat)
  failed : Option (Nat × Byte)
  issued : Bool
  sent : Bool
  broken : Bool
  value : W64
  serial : Option (W16 × Fin 18)
deriving DecidableEq, Repr

/-- An item of an engine's queue in program order: a checked transfer until it completes, a FENCE, or a transfer that waits
at its check (`began`: for space in the fault ring, R145) or for its task's resumption (R144). -/
inductive QItem where
  | xfer (x : Xfer)
  | fence (id : Nat) (f : FenceReq) (broken : Bool)
  | parked (id : Nat) (t : Transfer) (began : Bool) (broken : Bool)
deriving DecidableEq, Repr

/-- An engine of the block: its queue in program order, and whether a write behind its last release or fence failed (R171);
`bound` the last fence accepted, by its place in program order. -/
structure Engine where
  queue : List QItem
  writeFailed : Bool
  bound : Nat
deriving DecidableEq, Repr

def Engine.reset : Engine := { queue := [], writeFailed := false, bound := 0 }

/-- A cached translation (R136): context, level of the leaf, page number at that level, the leaf entry. -/
structure CacheEntry where
  ctx : BitVec 6
  level : Nat
  page : Nat
  leaf : W64
deriving DecidableEq, Repr

/-- A GEN that waits (R138): the generation, whether it drains, the transfers and requests it waits for, and how many send descriptors'
checks, whose fault records wait for space, began before it. -/
structure GenWait where
  gen : W32
  drain : Bool
  xfers : List Nat
  tags : List (Byte × W16)
  descs : Nat
deriving DecidableEq, Repr

/-- A send descriptor (R154): SRC, CTL, AUX, the sends queued, and the pinned local addresses of its granules. -/
structure SendDesc where
  src : W64
  ctl : W64
  aux : W64
  queued : Byte
  pins : List (Nat × Nat)
deriving DecidableEq, Repr

def SendDesc.reset : SendDesc := { src := 0, ctl := 0, aux := 0, queued := 0, pins := [] }

/-- The parts of a fault record that the check finds (R145). -/
structure FaultInfo where
  granule : Nat
  cause : Nat
  access : Nat
  localSide : Bool
  bad : Nat
deriving DecidableEq, Repr

/-- What identifies a faulting access in its record: task, context, engine and class, the generation checked and the rack time in ns at the
fault. -/
structure FaultBy where
  task : W16
  ctx : BitVec 6
  engine : Byte
  cls : Nat
  gen : W32
  ns : Nat
deriving DecidableEq, Repr

/-- A KEY frame of the block's own on tray port 0 whose acknowledgement it awaits (R269, R272). -/
structure TrayWait where
  activate : Bool
  slot : BitVec 2
  engine : Byte
  tag : W16
deriving DecidableEq, Repr

/-- The Jalem block. `trayWaits` are the KEY frames of its own that await their acknowledgement, `waits` are the matrix engines' waits on a
counter for a target (R153), which those engines place there (log entry 89), and `reportDue` that TDISP ERROR is yet to be reported (R160). The SEG data that precedes an advance on one virtual channel is written at
once, so no field holds it (R152). -/
structure Jeb where
  ports : Tab Port
  tim : Tim
  node : BitVec 7
  memSize : W64
  lineCap : BitVec 7
  stopped : Bool
  stopDone : Bool
  spreadMap : BitVec 256
  spreadSeed : BitVec 6
  shadowMap : BitVec 256
  shadowSeed : BitVec 6
  epochBeat : BitVec 54
  epochArm : Bool
  epochDone : Bool
  epochReject : Bool
  epochAt : Nat
  epochs : Nat
  moved : List (BitVec 6)
  poolHost : W64
  poolMirror : W64
  poolSize : BitVec 21
  ctxs : Tab W64
  invBase : W64
  invSize : BitVec 5
  invTail : W16
  invHead : W16
  fetched : List HostRead
  genDone : W32
  genErr : Bool
  genCode : BitVec 3
  genWait : Option GenWait
  fltBase : W64
  fltSize : BitVec 5
  fltTail : W16
  fltHead : W16
  fltSeq : W32
  fltWait : List (FaultInfo × FaultBy)
  faulted : List W16
  cache : List CacheEntry
  engines : Tab Engine
  reqs : List Req
  nextXfer : Nat
  nextTag : W16
  sig : Tab W32
  waits : List (Nat × W32)
  sends : Tab SendDesc
  wins : Tab Window
  tag : W16
  tagged : Bool
  rack : Byte
  keys : Tab (Option LinkKey)
  transport : Option (BitVec 256)
  activeKey : BitVec 2
  tdisp : BitVec 2
  ideOk : Bool
  zPending : Bool
  zDone : Bool
  err0 : W64
  err1 : W64
  ordErr : W64
  stopAcks : List (Fin 18 × Header)
  reports : List Header
  reportDue : Bool
  resumed : List (Fin 18)
  battens : List (PortRef × BList)
  retryAct : Option (BitVec 2)
  trayWaits : List TrayWait
  mem : Mem
  event : Bool
deriving DecidableEq, Repr

/-- Default spread map: entry h is h mod 16 (R87). -/
def defaultMap : BitVec 256 := 0xFEDCBA9876543210FEDCBA9876543210FEDCBA9876543210FEDCBA9876543210

def Jeb.reset : Jeb :=
  { ports := [], tim := Tim.reset, node := Config.jebNode, memSize := 0, lineCap := 0x40, stopped := false,
    stopDone := false, spreadMap := defaultMap, spreadSeed := 0, shadowMap := defaultMap, shadowSeed := 0, epochBeat := 0, epochArm := false,
    epochDone := false, epochReject := false, epochAt := 0, epochs := 0, moved := [], poolHost := 0, poolMirror := 0,
    poolSize := 0, ctxs := [], invBase := 0, invSize := 6, invTail := 0, invHead := 0, fetched := [], genDone := 0,
    genErr := false, genCode := 0, genWait := none, fltBase := 0, fltSize := 6, fltTail := 0, fltHead := 0, fltSeq := 0,
    fltWait := [], faulted := [], cache := [], engines := [], reqs := [], nextXfer := 0, nextTag := 0, sig := [], waits := [], sends := [],
    wins := [],
    tag := 0, tagged := false, rack := 0, keys := [], transport := some (Config.transportKey 0), activeKey := 0, tdisp := 0, ideOk := false,
    zPending := false, zDone := false, err0 := 0, err1 := 0, ordErr := 0, stopAcks := [], reports := [], reportDue := false,
    resumed := [], battens := [],
    retryAct := none, trayWaits := [], mem := Mem.empty, event := false }

/-! ### The whole -/

/-- A 32-bit half held for a requester and a 64-bit register (R8). -/
structure Latch where
  who : Requester
  dev : Dev
  addr : W32
  write : Bool
  value : W32
deriving DecidableEq, Repr

/-- What leaves the block, oldest first in `State.outputs` (log entry 2): laths as the nibbles of each lane, lane 0 first (R40), what a port
sends of itself in training (R48, R50, R63), host reads with their T bit (R159), and the answers of the other interfaces. -/
inductive Output where
  | lath (p : PortRef) (lanes : List (List (BitVec 4)))
  | identity (p : PortRef) (ident : Identity)
  | offer (p : PortRef) (rev : BitVec 2) (feats : W16)
  | grants (p : PortRef) (slots : List Nat)
  | hostRead (addr : W64) (bytes : Nat) (trusted : Bool)
  | regValue (who : Requester) (dev : Dev) (addr : W32) (value : W64)
  | done (engine : Byte) (xfer : Nat) (code : Byte) (value : W64)
  | waitOver (counter : Nat) (target : W32)
  | spdm (status : Byte) (port : Byte)
  | report (bytes : List Byte)
  | certificates (chain : List (List Byte))
  | gauge (records : List (List Byte))
  | cert (bytes : List Byte)
  | tdispError (addr : W32)
  | refusedFrame (p : PortRef) (code : Byte)
  | updateBusy
deriving DecidableEq, Repr

/-- The state: the module's blocks, Gauge, the Jalem block, the register latches, what has been sent out, the
counter of free values, and the commands that wait. -/
structure State where
  ports : Tab Port
  tim : Tim
  pur : Pur
  eav : Eav
  gab : Gab
  trs : Trs
  sec : Sec
  gut : Gut
  gau : Gau
  pwr : Pwr
  sof : Sof
  pins : Pins
  jeb : Jeb
  latches : List Latch
  outputs : List Output
  fresh : Nat
  pending : List Instr
deriving DecidableEq, Repr

/-- The state right after a reset through RESET_N, which is still low: every register at the Reset column of
its rule, the retained store and the flash empty (log entry 3), nothing waiting. -/
def State.reset : State :=
  { ports := [], tim := Tim.reset, pur := Pur.reset, eav := Eav.reset, gab := { Gab.reset with zeroizing := true },
    trs := Trs.reset, sec := Sec.reset, gut := Gut.reset, gau := Gau.reset, pwr := Pwr.reset, sof := Sof.reset, pins := Pins.reset, jeb := Jeb.reset,
    latches := [], outputs := [], fresh := 0, pending := [] }

/-- Why the model stops. -/
inductive Fault where
  /-- Raised by RESET_N_LOW for a low of 2 µs to 10 µs, whose results R366 and R11 leave unspecified. Safe: the
  model stops where the hardware goes on with results nobody can rely on. -/
  | resetPulseUnspecified
deriving DecidableEq, Repr

/-- Why a command has no meaning. -/
inductive Refusal where
  /-- Raised only by an arm of exec that has no meaning yet. Safe: nothing can be proved of it. -/
  | notModelled (mnemonic : String)
deriving DecidableEq, Repr

end Sys2Proof.Machine
end

