-- ==== Sys2Proof/Machine/Flags.lean ====
section
/-! DEFINITION. What the machine derives from its state: codes of states (R46, R201, R227, R256, R307), admission, rack
time in ns and beats, FAULT_N (R291), and the fields of status registers. -/

namespace Sys2Proof.Machine

open Sys2Proof

/-! ### Codes -/

def PState.code : PState → Nat
  | .disabled => 0 | .detect => 1 | .equalise => 2 | .lock => 3 | .identify => 4 | .negotiate => 5 | .credit => 6
  | .active => 7 | .retrain => 8 | .down => 9 | .held => 10

def roleCode : Role → Nat
  | .unused => 0 | .rafter => 1 | .hip => 2 | .service => 3

def BayState.code : BayState → Nat
  | .free => 0 | .zeroizing => 1 | .checking => 2 | .forming => 3 | .measured => 4 | .running => 5 | .teardown => 6 | .held => 7

def Phase.code : Phase → Nat
  | .none => 0 | .stopping => 1 | .draining => 2 | .quiescent => 3 | .resuming => 4 | .held => 5

def DurState.code : DurState → Nat
  | .empty => 0 | .loading => 1 | .sealing => 2 | .sealed => 3 | .silvering => 4 | .verifying => 5 | .lost => 6

def SlotState.code : SlotState → Nat
  | .free => 0 | .active => 1 | .stalled => 2 | .draining => 3 | .zeroizing => 4

def FwState.code : FwState → Nat
  | .empty => 0 | .ready => 1 | .trial => 2 | .committed => 3

def FaultObj.kind : FaultObj → Nat
  | .nothing => 0 | .port _ => 1 | .node _ => 2 | .module => 3

def FaultObj.number : FaultObj → Nat
  | .nothing => 0 | .port n => n.val | .node n => n.toNat | .module => 0

/-! ### Rack time (R27, R32) -/

/-- Rack time in whole ns, as TIM_NOW shows it. -/
def Tim.ns (t : Tim) : Nat := t.fifths / 5

/-- The current beat. -/
def Tim.beat (t : Tim) : Nat := t.fifths / 5120

/-- The time since the device's start in 0.2 ns, which no mark moves (R338). -/
def Tim.up (t : Tim) : Nat := ((t.fifths : Int) - t.ahead).toNat

/-- Whole beats since the device's start. -/
def Tim.upBeat (t : Tim) : Nat := t.up / 5120

def State.ns (s : State) : Nat := s.tim.ns
def State.beat (s : State) : Nat := s.tim.beat

/-! ### The bay (R21, R22, R256) -/

/-- "Admitted": the states 3 to 7 of R256. -/
def State.admitted (s : State) : Bool := decide (3 ≤ s.sec.state.code)

/-- The module's index p and node number (R13). -/
def State.index (s : State) : Nat := fld s.sof.location 0 4
def State.node (s : State) : Nat := 0x80 + s.index

/-- The rack's coordinates from SOF_LOCATION. -/
def State.coord (s : State) : Coord :=
  { x := BitVec.ofNat 3 (fld s.sof.location 4 3), y := BitVec.ofNat 3 (fld s.sof.location 7 3),
    z := BitVec.ofNat 2 (fld s.sof.location 10 2) }

/-- Whether a teardown is in progress: any phase but none (R307). -/
def State.inTeardown (s : State) : Bool := decide (s.gut.phase ≠ .none)

/-- Whether the bay has stopped admitting requests (R295, R278): from a teardown's start, and during release. -/
def State.stopped (s : State) : Bool := s.inTeardown || decide (s.sec.state = .zeroizing)

/-! ### Requesters (R339 to R344, R346, R354) -/

/-- Sarking-only operation: no register is reached through the management interfaces (R346, R354). -/
def State.sarkingOnly (s : State) : Bool := s.sof.noThatch || s.sof.thatchFailed

/-- Whether the module serves more than SPDM and PLDM types 0 and 5: not in Sarking-only operation, and not stopped in mask ROM (R346, R354). -/
def State.served (s : State) : Bool := !s.sarkingOnly && !s.sof.halted

/-- A request through a management interface that the module serves (R339, R341); a module stopped in mask ROM serves none (R346). -/
def State.mgmt (s : State) (who : Requester) : Bool :=
  (decide (who = .ethernet) || decide (who = .rackController)) && s.served

/-- Requesters that reach the module's registers: the management interfaces, and, while Thatch runs, Thatch and in-band requests (R344).
The local and the fabric side are a Jalem block's (R149). -/
def State.reaches (s : State) (who : Requester) : Bool :=
  s.mgmt who || ((decide (who = .thatch) || decide (who = .inBand)) && s.sof.thatchRun)

/-! ### Gutter (R291, R299, R300) -/

/-- FAULT_N driven low (R291), also by the hold-up sequence (R328) and a module stopped in mask ROM (R346). While RESET_N is low
it is released. -/
def State.faultLow (s : State) : Bool :=
  s.pins.resetN &&
  (s.pwr.inputLost || s.sof.halted || bitAt s.gut.fatal 63 || decide (s.sec.state = .held) ||
    (decide (fld s.gut.ctrl 0 2 ≠ 2) && s.gut.srcs.any fun p => p.2.severe))

/-- The seal-status output GAUGE_SEAL, driven high: the seal is intact and the signing key exists (R308, R316, R364). Without input the island drives
it for as long as its hold-up lasts, and nothing from then on (R368). -/
def State.gaugeSeal (s : State) : Bool := (s.gau.powered || decide (s.tim.up < s.pins.sealUntil)) && s.gau.sealOk && s.gau.keyOk

/-- Whether a recorded restart lies within 2^30 beats before now; while SYNC is 0 every one counts (R300, R303). -/
def State.recent (s : State) (b : BitVec 54) : Bool := !s.tim.sync || decide (s.beat < b.toNat + 2 ^ 30)

/-- RESTARTS of GUT_TD_STATUS. -/
def State.restarts (s : State) : Nat := (s.gut.history.filter s.recent).length

/-! ### Packed words -/

/-- A word from fields: least bit and value. -/
def packW (n : Nat) (l : List (Nat × Nat)) : BitVec n := BitVec.ofNat n (l.foldl (fun acc p => acc + p.2 * 2 ^ p.1) 0)

/-- GUT_FATAL (R307). -/
def fatalWord (code : Nat) (o : FaultObj) (count : Nat) : W64 :=
  packW 64 [(0, code), (8, o.kind), (10, o.number), (18, min count 255), (63, 1)]

/-- INFO of a record (R307). -/
def infoWord (src sev : Nat) (oper : Bool) (node engine : Byte) (access code : Nat) : W64 :=
  packW 64 [(0, src), (5, sev), (7, oper.toNat), (8, node.toNat), (16, engine.toNat), (24, access), (32, code), (63, 1)]

/-- SOF_BAY_SHAPE (R36). -/
def State.bayShapeWord (s : State) : W32 := packW 32 [(0, s.sec.shape.toNat), (18, s.admitted.toNat)]

end Sys2Proof.Machine
end

