-- ==== Sys2Proof/Machine/Flashing.lean ====
section
/-! DEFINITION. The flashing code of a shingle (R54 to R57) and the poison marker of the eaves (R183). -/

namespace Sys2Proof.Machine

open Sys2Proof

/-- Doubling in GF(2^8) with field polynomial 0x11D (R55). -/
def gfDouble (a : Byte) : Byte := (a <<< 1) ^^^ (if bitAt a 7 then 0x1D else 0)

/-- The bits of `b` from the most significant: `acc := 2 acc + bit · a`. -/
def gfMulBits (a b : Byte) : Nat → Byte → Byte
  | 0, acc => acc
  | n + 1, acc => gfMulBits a b n (gfDouble acc ^^^ (if bitAt b n then a else 0))

/-- Multiplication in GF(2^8). -/
def gfMul (a b : Byte) : Byte := gfMulBits a b 8 0

/-- `a` to the power `n`. -/
def gfPow (a : Byte) : Nat → Byte
  | 0 => 1
  | n + 1 => gfMul a (gfPow a n)

/-- α^n, with α = 0x02. -/
def alphaPow (n : Nat) : Byte := gfPow 2 (n % 255)

/-- The inverse of a nonzero element: its 254th power. -/
def gfInv (a : Byte) : Byte := gfPow a 254

/-- Data byte k of a shingle (R54). -/
def Shingle.byte (w : Shingle) (k : Nat) : Byte := (w >>> (8 * k)).truncate 8

/-- The 256 data bits of a shingle. -/
def Shingle.dataBits (w : Shingle) : BitVec 256 := w.truncate 256

/-- The check symbols of a shingle, p0 in the low byte. -/
def Shingle.checkBits (w : Shingle) : W32 := (w >>> 256).truncate 32

/-- One step of the division by g(x) = x^4 + 0x0F x^3 + 0x36 x^2 + 0x78 x + 0x40: the next data symbol, highest
degree first, enters the remainder (p3, p2, p1, p0). -/
def flashStep (r : Byte × Byte × Byte × Byte) (d : Byte) : Byte × Byte × Byte × Byte :=
  match r with
  | (p3, p2, p1, p0) =>
    let t := d ^^^ p3
    (p2 ^^^ gfMul t 0x0F, p1 ^^^ gfMul t 0x36, p0 ^^^ gfMul t 0x78, gfMul t 0x40)

/-- The check symbols of 32 data bytes: the remainder of d(x)·x^4 by g(x) (R55). -/
def flashCheck (d : BitVec 256) : W32 :=
  match ((bytesOf d 32).reverse).foldl flashStep (0, 0, 0, 0) with
  | (p3, p2, p1, p0) => (p3 ++ p2 ++ p1 ++ p0 : BitVec 32)

/-- The codeword of 32 data bytes. -/
def encodeShingle (d : BitVec 256) : Shingle := (flashCheck d ++ d : BitVec 288)

/-- Symbol of the codeword at degree i: p_i for i below 4, data byte i − 4 above. -/
def codeSymbol (w : Shingle) (i : Nat) : Byte := if i < 4 then Shingle.byte w (32 + i) else Shingle.byte w (i - 4)

/-- Syndrome j: the codeword at α^j. -/
def syndrome (w : Shingle) (j : Nat) : Byte :=
  ((List.range 36).reverse).foldl (fun acc i => gfMul acc (alphaPow j) ^^^ codeSymbol w i) 0

/-- The four syndromes of R56. -/
def syndromes (w : Shingle) : Byte × Byte × Byte × Byte := (syndrome w 0, syndrome w 1, syndrome w 2, syndrome w 3)

/-- Detecting mode: any nonzero syndrome (R56). -/
def flashBad (w : Shingle) : Bool := decide (syndromes w ≠ (0, 0, 0, 0))

/-- The shingle with the symbol at degree i changed by e. -/
def fixSymbol (w : Shingle) (i : Nat) (e : Byte) : Shingle :=
  w ^^^ ((BitVec.zeroExtend 288 e) <<< (8 * (if i < 4 then 32 + i else i - 4)))

/-- What correcting mode finds. -/
inductive Decoded where
  | clean (w : Shingle)
  | corrected (w : Shingle)
  | uncorrectable
deriving DecidableEq, Repr

/-- One bad symbol: S1 = S0 X, S2 = S0 X², S3 = S0 X³ with X = α^i inside the shortened code. -/
def oneError (w : Shingle) (s : Byte × Byte × Byte × Byte) : Option Shingle :=
  match s with
  | (s0, s1, s2, s3) =>
    (List.range 36).findSome? fun i =>
      let x := alphaPow i
      if s0 ≠ 0 ∧ s1 = gfMul s0 x ∧ s2 = gfMul s1 x ∧ s3 = gfMul s2 x then some (fixSymbol w i s0) else none

/-- Two bad symbols at degrees i < j with values e and f: the four syndromes fix both values. -/
def twoErrorsAt (w : Shingle) (s : Byte × Byte × Byte × Byte) (i j : Nat) : Option Shingle :=
  match s with
  | (s0, s1, s2, s3) =>
    let x := alphaPow i
    let y := alphaPow j
    let f := gfMul (s1 ^^^ gfMul s0 x) (gfInv (x ^^^ y))
    let e := s0 ^^^ f
    if e ≠ 0 ∧ f ≠ 0 ∧ s2 = gfMul e (gfMul x x) ^^^ gfMul f (gfMul y y)
        ∧ s3 = gfMul e (gfPow x 3) ^^^ gfMul f (gfPow y 3) then
      some (fixSymbol (fixSymbol w i e) j f)
    else none

/-- The correction of two bad symbols, if one fits. -/
def twoErrors (w : Shingle) (s : Byte × Byte × Byte × Byte) : Option Shingle :=
  (List.range 36).findSome? fun i => (List.range i).findSome? fun j => twoErrorsAt w s j i

/-- Correcting mode (R56): a word within two symbols of a codeword is corrected, any other is uncorrectable. -/
def decodeShingle (w : Shingle) : Decoded :=
  let s := syndromes w
  if s = (0, 0, 0, 0) then .clean w
  else match oneError w s with
    | some v => .corrected v
    | none => match twoErrors w s with
      | some v => .corrected v
      | none => .uncorrectable

/-- The data of a decoded shingle, or `none` where it is uncorrectable (R57). -/
def Decoded.data : Decoded → Option (BitVec 256)
  | .clean w => some (Shingle.dataBits w)
  | .corrected w => some (Shingle.dataBits w)
  | .uncorrectable => none

/-- Whether correcting mode changed the word (source 0 of R285). -/
def Decoded.wasCorrected : Decoded → Bool
  | .corrected _ => true
  | _ => false

/-- The check symbols inverted: the poison marker of R183, its own inverse. -/
def flipMarker (w : Shingle) : Shingle := w ^^^ ((BitVec.ofNat 288 0xFFFFFFFF) <<< 256)

/-- Whether a stored word carries the poison marker: its syndromes are those of the marker alone (R183). -/
def isMarked (w : Shingle) : Bool := decide (syndromes w = syndromes (flipMarker 0))

end Sys2Proof.Machine
end

