-- ==== Sys2Proof/Machine/Operands.lean ====
section
/-! DEFINITION. The forms of what the commands carry: the header (R59), opcodes, courses and lengths (R60), ATTR and
AUX (R106), addresses (R102), alignment (R105), coordinates and routes (R17 to R24), the hashes of R81, R87, R184. -/

namespace Sys2Proof.Machine

open Sys2Proof

/-! ### The header (R59) -/

/-- The 256 bits of a header. -/
def headerBits (h : Header) : BitVec 256 :=
  (h.rsvd ++ h.aux ++ h.status ++ h.bayTag ++ h.tag ++ h.srcEngine ++ h.srcRack ++ h.srcNode ++ h.fpa ++ h.attr ++ h.poison
    ++ h.len ++ h.sub ++ h.course ++ h.opcode : BitVec 256)

/-- The fields of 256 header bits. -/
def headerOf (w : BitVec 256) : Header :=
  { opcode := w.extractLsb' 0 8, course := w.extractLsb' 8 3, sub := w.extractLsb' 11 1, len := w.extractLsb' 12 4,
    poison := w.extractLsb' 16 8, attr := w.extractLsb' 24 8, fpa := w.extractLsb' 32 64, srcNode := w.extractLsb' 96 8,
    srcRack := w.extractLsb' 104 8, srcEngine := w.extractLsb' 112 8, tag := w.extractLsb' 120 16,
    bayTag := w.extractLsb' 136 16, status := w.extractLsb' 152 8, aux := w.extractLsb' 160 64, rsvd := w.extractLsb' 224 32 }

/-- The header slot of a header: any agent that creates one encodes it. -/
def headerSlot (h : Header) : Shingle := encodeShingle (headerBits h)

/-- A header slot decoded in correcting mode; `none` where it is uncorrectable. -/
def headerDecode (w : Shingle) : Option Header := (decodeShingle w).data.map headerOf

/-- A frame as it goes on a link: a header slot that was received goes on unchanged (R56). -/
def rawOf (f : Frame) : RawFrame := { hdr := headerSlot f.hdr ^^^ f.err, data := f.data }

/-- Slots that a frame takes: one and its LEN (R58). -/
def frameSlots (f : Frame) : Nat := 1 + f.data.length

/-- Virtual channel of a header: 2 × COURSE + SUB (R62). -/
def vcOf (h : Header) : Nat := 2 * h.course.toNat + h.sub.toNat

/-- Whether shingle `k` of a frame is poisoned (R59). -/
def poisoned (h : Header) (k : Nat) : Bool := bitAt h.poison k

/-- The data bits of a frame's shingles in correcting mode; `none` for a poisoned or uncorrectable shingle. -/
def decodeData (f : Frame) : List (Option (BitVec 256)) :=
  f.data.zipIdx.map fun p => if poisoned f.hdr p.2 then none else (decodeShingle p.1).data

/-! ### Opcodes (R60) -/

def opLoad : Byte := 0x01
def opStore : Byte := 0x02
def opAtomic : Byte := 0x03
def opFadd : Byte := 0x04
def opWidenLoad : Byte := 0x05
def opPut : Byte := 0x10
def opGet : Byte := 0x11
def opBatten : Byte := 0x12
def opBattenCont : Byte := 0x13
def opSeg : Byte := 0x20
def opSignal : Byte := 0x21
def opCtrlWr : Byte := 0x30
def opCtrlRd : Byte := 0x31
def opKey : Byte := 0x32
def opTeardown : Byte := 0x33
def opTest : Byte := 0x40
def opLoadData : Byte := 0x81
def opAck : Byte := 0x82
def opAtomicData : Byte := 0x83
def opGetData : Byte := 0x91
def opCtrlData : Byte := 0xB1
def opTestEcho : Byte := 0xC0
def opCredit : Byte := 0xF0
def opStampReq : Byte := 0xF1
def opStampRsp : Byte := 0xF2

/-- A row of the table of R60: SUB, the courses, the lengths, the opcode of the response. -/
structure OpRow where
  sub : Nat
  courses : List Nat
  lens : List Nat
  resp : Option Byte
deriving DecidableEq, Repr

/-- The table of R60, without the all-zero slot and the link-local opcodes. -/
def opRow (op : Byte) : Option OpRow :=
  match op.toNat with
  | 0x01 => some { sub := 0, courses := [0, 2], lens := [0], resp := some opLoadData }
  | 0x02 => some { sub := 0, courses := [0, 2], lens := [1, 2, 8], resp := some opAck }
  | 0x03 => some { sub := 0, courses := [0], lens := [1], resp := some opAtomicData }
  | 0x04 => some { sub := 0, courses := [0], lens := [1], resp := some opAck }
  | 0x05 => some { sub := 0, courses := [0, 2], lens := [0], resp := some opLoadData }
  | 0x10 => some { sub := 0, courses := [2, 3], lens := upFrom 1 8, resp := some opAck }
  | 0x11 => some { sub := 0, courses := [2, 3], lens := [0], resp := some opGetData }
  | 0x12 => some { sub := 0, courses := [2], lens := upFrom 1 8, resp := some opGetData }
  | 0x13 => some { sub := 0, courses := [2], lens := upFrom 1 8, resp := none }
  | 0x20 => some { sub := 0, courses := [1], lens := upFrom 1 8, resp := none }
  | 0x21 => some { sub := 0, courses := [1], lens := [0], resp := none }
  | 0x30 => some { sub := 0, courses := [4], lens := [0, 1, 2], resp := some opAck }
  | 0x31 => some { sub := 0, courses := [4], lens := [0], resp := some opCtrlData }
  | 0x32 => some { sub := 0, courses := [4], lens := [0, 1, 2], resp := some opAck }
  | 0x33 => some { sub := 0, courses := [4], lens := [0], resp := some opAck }
  | 0x40 => some { sub := 0, courses := [5], lens := upFrom 0 9, resp := some opTestEcho }
  | 0x81 => some { sub := 1, courses := [0, 2], lens := [1, 2, 8], resp := none }
  | 0x82 => some { sub := 1, courses := [0, 1, 2, 3, 4, 5], lens := [0], resp := none }
  | 0x83 => some { sub := 1, courses := [0], lens := [1], resp := none }
  | 0x91 => some { sub := 1, courses := [2, 3], lens := upFrom 0 9, resp := none }
  | 0xB1 => some { sub := 1, courses := [4], lens := [1, 2], resp := none }
  | 0xC0 => some { sub := 1, courses := [5], lens := upFrom 0 9, resp := none }
  | _ => none

/-- Whether a request is posted: it has no response (R60, R120). BATTEN_CONT has none either, but is no posted frame. -/
def isPosted (h : Header) : Bool :=
  decide (h.opcode = opSeg) || decide (h.opcode = opSignal) || (decide (h.opcode = opTest) && bitAt h.attr 0)

/-- Whether a header is a response. -/
def isResponse (h : Header) : Bool := decide (h.sub = 1)

/-- The opcode that answers a request: its own response opcode, or ACK for one that has none (R60). -/
def respOpcode (op : Byte) : Byte :=
  match opRow op with
  | some r => if r.sub = 0 then r.resp.getD opAck else opAck
  | none => opAck

/-! ### Features (R51) -/

def featSeal : Nat := 0
def featSelRetry : Nat := 1
def featStampFine : Nat := 2
def featBatten : Nat := 3
def featWiden : Nat := 4
def featTileSig : Nat := 5
def featNarrow : Nat := 6
def featFpBundle : Nat := 7

/-- The features that a revision permits. -/
def revFeatures (rev : BitVec 2) : Byte :=
  match rev.toNat with
  | 0 => 0x41
  | 1 => 0x4D
  | 2 => 0x7D
  | _ => 0xFF

/-! ### Form (R60, R106, and the rules that R106 names) -/

/-- A frame made by the bundling unit of a module (R96). -/
def isBundle (h : Header) : Bool := decide (h.srcEngine = 0xFE) && decide (fld h.srcNode 4 4 = 8)

/-- KIND of a collective frame (R234). -/
def kindOf (h : Header) : Nat := fld h.attr 4 3

/-- The KINDs of an opcode with the AUX bits that they use (R234, R371). -/
def collectiveOk (h : Header) : Bool :=
  let kinds : List (Nat × Nat) := if h.opcode = opSeg then [(0, 48), (1, 56), (2, 60), (3, 60)] else [(0, 48), (2, 60), (3, 60), (4, 64), (5, 48)]
  kinds.any fun k => decide (kindOf h = k.1 ∧ h.aux.toNat < 2 ^ k.2)

/-- The part of the form check that looks at ATTR and AUX. A Jalem block (`jeb`) takes the bundles of modules (R96), and ignores KIND and
every AUX field of a collective frame but COUNTER (R234). A LEN that disagrees with SIZE, or with the length of a chunk in AUX, is malformed
(DESIGN CHOICE, log entry 110); a SIZE that disagrees with the course is taken as it reads (DESIGN CHOICE, log entry 133). -/
def attrOk (h : Header) (jeb : Bool) : Bool :=
  let a := h.attr.toNat
  let x := h.aux.toNat
  let plain := decide (x = 0) || (jeb && isBundle h)
  match h.opcode.toNat with
  | 0x01 => decide (a ≤ 2) && decide (x = 0)
  | 0x02 => decide (a ≤ 2) && decide (x = 0) && decide (h.len.toNat = [1, 2, 8].getD a 0)
  | 0x03 => decide (a < 32) && plain && (decide (fld h.attr 0 3 = 1) || decide (fld h.attr 0 3 = 2) || !bitAt h.attr 4)
  | 0x04 => decide (a < 4) && plain
  | 0x05 => decide (a < 8) && decide (fld h.attr 0 2 ≤ 2) && decide (x = 0)
  | 0x10 => decide (a = 0) && decide (32 ≤ x ∧ x ≤ 256 ∧ x % 32 = 0) && decide (h.len.toNat = x / 32)
  | 0x11 => decide (a = 0) && decide (32 ≤ x ∧ x ≤ 256 ∧ x % 32 = 0)
  | 0x12 => decide (a ≤ 4) && decide (1 ≤ x ∧ x ≤ 256)
  | 0x13 => decide (a = 0) && decide (x = 0)
  | 0x20 => decide (fld h.attr 0 4 ≤ 7) && (jeb || collectiveOk h)
  | 0x21 => decide (fld h.attr 0 4 ≤ 7) && (jeb || collectiveOk h)
  | 0x30 => decide (a = 0) && decide (x < 16) && (decide (h.len = 0) || decide (h.len.toNat = (x + 8) / 8))
  | 0x31 => decide (a = 0) && decide (x < 16)
  | 0x32 => decide (a = 0) && decide (fld h.aux 6 2 = 0) &&
      decide ((fld h.aux 0 4, h.len.toNat) ∈ [(1, 2), (2, 1), (3, 0), (4, 0)]) && (decide (fld h.aux 0 4 = 1) || decide (x < 64))
  | 0x33 => decide (a = 0) && decide (x % 4 ≤ 1) && decide (fld h.aux 2 6 = 0) && decide (x < 2 ^ 24)
  | 0x40 => decide (a < 8) && decide (x < 2 ^ 40)
  | _ => true

/-- Whether the features of a link permit a frame (R51, R60). -/
def featuresOk (h : Header) (feats : Byte) : Bool :=
  match h.opcode.toNat with
  | 0x05 => bitAt feats featWiden
  | 0x12 => bitAt feats featBatten
  | 0x13 => bitAt feats featBatten
  | 0x20 => !bitAt h.attr 7 || bitAt feats featTileSig
  | 0x04 => !isBundle h || bitAt h.attr 1 || bitAt feats featFpBundle
  | _ => true

/-- Step 1 of R120: the form of a frame. A response with STATUS nonzero has LEN 0 and may carry any course of requests. A request's
STATUS must be 0, while header bits [255:224] are not looked at (DESIGN CHOICE, log entry 111), nor is SIZE held against the course (log entry 133). -/
def formOk (h : Header) (feats : Byte) (jeb : Bool) : Bool :=
  match opRow h.opcode with
  | none => false
  | some r =>
    decide (r.sub = h.sub.toNat) &&
    (if h.sub = 1 ∧ h.status ≠ 0 then decide (h.len = 0) && decide (h.course.toNat ≤ 5)
     else decide (h.course.toNat ∈ r.courses) && decide (h.len.toNat ∈ r.lens)) &&
    (decide (h.sub = 1) || (decide (h.status = 0) && attrOk h jeb && featuresOk h feats))

/-! ### Completion codes (R118) -/

def stOk : Byte := 0x00
def stPoisoned : Byte := 0x01
def stBadRequest : Byte := 0x10
def stMisaligned : Byte := 0x11
def stBadList : Byte := 0x12
def stListIncomplete : Byte := 0x13
def stBayMismatch : Byte := 0x20
def stRackRange : Byte := 0x21
def stNotLocal : Byte := 0x22
def stUnroutable : Byte := 0x23
def stNoWindow : Byte := 0x30
def stNoRight : Byte := 0x31
def stModeMismatch : Byte := 0x32
def stOutOfRange : Byte := 0x33
def stTargetLost : Byte := 0x40
def stTeardown : Byte := 0x41
def stHomeFault : Byte := 0x42

/-- The codes that R118 lists. -/
def knownStatus (c : Byte) : Bool :=
  decide (c.toNat ∈ [0x00, 0x01, 0x10, 0x11, 0x12, 0x13, 0x20, 0x21, 0x22, 0x23, 0x30, 0x31, 0x32, 0x33, 0x40, 0x41, 0x42])

/-- The header of a response: the course of the request with SUB 1, and FPA, SRC and TAG copied (R60). -/
def respHdr (h : Header) (op status : Byte) (len : Nat) (poison : Byte) (aux : W64) : Header :=
  { opcode := op, course := h.course, sub := 1, len := BitVec.ofNat 4 len, poison := poison, attr := 0, fpa := h.fpa,
    srcNode := h.srcNode, srcRack := h.srcRack, srcEngine := h.srcEngine, tag := h.tag, bayTag := h.bayTag, status := status,
    aux := aux, rsvd := 0 }

/-- The error completion of a request (R60): for a GET or BATTEN a single GET_DATA that ends the series. -/
def errorFrame (h : Header) (status : Byte) : Frame :=
  let op := respOpcode h.opcode
  { hdr := respHdr h op status 0 0 (if op = opGetData then 0x8000000000000000 else 0), data := [] }

/-- An ACK that the operation was performed. -/
def ackFrame (h : Header) : Frame := { hdr := respHdr h opAck stOk 0 0 0, data := [] }

/-! ### Addresses (R102) -/

def fpaRack (a : W64) : Nat := fld a 56 8
def fpaNode (a : W64) : Nat := fld a 48 8
def fpaOffset (a : W64) : Nat := fld a 0 48

/-- An FPA from its fields. -/
def fpaOf (rack node offset : Nat) : W64 :=
  BitVec.ofNat 64 (rack % 256 * 2 ^ 56 + node % 256 * 2 ^ 48 + offset % 2 ^ 48)

/-- Bytes that a request touches at its home (R105). -/
def accessBytes (h : Header) : Nat :=
  match h.opcode.toNat with
  | 0x01 => 32 * [1, 2, 8].getD (fld h.attr 0 2) 0
  | 0x02 => 32 * [1, 2, 8].getD (fld h.attr 0 2) 0
  | 0x03 => if bitAt h.attr 3 then 8 else 4
  | 0x04 => 32
  | 0x05 => 16 * [1, 2, 8].getD (fld h.attr 0 2) 0
  | 0x10 => fld h.aux 0 9
  | 0x11 => fld h.aux 0 9
  | 0x20 => 32 * h.len.toNat
  | 0x21 => 32
  | _ => 0

/-- Page size of a batten list (R106). -/
def pageBytes (h : Header) : Nat := 4096 * 2 ^ fld h.attr 0 3

/-- The alignment of R105 and, for the 4 B aligned control accesses, of R342. -/
def alignedOk (h : Header) : Bool :=
  let o := fpaOffset h.fpa
  match h.opcode.toNat with
  | 0x10 => decide (o % 32 = 0 ∧ o % 256 + accessBytes h ≤ 256)
  | 0x11 => decide (o % 32 = 0 ∧ o % 256 + accessBytes h ≤ 256)
  | 0x12 => decide (o % pageBytes h = 0)
  | 0x01 => decide (o % accessBytes h = 0)
  | 0x02 => decide (o % accessBytes h = 0)
  | 0x03 => decide (o % accessBytes h = 0)
  | 0x04 => decide (o % 32 = 0)
  | 0x05 => decide (o % accessBytes h = 0)
  | _ => true

/-- Operations of a home (R78 step 2): the eave path. -/
def homeOp (op : Byte) : Bool := decide (op.toNat ∈ [0x01, 0x02, 0x03, 0x04, 0x05, 0x10, 0x11, 0x12, 0x13])

/-- Course-4 control requests, exempt from a bay's stop (R295). -/
def controlOp (op : Byte) : Bool := decide (op.toNat ∈ [0x30, 0x31, 0x32, 0x33])

/-- Access type of R289 for an opcode. -/
def accessType (op : Byte) : Nat :=
  match op.toNat with
  | 0x01 => 1
  | 0x05 => 1
  | 0x02 => 2
  | 0x03 => 3
  | 0x04 => 4
  | 0x10 => 5
  | 0x11 => 5
  | 0x12 => 6
  | 0x13 => 6
  | 0x20 => 7
  | 0x21 => 7
  | 0x30 => 8
  | 0x31 => 8
  | 0x32 => 8
  | 0x33 => 8
  | _ => 0

/-! ### Hashes (R81, R87, R184) -/

/-- XOR of the six-bit pieces of v[53:0]. -/
def fold6 (v : Nat) : Nat := (List.range 9).foldl (fun acc k => acc ^^^ (v >>> (6 * k)) % 64) 0

/-- The six-bit hash of an address, a source node and a seed (R81, R87). -/
def pathHash (fpa : W64) (src : Byte) (sd : BitVec 6) : Nat := fold6 (fpa.toNat / 4096 % 2 ^ 52) ^^^ src.toNat % 64 ^^^ sd.toNat

/-- Parity of a six-bit number. -/
def parity6 (s : Nat) : Nat := (List.range 6).foldl (fun acc k => acc ^^^ (s >>> k) % 2) 0

/-- Entry h of a spread map (R87). -/
def mapEntry (m : BitVec 256) (h : Nat) : Nat := fld m (4 * h) 4

/-- Eave and local address of a module memory address (R184). -/
def eaveOf (hashCfg : W32) (ma : Nat) : Nat × Nat :=
  let g := ma / 4096 % 2 ^ 29
  let hi := g / 32
  let f := (hi % 32) ^^^ (hi / 2 ^ 5 % 32) ^^^ (hi / 2 ^ 10 % 32) ^^^ (hi / 2 ^ 15 % 32) ^^^ (hi / 2 ^ 20 % 16)
  let low := g % 32
  (if bitAt hashCfg 8 then low ^^^ f ^^^ fld hashCfg 0 5 else low, hi * 4096 + ma % 4096)

/-- Module memory is 1.5 TiB (R103). -/
def moduleBytes : Nat := 0x18000000000

/-! ### Racks, bays and routes (R15 to R24) -/

/-- Global rack index (R17). -/
def rackIndex (c : Coord) : Nat := c.x.toNat + 8 * c.y.toNat + 40 * c.z.toNat

/-- SOF_BAY_SHAPE [17:0] of a shape (R36). -/
def shapePack (b : Shape) : BitVec 18 :=
  BitVec.ofNat 18 (b.org.x.toNat + b.org.y.toNat * 2 ^ 3 + b.org.z.toNat * 2 ^ 6 + b.sx.toNat * 2 ^ 8 + b.sy.toNat * 2 ^ 12
    + b.sz.toNat * 2 ^ 15)

/-- A shape from SOF_BAY_SHAPE [17:0]. -/
def shapeUnpack (w : BitVec 18) : Shape :=
  { org := { x := w.extractLsb' 0 3, y := w.extractLsb' 3 3, z := w.extractLsb' 6 2 }, sx := w.extractLsb' 8 4,
    sy := w.extractLsb' 12 3, sz := w.extractLsb' 15 3 }

/-- Racks of a bay. -/
def shapeRacks (b : Shape) : Nat := b.sx.toNat * b.sy.toNat * b.sz.toNat

/-- One axis of R20: the size within the torus, and whole or inside without the seam. -/
def axisOk (org size torus : Nat) : Bool :=
  decide (1 ≤ size ∧ size ≤ torus ∧ org < torus ∧ (size = torus ∨ org + size ≤ torus))

/-- The conditions of R20 on a torus of the given sizes. -/
def shapeOk (b : Shape) (t : Nat × Nat × Nat) : Bool :=
  match t with
  | (tx, ty, tz) =>
    axisOk b.org.x.toNat b.sx.toNat tx && axisOk b.org.y.toNat b.sy.toNat ty && axisOk b.org.z.toNat b.sz.toNat tz

/-- A coordinate relative to a bay's origin on an axis of `torus` racks; `none` outside the bay. -/
def axisRel (c org size torus : Nat) : Option Nat :=
  let d := (c + torus - org) % torus
  if c < torus ∧ org < torus ∧ d < size then some d else none

/-- Relative coordinates of a rack in a bay. -/
def shapeRel (b : Shape) (t : Nat × Nat × Nat) (c : Coord) : Option (Nat × Nat × Nat) :=
  match t with
  | (tx, ty, tz) =>
    match axisRel c.x.toNat b.org.x.toNat b.sx.toNat tx, axisRel c.y.toNat b.org.y.toNat b.sy.toNat ty,
      axisRel c.z.toNat b.org.z.toNat b.sz.toNat tz with
    | some x, some y, some z => some (x, y, z)
    | _, _, _ => none

/-- The rack index within a bay (R22). -/
def shapeIndexOf (b : Shape) (t : Nat × Nat × Nat) (c : Coord) : Option Nat :=
  (shapeRel b t c).map fun p => match p with | (x, y, z) => x + b.sx.toNat * (y + b.sy.toNat * z)

/-- Relative coordinates of a rack index within a bay. -/
def shapeOfIndex (b : Shape) (i : Nat) : Nat × Nat × Nat :=
  (i % b.sx.toNat, i / b.sx.toNat % b.sy.toNat, i / (b.sx.toNat * b.sy.toNat))

/-- Hops from `a` to `b` on one axis of a bay: 0 positive direction, 1 negative, `none` if equal (R24). -/
def axisDir (a b size : Nat) (whole : Bool) : Option Nat :=
  if a = b then none
  else if whole then (if (b + size - a) % size ≤ (a + size - b) % size then some 0 else some 1)
  else if a < b then some 0 else some 1

/-- The direction a frame takes (R24, R80): 0 +X, 1 −X, 2 +Y, 3 −Y, 4 +Z, 5 −Z; `none` where the racks are equal. -/
def routeDir (b : Shape) (t : Nat × Nat × Nat) (own dest : Nat × Nat × Nat) : Option Nat :=
  match t, own, dest with
  | (tx, ty, tz), (ax, ay, az), (bx, cy, cz) =>
    match axisDir ax bx b.sx.toNat (decide (b.sx.toNat = tx)) with
    | some d => some d
    | none =>
      match axisDir ay cy b.sy.toNat (decide (b.sy.toNat = ty)) with
      | some d => some (2 + d)
      | none => (axisDir az cz b.sz.toNat (decide (b.sz.toNat = tz))).map fun d => 4 + d

/-- The direction of a hip port (R15), 0 to 5 as in `routeDir`. -/
def hipDir (n : Nat) : Nat := (n - 128) / 2

/-- The port of the neighbour that R17 pairs with a hip port. -/
def hipPeer (n : Nat) : Nat := if (n - 128) / 2 % 2 = 0 then n + 2 else n - 2

/-- The neighbour of a rack in a direction, around the torus (R17). -/
def neighbour (t : Nat × Nat × Nat) (c : Coord) (dir : Nat) : Coord :=
  match t with
  | (tx, ty, tz) =>
    let move := fun (v n : Nat) (up : Bool) => if up then (v + 1) % n else (v + n - 1) % n
    match dir with
    | 0 => { c with x := BitVec.ofNat 3 (move c.x.toNat tx true) }
    | 1 => { c with x := BitVec.ofNat 3 (move c.x.toNat tx false) }
    | 2 => { c with y := BitVec.ofNat 3 (move c.y.toNat ty true) }
    | 3 => { c with y := BitVec.ofNat 3 (move c.y.toNat ty false) }
    | 4 => { c with z := BitVec.ofNat 2 (move c.z.toNat tz true) }
    | _ => { c with z := BitVec.ofNat 2 (move c.z.toNat tz false) }

/-- Whether a bay spans the axis of a direction whole. -/
def spansWhole (b : Shape) (t : Nat × Nat × Nat) (dir : Nat) : Bool :=
  match t with
  | (tx, ty, tz) =>
    match dir / 2 with
    | 0 => decide (b.sx.toNat = tx)
    | 1 => decide (b.sy.toNat = ty)
    | _ => decide (b.sz.toNat = tz)

/-- Whether a hop in a direction from relative coordinates stays inside the bay (R23). -/
def insideBay (b : Shape) (t : Nat × Nat × Nat) (own : Nat × Nat × Nat) (dir : Nat) : Bool :=
  spansWhole b t dir ||
  match own with
  | (x, y, z) =>
    match dir with
    | 0 => decide (x + 1 < b.sx.toNat)
    | 1 => decide (0 < x)
    | 2 => decide (y + 1 < b.sy.toNat)
    | 3 => decide (0 < y)
    | 4 => decide (z + 1 < b.sz.toNat)
    | _ => decide (0 < z)

/-- The role of a port number (R15). -/
def portRole (n : Nat) : Role := if n < 128 then .rafter else if n < 140 then .hip else .service

/-! ### Key frames and control words (R268, R342) -/

def keyAction (h : Header) : Nat := fld h.aux 0 4
def keySlot (h : Header) : BitVec 2 := BitVec.ofNat 2 (fld h.aux 4 2)
def keyRack (h : Header) : Byte := BitVec.ofNat 8 (fld h.aux 8 8)
def keyTagOf (h : Header) : W16 := BitVec.ofNat 16 (fld h.aux 16 16)
def keyGen (h : Header) : W32 := BitVec.ofNat 32 (fld h.aux 32 32)

/-- The 32-bit words of a control frame's data shingles (R342). -/
def ctrlWords (data : List (BitVec 256)) : List W32 :=
  data.flatMap fun w => (List.range 8).map fun i => BitVec.ofNat 32 (fld w (32 * i) 32)

/-- Words packed into data shingles, the rest of the last one zero. -/
def packWords (ws : List W32) : List Shingle :=
  (List.range ((ws.length + 7) / 8)).map fun k =>
    encodeShingle (BitVec.ofNat 256 ((List.range 8).foldl (fun acc i => acc + (ws.getD (8 * k + i) 0).toNat * 2 ^ (32 * i)) 0))

/-- A data shingle of bytes, least significant first. -/
def shingleOfBytes (l : List Byte) : Shingle := encodeShingle (BitVec.ofNat 256 (natOfBytes (l.take 32)))

end Sys2Proof.Machine
end

