-- ==== Sys2Proof/Machine/Ops.lean ====
section
/-! DEFINITION. The named operations over the state that the meanings share: ports, rack time, free values, outputs,
shingle memories, Gutter's counting and records, Purlin's buffer and queues, sending a frame, and the beginning of a
teardown. -/

namespace Sys2Proof.Machine

open Sys2Proof

/-! ### Ports, registers of both devices -/

/-- The key of a Jalem port in its table: rafter ports 0 to 17, tray ports 18 and 19 (R129, R131). -/
def jebPortKey : PortRef → Nat
  | .module n => n.val
  | .rafter q => q.val
  | .tray t => 18 + t.val

/-- A port of the state. -/
def State.port (s : State) (p : PortRef) : Port :=
  match p with
  | .module n => Tab.get Port.reset s.ports n.val
  | .rafter q => Tab.get Port.reset s.jeb.ports q.val
  | .tray t => Tab.get Port.reset s.jeb.ports (18 + t.val)

/-- The state with a port replaced. -/
def State.setPort (s : State) (p : PortRef) (x : Port) : State :=
  match p with
  | .module n => { s with ports := Tab.put Port.reset s.ports n.val x }
  | .rafter q => { s with jeb := { s.jeb with ports := Tab.put Port.reset s.jeb.ports q.val x } }
  | .tray t => { s with jeb := { s.jeb with ports := Tab.put Port.reset s.jeb.ports (18 + t.val) x } }

/-- The state with a port changed. -/
def State.updPort (s : State) (p : PortRef) (f : Port → Port) : State := s.setPort p (f (s.port p))

/-- The device of a port. -/
def portDev : PortRef → Dev
  | .module _ => .module
  | _ => .jalem

/-- Module port `n`. -/
def State.mport (s : State) (n : Nat) : Port := Tab.get Port.reset s.ports n

/-- A module port is ACTIVE. -/
def State.isActive (s : State) (n : Nat) : Bool := decide ((s.mport n).train.state = .active)

/-- A module port has its bit in GUT_FENCE_PORT (R297). -/
def State.fenced (s : State) (n : Nat) : Bool := bitAt s.gut.fencePorts n

/-- The 144 ports. -/
def allPorts : List (Fin 144) := List.finRange 144

/-! ### Time, free values, outputs -/

/-- Rack time of one device moved forward to a time in 0.2 ns, if REFCLK is present; never back. -/
def Tim.toTime (t : Tim) (at_ : Nat) : Tim := if t.refclkOk ∧ t.fifths < at_ then { t with fifths := at_ } else t

/-- Rack time of one device moved forward to the beginning of a beat. -/
def Tim.toBeat (t : Tim) (b : Nat) : Tim := t.toTime (b * 5120)

/-- Rack time of both devices moved forward to a time (log entry 8). -/
def State.toTime (s : State) (at_ : Nat) : State :=
  { s with tim := s.tim.toTime at_, jeb := { s.jeb with tim := s.jeb.tim.toTime at_ } }

/-- Rack time of both devices moved forward to the beginning of a beat (log entry 8). -/
def State.toBeat (s : State) (b : Nat) : State :=
  { s with tim := s.tim.toBeat b, jeb := { s.jeb with tim := s.jeb.tim.toBeat b } }

/-- The next free number (log entry 5). -/
def State.freeNat (s : State) : Nat := Config.freeNat s.fresh

/-- The next free 256-bit word (log entry 5). -/
def State.freeKey (s : State) : BitVec 256 := Config.freeKey s.fresh

/-- The counter of free values advanced by `n`. -/
def State.spend (s : State) (n : Nat) : State := { s with fresh := s.fresh + n }

/-- Something leaves the block. -/
def State.emit (s : State) (o : Output) : State := { s with outputs := s.outputs ++ [o] }

/-! ### Shingle memories (R54, R182, R183, R197) -/

/-- Shingles of one eave: 48 GiB. -/
def eaveShingles : Nat := 1610612736

/-- Index, among all stored shingles, of a module memory address. -/
def shingleIndex (hashCfg : W32) (ma : Nat) : Nat :=
  match eaveOf hashCfg ma with
  | (e, l) => e * eaveShingles + l / 32

/-- The module memory address of a stored shingle: the map of R184 read backwards. -/
def maOfIndex (hashCfg : W32) (i : Nat) : Nat :=
  let e := i / eaveShingles
  let l := i % eaveShingles * 32
  let hi := l / 4096
  let low := e ^^^ (eaveOf hashCfg (hi * 2 ^ 17)).1
  hi * 2 ^ 17 + low * 4096 + l % 4096

/-- The eave key pair in use, and the interleave that gives each shingle the address of its tweak (R197). -/
structure Cipher where
  pair : BitVec 512
  hashCfg : W32
deriving DecidableEq, Repr

/-- A memory as its home works on it: with the cipher of what is stored, if there is one. -/
structure Store where
  mem : Mem
  cipher : Option Cipher
deriving DecidableEq, Repr

/-- The eaves' memory, encrypted while EAV_CRYPT.ON. -/
def Eav.store (e : Eav) : Store :=
  { mem := e.mem, cipher := if e.cryptOn then e.key.map fun k => { pair := k, hashCfg := e.hashCfg } else none }

/-- The Jalem block's memory. -/
def Jeb.store (j : Jeb) : Store := { mem := j.mem, cipher := none }

/-- The 36 stored bytes of shingle `i`. A byte that nothing has written reads 0 (log entry 7). -/
def readCells (m : List Host.Cell) (i : Nat) : Shingle :=
  BitVec.ofNat 288 (natOfBytes ((upFrom (36 * i) 36).map fun a => Tab.get 0 m a))

/-- The stored bytes with shingle `i` replaced. -/
def writeCells (m : List Host.Cell) (i : Nat) (w : Shingle) : List Host.Cell :=
  (bytesOf w 36).zipIdx.foldl (fun t p => Tab.put 0 t (36 * i + p.2) p.1) m

/-- A word as it is stored at shingle `i` (R197). -/
def Store.protect (m : Store) (i : Nat) (w : Shingle) : Shingle :=
  match m.cipher with
  | none => w
  | some c => BitVec.ofNat 288 (natOfBytes (xtsEncrypt c.pair (maOfIndex c.hashCfg i / 32) (bytesOf w 36)))

/-- What a stored word at shingle `i` holds (R197). -/
def Store.reveal (m : Store) (i : Nat) (w : Shingle) : Shingle :=
  match m.cipher with
  | none => w
  | some c => BitVec.ofNat 288 (natOfBytes (xtsDecrypt c.pair (maOfIndex c.hashCfg i / 32) (bytesOf w 36)))

/-- Shingle `i` of a memory. -/
def readShingle (m : Store) (i : Nat) : Shingle := m.reveal i (readCells m.mem.cells i)

/-- Whether shingle `i` carries the poison marker (R183). -/
def markedAt (m : Store) (i : Nat) : Bool := Tab.get false m.mem.marked i || isMarked (readShingle m i)

/-- What a home finds in a stored shingle: its 288 bits as read out, and whether it is poisoned. The marker is removed, so the bits are those
that were stored with it (R183). -/
def loadShingle (m : Store) (i : Nat) : Shingle × Bool :=
  if markedAt m i then (flipMarker (readShingle m i), true) else (readShingle m i, false)

/-- The data of a stored shingle in correcting mode; `none` where it is marked or uncorrectable. -/
def loadData (m : Store) (i : Nat) : Option (BitVec 256) :=
  if markedAt m i then none else (decodeShingle (readShingle m i)).data

/-- A shingle stored, with the marker where it is poisoned (R183). -/
def storeShingle (m : Store) (i : Nat) (w : Shingle) (bad : Bool) : Store :=
  { m with mem := { cells := writeCells m.mem.cells i (m.protect i (if bad then flipMarker w else w))
                    marked := Tab.put false m.mem.marked i (bad && flashBad w) } }

/-- The canonical form of a memory: addresses strictly rising, nothing listed that equals what an unlisted place reads. -/
def Memory.wf (m : Mem) : Bool := Tab.wf 0 m.cells && Tab.wf false m.marked

/-! ### The Soffit log (R338) -/

/-- The time of a log entry: rack time in ns, or without SYNC the time since the module's start. -/
def State.logNs (s : State) : Nat := if s.tim.sync then s.ns else s.tim.up / 5

/-- An entry written to the log: a kind, a code that the spec does not list (free, log entry 5), data, and whether it is of bay scope. The
64 KiB ahead of the write position are erased. Thatch writes every entry but a hold-up capture. -/
def State.logEvent (s : State) (kind : Byte) (data : List W64) (scope : Bool := false) : State :=
  if !s.sof.thatchRun ∧ kind ≠ 6 then s
  else
    let x := s.sof
    let i := x.logNext.toNat
    let ahead := (i + 256) % 65536
    let e : LogEntry := { ns := BitVec.ofNat 64 s.logNs, kind := kind, code := BitVec.ofNat 32 s.freeNat, data := data, ofBay := scope && s.admitted }
    { s with
      sof := { x with log := Tab.put LogEntry.reset (Tab.put LogEntry.reset x.log i e) ahead LogEntry.reset, logNext := x.logNext + 1
                      logWrapped := x.logWrapped || decide (Tab.get LogEntry.reset x.log ahead ≠ LogEntry.reset)
                      logHoldup := x.logHoldup || decide (kind = 6) } }.spend 1

/-! ### Gutter: counting and records (R286, R289, R290) -/

/-- An event of a Gutter source: how many at once, and what its record holds. -/
structure Event where
  src : Nat
  count : Nat
  addr : W64
  node : Byte
  engine : Byte
  access : Nat
deriving DecidableEq, Repr

/-- One event of a source, with no request involved. -/
def eventOf (src : Nat) : Event := { src := src, count := 1, addr := 0, node := 0xFF, engine := 0xFF, access := 0 }

/-- An event about a link: the port in ADDR[7:0] (R289). -/
def linkEvent (src port : Nat) : Event := { eventOf src with addr := BitVec.ofNat 64 port, access := 9 }

/-- An event about a request (R289). -/
def requestEvent (src : Nat) (h : Header) : Event :=
  { src := src, count := 1, addr := h.fpa, node := h.srcNode, engine := h.srcEngine, access := accessType h.opcode }

/-- The window length of a source: 2^WIN beats, WIN above 32 acting as 32 (R307). -/
def winBeats (c : Src) : Nat := 2 ^ min (fld c.cfg 16 6) 32

/-- A source after its window has expired at beat `b` (R286). -/
def Src.expire (c : Src) (b : Nat) : Src :=
  match c.openAt with
  | some o => if o + winBeats c ≤ b then { c with openAt := none, inWin := 0 } else c
  | none => c

/-- The source after `k` events at beat `b`, and whether its window count has reached the threshold (R286). -/
def Src.take (c : Src) (b k : Nat) : Src × Bool :=
  let c := c.expire b
  let t := fld c.cfg 0 16
  let old := c.inWin.toNat
  let hit := decide (t ≠ 0 ∧ k ≠ 0 ∧ (t = 1 ∨ (old < t ∧ t ≤ old + k)))
  ({ c with total := satAdd c.total k, inWin := satAdd c.inWin k, severe := c.severe || hit,
            openAt := if k = 0 then c.openAt else some (c.openAt.getD b) }, hit)

/-- A record loaded: the first-error record while it is free, else the capture log (R289, R290). -/
def Gut.record (g : Gut) (r : Capture) (fatal : Bool) : Gut :=
  if bitAt g.first.info 63 then
    if g.caps.length < 16 then { g with caps := g.caps ++ [{ r with addr := 0 }] }
    else if fatal then { g with caps := g.caps.take 15 ++ [{ r with addr := 0 }] }
    else { g with dropped := satAdd g.dropped 1 }
  else { g with first := r }

/-- An event counted and recorded with at least the given severity: 0 counted, 1 severe, 2 fatal (R286, R287, R289). -/
def State.note (s : State) (e : Event) (sev code : Nat) : State :=
  match (Tab.get Src.zero s.gut.srcs e.src).take s.beat e.count with
  | (c, hit) =>
    let c := { c with severe := c.severe || decide (sev = 1) }
    let sev := max sev hit.toNat
    let r : Capture :=
      { addr := e.addr, info := infoWord e.src sev (bitAt c.cfg 24) e.node e.engine e.access code,
        ns := BitVec.ofNat 64 s.ns }
    let g := { s.gut with srcs := Tab.put Src.zero s.gut.srcs e.src c, alert := s.gut.alert || decide (1 ≤ sev) }
    let t : State := { s with gut := g.record r (decide (sev = 2)) }
    if sev = 1 then t.logEvent 1 [r.info, r.addr] (!bitAt c.cfg 24) else t

/-- Events counted at a source. -/
def State.count (s : State) (e : Event) : State := if e.count = 0 then s else s.note e 0 0

/-- A register access performed for a requester in band, whose events name the request (R289). -/
def State.inRequest (s : State) (h : Header) (act : State → State) : State :=
  let t := act { s with sof := { s.sof with request := some h } }
  { t with sof := { t.sof with request := s.sof.request } }

/-- The request of an in-band write of a register that a command gives without its frame: a CTRL_WR of the fabric manager to the module. The rack in
its FPA and its engine are the model's (DESIGN CHOICE, log entry 129). -/
def State.managerWrite (s : State) (addr : Nat) : Header :=
  { opcode := opCtrlWr, course := 4, sub := 0, len := 1, poison := 0, attr := 0, fpa := fpaOf s.sec.rack.toNat s.node addr,
    srcNode := s.sof.fmNode.getD 0xFF, srcRack := s.sec.rack, srcEngine := Config.managerEngine, tag := 0, bayTag := s.sec.tag, status := 0,
    aux := 0, rsvd := 0 }

/-- A write of a module's register performed for a requester. -/
def State.inAccess (s : State) (who : Requester) (d : Dev) (addr : Nat) (act : State → State) : State :=
  if who = .inBand ∧ d = .module ∧ s.sof.request = none then s.inRequest (s.managerWrite addr) act else act s

/-- A severe fault (R286). -/
def State.severe (s : State) (e : Event) : State := s.note e 1 0

/-! ### Received frames -/

/-- A frame that a command names taken from the frames that the port's laths delivered, where it stands first there. -/
def State.takeRx (s : State) (p : PortRef) (raw : RawFrame) : State :=
  s.updPort p fun x => if x.retry.rx.head? = some raw then { x with retry := { x.retry with rx := x.retry.rx.drop 1 } } else x

/-- Credit available to a port's transmitter on channel `v` (R63): grant less what was sent and not yet freed. -/
def Credit.avail (c : Credit) (v : Nat) : Nat := c.txGrant.getD v 0 - (c.txSent.getD v 0 - c.txFreed.getD v 0).toNat

/-- Data shingles with a nonzero syndrome, those with POISON set apart (R56). -/
def badSyndromes (h : Header) (data : List Shingle) : Nat :=
  (data.zipIdx.filter fun p => !poisoned h p.2 && flashBad p.1).length

/-- The event of a link at its port: at a block's port the link number of R153, and the block's node as the master (log entry 33). -/
def State.portEvent (s : State) (src : Nat) (p : PortRef) : Event :=
  let block := fun (k : Nat) => { linkEvent src k with node := BitVec.ofNat 8 s.jeb.node.toNat }
  match p with
  | .module n => linkEvent src n.val
  | .rafter q => block q.val
  | .tray t => block (24 + t.val)

/-- Syndromes counted at a receiving port of either device: PRT_FLASH_ERR, and source 0 (R56, R285). -/
def State.countFlash (s : State) (p : PortRef) (k : Nat) : State :=
  (s.updPort p fun x => { x with err := { x.err with flashErr := satAdd x.err.flashErr k } }).count { s.portEvent 0 p with count := k }

/-- Whether a port is a hip port whose lanes R23 holds in electrical idle. -/
def State.fencedLane (s : State) (p : PortRef) : Bool :=
  match p with
  | .module n => decide (portRole n.val = .hip) && (s.port p).laneIdle
  | _ => false

/-- Whether a port carries a frame (R46): it is ACTIVE, or what its laths delivered before a RETRAIN is the frame (R44 loses none). -/
def State.carries (s : State) (p : PortRef) (raw : RawFrame) : Bool :=
  decide ((s.port p).train.state = .active) || (decide ((s.port p).train.state = .retrain) && decide ((s.port p).retry.rx.head? = some raw))

/-- A link-local frame at a port: refused and counted as a fence violation on a lane that R23 holds idle, refused on any other port that carries
no frames (R16, R46), else acted on. -/
def State.takeLocal (s : State) (p : PortRef) (raw : RawFrame) (act : State → State) : State :=
  if s.fencedLane p then (s.takeRx p raw).count (s.portEvent 6 p)
  else if s.carries p raw then act (s.takeRx p raw) else s

/-! ### Purlin's buffer (R70 to R74, R98) -/

/-- Cells and descriptors in all (R69, R70). -/
def cellTotal : Nat := 1048576
def descTotal : Nat := 2097152

/-- The agents inside the module: eave groups 0 to 3, Gable, truss sequencer, Soffit (R72), and the bundling unit and
the Spar engines, which only receive (R96, R356). The Spar engine of port n is agent 8 + n. -/
def agGable : Nat := 4
def agTruss : Nat := 5
def agSoffit : Nat := 6
def agBundle : Nat := 7
def agSpar : Nat := 8

/-- An agent as a frame that came by port `n` finds it: each port has a Spar engine of its own (R78, R356). -/
def agentAt (a n : Nat) : Nat := if a = agSpar then agSpar + n else a

/-- Sources of frames: ingress port and virtual channel, or an internal agent (R72). -/
def portSource (n vc : Nat) : Nat := 12 * n + vc
def agentSource (a : Nat) : Nat := 1728 + a

/-- Queues: egress port and virtual channel, or internal agent and course (R76). -/
def portQueue (n vc : Nat) : Nat := 12 * n + vc
def agentQueue (a course : Nat) : Nat := 1728 + 6 * a + course

/-- Free entries of the shared pool (R72, R73). -/
def Pool.sharedFree (p : Pool) (total : Nat) : Nat := total - p.reserved - p.sharedUsed - p.quar

/-- Among entries `i`, `i + step`, … around the end, the first whose tag is FREE. -/
def firstFree (t : Tab Owner) (total step : Nat) : Nat → Nat → Nat
  | 0, i => i
  | n + 1, i => if Tab.get Owner.free t i = .free then i else firstFree t total step n ((i + step) % total)

/-- A descriptor for the next frame, from a free number: the spec does not say which of the free ones (log entry 5). -/
def Pool.pick (p : Pool) (total free : Nat) : Nat := firstFree p.tags total 1 (p.tags.length + 1) (free % total)

/-- An entry taken from the free list: IN_TRANSIT, with the ingress port and the beat of its allocation (R98). -/
def Pool.allocate (p : Pool) (i port beat : Nat) : Pool :=
  { p with tags := Tab.put Owner.free p.tags i (.inTransit port beat), used := Tab.put false p.used i true, free := p.free - 1,
           transit := p.transit + 1 }

/-- An entry in transit charged (R73) and tagged with its queue and serial (R77, R98). -/
def Pool.enqueue (p : Pool) (total i q : Nat) (serial : BitVec 24) (shared : Bool) : Pool :=
  let p := { p with tags := Tab.put Owner.free p.tags i (.queue q serial), transit := p.transit - 1, occ := Tab.upd 0 p.occ q (· + 1)
                    sharedUsed := p.sharedUsed + shared.toNat }
  { p with low := min p.low (p.sharedFree total) }

/-- An entry taken for a frame: allocated, and with its routing, which is the same action, tagged with a queue and serial (log entry 77). -/
def Pool.take (p : Pool) (total i port beat q : Nat) (serial : BitVec 24) (shared : Bool) : Pool :=
  (p.allocate i port beat).enqueue total i q serial shared

/-- An entry released (R74, R98). A quarantined one is out of every count but that of the pool, and never free again (R99). -/
def Pool.give (p : Pool) (i q : Nat) (shared : Bool) : Pool :=
  let p := { p with sharedUsed := p.sharedUsed - shared.toNat }
  if Tab.get Owner.free p.tags i = .quarantined then p
  else { p with tags := Tab.put Owner.free p.tags i .free, used := Tab.put false p.used i false, free := p.free + 1,
                occ := Tab.upd 0 p.occ q (· - 1) }

/-! ### Banks and column units (R69, R71) -/

/-- Banks of the buffer, cells of a bank, and column units of a bank (R69). -/
def bankCount : Nat := 128
def bankCells : Nat := 8192
def bankUnits : Nat := 8

/-- The column unit of shingle `k` of a cell: unit (k + ROT) mod 8 of bank c mod 128 (R69, R71). -/
def columnUnit (c rot k : Nat) : Nat := bankUnits * (c % bankCount) + (k + rot) % bankUnits

/-- Writes held in the column units of `n` shingles. -/
def heldWrites (held : List HeldWrite) (c rot n : Nat) : Nat :=
  ((List.range n).map fun k => (held.filter fun w => decide (w.unit = columnUnit c rot k)).length).sum

/-- The first number of a list with the least cost. -/
def leastOf (cost : Nat → Nat) (l : List Nat) : Nat := l.foldl (fun a i => if cost i < cost a then i else a) (l.headD 0)

/-- Whether a bank has a free cell. -/
def Pool.bankFree (p : Pool) (b : Nat) : Bool :=
  decide ((p.tags.filter fun t => decide (t.1 % bankCount = b ∧ t.2 ≠ .free)).length < bankCells)

/-- The cell and ROT of a frame of `n` data shingles (R71): the bank, then ROT, with the fewest held writes among banks with a free cell.
Equal choices, and the cell of the bank, go by a free number (log entry 5). -/
def Pool.pickCell (p : Pool) (held : List HeldWrite) (n free : Nat) : Nat × Nat :=
  let banks := (List.range bankCount).map fun i => (free + i) % bankCount
  let bank := leastOf (fun b => heldWrites held b 0 bankUnits) (banks.filter p.bankFree)
  let row := free / bankCount % bankCells
  let cell := firstFree p.tags cellTotal bankCount (p.tags.length + 1) (bankCount * row + bank)
  (cell, leastOf (fun r => heldWrites held cell r n) ((List.range bankUnits).map fun i => (free / cellTotal + i) % bankUnits))

/-- The core cycle, of 0.5 ns, of a time in units of 0.2 ns (R69). -/
def coreCycle (fifths : Nat) : Nat := fifths * 2 / 5

/-- The column units brought to a core cycle (R71): in each cycle a unit does one access, its reads before its held writes, oldest first;
no write waits more than four cycles (log entry 125). -/
def Pur.columnsAt (p : Pur) (now : Nat) : Pur :=
  let n := now - p.heldAt
  let waits := fun (w : HeldWrite × Nat) =>
    let before := ((p.held.take w.2).filter fun v => decide (v.unit = w.1.unit)).length
    decide (now < w.1.since + 4 ∧ n - Tab.get 0 p.reads w.1.unit ≤ before)
  { p with held := (p.held.zipIdx.filter waits).map Prod.fst, reads := Tab.mapAll 0 (· - n) p.reads, heldAt := now }

/-- A write put into the holding queue of its unit, of four writes: where it is full the oldest is performed. -/
def holdWrite (held : List HeldWrite) (w : HeldWrite) : List HeldWrite :=
  let same := held.filter fun v => decide (v.unit = w.unit)
  (if 4 ≤ same.length then held.eraseP fun v => decide (v.unit = w.unit) else held) ++ [w]

/-- The writes of a frame's `n` shingles, placed in their column units (R71). -/
def Pur.writeCell (p : Pur) (c rot n : Nat) : Pur :=
  let put := fun l k => holdWrite l { unit := columnUnit c rot k, cell := c, shingle := k, since := p.heldAt }
  { p with held := (List.range n).foldl put p.held }

/-- The reads of a frame's `n` shingles: one that is still held comes from the holding queue, any other takes a cycle of its unit (R71). -/
def Pur.readCell (p : Pur) (c rot n : Nat) : Pur :=
  let get := fun t k => if p.held.any fun w => decide (w.cell = c ∧ w.shingle = k) then t else Tab.upd 0 t (columnUnit c rot k) (· + 1)
  { p with reads := (List.range n).foldl get p.reads }

/-- Purlin with its column units at the present core cycle. -/
def State.columns (s : State) : Pur := s.pur.columnsAt (coreCycle s.tim.fifths)

/-- The shingles of an entry read from its cell. -/
def State.readEntry (s : State) (e : Entry) : State :=
  match e.cell with
  | some c => { s with pur := s.columns.readCell c e.rot.toNat e.frame.data.length }
  | none => s

def State.queue (s : State) (q : Nat) : Queue := Tab.get Queue.reset s.pur.queues q

def State.setQueue (s : State) (q : Nat) (x : Queue) : State :=
  { s with pur := { s.pur with queues := Tab.put Queue.reset s.pur.queues q x } }

/-- Shared cells that a queue holds (R73). -/
def Queue.sharedCells (q : Queue) : Nat := (q.items.filter fun e => e.shared && e.cell.isSome).length

/-- Whether a frame is charged to the shared pool (R73). -/
def State.chargesShared (s : State) (f : Frame) (q : Nat) : Bool :=
  let sf := s.pur.cells.sharedFree cellTotal
  (decide (f.data = []) || decide (0 < sf)) && decide (0 < s.pur.descs.sharedFree descTotal) &&
    decide ((s.queue q).sharedCells < sf / 2 ^ fld s.pur.shareCfg (4 * f.hdr.course.toNat) 4)

/-- Slots counted as freed for a port's credit return (R63, R74). -/
def State.freeSlots (s : State) (n : Fin 144) (vc k : Nat) : State :=
  s.updPort (.module n) fun p =>
    { p with cred := { p.cred with rxFreed := listUpd p.cred.rxFreed vc (· + BitVec.ofNat 16 k) } }

/-- What a frame brings into the buffer beside itself: its source, its ingress port, and its home address. -/
structure Arrive where
  src : Nat
  ingress : Option (Fin 144)
  ma : Nat
  eave : Nat
  ledger : Bool
  cut : Bool
deriving DecidableEq, Repr

/-- A frame of an internal agent. -/
def fromAgent (a : Nat) : Arrive :=
  { src := agentSource a, ingress := none, ma := 0, eave := 0, ledger := false, cut := false }

/-- A frame allocated, charged and linked to a queue (R70 to R77). -/
def State.link (s : State) (f : Frame) (q : Nat) (a : Arrive) : State :=
  let shared := s.chargesShared f q
  let free := s.freeNat
  let x := s.queue q
  let desc := s.pur.descs.pick descTotal free
  let cols := s.columns
  let place := s.pur.cells.pickCell cols.held f.data.length free
  let cell := if f.data = [] then none else some place.1
  let port := (a.ingress.map fun n => n.val).getD 0xFF
  let e : Entry :=
    { frame := f, desc := desc, cell := cell, rot := BitVec.ofNat 3 place.2, src := a.src, shared := shared,
      serial := x.tail, ingress := a.ingress, cut := a.cut, bundle := none, order := s.pur.arrivals, ma := a.ma, eave := a.eave, ledger := a.ledger }
  let pur := { s.pur with
    descs := s.pur.descs.take descTotal desc port s.beat q x.tail shared
    cells := match cell with
      | some c => s.pur.cells.take cellTotal c port s.beat q x.tail shared
      | none => s.pur.cells
    held := match cell with
      | some c => (cols.writeCell c place.2 f.data.length).held
      | none => cols.held
    reads := cols.reads
    heldAt := cols.heldAt
    arrivals := s.pur.arrivals + 1
    resDescs := if shared then s.pur.resDescs else Tab.upd 0 s.pur.resDescs a.src (· - 1)
    resCells := if shared ∨ cell = none then s.pur.resCells else Tab.upd 0 s.pur.resCells a.src (· - 1) }
  let s := ({ s with pur := pur }.setQueue q { x with tail := x.tail + 1, items := x.items ++ [e] }).spend 1
  match a.ingress with
  | some n => if shared then s.freeSlots n (a.src % 12) (frameSlots f) else s
  | none => s

/-- A frame's cell and descriptor returned to the free list, and its slots to the sender where a reserve held them (R74). -/
def State.unlink (s : State) (q : Nat) (e : Entry) : State :=
  let pur := { s.pur with
    descs := s.pur.descs.give e.desc q e.shared
    cells := match e.cell with
      | some c => s.pur.cells.give c q e.shared
      | none => s.pur.cells
    resDescs := if e.shared then s.pur.resDescs else Tab.upd 0 s.pur.resDescs e.src (· + 1)
    resCells := if e.shared ∨ e.cell = none then s.pur.resCells else Tab.upd 0 s.pur.resCells e.src (· + 1) }
  let s := { s with pur := pur }
  match e.ingress with
  | some n => if e.shared then s else s.freeSlots n (e.src % 12) (frameSlots e.frame)
  | none => s

/-- The queue with the given entries left: the head serial is that of the first, or the tail. R77 gives the head of a queue that loses its
first entry; where a teardown takes entries out of the middle it says nothing (log entry 78). -/
def Queue.keep (x : Queue) (items : List Entry) : Queue :=
  { x with items := items, head := match items with
      | [] => x.tail
      | e :: _ => e.serial }

/-- The head of a queue read and taken out of the buffer. -/
def State.dequeue (s : State) (q : Nat) : Option (Entry × State) :=
  match (s.queue q).items with
  | [] => none
  | e :: rest => some (e, ((s.readEntry e).setQueue q ((s.queue q).keep rest)).unlink q e)

/-- Every entry of a queue that meets a test leaves the buffer; the entries in order. -/
def State.purge (s : State) (q : Nat) (test : Entry → Bool) : List Entry × State :=
  let x := s.queue q
  let out := x.items.filter test
  (out, out.foldl (fun s e => s.unlink q e) (s.setQueue q (x.keep (x.items.filter fun e => !test e))))

/-! ### Sending -/

/-- A frame queued for a port of its own device: in Purlin from an internal agent, in the Jalem block's own port. -/
def State.sendOn (s : State) (agent : Nat) (p : PortRef) (f : Frame) : State :=
  match p with
  | .module n => s.link f (portQueue n.val (vcOf f.hdr)) (fromAgent agent)
  | p => s.updPort p fun x => { x with txq := x.txq ++ [f] }

/-- The node at the other side of a module port (R13, R14). -/
def State.partnerNode (s : State) (n : Fin 144) : Nat :=
  match portRole n.val with
  | .rafter => n.val
  | .service => ((s.sof.serviceNodes.find? fun p => decide (p.1 = n)).map fun p => p.2.toNat).getD 0
  | _ => s.node

/-- The bay's shape and the torus. -/
def State.bay (s : State) : Shape := shapeUnpack s.sec.shape
def State.relCoord (s : State) : Nat × Nat × Nat := (shapeRel s.bay s.sof.torus s.coord).getD (0, 0, 0)

/-- The rack index, within the bay, of the rack that a hip port faces. -/
def State.hipRack (s : State) (n : Fin 144) : Nat :=
  (shapeIndexOf s.bay s.sof.torus (neighbour s.sof.torus s.coord (hipDir n.val))).getD 0xFF

/-- The FPA of the partner of a port, at an offset. -/
def State.partnerFpa (s : State) (n : Fin 144) (offset : Nat) : W64 :=
  fpaOf (if portRole n.val = .hip then s.hipRack n else 0xFF) (s.partnerNode n) offset

/-- The header of a frame that Soffit makes (R289: engine 0xFB), with a tag of its own. -/
def State.soffitHdr (s : State) (op : Byte) (fpa aux : W64) (len : Nat) : Header :=
  { opcode := op, course := 4, sub := 0, len := BitVec.ofNat 4 len, poison := 0, attr := 0, fpa := fpa,
    srcNode := BitVec.ofNat 8 s.node, srcRack := s.sec.rack, srcEngine := 0xFB, tag := s.sof.sofTag, bayTag := s.sec.tag,
    status := 0, aux := aux, rsvd := 0 }

/-- A frame of Soffit sent on a port; Soffit's tag advances. -/
def State.soffitSend (s : State) (n : Fin 144) (h : Header) (data : List Shingle) : State :=
  { s with sof := { s.sof with sofTag := s.sof.sofTag + 1 } }.sendOn agSoffit (.module n) { hdr := h, data := data }

/-- A port that belongs to the bay: ACTIVE, with SEAL negotiated (R61). -/
def State.bayPort (s : State) (n : Fin 144) : Bool :=
  s.isActive n.val && bitAt (s.mport n.val).train.features featSeal && !(s.mport n.val).laneIdle

/-- A TEARDOWN frame on a port (R294). -/
def State.sendTeardown (s : State) (n : Fin 144) (action : Nat) : State :=
  let code := if action = 0 then fld s.gut.fatal 0 8 else 0
  s.soffitSend n (s.soffitHdr opTeardown (s.partnerFpa n 0) (packW 64 [(0, action), (8, min s.restarts 255), (16, code)]) 0) []

/-- A TEARDOWN frame on each of several ports, with the tag that each carries. -/
def State.sendAll (s : State) (ports : List (Fin 144)) (action : Nat) : List (Fin 144 × W16) × State :=
  ports.foldl (fun r n => (r.1 ++ [(n, r.2.sof.sofTag)], r.2.sendTeardown n action)) ([], s)

/-! ### A teardown's beginning (R294, R295, R300) -/

/-- Runs ended at once, what the sequencer holds discarded, and instances counted as abandoned (R250). -/
def Trs.stop (t : Trs) : Trs :=
  { t with insts := [], runs := [], readied := [], relays := [], err := satFld t.err 48 16 t.insts.length,
           comms := Tab.mapAll Comm.reset (fun c => { c with outstanding := 0 }) t.comms }

/-- Every Gable slot to ZEROIZING, whatever its state (R226). -/
def Gab.zeroize (g : Gab) : Gab :=
  { g with slots := (List.range 256).map fun n => (n, { Slot.reset with state := .zeroizing }),
           released := g.released ++ (List.range 256).filter fun n => decide (n ∉ g.released) }

/-- A bay teardown clears ARM and discards the shadow table's changes (R94). -/
def Pur.disarm (p : Pur) : Pur := { p with epochArm := false, shadow := p.lrt }

/-- The source with which a fatal fault is recorded (R287). Code 15 is given its source by the rule that raises it. -/
def fatalSource : Nat → Nat
  | 1 => 7 | 2 => 7 | 3 => 7 | 4 => 3 | 5 => 1 | 6 => 4 | 7 => 16 | 8 => 9 | 9 => 8 | 10 => 10 | 11 => 16
  | 12 => 22 | 13 => 22 | 14 => 12 | _ => 17

/-- Ports on which a STOP goes out: the rafter and service ports of the bay, and its hip ports but the one a STOP arrived on. -/
def State.stopPorts (s : State) (via : Option (Fin 144)) : List (Fin 144) :=
  allPorts.filter fun n => s.bayPort n && decide (some n ≠ via)

/-- The bay state replaced; a change is logged (R338). -/
def State.setBay (s : State) (st : BayState) : State :=
  if s.sec.state = st then s
  else ({ s with sec := { s.sec with state := st } }).logEvent 3 [BitVec.ofNat 64 st.code]

/-- The beginning of a teardown: steps 1 to 5 of R295. -/
def State.beginTeardown (s : State) (code : Nat) (o : FaultObj) (via : Option (Fin 144)) : State :=
  let s : State := { s with
    gut := { s.gut with fatal := fatalWord code o 1, fatalNs := BitVec.ofNat 64 s.ns, fatalOfBay := true, phase := .stopping,
                        endHeld := decide (3 ≤ s.restarts), toFence := if o = .nothing then [] else [o], resumeWait := [] }
    sec := if s.sec.state = .teardown ∨ s.sec.state = .held then s.sec else { s.sec with resumeTo := s.sec.state }
    trs := s.trs.stop
    gab := s.gab.zeroize
    pur := s.pur.disarm }
  let s := s.setBay .teardown
  let r := s.sendAll (s.stopPorts via) 0
  { r.2 with gut := { r.2.gut with stopWait := r.1.filter fun p => decide (portRole p.1.val ≠ .hip) } }

/-- A further fatal fault within a teardown (R298). -/
def State.coalesce (s : State) (o : FaultObj) : State :=
  { s with gut := { s.gut with
      fatal := satFld s.gut.fatal 18 8 1
      toFence := if o = .nothing ∨ o ∈ s.gut.toFence then s.gut.toFence else s.gut.toFence ++ [o]
      phase := if s.gut.phase = .quiescent ∨ s.gut.phase = .held then .draining else s.gut.phase } }

/-- The consequences of a fatal fault for the bay: a teardown, or an addition to the one in progress (R294, R298, R281). -/
def State.fatalFor (s : State) (code : Nat) (o : FaultObj) (via : Option (Fin 144)) : State :=
  if !s.admitted then s
  else if s.gut.phase = .none ∨ s.gut.phase = .resuming then s.beginTeardown code o via
  else s.coalesce o

/-- A fatal fault: recorded, counted, acted on and logged with GUT_FATAL (R287, R338). -/
def State.fatal (s : State) (code : Nat) (o : FaultObj) (e : Event) : State :=
  let s := (s.note e 2 code).fatalFor code o none
  s.logEvent 2 [s.gut.fatal] (!bitAt (Tab.get Src.zero s.gut.srcs e.src).cfg 24)

end Sys2Proof.Machine
end

