-- ==== Sys2Proof/Machine/Route.lean ====
section
/-! DEFINITION. Where Purlin sends a frame (R78 to R81), how a response and a refusal leave, the window lookup
(R121), the durable states (R201), the eave groups' service (R187), bundling (R95 to R97) and the loss of a node (R124). -/

namespace Sys2Proof.Machine

open Sys2Proof

/-! ### Ports that leave DISABLED (R23, R46, R366) -/

/-- A hip port that R23 holds in electrical idle: it faces no rack of the module's own bay. -/
def State.hipIdle (s : State) (n : Fin 144) : Bool :=
  decide (portRole n.val = .hip) && !(s.admitted && insideBay s.bay s.sof.torus s.relCoord (hipDir n.val))

/-- A port that leaves DISABLED: it looks for a partner, unless a fence holds it (R297). -/
def Port.up (x : Port) (fenced : Bool) : Port :=
  { x with
    laneIdle := false
    train := { x.train with state := if fenced then .held else .detect, tryWidth := x.train.limit, eqFails := 0, narrowOff := false } }

/-- The module runs, with Thatch: its used ports may leave DISABLED (R345, R346). -/
def State.running (s : State) : Bool := s.sof.started && s.sof.thatchRun && !s.pwr.off && !s.pwr.inputLost

/-- Every used port that R23 does not hold leaves DISABLED, while REFCLK is present (R46, R345, R366). -/
def State.portsUp (s : State) : State :=
  if s.tim.refclkOk ∧ s.running then
    (allPorts.filter fun n => (s.mport n.val).laneIdle && decide ((s.mport n.val).train.role ≠ .unused) && !s.hipIdle n).foldl
      (fun s n => s.updPort (.module n) fun x => x.up (s.fenced n.val)) s
  else s

/-! ### Destinations (R78 to R81) -/

/-- Where a frame goes: a port queue, an agent of the module, a lost node, or nowhere. -/
inductive Hop where
  | port (n : Fin 144)
  | agent (a : Nat)
  | lost
  | unroutable
deriving DecidableEq, Repr

/-- A port as a destination (R78 step 4). A hip port that is DOWN and not fenced stays one (R81). -/
def State.portDest (s : State) (n : Fin 144) : Hop :=
  let t := (s.mport n.val).train
  if s.fenced n.val then .unroutable
  else if (s.mport n.val).laneIdle ∧ portRole n.val = .hip then .unroutable
  else if t.state = .active ∨ t.state = .retrain then .port n
  else if t.state = .down ∨ (t.state = .held ∧ t.asDown) then (if portRole n.val = .hip then .port n else .lost)
  else .unroutable

/-- The hip port of a direction that a frame takes (R81). -/
def State.hipPort (s : State) (dir : Nat) (h : Header) : Option (Fin 144) :=
  let first := Fin.ofNat 144 (128 + 2 * dir)
  let second := Fin.ofNat 144 (129 + 2 * dir)
  let pick := if parity6 (pathHash h.fpa h.srcNode s.pur.pairSeed) = 0 then (first, second) else (second, first)
  if !s.fenced pick.1.val then some pick.1 else if !s.fenced pick.2.val then some pick.2 else none

/-- The agent that takes a local request or posted frame (R78 step 2, R236). -/
def localAgent (h : Header) (eave : Nat) : Nat :=
  if homeOp h.opcode then eave / 8
  else if h.opcode = opSeg ∨ h.opcode = opSignal then (if kindOf h = 1 then agGable else agTruss)
  else if h.opcode = opTest then agSpar
  else agSoffit

/-- The agent that issued a request, by SRC_ENGINE (R78, R289). -/
def issuer (h : Header) : Option Nat :=
  match h.srcEngine.toNat with
  | 0xFB => some agSoffit
  | 0xFC => some agSpar
  | 0xFD => some agTruss
  | 0xFE => some agBundle
  | _ => none

/-- The rack and node that a frame is routed by. -/
def routeNode (h : Header) : Nat × Nat :=
  if isResponse h then (h.srcRack.toNat, h.srcNode.toNat) else (fpaRack h.fpa, fpaNode h.fpa)

/-- Whether a rack index names the own rack. -/
def State.ownRack (s : State) (r : Nat) : Bool := decide (r = 0xFF) || decide (r = s.sec.rack.toNat)

/-- A CTRL_WR or CTRL_RD. -/
def isCtrl (h : Header) : Bool := decide (h.opcode = opCtrlWr) || decide (h.opcode = opCtrlRd)

/-- A request of the fabric manager to a Jalem block of the own rack, which Soffit relays (R343). -/
def State.isRelay (s : State) (h : Header) : Bool :=
  isCtrl h && decide (some h.srcNode = s.sof.fmNode) && s.ownRack h.srcRack.toNat && s.ownRack (fpaRack h.fpa) &&
    decide (fpaNode h.fpa < 0x80) && decide (fpaOffset h.fpa < 0x100000)

/-- A request to GUT_JEB_REPORT of this module (R293). -/
def State.isReport (s : State) (h : Header) : Bool :=
  decide (h.opcode = opCtrlWr) && s.ownRack (fpaRack h.fpa) && decide (fpaNode h.fpa = s.node) && decide (fpaOffset h.fpa = 0x00700600)

/-- Whether a node is declared lost (R124). -/
def State.nodeLost (s : State) (n : Nat) : Bool := decide (n < 128) && bitAt s.pur.nodeLost n

/-- The destination of a frame (R78). An entry with VALID 0 routes nothing, LOCAL or not, and no other module's node has a route here; nor has a node
from 0xA0 on (R102). Whether a node is declared lost is looked at once the route
is known (R120). -/
def State.dest (s : State) (h : Header) : Hop :=
  match routeNode h with
  | (rack, node) =>
    if !s.ownRack rack then
      match routeDir s.bay s.sof.torus s.relCoord (shapeOfIndex s.bay rack) with
      | none => .unroutable
      | some d =>
        match s.hipPort d h with
        | some n => s.portDest n
        | none => .unroutable
    else
      let e := Tab.get 0 s.pur.lrt node
      if 0xA0 ≤ node ∨ !bitAt e 9 ∨ (0x80 ≤ node ∧ node ≤ 0x8F ∧ node ≠ s.node) then .unroutable
      else if bitAt e 8 then
        if isResponse h then (match issuer h with
          | some a => .agent a
          | none => .unroutable)
        else .agent (localAgent h 0)
      else if !isResponse h && s.isRelay h then .agent agSoffit
      else match s.portDest (Fin.ofNat 144 (fld e 0 8)) with
        | .unroutable => .unroutable
        | d => if s.nodeLost node then .lost else d

/-! ### Responses and refusals -/

/-- A discarded response or posted frame, counted to source 14 (R120, R124). -/
def State.drop (s : State) (h : Header) : State := s.count (requestEvent 14 h)

/-- The responses that an agent can have asked for: Soffit by its KEY, TEARDOWN and CTRL frames, the Spar engines by TEST, the bundling unit
on course 0. Of others it makes nothing. -/
def agentExpects (a : Nat) (h : Header) : Bool :=
  (decide (a = agSoffit) && decide (h.course = 4) && (decide (h.opcode = opAck) || decide (h.opcode = opCtrlData))) ||
    (decide (a = agSpar) && decide (h.opcode = opTestEcho)) || (decide (a = agBundle) && decide (h.course = 0))

/-- A response sent to its requester, from the reserve of a source (R78). A POISONED completion counts to source 1 (R285). `spar` is the port whose
Spar engine asked, where one did. -/
def State.respondTo (s : State) (spar src : Nat) (f : Frame) : State :=
  let s := if f.hdr.status = stPoisoned then s.count (requestEvent 1 f.hdr) else s
  let a : Arrive := { fromAgent 0 with src := src }
  match s.dest f.hdr with
  | .port n => s.link f (portQueue n.val (vcOf f.hdr)) a
  | .agent g => if agentExpects g f.hdr ∧ spar < 144 then s.link f (agentQueue (agentAt g spar) f.hdr.course.toNat) a else s
  | _ => s.drop f.hdr

/-- A response to a request that is no TEST. -/
def State.respond (s : State) (src : Nat) (f : Frame) : State := s.respondTo 0 src f

/-- The error completion of a request (R118). The stream of a TEST is the port whose Spar engine generated it (R357). -/
def State.respondError (s : State) (src : Nat) (h : Header) (status : Byte) : State :=
  s.respondTo (if h.opcode = opTest then fld h.aux 32 8 else 0) src (errorFrame h status)

/-- An answer of an agent on the port by which its request came. -/
def State.answer (s : State) (n : Fin 144) (f : Frame) : State :=
  (if f.hdr.status = stPoisoned then s.count (requestEvent 1 f.hdr) else s).sendOn agSoffit (.module n) f

/-- The refusal of a collective frame reported to the truss sequencer (R249). -/
def State.trsReport (s : State) (h : Header) (code : Nat) : State :=
  let w : W64 := packW 64 [(0, fld h.aux 0 32), (32, fld h.aux 32 16), (48, h.srcNode.toNat), (56, code), (63, 1)]
  let lo := if code ≤ 5 then 0 else if code ≤ 7 then 16 else 32
  ({ s with trs := { s.trs with err := satFld s.trs.err lo 16 1, errFirst := if bitAt s.trs.errFirst 63 then s.trs.errFirst else w } }).count
    (requestEvent 11 h)

/-- A frame that a check refuses: a request is answered, a posted frame discarded, counted and, for a collective frame,
reported; a BATTEN_CONT has no response and is discarded and counted (R60, R117, R120, R249). `src` is the source whose reserve stands behind the
answer: at an ingress its port's own (DESIGN CHOICE, log entry 131). -/
def State.refuse (s : State) (src : Nat) (h : Header) (status : Byte) : State :=
  if isResponse h then s.drop h
  else if isPosted h then
    (if h.opcode = opTest then s.drop h else (s.drop h).trsReport h 8)
  else if h.opcode = opBattenCont then s.drop h
  else s.respondError src h status

/-! ### The drain of a teardown (R296) -/

/-- A TEARDOWN frame of Soffit's own waits at a port that can still send it. -/
def State.stopWaits (s : State) (n : Fin 144) : Bool :=
  (s.isActive n.val || decide ((s.mport n.val).train.state = .retrain)) &&
    (s.queue (portQueue n.val 8)).items.any fun e => decide (e.frame.hdr.opcode = opTeardown ∧ e.frame.hdr.srcEngine = 0xFB)

/-- Every STOP of this teardown has left: the phase STOPPING has done its part. -/
def State.stopsSent (s : State) : Bool := allPorts.all fun n => !s.stopWaits n

/-- A queued frame that the drain takes out: every request but the exempted control requests of course 4. -/
def drained (e : Entry) : Bool := !isResponse e.frame.hdr && !controlOp e.frame.hdr.opcode

/-- A frame taken out: a request is answered TEARDOWN; a posted frame goes, and so does the rest of a batten's list. Behind the answer stands Soffit's
reserve (DESIGN CHOICE, log entry 131). -/
def State.drainOne (s : State) (e : Entry) : State :=
  let h := e.frame.hdr
  if isPosted h ∨ h.opcode = opBattenCont then s else s.respondError (agentSource agSoffit) h stTeardown

/-- A response or a control frame that waits at a port which cannot send it: discarded and counted (R78; log entry 97). -/
def State.drainStuck (s : State) (e : Entry) : State := s.drop e.frame.hdr

/-- One queue drained. At a port that is neither ACTIVE nor in RETRAIN nothing is left: what waits there has nowhere to go. -/
def State.drainQueue (s : State) (q : Nat) : State :=
  match s.purge q drained with
  | (out, s) =>
    let s := out.foldl State.drainOne s
    let st := (s.mport (q / 12)).train.state
    if q < 1728 ∧ st ≠ .active ∧ st ≠ .retrain then
      match s.purge q fun _ => true with
      | (rest, s) => rest.foldl State.drainStuck s
    else s

/-- Phase DRAINING, which follows STOPPING: every queue of Purlin drained. -/
def State.drain (s : State) : State :=
  let s := (s.pur.queues.map Prod.fst).foldl State.drainQueue s
  if s.gut.phase = .stopping then { s with gut := { s.gut with phase := .draining } } else s

/-- In a teardown, the drain as far as it may go: in DRAINING, or in STOPPING once every STOP has left. -/
def State.drainNow (s : State) : State :=
  if s.gut.phase = .draining ∨ (s.gut.phase = .stopping ∧ s.stopsSent) then s.drain else s

/-! ### The window table (R121) -/

def Window.valid (w : Window) : Bool := bitAt w.base 0
def Window.lo (w : Window) : Nat := fld w.base 16 32 * 2 ^ 16
def Window.hi (w : Window) : Nat := fld w.limit 16 32 * 2 ^ 16 + 0xFFFF
def Window.covers (w : Window) (off n : Nat) : Bool := w.valid && decide (w.lo ≤ off ∧ off + n ≤ w.hi + 1)

/-- Whether an entry admits a source node of a rack index. -/
def Window.admits (w : Window) (node rack : Nat) : Bool :=
  decide (fld w.src 0 8 ≤ node ∧ node ≤ fld w.src 8 8 ∧ fld w.src 16 8 ≤ rack ∧ rack ≤ fld w.src 24 8)

def Window.ledger (w : Window) : Bool := bitAt w.attr 3

/-- The right that an operation needs (R105): 0 RD, 1 WR, 2 AT. -/
def rightOf (op : Byte) : Nat :=
  match op.toNat with
  | 0x01 => 0
  | 0x05 => 0
  | 0x11 => 0
  | 0x12 => 0
  | 0x03 => 2
  | 0x04 => 2
  | _ => 1

/-- The nodes in whose name a request is made: its own, or the listed sources of a bundle (R96, R97). -/
def requestNodes (h : Header) : List Nat :=
  if isBundle h ∧ (h.opcode = opAtomic ∨ h.opcode = opFadd) then
    (List.range (fld h.aux 57 3 + 1)).map fun i => fld h.aux (7 * i) 7
  else [h.srcNode.toNat]

/-- The deciding entry for an access, or the code of R121. -/
def windowFor (wins : Tab Window) (ownRack : Nat) (h : Header) (off n : Nat) : Except Byte Window :=
  let rack := if h.srcRack = 0xFF then ownRack else h.srcRack.toNat
  let cands := (wins.map Prod.snd).filter fun w => w.covers off n
  if cands = [] then .error stNoWindow
  else
    let picks := (requestNodes h).map fun node => cands.find? fun w => w.admits node rack
    if picks.all fun p => p.any fun w => bitAt w.attr (rightOf h.opcode) then
      match picks.head? with
      | some (some w) => .ok w
      | _ => .error stNoRight
    else .error stNoRight

/-- The home address of an offset (R121 step 6). -/
def Window.home (w : Window) (off : Nat) : Nat := fld w.loc 16 32 * 2 ^ 16 + (off - w.lo)

/-- The module memory address of an access: in a ledger window that of the accumulators (R191). -/
def Window.moduleAddr (w : Window) (off : Nat) : Nat :=
  if w.ledger then
    let d := off - w.lo
    fld w.loc 16 25 * 2 ^ 16 + 4096 * (d / 256) + 12 * (d % 256)
  else fld w.loc 16 25 * 2 ^ 16 + (off - w.lo)

/-- The mode check (R111, R112, step 8 of R120). -/
def modeOk (h : Header) (w : Window) : Bool :=
  match h.opcode.toNat with
  | 0x04 => decide (bitAt h.attr 1 = w.ledger) && !(bitAt h.attr 0 && bitAt h.attr 1)
  | 0x03 => !w.ledger
  | 0x05 => !w.ledger
  | _ => true

/-! ### Durable regions (R201) -/

def Dur.lo (d : Dur) : Nat := fld d.base 21 20 * 2 ^ 21
def Dur.hi (d : Dur) : Nat := fld d.limit 21 20 * 2 ^ 21 + (2 ^ 21 - 1)

/-- The state of the region that holds a module memory address. -/
def Eav.durAt (e : Eav) (ma : Nat) : DurState :=
  ((e.durs.find? fun p => decide (p.2.state ≠ .empty ∧ p.2.lo ≤ ma ∧ ma ≤ p.2.hi)).map fun p => p.2.state).getD .empty

/-- The table of R201: a code where the state refuses the operation. -/
def durCheck (st : DurState) (op : Byte) : Option Byte :=
  match st, rightOf op with
  | .empty, _ => none
  | .lost, _ => some stHomeFault
  | .loading, 2 => some stNoRight
  | .loading, _ => none
  | .sealing, 0 => none
  | .sealing, _ => some stNoRight
  | .sealed, 0 => none
  | .sealed, _ => some stNoRight
  | .silvering, 0 => some stHomeFault
  | .silvering, 1 => none
  | .silvering, _ => some stNoRight
  | .verifying, 0 => some stHomeFault
  | .verifying, _ => some stNoRight

def State.eave (s : State) (n : Nat) : Eave := Tab.get Eave.reset s.eav.eaves n

def State.setEave (s : State) (n : Nat) (e : Eave) : State :=
  { s with eav := { s.eav with eaves := Tab.put Eave.reset s.eav.eaves n e } }

/-- The checks of R186 for one access: the window, the durable state, the mode, the eave. -/
def State.homeCheck (s : State) (h : Header) (off n : Nat) : Except Byte (Nat × Nat × Bool) :=
  match windowFor s.eav.wins s.sec.rack.toNat h off n with
  | .error c => .error c
  | .ok w =>
    let ma := w.moduleAddr off
    let e := (eaveOf s.eav.hashCfg ma).1
    match durCheck (s.eav.durAt ma) h.opcode with
    | some c => .error c
    | none =>
      if !modeOk h w then .error stModeMismatch
      else if (s.eave e).failed then .error stHomeFault
      else .ok (ma, e, w.ledger)

/-! ### The eave groups (R123, R187) -/

def State.group (s : State) (g : Nat) : Group := Tab.get Group.reset s.eav.groups g

def State.setGroup (s : State) (g : Nat) (x : Group) : State :=
  { s with eav := { s.eav with groups := Tab.put Group.reset s.eav.groups g x } }

/-- A bundle that leaves counts as sent (R101). -/
def State.countBundle (s : State) (e : Entry) : State :=
  if e.bundle.isSome then { s with pur := { s.pur with bundleCount := satFld s.pur.bundleCount 32 32 1 } } else s

/-- The line of a request at its home: 256 B of window space (R123, R187). -/
def Entry.line (e : Entry) : Nat := if e.ledger then e.ma / 4096 * 16 else e.ma / 256

/-- Whether the head of a group's course queue can enter a home queue now. Batten frames wait for the batten unit. -/
def State.canServe (s : State) (g c : Nat) : Bool :=
  match (s.queue (agentQueue g c)).items with
  | [] => false
  | e :: _ =>
    decide (e.frame.hdr.opcode ≠ opBatten ∧ e.frame.hdr.opcode ≠ opBattenCont) && decide ((s.eave e.eave).homeQ.length < 1024)

/-- The course that a group serves next (R187): course 0 until it has taken half of the beat's slots while others wait,
then courses 1 to 5 in turn. -/
def State.nextCourse (s : State) (g : Nat) : Option Nat :=
  let x := s.group g
  let others := ((List.range 5).map fun i => (x.turn + i - 1) % 5 + 1).filter fun c => s.canServe g c
  if s.canServe g 0 then
    match others with
    | [] => some 0
    | c :: _ => if 2 * (if x.beat = s.beat then x.taken else 0) < Config.groupSlots then some 0 else some c
  else others.head?

/-- The head of a course queue moved to its eave's home queue; to a failed eave, answered HOME_FAULT (R189). -/
def State.serveOne (s : State) (g c : Nat) : State :=
  match s.dequeue (agentQueue g c) with
  | none => s
  | some (e, s) =>
    let x := s.group g
    let taken := if x.beat = s.beat then x.taken else 0
    let s := s.setGroup g { x with beat := s.beat, taken := if c = 0 then taken + 1 else taken,
                                   turn := if c = 0 then x.turn else c % 5 + 1 }
    let v := s.eave e.eave
    if v.failed then s.refuse (agentSource g) e.frame.hdr stHomeFault
    else
      let q := v.homeQ ++ [e]
      let pend := (q.filter fun r => decide (r.line = e.line)).length
      let peak := setFld v.linePeak 0 11 (max (fld v.linePeak 0 11) q.length)
      (s.setEave e.eave { v with homeQ := q, linePeak := setFld peak 16 7 (max (fld peak 16 7) (min pend 127)),
                                 lastDone := if v.homeQ = [] then s.beat else v.lastDone }).countBundle e

/-- A group serves its queues as far as the home queues take requests. -/
def State.serve (s : State) (g : Nat) : Nat → State
  | 0 => s
  | n + 1 => match s.nextCourse g with
    | none => s
    | some c => (s.serveOne g c).serve g n

/-- Requests that wait in a group's queues. -/
def State.groupLoad (s : State) (g : Nat) : Nat :=
  (List.range 6).foldl (fun acc c => acc + (s.queue (agentQueue g c)).items.length) 0

def State.serveGroup (s : State) (g : Nat) : State := s.serve g (s.groupLoad g)

/-! ### Bundling (R95, R96) -/

/-- An operation that Purlin bundles: integer add, min and max, and arrival-mode FADD, as enabled. -/
def State.bundles (s : State) (h : Header) : Bool :=
  (decide (h.opcode = opAtomic) && decide (fld h.attr 0 3 ≤ 2) && bitAt s.pur.bundleCtrl 0) ||
  (decide (h.opcode = opFadd) && !bitAt h.attr 1 && bitAt s.pur.bundleCtrl 1)

/-- Two operands of a bundle combined (R96). -/
def mergeOperand (h : Header) (a b : BitVec 256) : BitVec 256 :=
  if h.opcode = opFadd then faddShingle (bitAt h.attr 0) a b
  else
    let w := if bitAt h.attr 3 then 64 else 32
    BitVec.ofNat 256 (atomicNew (fld h.attr 0 3) w (bitAt h.attr 4) (fld a 0 w) (fld b 0 w) 0)

/-- AUX of a bundle: the source nodes in merge order and the count less one (R96). -/
def bundleAux (parts : List (Header × BitVec 256)) : W64 :=
  packW 64 ((parts.zipIdx.map fun p => (7 * p.2, p.1.1.srcNode.toNat % 128)) ++ [(57, parts.length - 1)])

/-- The header of a bundle. -/
def State.bundleHdr (s : State) (h : Header) (index : Nat) (parts : List (Header × BitVec 256)) : Header :=
  { h with srcNode := BitVec.ofNat 8 s.node, srcRack := s.sec.rack, srcEngine := 0xFE, tag := BitVec.ofNat 16 index,
           aux := bundleAux parts }

/-- The first free index of the bundle table, from a free number. -/
def State.bundleIndex (s : State) : Nat :=
  let total := min Config.bundleEntries 65536
  let start := s.freeNat % total
  ((List.range total).map fun i => (start + i) % total).find? (fun i => s.pur.bundles.all fun b => decide (b.index ≠ i)) |>.getD 0

/-- Whether a waiting entry takes a later frame into a bundle (R95). A frame whose operand is uncorrectable merges with none, as the waiting one or
as the later one (DESIGN CHOICE, log entry 109). -/
def State.mergesWith (s : State) (e : Entry) (f : Frame) : Bool :=
  let h := e.frame.hdr
  (e.ingress.any fun n => decide (portRole n.val = .rafter)) && !e.cut &&
    decide (h.fpa = f.hdr.fpa ∧ h.opcode = f.hdr.opcode ∧ h.attr = f.hdr.attr) && decide (h.poison = 0 ∧ f.hdr.poison = 0) &&
    (match e.bundle with
     | some i => s.pur.bundles.any fun b => decide (b.index = i ∧ b.parts.length < 8)
     | none => decide (s.pur.bundles.length < Config.bundleEntries)) &&
    ((e.frame.data.headD 0 |> decodeShingle).data.isSome)

/-- A later frame merged into a waiting entry. -/
def State.mergeInto (s : State) (q : Nat) (e : Entry) (f : Frame) (w : BitVec 256) : State :=
  let first := ((decodeShingle (e.frame.data.headD 0)).data).getD 0
  let index := e.bundle.getD s.bundleIndex
  let old := (s.pur.bundles.find? fun b => decide (b.index = index)).map (·.parts)
  let parts := old.getD [(e.frame.hdr, first)] ++ [(f.hdr, w)]
  let e' := { e with frame := { hdr := s.bundleHdr e.frame.hdr index parts, data := [encodeShingle (mergeOperand f.hdr first w)] },
                     bundle := some index }
  let x := s.queue q
  let s := s.setQueue q { x with items := x.items.map fun r => if r.desc = e.desc then e' else r }
  ({ s with pur := { s.pur with
      bundles := { index := index, parts := parts } :: s.pur.bundles.filter fun b => decide (b.index ≠ index)
      bundleCount := satFld s.pur.bundleCount 0 32 1 } }).spend 1

/-- A frame from rafter port `n` merged into a waiting frame of its queue, if one takes it (R95). -/
def State.tryMerge (s : State) (q : Nat) (n : Fin 144) (f : Frame) (linkOk : Bool) : Option State :=
  if portRole n.val = .rafter ∧ s.bundles f.hdr ∧ (linkOk ∨ f.hdr.opcode = opAtomic) then
    match (s.queue q).items.find? fun e => s.mergesWith e f, (decodeShingle (f.data.headD 0)).data with
    | some e, some w => some (s.mergeInto q e f w)
    | _, _ => none
  else none

/-! ### Lost nodes (R124) -/

/-- TARGET_LOST for every request sent on port `n` and not answered, and for those queued for it; the rest of the queues
discarded and counted (R124, R125). Behind the answers stands Soffit's reserve (DESIGN CHOICE, log entry 131). -/
def State.answerLost (s : State) (n : Fin 144) : State :=
  let pend := (s.mport n.val).pendLog
  let s := s.updPort (.module n) fun p => { p with pendLog := [] }
  let s := pend.foldl (fun s e => s.respondError (agentSource agSoffit) e.hdr stTargetLost) s
  (List.range 12).foldl (fun s v =>
    match s.purge (portQueue n.val v) (fun _ => true) with
    | (out, s) => out.foldl (fun s e =>
        if isResponse e.frame.hdr ∨ isPosted e.frame.hdr ∨ e.frame.hdr.opcode = opBattenCont then s.drop e.frame.hdr
        else s.respondError (agentSource agSoffit) e.frame.hdr stTargetLost) s) s

/-- The module declares an accelerator node lost (R124): its bit, a fatal fault, and the answers. -/
def State.declareLost (s : State) (n : Fin 128) : State :=
  if s.nodeLost n.val then s
  else
    let s := { s with pur := { s.pur with nodeLost := setFld s.pur.nodeLost n.val 1 1 } }
    (s.fatal 7 (.node (BitVec.ofNat 7 n.val)) (eventOf 16)).answerLost (Fin.ofNat 144 n.val)

/-- What a module port that enters DOWN, or HELD out of RETRAIN, brings about by its role (R45). -/
def State.moduleDown (s : State) (n : Fin 144) : State :=
  if h : n.val < 128 then s.declareLost ⟨n.val, h⟩
  else if n.val < 140 then s.fatal 4 (.port n) (linkEvent 3 n.val)
  else (s.severe (linkEvent 3 n.val)).answerLost n

end Sys2Proof.Machine
end

