-- ==== Sys2Proof/Machine/Purlin.lean ====
section
/-! DEFINITION. Purlin: a received frame checked and routed (R60, R78, R83, R120, R186), bundles split (R97), the valley
audit (R98 to R100), route epochs (R89 to R94), and the declaration of a lost node (R124, R126). -/

namespace Sys2Proof.Machine

open Sys2Proof

/-! ### Entering a port queue -/

/-- Whether a frame to hip port `n` enters its ring direction: it does not arrive from the opposite side of the same axis (R82). -/
def entersRing (n : Fin 144) (ingress : Option (Fin 144)) : Bool :=
  match ingress with
  | some i => decide (portRole i.val ≠ .hip) || decide (hipDir i.val ≠ hipDir n.val ^^^ 1)
  | none => true

/-- Credit that a frame of `k` slots needs at port `n` (R63, R82). -/
def State.creditNeed (s : State) (n : Fin 144) (ingress : Option (Fin 144)) (k : Nat) : Nat :=
  if portRole n.val = .hip ∧ spansWhole s.bay s.sof.torus (hipDir n.val) ∧ entersRing n ingress then k + 9 else k

/-- Whether a frame is cut through to port `n` (R83). -/
def State.cutThrough (s : State) (n i : Fin 144) (f : Frame) : Bool :=
  let x := s.mport n.val
  let v := vcOf f.hdr
  decide ((s.queue (portQueue n.val v)).items = []) && decide (x.train.width.toNat ≤ (s.mport i.val).train.width.toNat) &&
    decide (x.train.state = .active) && decide (s.creditNeed n (some i) (frameSlots f) ≤ x.cred.avail v)

/-- A frame linked to a port's queue. A SEG with SIG to a link without TILESIG goes with SIG clear, and a SIGNAL of the
same KIND and AUX follows it (R51), which came by no ingress (DESIGN CHOICE, log entry 132). -/
def State.toPort (s : State) (n : Fin 144) (f : Frame) (a : Arrive) : State :=
  let q := portQueue n.val (vcOf f.hdr)
  if f.hdr.opcode = opSeg ∧ bitAt f.hdr.attr 7 ∧ !bitAt (s.mport n.val).train.features featTileSig then
    (s.link { f with hdr := { f.hdr with attr := setFld f.hdr.attr 7 1 0 }, err := 0 } q a).link
      { hdr := { f.hdr with opcode := opSignal, len := 0, poison := 0, attr := setFld f.hdr.attr 7 1 0 }, data := [] } q
      { fromAgent 0 with src := a.src }
  else s.link f q a

/-! ### A frame on its way in -/

/-- KINDs that a module takes for its own node (R234, R236, R371). -/
def kindOk (h : Header) : Bool :=
  if h.opcode = opSeg then decide (kindOf h ∈ [0, 1, 3]) else decide (kindOf h ∈ [0, 3, 4, 5])

/-- The ACK of a KEY frame of this module, which step 2 of R120 leaves alone (R269). -/
def State.isKeyAck (s : State) (n : Fin 144) (h : Header) : Bool :=
  decide (h.opcode = opAck) && decide (h.course = 4) && decide (h.srcEngine = 0xFB) &&
    ((s.sec.install.any fun i => i.waits.any fun w => decide (w.port = n ∧ w.tag = h.tag)) ||
      decide ((n, h.tag) ∈ s.sec.destroyWait))

/-- What a port of an admitted bay carries before its sealing is active (R260). -/
def keyTraffic (h : Header) : Bool :=
  decide (h.opcode = opKey) || decide (h.opcode = opTeardown) || (decide (h.opcode = opAck) && decide (h.course = 4))

/-- A port's sealing is active. -/
def Port.sealed (x : Port) : Bool := x.sealing.txOn && x.sealing.rxOn

/-- What may leave the rack (R104): PUT and GET, and the SEG and SIGNAL frames of truss programs. -/
def leavesRack (h : Header) : Bool :=
  decide (h.opcode = opPut) || decide (h.opcode = opGet) || decide (h.opcode = opSeg) || decide (h.opcode = opSignal)

/-- A port of an admitted bay refuses everything but the traffic of its keys until its sealing is active (R260). That this stands with the
bay tag's check, as its code does, is the model's reading (log entry 36). -/
def State.awaitsKeys (s : State) (n : Fin 144) (h : Header) : Bool := s.admitted && !(s.mport n.val).sealed && !keyTraffic h

/-- The checks of R120 at an ingress port before routing: `none` where all pass. -/
def State.ingressCheck (s : State) (n : Fin 144) (h : Header) : Option Byte :=
  let x := s.mport n.val
  let foreign := !s.ownRack (fpaRack h.fpa)
  if !isResponse h && s.stopped && !controlOp h.opcode then some stTeardown
  else if !formOk h x.train.features false then some stBadRequest
  else if s.awaitsKeys n h || (!s.isKeyAck n h && (!s.admitted || decide (h.bayTag ≠ s.sec.tag))) then some stBayMismatch
  else if isResponse h ∨ portRole n.val = .hip then none
  else if !decide (fpaRack h.fpa = 0xFF ∨ fpaRack h.fpa < shapeRacks s.bay) then some stRackRange
  else if foreign ∧ !leavesRack h then some stNotLocal
  else if (h.opcode = opPut ∨ h.opcode = opGet) ∧ h.course ≠ (if foreign then 3 else 2) then some stBadRequest
  else if !alignedOk h then some stMisaligned
  else none

/-- The window of a batten list's page array base, looked up without any right (R186). -/
def State.battenBase (s : State) (h : Header) : Option Nat :=
  let off := fpaOffset h.fpa
  ((s.eav.wins.map Prod.snd).find? fun w => w.covers off 1).map fun w => w.moduleAddr off

/-- A request on the eave path (R186): checked, and linked to its group's queue, where it may join a bundle. -/
def State.toEave (s : State) (n : Fin 144) (f : Frame) (a : Arrive) : State :=
  let h := f.hdr
  let vc := vcOf h
  let course := h.course.toNat
  if h.opcode = opBatten ∨ h.opcode = opBattenCont then
    match s.battenBase h with
    | none => (s.freeSlots n vc (frameSlots f)).refuse a.src h stNoWindow
    | some ma => s.link f (agentQueue ((eaveOf s.eav.hashCfg ma).1 / 8) course) { a with ma := ma }
  else
    match s.homeCheck h (fpaOffset h.fpa) (accessBytes h) with
    | .error c => (s.freeSlots n vc (frameSlots f)).refuse a.src h c
    | .ok (ma, e, ledger) =>
      let q := agentQueue (e / 8) course
      match s.tryMerge q n f true with
      | some t => t.freeSlots n vc (frameSlots f)
      | none => (s.link f q { a with ma := ma, eave := e, ledger := ledger }).serveGroup (e / 8)

/-- An ACK of a TEARDOWN frame of this module ends its wait (R296, R299). -/
def State.teardownAck (s : State) (n : Fin 144) (h : Header) : Option State :=
  let k := (n, h.tag)
  if h.opcode = opAck ∧ h.course = 4 ∧ h.srcEngine = 0xFB ∧ (k ∈ s.gut.stopWait ∨ k ∈ s.gut.resumeWait) then
    some { s with gut := { s.gut with stopWait := s.gut.stopWait.erase k, resumeWait := s.gut.resumeWait.erase k } }
  else none

/-- The counters that a Jalem block answers with: the 16-bit fields of JEB_ERR_0, JEB_ERR_1 and JEB_ORD_ERR (R292). -/
def pollTotal (f : Frame) : Nat :=
  if f.hdr.opcode = opCtrlData ∧ f.hdr.status = stOk then
    (((decodeData f).headD none).map fun w => ((List.range 11).map fun k => fld w (16 * k) 16).sum).getD 0
  else 0

/-- The answer to a counter read of R292: its fields are added to source 16, in one record with master n and engine 0xFF. -/
def State.pollAnswer (s : State) (n : Fin 144) (f : Frame) : Option State :=
  let k := (n, f.hdr.tag)
  if f.hdr.course = 4 ∧ f.hdr.srcEngine = 0xFB ∧ k ∈ s.gut.polls then
    some (({ s with gut := { s.gut with polls := s.gut.polls.erase k } } : State).count
      { eventOf 16 with count := pollTotal f, node := BitVec.ofNat 8 n.val })
  else none

/-- A response to Soffit that its own bookkeeping takes at once: the ACK of a TEARDOWN frame, or the answer to a counter read. -/
def State.soffitOwn (s : State) (n : Fin 144) (f : Frame) : Option State := (s.teardownAck n f.hdr).orElse fun _ => s.pollAnswer n f

/-- A frame that passed the ingress checks goes to its destination (R78). A control access of an accelerator to anything but
GUT_JEB_REPORT of this module is answered NO_RIGHT (R293). -/
def State.forward (s : State) (n : Fin 144) (f : Frame) : State :=
  let h := f.hdr
  let vc := vcOf h
  let a : Arrive := { fromAgent 0 with src := portSource n.val vc, ingress := some n }
  let gone := s.freeSlots n vc (frameSlots f)
  if !isResponse h && isCtrl h && decide (h.srcNode.toNat < 0x80) && !s.isReport h then gone.refuse a.src h stNoRight
  else match s.dest h with
  | .unroutable => gone.refuse a.src h stUnroutable
  | .lost => gone.refuse a.src h stTargetLost
  | .port e =>
    let ok := bitAt (s.mport e.val).train.features featFpBundle
    match s.tryMerge (portQueue e.val vc) n f ok with
    | some t => t.freeSlots n vc (frameSlots f)
    | none => s.toPort e f { a with cut := s.cutThrough e n f }
  | .agent g =>
    if isResponse h then
      match s.soffitOwn n f with
      | some t => t.freeSlots n vc (frameSlots f)
      | none => if agentExpects g h then s.link f (agentQueue (agentAt g n.val) h.course.toNat) a else gone
    else if homeOp h.opcode then s.toEave n f a
    else if (h.opcode = opSeg ∨ h.opcode = opSignal) ∧ !kindOk h then gone.refuse a.src h stBadRequest
    else s.link f (agentQueue (agentAt g n.val) h.course.toNat) a

/-- Whether a response answers a logged request: the same requester and tag. -/
def Pend.answeredBy (e : Pend) (h : Header) : Bool :=
  decide (e.hdr.srcNode = h.srcNode ∧ e.hdr.srcRack = h.srcRack ∧ e.hdr.srcEngine = h.srcEngine ∧ e.hdr.tag = h.tag)

/-- An entry of a pending log matched by a response that passes: its last frame frees it (R125). -/
def State.freePending (s : State) (n : Fin 144) (h : Header) : State :=
  if isResponse h ∧ (h.opcode ≠ opGetData ∨ bitAt h.aux 63) then
    s.updPort (.module n) fun x => { x with pendLog := x.pendLog.eraseP fun e => e.answeredBy h }
  else s

/-- A response that a lost node sent and whose request is already answered under R124: no entry of its port's log awaits it. -/
def State.lateResponse (s : State) (n : Fin 144) (h : Header) : Bool :=
  isResponse h && s.nodeLost n.val && (s.mport n.val).pendLog.all fun e => !e.answeredBy h

/-- Data bytes of a frame of the bay that comes in at an ingress, counted by course for Gauge, whatever becomes of it (R311). -/
def State.countBytes (s : State) (h : Header) : State :=
  if s.admitted ∧ h.bayTag = s.sec.tag then
    { s with pur := { s.pur with bytesIn := listUpd s.pur.bytesIn h.course.toNat (· + 32 * h.len.toNat) } }
  else s

/-- A decoded frame at an ingress port: checked, then refused or forwarded. -/
def State.arrive (s : State) (n : Fin 144) (f : Frame) : State :=
  let h := f.hdr
  let src := portSource n.val (vcOf h)
  let s := s.countBytes h
  match s.ingressCheck n h with
  | none =>
    if s.lateResponse n h then (s.freeSlots n (vcOf h) (frameSlots f)).drop h
    else (s.freePending n h).forward n f
  | some c =>
    let gone := s.freeSlots n (vcOf h) (frameSlots f)
    if c = stTeardown ∧ (isPosted h ∨ h.opcode = opBattenCont) then gone
    else gone.refuse src h c

/-- FRAME_ROUTING (R16, R23, R59, R60, R78, R120): a frame received on port `n`. A frame on a lane held in electrical
idle is refused without an answer and counted as a fence violation; one on an unused port is refused; an uncorrectable
header is fatal; a link-local frame is not forwarded; course 6 lies on no channel. What the laths delivered before a RETRAIN
is routed in it too (R44 loses no frame). -/
def State.routeRaw (s : State) (n : Fin 144) (raw : RawFrame) : State :=
  if s.fencedLane (.module n) then (s.takeRx (.module n) raw).count (linkEvent 6 n.val)
  else if !s.carries (.module n) raw then s
  else
    let s := (s.takeRx (.module n) raw).countFlash (.module n) (flashBad raw.hdr).toNat
    match headerDecode raw.hdr with
    | none => s.fatal 5 (.port n) (linkEvent 1 n.val)
    | some h =>
      let f : Frame := { hdr := h, data := (raw.data ++ List.replicate 8 0).take h.len.toNat, err := raw.hdr ^^^ headerSlot h }
      if h.course = 7 then s
      else
        let s := s.countFlash (.module n) (badSyndromes h f.data)
        if h.course = 6 then s.drop h else s.arrive n f

/-- FRAME_ROUTING (R16, R23, R59, R60, R78, R120). -/
def execFrameRouting (n : Fin 144) (raw : RawFrame) (s : State) : Host.Outcome State Fault Refusal := .next (s.routeRaw n raw)

/-! ### Frames for an agent of the module (R76, R78) -/

/-- A queue's entry is a frame that came in by a port, or one that the module made itself. -/
def Entry.isFrame (e : Entry) (n : Fin 144) (f : Frame) : Bool := decide (e.frame = f) && e.ingress.all fun m => decide (m = n)

/-- A frame that a command names for an agent: one that does not wait in the agent's queue is routed first, as any frame that port `n`
receives. `ok`: it stood first, and the agent has it now. `error`: it waits behind others (R76), was refused or went elsewhere. -/
def State.agentTake (s : State) (a : Nat) (n : Fin 144) (f : Frame) : Except State State :=
  let q := agentQueue (agentAt a n.val) f.hdr.course.toNat
  let s := if (s.queue q).items.any fun e => e.isFrame n f then s else s.routeRaw n (rawOf f)
  match s.dequeue q with
  | some (e, t) => if e.isFrame n f then .ok t else .error s
  | none => .error s

/-! ### Bundles split (R97) -/

/-- The value after constituents' operands have been applied in turn: what each of them receives. -/
def splitValues (v : BitVec 256) : List (Header × BitVec 256) → List (BitVec 256)
  | [] => []
  | (h, w) :: t => v :: splitValues (mergeOperand h v w) t

/-- The answer to one constituent. -/
def constituentAnswer (r : Frame) (h : Header) (v : Option (BitVec 256)) : Frame :=
  if r.hdr.status ≠ stOk then errorFrame h r.hdr.status
  else if h.opcode = opFadd then ackFrame h
  else match v with
    | some w => { hdr := respHdr h opAtomicData stOk 1 0 0, data := [encodeShingle w] }
    | none => { hdr := respHdr h opAtomicData stOk 1 1 0, data := [r.data.headD 0] }

/-- BUNDLE_RESPONSE (R97): the response at the head of the bundling unit's queue is split. Behind the answers stands Soffit's reserve (DESIGN CHOICE,
log entry 131). -/
def execBundleResponse (s : State) : Host.Outcome State Fault Refusal :=
  .next (match s.dequeue (agentQueue agBundle 0) with
  | none => s
  | some (e, s) =>
    let r := e.frame
    match s.pur.bundles.find? fun b => decide (b.index = r.hdr.tag.toNat) with
    | none => s.drop r.hdr
    | some b =>
      let s := { s with pur := { s.pur with bundles := s.pur.bundles.filter fun c => decide (c.index ≠ b.index) } }
      let v := (decodeData r).headD none
      let w := (b.parts.headD (r.hdr, 0)).1
      let lowBits := if bitAt w.attr 3 then 64 else 32
      let vals := match v with
        | some x => (splitValues (BitVec.ofNat 256 (fld x 0 lowBits)) b.parts).map some
        | none => b.parts.map fun _ => none
      (b.parts.zip vals).foldl (fun s p => s.respond (agentSource agSoffit) (constituentAnswer r p.1.1 p.2)) s)

/-! ### The valley audit (R98 to R100) -/

/-- What a pass reports of one entry: checks A to C by the letter's number. -/
def entryChecks (p : Pool) (queue : Nat → Queue) (beat i : Nat) : List Nat :=
  let t := Tab.get Owner.free p.tags i
  let bitmapFree := !Tab.get false p.used i
  (if decide (t = .free) != bitmapFree then [1] else []) ++
  (match t with
   | .queue q serial =>
     let x := queue q
     if (x.tail - x.head).toNat ≤ (serial - x.head).toNat then [2] else []
   | .inTransit _ b => if b + 2 ≤ beat then [3] else []
   | _ => [])

/-- An entry taken out of use. -/
def Pool.quarantine (p : Pool) (i : Nat) : Pool :=
  let t := Tab.get Owner.free p.tags i
  let p := match t with
    | .free => { p with free := p.free - 1 }
    | .inTransit _ _ => { p with transit := p.transit - 1 }
    | .queue q _ => { p with occ := Tab.upd 0 p.occ q (· - 1) }
    | .quarantined => { p with quar := p.quar - 1 }
  { p with tags := Tab.put Owner.free p.tags i .quarantined, used := Tab.put false p.used i true, quar := p.quar + 1 }

/-- One entry of a pass: quarantined on check A, and on checks B and C where the previous pass reported them too. -/
def auditEntry (queue : Nat → Queue) (beat : Nat) (prev : List (Nat × Nat)) (r : Pool × List (Nat × Nat)) (i : Nat) :
    Pool × List (Nat × Nat) :=
  let cs := entryChecks r.1 queue beat i
  let bad := cs.any fun c => decide (c = 1) || decide ((c, i) ∈ prev)
  (if bad then r.1.quarantine i else r.1, r.2 ++ cs.map fun c => (c, i))

/-- A pass over a pool: the pool, the reports (check, entry), and whether check D reported. Only listed entries can
differ from free with their bitmap bit set. -/
def auditPool (p : Pool) (total : Nat) (queue : Nat → Queue) (beat : Nat) (prev : List (Nat × Nat)) :
    Pool × List (Nat × Nat) × Bool :=
  let sum := p.free + p.transit + p.quar + (p.occ.map Prod.snd).sum
  let keys := (p.tags.map Prod.fst ++ (p.used.map Prod.fst).filter fun k => decide (k ∉ p.tags.map Prod.fst)).mergeSort
  match keys.foldl (auditEntry queue beat prev) (p, []) with
  | (q, reps) => (q, reps, decide (sum ≠ total))

/-- PUR_AUDIT_FIRST (R101). -/
def auditFirstWord (entry : Nat) (isDesc : Bool) (check beat : Nat) : W64 :=
  packW 64 [(0, entry), (22, isDesc.toNat), (23, check), (26, beat % 2 ^ 38)]

/-- The reports of the previous pass for one kind of entry. -/
def prevOf (s : State) (isDesc : Bool) : List (Nat × Nat) :=
  ((s.pur.prevB.filter fun p => decide (p.1 = isDesc)).map fun p => (2, p.2)) ++
    ((s.pur.prevC.filter fun p => decide (p.1 = isDesc)).map fun p => (3, p.2))

/-- A pass of the audit (R99), its results whole at its first beat; AUDIT_RUN is 1 as long as the pass takes (log entry 79). Check D names no
entry: PUR_AUDIT_FIRST then holds ENTRY 0, with IS_DESC where the descriptors' sum alone is wrong (log entry 79). -/
def State.audit (s : State) : State :=
  let b := s.beat
  match auditPool s.pur.cells cellTotal s.queue b (prevOf s false), auditPool s.pur.descs descTotal s.queue b (prevOf s true) with
  | (cells, rc, dc), (descs, rd, dd) =>
    let both := rc.map (fun r => (r.1, false, r.2)) ++ rd.map (fun r => (r.1, true, r.2))
    let d := dc || dd
    let all := (if d then [(4, !dc, 0)] else []) ++ both
    let has := fun c => all.any fun r => decide (r.1 = c)
    let load := s.pur.auditArmed && decide (s.pur.auditFirst = 0)
    let first := match all with
      | (c, k, i) :: _ => if load then auditFirstWord i k c b else s.pur.auditFirst
      | [] => s.pur.auditFirst
    -- each pass over the limit raises the fault, and its report counts beside it (log entry 79)
    let fatal := (d && s.pur.prevD) || decide (4096 < cells.quar) || decide (8192 < descs.quar)
    let pick := fun c => (both.filter fun r => decide (r.1 = c)).map fun r => r.2
    let s : State := { s with pur := { s.pur with
      cells := cells, descs := descs, auditFirst := first, auditArmed := s.pur.auditArmed && !(load && decide (all ≠ [])), auditRun := some b
      prevB := pick 2, prevC := pick 3, prevD := d
      auditLast := packW 4 [(0, (has 1).toNat), (1, (has 2).toNat), (2, (has 3).toNat), (3, (has 4).toNat)] } }
    let e := { eventOf 8 with addr := BitVec.ofNat 64 (fld first 0 22) }
    let s := if all = [] then s else s.count e
    if fatal then s.fatal 9 .module e else s

/-- VALLEY_AUDIT (R99, R100): at a beat that is a multiple of 2^16. -/
def execValleyAudit (beat : W64) (s : State) : Host.Outcome State Fault Refusal :=
  let s := s.toBeat beat.toNat
  .next (if beat.toNat % 65536 = 0 ∧ s.pur.ready then s.audit else s)

/-! ### Route epochs (R89 to R94) -/

/-- Whether a route entry names a port that may not be routed to: unused, held idle under R23, or fenced under R297. An entry with VALID 0
names no port, whatever its PORT (log entry 80). -/
def State.badRoute (s : State) (e : W32) : Bool :=
  let n := fld e 0 8
  bitAt e 9 && !bitAt e 8 &&
    (decide (144 ≤ n) || decide ((s.mport n).train.role = .unused) || s.fenced n || ((s.mport n).laneIdle && decide (portRole n = .hip)))

/-- The fields of a route table entry (R78). -/
def lrtMask : W32 := 0x3FF

/-- A shadow entry written, or refused with REJECT (R79, R94). -/
def State.writeShadow (s : State) (n : Nat) (value : W32) : State :=
  if s.pur.epochArm ∨ s.badRoute (value &&& lrtMask) then { s with pur := { s.pur with epochReject := true } }
  else { s with pur := { s.pur with shadow := Tab.put 0 s.pur.shadow n (value &&& lrtMask) } }

/-- PUR_LRT_SHADOW (R79, R94). -/
def execPurLrtShadow (who : Requester) (n : Byte) (value : W32) (s : State) : Host.Outcome State Fault Refusal :=
  .next (if s.reaches who then s.writeShadow n.toNat value else s)

/-- PUR_EPOCH_AT written (R90, R94): while ARM is 1, or arming a beat not after the current one, it is rejected. -/
def State.writeEpoch (s : State) (value : W64) : State :=
  let b : BitVec 54 := BitVec.ofNat 54 (fld value 0 54)
  if s.pur.epochArm ∨ (bitAt value 63 ∧ b.toNat ≤ s.beat) then { s with pur := { s.pur with epochReject := true } }
  else { s with pur := { s.pur with epochBeat := b, epochArm := bitAt value 63 } }

/-- PUR_EPOCH_AT (R90, R94). -/
def execPurEpochAt (who : Requester) (value : W64) (s : State) : Host.Outcome State Fault Refusal :=
  .next (if s.reaches who then s.writeEpoch value else s)

/-- ROUTE_EPOCH (R91): at the armed beat the shadow table becomes the active one. -/
def execRouteEpoch (beat : W64) (s : State) : Host.Outcome State Fault Refusal :=
  let s := s.toBeat beat.toNat
  .next (if s.pur.epochArm ∧ s.pur.epochBeat.toNat ≤ s.beat then
      { s with pur := { s.pur with lrt := s.pur.shadow, epochArm := false, epochDone := true } }
    else s)

/-- A write to PUR_NODE_LOST_SET: DECLARE declares NODE lost (R124, R126). -/
def State.writeNodeLost (s : State) (value : W32) : State :=
  if bitAt value 7 then s.declareLost (Fin.ofNat 128 (fld value 0 7)) else s

/-- PUR_NODE_LOST_SET (R124, R126). -/
def execPurNodeLostSet (who : Requester) (value : W32) (s : State) : Host.Outcome State Fault Refusal :=
  .next (if s.reaches who then s.writeNodeLost value else s)

end Sys2Proof.Machine
end

