-- ==== Sys2Proof/Machine/HomeOps.lean ====
section
/-! DEFINITION. What a home does with one request, as an action on its memory (R107 to R114, R119, R182, R183, R190 to
R195): the module's eaves and the Jalem block share it. The memory is indexed by stored shingle. -/

namespace Sys2Proof.Machine

open Sys2Proof

/-- What a home met at a shingle: a correction, an uncorrectable word, a poison marker written. -/
inductive Mark where
  | corrected
  | uncorrectable
  | poisonStored
deriving DecidableEq, Repr

/-- The outcome of a request at its home: memory, the answer, and what was met where. -/
structure HomeRes where
  store : Store
  frame : Frame
  marks : List (Mark × Nat)
deriving DecidableEq, Repr

/-! ### Shingles -/

/-- A stored shingle in correcting mode: its data, and what was met. A marked shingle has no data and is not counted anew. -/
def decodeAt (m : Store) (i : Nat) : Option (BitVec 256) × List (Mark × Nat) :=
  if markedAt m i then (none, [])
  else match decodeShingle (readShingle m i) with
    | .clean v => (some (Shingle.dataBits v), [])
    | .corrected v => (some (Shingle.dataBits v), [(.corrected, i)])
    | .uncorrectable => (none, [(.uncorrectable, i)])

/-- An operand shingle of a frame in correcting mode; the home's place stands for it where it is counted. -/
def decodeOperand (h : Header) (data : List Shingle) (k i : Nat) : Option (BitVec 256) × List (Mark × Nat) :=
  if poisoned h k then (none, [])
  else match decodeShingle (data.getD k 0) with
    | .clean v => (some (Shingle.dataBits v), [])
    | .corrected v => (some (Shingle.dataBits v), [(.corrected, i)])
    | .uncorrectable => (none, [(.uncorrectable, i)])

/-- `n` stored shingles as a frame carries them, with the POISON bits (R182, R183). -/
def readRun (m : Store) (i n : Nat) : List Shingle × Byte :=
  let l := (upFrom i n).map (loadShingle m)
  (l.map Prod.fst, packW 8 (l.zipIdx.map fun p => (p.2, p.1.2.toNat)))

/-- Shingles stored from `i` on as they arrived, each with the marker where its POISON bit is set. -/
def storeRun (m : Store) (i : Nat) (h : Header) (data : List Shingle) : Store × List (Mark × Nat) :=
  (data.zipIdx.foldl (fun t p => storeShingle t (i + p.2) p.1 (poisoned h p.2)) m,
   (data.zipIdx.filter fun p => poisoned h p.2).map fun p => (.poisonStored, i + p.2))

/-! ### Ledger lines (R190 to R193) -/

/-- The eight accumulators of a ledger line at shingle `i`; `none` where one of its twelve shingles is lost. -/
def ledgerRead (m : Store) (i : Nat) : Option (List Accum) × List (Mark × Nat) :=
  let l := (upFrom i 12).map (decodeAt m)
  let marks := l.flatMap Prod.snd
  if l.all fun p => p.1.isSome then
    let w := natOfBytes (l.flatMap fun p => bytesOf (p.1.getD 0) 32)
    (some ((List.range 8).map fun k => Accum.unpack (w / 2 ^ (384 * k) % 2 ^ 384)), marks)
  else (none, marks)

/-- A ledger line stored and encoded. -/
def ledgerWrite (m : Store) (i : Nat) (l : List Accum) : Store :=
  let w := l.zipIdx.foldl (fun acc p => acc + p.1.pack * 2 ^ (384 * p.2)) 0
  (List.range 12).foldl (fun t k => storeShingle t (i + k) (encodeShingle (BitVec.ofNat 256 (w / 2 ^ (256 * k)))) false) m

/-- A ledger line marked as poisoned. -/
def ledgerPoison (m : Store) (i : Nat) : Store × List (Mark × Nat) :=
  ((upFrom i 12).foldl (fun t k => storeShingle t k (loadShingle m k).1 true) m,
   (upFrom i 12).map fun k => (.poisonStored, k))

/-- The element shingle that a read of a ledger line returns; the bits of a lost one are free (log entry 5). -/
def ledgerElement (m : Store) (i : Nat) (free : BitVec 256) : Shingle × Bool × List (Mark × Nat) :=
  match ledgerRead m i with
  | (some l, ms) => (encodeShingle (ofElements 32 (l.map Accum.read)), false, ms)
  | (none, ms) => (encodeShingle free, true, ms)

/-- One element shingle stored into a ledger line; a poisoned or uncorrectable one leaves the line marked. -/
def ledgerStore (m : Store) (i : Nat) (h : Header) (data : List Shingle) (k : Nat) : Store × List (Mark × Nat) :=
  match decodeOperand h data k i with
  | (some w, ms) => (ledgerWrite m i ((elements 32 w).map Accum.ofFp32), ms)
  | (none, ms) => match ledgerPoison m i with
    | (m, ps) => (m, ms ++ ps)

/-! ### The operations -/

/-- A response of one shingle series with data. -/
def dataFrame (h : Header) (op : Byte) (l : List Shingle) (poison : Byte) : Frame :=
  { hdr := respHdr h op stOk l.length poison (if op = opGetData then 0x8000000000000000 else 0), data := l }

/-- LOAD and GET (R107, R114, R182, R183, R193): `n` shingles from `i` on. -/
def homeLoad (h : Header) (m : Store) (i n : Nat) (ledger : Bool) (free : Nat → BitVec 256) : HomeRes :=
  if ledger then
    let l := (List.range n).map fun k => ledgerElement m (i + 12 * k) (free k)
    { store := m, frame := dataFrame h (respOpcode h.opcode) (l.map Prod.fst) (packW 8 (l.zipIdx.map fun p => (p.2, p.1.2.1.toNat))),
      marks := l.flatMap fun p => p.2.2 }
  else
    match readRun m i n with
    | (l, p) => { store := m, frame := dataFrame h (respOpcode h.opcode) l p, marks := [] }

/-- STORE and PUT (R107, R114, R119, R183, R188, R193). -/
def homeStore (h : Header) (data : List Shingle) (m : Store) (i : Nat) (ledger : Bool) : HomeRes :=
  if ledger then
    match (List.range data.length).foldl (fun r k => match ledgerStore r.1 (i + 12 * k) h data k with
        | (t, ms) => (t, r.2 ++ ms)) (m, ([] : List (Mark × Nat))) with
    | (t, ms) => { store := t, frame := ackFrame h, marks := ms }
  else match storeRun m i h data with
    | (t, ms) => { store := t, frame := ackFrame h, marks := ms }

/-- ATOMIC (R108, R119): the target at byte `b` of shingle `i`. -/
def homeAtomic (h : Header) (data : List Shingle) (m : Store) (i b : Nat) : HomeRes :=
  match decodeOperand h data 0 i, decodeAt m i with
  | (some w, ms), (some t, ns) =>
    let n := if bitAt h.attr 3 then 64 else 32
    let old := fld t (8 * b) n
    let new := atomicNew (fld h.attr 0 3) n (bitAt h.attr 4) old (fld w 0 n) (fld w 64 n)
    { store := storeShingle m i (encodeShingle (setFld t (8 * b) n new)) false
      frame := dataFrame h opAtomicData [encodeShingle (BitVec.ofNat 256 old)] 0, marks := ms ++ ns }
  | (_, ms), (_, ns) => { store := m, frame := errorFrame h stPoisoned, marks := ms ++ ns }

/-- FADD in arrival mode (R109, R110, R119). -/
def homeFadd (h : Header) (data : List Shingle) (m : Store) (i : Nat) : HomeRes :=
  match decodeOperand h data 0 i, decodeAt m i with
  | (some w, ms), (some t, ns) =>
    { store := storeShingle m i (encodeShingle (faddShingle (bitAt h.attr 0) t w)) false, frame := ackFrame h, marks := ms ++ ns }
  | (_, ms), (_, ns) => { store := m, frame := errorFrame h stPoisoned, marks := ms ++ ns }

/-- A ledger line with a shingle of operands added (R192), element k with the free words 2k and 2k + 1. -/
def ledgerAdd (free : Nat → BitVec 256) (l : List Accum) (w : BitVec 256) : List Accum :=
  (l.zip (elements 32 w)).zipIdx.map fun p => Accum.add ((free (2 * p.2)).toNat + (free (2 * p.2 + 1)).toNat * 2 ^ 256) p.1.1 p.1.2

/-- FADD in ledger mode (R192): one read and one write of the ledger line at shingle `i`. -/
def homeLedgerFadd (h : Header) (data : List Shingle) (m : Store) (i : Nat) (free : Nat → BitVec 256) : HomeRes :=
  match decodeOperand h data 0 i, ledgerRead m i with
  | (some w, ms), (some l, ns) =>
    { store := ledgerWrite m i (ledgerAdd free l w), frame := ackFrame h, marks := ms ++ ns }
  | (_, ms), (_, ns) => { store := m, frame := errorFrame h stPoisoned, marks := ms ++ ns }

/-- The source shingle of result shingle k of a widening of bytes from `b` of shingle `i` on. -/
def widenSource (i b k : Nat) : Nat := i + (b + 16 * k) / 32

/-- WIDEN_LOAD (R113, R195): `n` source bytes from byte `b` of shingle `i` on. -/
def homeWiden (h : Header) (m : Store) (i b n : Nat) : HomeRes :=
  let src := (upFrom i ((b + n + 31) / 32)).map (decodeAt m)
  let bytes := ((src.flatMap fun p => bytesOf (p.1.getD 0) 32).drop b).take n
  let out := (widenBytes (bitAt h.attr 2) bytes).map encodeShingle
  let bad := fun k => ((src.getD ((b + 16 * k) / 32) (none, [])).1).isNone
  { store := m
    frame := dataFrame h opLoadData out (packW 8 (out.zipIdx.map fun p => (p.2, (bad p.2).toNat)))
    marks := src.flatMap Prod.snd }

/-- A request performed at its home (R107 to R114): `i` the shingle of its address, `b` the byte within it. -/
def homePerform (h : Header) (data : List Shingle) (m : Store) (i b : Nat) (ledger : Bool) (free : Nat → BitVec 256) : HomeRes :=
  match h.opcode.toNat with
  | 0x01 => homeLoad h m i (accessBytes h / 32) ledger free
  | 0x11 => homeLoad h m i (accessBytes h / 32) ledger free
  | 0x02 => homeStore h data m i ledger
  | 0x10 => homeStore h data m i ledger
  | 0x03 => homeAtomic h data m i b
  | 0x04 => if ledger then homeLedgerFadd h data m i free else homeFadd h data m i
  | 0x05 => homeWiden h m i b (accessBytes h)
  | _ => { store := m, frame := errorFrame h stBadRequest, marks := [] }

/-! ### Batten lists (R116, R117) -/

/-- List shingles of a count of entries. -/
def listShingles (count : Nat) : Nat := (count + 7) / 8

/-- COUNT of a BATTEN. -/
def battenCount (h : Header) : Nat := fld h.aux 0 9

/-- The entries of list shingles, and whether every unused one is 0. -/
def listEntries (count : Nat) (l : List (BitVec 256)) : List Nat × Bool :=
  let all := l.flatMap (elements 32)
  (all.take count, (all.drop count).all fun e => decide (e = 0))

/-- Shingles cut into runs of eight. -/
def eights {α : Type} : Nat → List α → List (List α)
  | 0, _ => []
  | n + 1, l => if l.isEmpty then [] else l.take 8 :: eights n (l.drop 8)

/-- The GET_DATA series of a gather: eight shingles a frame, numbered from 0, the last one marked. -/
def battenFrames (h : Header) (l : List (Shingle × Bool)) : List Frame :=
  let runs := eights (l.length / 8 + 1) l
  runs.zipIdx.map fun p =>
    { hdr := respHdr h opGetData stOk p.1.length (packW 8 (p.1.zipIdx.map fun q => (q.2, q.1.2.toNat)))
        (packW 64 [(0, p.2 % 65536), (63, (decide (p.2 + 1 = runs.length)).toNat)])
      data := p.1.map Prod.fst }

end Sys2Proof.Machine
end

