-- ==== Sys2Proof/Machine/JebOps.lean ====
section
/-! DEFINITION. The Jalem block's shared operations: its links, its inbound checks (R120, R149, R150), tile signals (R152),
completing requests, transfers and fences (R118, R119, R126, R147, R165 to R173), and stopping (R156). -/

namespace Sys2Proof.Machine

open Sys2Proof

/-! ### Ports and counters -/

def State.rport (s : State) (q : Fin 18) : Port := s.port (.rafter q)

/-- A frame on a port's queue of laths' output; a SEG with SIG to a link without TILESIG goes with SIG clear, and a SIGNAL
follows it (R51, R372). -/
def State.jebSend (s : State) (p : PortRef) (f : Frame) : State :=
  if f.hdr.opcode = opSeg ∧ bitAt f.hdr.attr 7 ∧ !bitAt (s.port p).train.features featTileSig then
    let a := setFld f.hdr.attr 7 1 0
    s.updPort p fun x => { x with txq := x.txq ++
      [{ f with hdr := { f.hdr with attr := a } },
       { hdr := { f.hdr with opcode := opSignal, len := 0, poison := 0, attr := a }, data := [] }] }
  else s.updPort p fun x => { x with txq := x.txq ++ [f] }

/-- A received frame that a command names, taken from the frames that the port's laths delivered, where it stands first. -/
def State.takeFrame (s : State) (p : PortRef) (f : Frame) : State := s.takeRx p (rawOf f)

/-- Shingles of a frame received with a nonzero syndrome, its header among them (R56). -/
def frameSyndromes (f : Frame) : Nat := (flashBad (rawOf f).hdr).toNat + badSyndromes f.hdr f.data

/-- Slots of a frame freed at a Jalem port (R63): the block consumes a frame as it arrives. -/
def State.jebFree (s : State) (p : PortRef) (h : Header) : State :=
  if h.course.toNat ≤ 5 then
    s.updPort p fun x => { x with cred := { x.cred with
      rxFreed := listUpd x.cred.rxFreed (vcOf h) (· + BitVec.ofNat 16 (1 + h.len.toNat)) } }
  else s

/-- JEB_ERR_0, JEB_ERR_1 and JEB_ORD_ERR: a 16-bit counter raised. -/
def Jeb.bump0 (j : Jeb) (lo : Nat) : Jeb := { j with err0 := satFld j.err0 lo 16 1 }
def Jeb.bump1 (j : Jeb) (lo : Nat) : Jeb := { j with err1 := satFld j.err1 lo 16 1 }
def Jeb.bumpOrd (j : Jeb) (lo : Nat) : Jeb := { j with ordErr := satFld j.ordErr lo 16 1 }

def State.updJeb (s : State) (f : Jeb → Jeb) : State := { s with jeb := f s.jeb }

/-- A transfer, fence or send reported to an engine. -/
def State.done (s : State) (engine : Byte) (id : Nat) (code : Byte) (value : W64) : State := s.emit (.done engine id code value)

/-- Whether a rack byte names the block's own rack. -/
def Jeb.ownRack (j : Jeb) (r : Nat) : Bool := decide (r = 0xFF) || decide (r = j.rack.toNat)

/-- Whether an FPA is local to the block's node (R136). -/
def Jeb.isLocal (j : Jeb) (a : W64) : Bool := j.ownRack (fpaRack a) && decide (fpaNode a = j.node.toNat)

/-- An FPA with the own rack written as 0xFF, so that equal places are equal words (R102). -/
def Jeb.canon (j : Jeb) (a : W64) : Nat :=
  if j.ownRack (fpaRack a) then 0xFF * 2 ^ 56 + a.toNat % 2 ^ 56 else a.toNat

/-- JEB_MEM_SIZE in bytes (R149). -/
def Jeb.memBytes (j : Jeb) : Nat := fld j.memSize 16 25 * 2 ^ 16

/-! ### Tile signals (R152) -/

/-- Whether a matrix engine's wait on a counter for a target has ended (R153): the difference, read as signed, is not negative. -/
def waitOver (value target : W32) : Bool := !bitAt (value - target) 31

/-- The waits that their counters' values have ended are over, and their engines told (R153). -/
def State.endWaits (s : State) : State :=
  let ended := fun (w : Nat × W32) => waitOver (Tab.get 0 s.jeb.sig w.1) w.2
  (s.jeb.waits.filter ended).foldl (fun s w => s.emit (.waitOver w.1 w.2)) (s.updJeb fun j => { j with waits := j.waits.filter fun w => !ended w })

/-- Counter `c` advanced by one; waits on it may end. -/
def State.advance (s : State) (c : Nat) : State :=
  (s.updJeb fun j => { j with sig := Tab.upd 0 j.sig (c % 4096) (· + 1) }).endWaits

/-- A completion to an engine: COMP, if named, advances whatever the status (R147). -/
def State.finish (s : State) (e : Byte) (id : Nat) (comp : Option (BitVec 12)) (code : Byte) (value : W64) : State :=
  let s := s.done e id code value
  match comp with
  | some c => s.advance c.toNat
  | none => s

/-- A transfer's completion. -/
def State.endTransfer (s : State) (e : Byte) (id : Nat) (t : Transfer) (code : Byte) (value : W64) : State := s.finish e id t.comp code value

/-! ### Inbound checks (R120, R149 to R151) -/

/-- The frame is one that a Jalem port carries before its sealing is active (R260, R271). -/
def jebKeyTraffic (h : Header) : Bool :=
  decide (h.opcode = opKey) || decide (h.opcode = opTeardown) || (decide (h.opcode = opAck) && decide (h.course = 4))

/-- What a tray port carries (R131). -/
def trayTraffic (h : Header) : Bool :=
  decide (h.course = 1) || decide (h.course = 5) ||
    (decide (h.course = 4) && (decide (h.opcode = opKey ∧ (keyAction h = 2 ∨ keyAction h = 3)) || decide (h.opcode = opAck)))

def isTray : PortRef → Bool
  | .tray _ => true
  | _ => false

/-- Steps 1 and 2 of R120 at a Jalem port: the form, what the port may carry, and the bay tag. -/
def State.jebForm (s : State) (p : PortRef) (h : Header) : Option Byte :=
  let x := s.port p
  if !formOk h x.train.features true then some stBadRequest
  else if isTray p ∧ !trayTraffic h then some stBadRequest
  else if !s.jeb.tagged ∨ h.bayTag ≠ s.jeb.tag then some stBayMismatch
  else if !(x.sealing.txOn && x.sealing.rxOn) ∧ !jebKeyTraffic h then some stBayMismatch
  else none

/-- Steps 7 to 9 at a Jalem home: the accelerator memory address. Ledger mode is refused (R111). -/
def State.jebHome (s : State) (h : Header) (off n : Nat) : Except Byte Nat :=
  match windowFor s.jeb.wins s.jeb.rack.toNat h off n with
  | .error c => .error c
  | .ok w =>
    let a := fld w.loc 16 25 * 2 ^ 16 + (off - w.lo)
    if h.opcode = opFadd ∧ bitAt h.attr 1 then .error stModeMismatch
    else if s.jeb.memBytes < a + n then .error stOutOfRange
    else .ok a

/-- A request refused at a Jalem port: answered on the link it came by, and counted in INBOUND_REFUSED. One on course 6 lies on no channel: it
is discarded and counted to source 14 (R60). -/
def State.jebRefuse (s : State) (p : PortRef) (h : Header) (status : Byte) : State :=
  if h.course = 6 then s.drop h
  else (s.updJeb fun j => j.bump1 16).jebSend p (errorFrame h status)

/-- A posted frame refused: discarded and counted in POSTED_REFUSED (R151), on course 6 to source 14 (R60). -/
def State.jebDropPosted (s : State) (h : Header) : State := if h.course = 6 then s.drop h else s.updJeb fun j => j.bump0 16

/-- A response discarded and counted in UNMATCHED (R150), on course 6 to source 14 (R60). -/
def State.jebDropResponse (s : State) (h : Header) : State := if h.course = 6 then s.drop h else s.updJeb fun j => j.bump0 0

/-- A clearing that is pending ends: PENDING gives way to DONE (R157; log entry 45). -/
def Jeb.finishClear (j : Jeb) : Jeb := if j.zPending then { j with zPending := false, zDone := true } else j

/-- A frame that arrives at a Jalem port: a clearing has ended by then (R157; log entry 45); it is taken off what its laths delivered, its slots
freed, its syndromes counted (R56, R63). -/
def State.jebTake (s : State) (p : PortRef) (f : Frame) : State :=
  ((((s.updJeb Jeb.finishClear).takeFrame p f).jebFree p f.hdr).countFlash p (frameSyndromes f))

/-! ### Local addresses -/

/-- The accelerator memory address of a local virtual address, by a transfer's granules. -/
def localPhys (lmap : List (Nat × Nat)) (va : Nat) : Nat :=
  ((lmap.find? fun p => decide (p.1 = va / 65536)).map fun p => p.2).getD 0 + va % 65536

/-! ### Delivering data (R56, R119, R166) -/

/-- One received shingle written to accelerator memory at a shingle index, marked or left unwritten where it is poisoned or
uncorrectable (R119); whether it was. -/
def landShingle (m : Store) (i : Nat) (w : Shingle) (bad : Bool) : Store × Bool :=
  if bad then (if Config.poisonMarking then storeShingle m i w true else m, true)
  else match decodeShingle w with
    | .clean v => (storeShingle m i v false, false)
    | .corrected v => (storeShingle m i v false, false)
    | .uncorrectable => (if Config.poisonMarking then storeShingle m i w true else m, true)

/-- The shingles of a response with what each widens to, where the block widens in place of the home (R51, R52): the
shingles to write and which are bad. -/
def widenedData (r : Req) (e5m2 : Bool) (size : Nat) (f : Frame) : List (Shingle × Bool) :=
  match r.widen with
  | none => f.data.zipIdx.map fun p => (p.1, poisoned f.hdr p.2)
  | some b =>
    let src := decodeData f
    let bytes := ((src.flatMap fun w => bytesOf (w.getD 0) 32).drop b).take (size / 2)
    ((widenBytes e5m2 bytes).map encodeShingle).zipIdx.map fun p => (p.1, (src.getD ((b + 16 * p.2) / 32) none).isNone)

/-- The data of a response written to accelerator memory; whether any shingle was bad. A GET_DATA frame's place follows
from its sequence number (R106, R117). -/
def landData (m : Store) (lmap : List (Nat × Nat)) (lva : Nat) (l : List (Shingle × Bool)) : Store × Bool :=
  l.zipIdx.foldl (fun r p =>
    match landShingle r.1 (localPhys lmap (lva + 32 * p.2) / 32) p.1.1 p.1.2 with
    | (m, b) => (m, r.2 || b)) (m, false)

/-! ### Engines -/

def State.engine (s : State) (e : Byte) : Engine := Tab.get Engine.reset s.jeb.engines e.toNat

def State.setEngine (s : State) (e : Byte) (x : Engine) : State :=
  s.updJeb fun j => { j with engines := Tab.put Engine.reset j.engines e.toNat x }

def QItem.id : QItem → Nat
  | .xfer x => x.id
  | .fence i _ _ => i
  | .parked i _ _ _ => i

/-- The items of a queue before item `id`. -/
def itemsBefore (l : List QItem) (id : Nat) : List QItem := l.takeWhile fun i => decide (i.id ≠ id)

/-- Outstanding requests of a transfer. -/
def State.outstanding (s : State) (id : Nat) : List Req := s.jeb.reqs.filter fun r => decide (r.xfer = id)

/-- Reads the remote side, and writes the local one (R166). -/
def remoteRead : TOp → Bool
  | .load => true
  | .widenLoad => true
  | .get => true
  | .batten => true
  | _ => false

/-- An access that reads (R166): an ATOMIC too. -/
def isReadOp : TOp → Bool
  | .atomic => true
  | o => remoteRead o

def Xfer.acquires (x : Xfer) : Bool := decide (x.t.ord = 1 ∨ x.t.ord = 3)
def Xfer.releases (x : Xfer) : Bool := decide (x.t.ord = 2 ∨ x.t.ord = 3)

/-- Whether a fence waits for an earlier item (R173): FULL and STORE for every transfer, since each writes on one side;
LOAD for the reads, and for a PUT's local side until its last chunk has been read. -/
def fenceWaits (kind : Nat) : QItem → Bool
  | .fence _ _ _ => false
  | .parked _ t _ _ => decide (kind ≠ 2) || isReadOp t.op || decide (t.op = .put)
  | .xfer x => decide (kind ≠ 2) || isReadOp x.t.op || (decide (x.t.op = .put) && decide (x.toIssue ≠ []))

/-- The local write of a read waits for an acquire or a STORE fence before it (R172, R173). -/
def holdsLocal : QItem → Bool
  | .fence _ _ _ => true
  | .xfer x => x.acquires
  | .parked _ _ _ _ => false

/-- A failed request noted at its transfer: the one with the lowest remote address decides (R115, R147). -/
def Xfer.fail (x : Xfer) (addr : Nat) (st : Byte) : Xfer :=
  match x.failed with
  | some (a, _) => if addr < a then { x with failed := some (addr, st) } else x
  | none => { x with failed := some (addr, st) }

/-- A transfer in its engine's queue changed. -/
def Engine.updXfer (e : Engine) (id : Nat) (f : Xfer → Xfer) : Engine :=
  { e with queue := e.queue.map fun i => match i with
      | .xfer x => if x.id = id then .xfer (f x) else i
      | i => i }

/-- A transfer of an engine. -/
def Engine.findXfer (e : Engine) (id : Nat) : Option Xfer :=
  e.queue.findSome? fun i => match i with
    | .xfer x => if x.id = id then some x else none
    | _ => none

/-- Fences behind item `id` that wait for it are broken (R173). -/
def breakFences (id : Nat) (item : QItem) (l : List QItem) : List QItem :=
  let before := itemsBefore l id
  l.take (before.length + 1) ++ (l.drop (before.length + 1)).map fun i => match i with
    | .fence j f b => .fence j f (b || fenceWaits f.kind.toNat item)
    | i => i

def removeItem (l : List QItem) (id : Nat) : List QItem := l.filter fun i => decide (i.id ≠ id)

/-- Whether an item is a release or a fence, up to which a failed write counts (R171). -/
def isBoundary : QItem → Bool
  | .fence _ _ _ => true
  | .xfer x => x.releases
  | .parked _ t _ _ => decide (t.ord = 2 ∨ t.ord = 3)

/-- The next release among the items that follow a failed write is broken; `none` where no boundary follows. -/
def breakRelease : List QItem → Option (List QItem)
  | [] => none
  | i :: l =>
    match i with
    | .fence _ _ _ => some (i :: l)
    | .xfer x => if x.releases then some (.xfer { x with broken := true } :: l) else (breakRelease l).map fun t => i :: t
    | .parked id t b _ => if t.ord = 2 ∨ t.ord = 3 then some (.parked id t b true :: l) else (breakRelease l).map fun u => i :: u

/-- A failed write of item `id` counts against the next release, unless a fence lies between (R171): "since" is program order (log entry 128). -/
def Engine.failWrite (g : Engine) (id : Nat) : Engine :=
  let before := itemsBefore g.queue id
  let n := before.length + 1
  match breakRelease (g.queue.drop n) with
  | some l => { g with queue := g.queue.take n ++ l }
  | none => if id < g.bound then g else { g with writeFailed := true }

/-- An item leaves a queue without having been issued: the fences that waited for it are broken (R173); what a release among them had to
answer for passes on. -/
def Engine.dropItem (g : Engine) (id : Nat) : Engine :=
  let g := match g.queue.find? fun i => decide (i.id = id) with
    | some i => { g with queue := breakFences id i g.queue }
    | none => g
  let carried := g.queue.any fun i => match i with
    | .parked j _ _ b => decide (j = id) && b
    | .xfer x => decide (x.id = id) && x.broken
    | .fence _ _ _ => false
  let g := if carried then g.failWrite id else g
  { g with queue := removeItem g.queue id }

/-- A transfer's end (R147, R171): its code, COMP, and the ordering consequences of a failure. What counts against the next release is a write
that was issued, or what a release that was not had to answer for. -/
def State.completeXfer (s : State) (e : Byte) (x : Xfer) (code : Byte) : State :=
  let g := s.engine e
  let g := if code = 0 then g else { g with queue := breakFences x.id (.xfer x) g.queue }
  let g := if code ≠ 0 ∧ ((x.sent ∧ !x.releases) ∨ (!x.sent ∧ x.broken)) then g.failWrite x.id else g
  let s := s.setEngine e { g with queue := removeItem g.queue x.id }
  let s := if code = stPoisoned then s.updJeb fun j => j.bump1 0 else s
  s.endTransfer e x.id x.t code x.value

/-- A transfer of the engine that is whole: every part issued and answered. -/
def State.wholeXfer (s : State) (e : Byte) : Option Xfer :=
  (s.engine e).queue.findSome? fun i => match i with
    | .xfer x => if x.toIssue = [] ∧ x.issued ∧ s.outstanding x.id = [] then some x else none
    | _ => none

/-- A fence of the engine whose condition is met. -/
def State.metFence (s : State) (e : Byte) : Option (Nat × FenceReq × Bool) :=
  let l := (s.engine e).queue
  l.findSome? fun i => match i with
    | .fence id f b => if (itemsBefore l id).all fun j => !fenceWaits f.kind.toNat j then some (id, f, b) else none
    | _ => none

/-- A response is taken off a request and its data lands; its status as the engine sees it (R118, R119). -/
def State.landFrame (s : State) (r : Req) (x : Xfer) (f : Frame) : State × Byte :=
  if f.hdr.status ≠ stOk then
    (if knownStatus f.hdr.status then s else s.updJeb fun j => j.bump0 48, f.hdr.status)
  else if x.t.op = .atomic then
    match (decodeData f).headD none with
    | some w => (s.setEngine r.hdr.srcEngine ((s.engine r.hdr.srcEngine).updXfer x.id fun y => { y with value := BitVec.ofNat 64 (fld w 0 64) }),
                 stOk)
    | none => (s, stPoisoned)
  else if remoteRead x.t.op then
    let lva := r.spec.lva + (if f.hdr.opcode = opGetData then 256 * fld f.hdr.aux 0 16 else 0)
    match landData s.jeb.store x.lmap lva (widenedData r (bitAt x.t.attr 2) (32 * [1, 2, 8].getD (fld x.t.attr 0 2) 0) f) with
    | (m, bad) => (s.updJeb fun j => { j with mem := m.mem }, if bad then stPoisoned else stOk)
  else (s, stOk)

/-- Whether a response ends its request: the last of a GET or BATTEN series, and any other at once (R60). -/
def endsRequest (f : Frame) : Bool := decide (f.hdr.opcode ≠ opGetData) || bitAt f.hdr.aux 63 || decide (f.hdr.status ≠ stOk)

def sameReq (r t : Req) : Bool := decide (r.hdr.srcEngine = t.hdr.srcEngine ∧ r.hdr.tag = t.hdr.tag)

/-- Whether the last response of a request has arrived, though its local side is held. -/
def Req.answered (r : Req) : Bool := r.held.any endsRequest

/-- Buckets that moved and still hold a request issued before the epoch that has not received its response (R92). -/
def Jeb.undrained (j : Jeb) : List (BitVec 6) :=
  j.moved.filter fun b => j.reqs.any fun r => decide (r.bucket = some b ∧ r.epoch < j.epochs) && !r.answered

/-- The moved buckets that remain; DONE when none is left (R92, R148). -/
def Jeb.drain (j : Jeb) : Jeb :=
  if j.moved = [] then j
  else { j with moved := j.undrained, epochDone := j.epochDone || decide (j.undrained = []) }

/-- A request taken off the tracker, and off what a GEN waits for (R138). -/
def Jeb.forget (j : Jeb) (r : Req) : Jeb :=
  let wait := fun (w : GenWait) => { w with tags := w.tags.filter fun k => decide (k ≠ (r.hdr.srcEngine, r.hdr.tag)) }
  { j with reqs := j.reqs.filter fun t => !sameReq r t, genWait := j.genWait.map wait }

/-- A request's end with a status: it leaves the tracker, its bucket may drain, and a failure is noted. Remote addresses are compared as FPAs, the
own rack as 0xFF (DESIGN CHOICE, log entry 113). -/
def State.endReq (s : State) (r : Req) (st : Byte) : State :=
  let s := s.updJeb fun j => (j.forget r).drain
  if st = stOk then s
  else s.setEngine r.hdr.srcEngine ((s.engine r.hdr.srcEngine).updXfer r.xfer fun x => x.fail (s.jeb.canon r.spec.remote) st)

/-- A response taken by its request: poison met on the way is noted even while the series continues. -/
def State.takeResponse (s : State) (r : Req) (f : Frame) : State :=
  match (s.engine r.hdr.srcEngine).findXfer r.xfer with
  | none => s.endReq r f.hdr.status
  | some x =>
    match s.landFrame r x f with
    | (s, st) =>
      if endsRequest f then s.endReq r st
      else if st = stOk then s
      else s.setEngine r.hdr.srcEngine ((s.engine r.hdr.srcEngine).updXfer r.xfer fun x => x.fail (s.jeb.canon r.spec.remote) st)

/-- A request of the engine with a held response whose hold has ended. -/
def State.freedReq (s : State) (e : Byte) : Option Req :=
  s.jeb.reqs.find? fun r => decide (r.hdr.srcEngine = e ∧ r.held ≠ []) &&
    (itemsBefore (s.engine e).queue r.xfer).all fun i => !holdsLocal i

/-- What follows from completions at an engine: held data lands, transfers and fences complete, until nothing more does. -/
def State.settle (s : State) (e : Byte) : Nat → State
  | 0 => s
  | n + 1 =>
    match s.freedReq e with
    | some r =>
      let s := s.updJeb fun j => { j with reqs := j.reqs.map fun t => if sameReq r t then { t with held := [] } else t }
      (r.held.foldl (fun s f => s.takeResponse r f) s).settle e n
    | none =>
      match s.wholeXfer e with
      | some x => (s.completeXfer e x ((x.failed.map Prod.snd).getD 0)).settle e n
      | none =>
        match s.metFence e with
        | some (id, f, broken) =>
          let s := s.setEngine e { s.engine e with queue := removeItem (s.engine e).queue id }
          let s := if broken then s.updJeb fun j => j.bumpOrd 16 else s
          (s.finish e id f.comp (if broken then 0x53 else 0) 0).settle e n
        | none => s

/-- Enough rounds for an engine to settle: each round ends a request's hold or removes an item. -/
def State.settleAll (s : State) (e : Byte) : State :=
  s.settle e ((s.engine e).queue.length + s.jeb.reqs.length + 1)

/-! ### Stopping (R156, R295) -/

/-- A port set to DETECT for a new training (R46): the width under trial is the widest, and no failure has been counted. -/
def Port.toDetect (x : Port) : Port :=
  { x with train := { x.train with
    state := .detect, width := 0, tryWidth := x.train.limit, eqFails := 0, bayDown := false, asDown := false, narrowOff := false } }

/-- A port that went DOWN in the bay whose teardown has completed at this device returns to DETECT (R46). -/
def Port.afterTeardown (x : Port) : Port := if x.train.state = .down ∧ x.train.bayDown then x.toDetect else x

/-- A tray port that went DOWN in the bay is held, as a fence holds a port that faces a lost node (R271, R297): it leaves HELD on RESTART only
(DEDUCED, log entry 119). -/
def Port.holdTray (x : Port) : Port :=
  if x.train.state = .down ∧ x.train.bayDown then { x with train := { x.train with state := .held, asDown := true } } else x

/-- The block's ports once its sequence of R156 has completed (R46, R271). -/
def Jeb.portsAfterTeardown (j : Jeb) : Jeb :=
  { j with ports := Tab.mapAll Port.reset Port.afterTeardown ([18, 19].foldl (fun t i => Tab.upd Port.reset t i Port.holdTray) j.ports) }

/-- STOPPED ends once RESUME has arrived on every ACTIVE rafter link and the sequence of R156 has completed (R299). -/
def State.leaveStop (s : State) : State :=
  if s.jeb.stopped ∧ s.jeb.stopDone ∧ s.jeb.resumed ≠ [] ∧
      ((List.finRange 18).all fun q => decide ((s.rport q).train.state ≠ .active) || decide (q ∈ s.jeb.resumed)) then
    s.updJeb fun j => { j with stopped := false, stopDone := false, resumed := [] }
  else s

/-- The report of code 1 on rafter link `q` (R293); its engine and tag are free (log entry 5). -/
def State.reportHdr (s : State) (q : Fin 18) : Header :=
  { opcode := opCtrlWr, course := 4, sub := 0, len := 1, poison := 0, attr := 0, fpa := fpaOf 0xFF (0x80 + q.val) 0x00700600,
    srcNode := BitVec.ofNat 8 s.jeb.node.toNat, srcRack := s.jeb.rack, srcEngine := BitVec.ofNat 8 s.freeNat,
    tag := BitVec.ofNat 16 (s.freeNat / 256), bayTag := s.jeb.tag, status := 0, aux := 0, rsvd := 0 }

/-- The report that is due on the lowest ACTIVE rafter link, once the sequence of R156 has ended (R160). With no such link it waits. -/
def State.sendReport (s : State) : State :=
  if !s.jeb.reportDue ∨ (s.jeb.stopped ∧ !s.jeb.stopDone) then s
  else match (List.finRange 18).find? fun q => decide ((s.rport q).train.state = .active) with
  | none => s
  | some q =>
    let h := s.reportHdr q
    ((s.jebSend (.rafter q) { hdr := h, data := [encodeShingle 1] }).updJeb fun j => { j with reports := j.reports ++ [h], reportDue := false }).spend 1

/-- Once no issued request waits for an answer, the sequence of R156 completes: the STOPs are acknowledged, ports that went DOWN in the bay
train anew (R46), and a report of TDISP ERROR goes out (R160). -/
def State.ackStops (s : State) : State :=
  if s.jeb.stopped ∧ s.jeb.reqs = [] then
    let s := s.jeb.stopAcks.foldl (fun s p => s.jebSend (.rafter p.1) (ackFrame p.2)) (s.updJeb fun j => { j with stopAcks := [] })
    (if s.jeb.stopDone then s
     else s.updJeb fun j => { j with stopDone := true }.portsAfterTeardown).sendReport.leaveStop
  else s

/-- A response to an outstanding request: held where an acquire or a STORE fence holds its local side, else taken. -/
def State.answerReq (s : State) (r : Req) (f : Frame) : State :=
  let e := r.hdr.srcEngine
  let hold := decide (f.hdr.status = stOk) && (((s.engine e).findXfer r.xfer).any fun x => remoteRead x.t.op) &&
    (itemsBefore (s.engine e).queue r.xfer).any holdsLocal
  if hold ∨ r.held ≠ [] then
    s.updJeb fun j => ({ j with reqs := j.reqs.map fun t => if sameReq r t then { t with held := t.held ++ [f] } else t } : Jeb).drain
  else ((s.takeResponse r f).settleAll e).ackStops

/-- A request outstanding on a link completed without an answer from its home (R126). Data of it that a fence or an acquire holds is not
written. -/
def State.loseReq (s : State) (r : Req) : State := ((s.endReq r stTargetLost).settleAll r.hdr.srcEngine).ackStops

/-- Rafter link `q` entered DOWN (R126): every request outstanding on it completes TARGET_LOST, and what waits there is gone. -/
def State.linkLost (s : State) (q : Fin 18) : State :=
  let s := s.updPort (.rafter q) fun x => { x with txq := [] }
  let lost := s.jeb.reqs.filter fun r => decide (r.link = some q) && !r.answered
  ((lost.foldl (fun s r => s.loseReq r) s).updJeb fun j =>
    { j with stopAcks := j.stopAcks.filter fun p => decide (p.1 ≠ q), resumed := j.resumed.filter fun p => decide (p ≠ q) }).ackStops

/-- A send descriptor disarmed. -/
def disarm (d : SendDesc) : SendDesc := { d with ctl := setBit d.ctl 46 false, queued := 0, pins := [] }

/-- The parts of a transfer that issue no more fail with TEARDOWN (R156). -/
def Xfer.cutOff (f : Jeb → W64 → Nat) (j : Jeb) (x : Xfer) : Xfer :=
  match x.toIssue with
  | [] => x
  | p :: l => { x.fail ((l.map fun r => f j r.remote).foldl min (f j p.remote)) stTeardown with toIssue := [], issued := true, serial := none }

/-- Issue stops (R156 steps 1 to 3): transfers not yet issued, and the rest of those partly issued, complete TEARDOWN;
fences too; descriptors are disarmed; ARM is cleared (R94). -/
def State.stopIssue (s : State) : State :=
  let s := s.updJeb fun j => { j with
    stopped := true, stopDone := false, resumed := [], epochArm := false, shadowMap := j.spreadMap, shadowSeed := j.spreadSeed
    sends := Tab.mapAll SendDesc.reset disarm j.sends }
  let engines := s.jeb.engines.map Prod.fst
  engines.foldl (fun s k =>
    let e := BitVec.ofNat 8 k
    let items := (s.engine e).queue
    let s := items.foldl (fun s i => match i with
      | .parked id t _ _ => (s.setEngine e { s.engine e with queue := removeItem (s.engine e).queue id }).endTransfer e id t stTeardown 0
      | .fence id f _ => (s.setEngine e { s.engine e with queue := removeItem (s.engine e).queue id }).finish e id f.comp stTeardown 0
      | .xfer x => s.setEngine e ((s.engine e).updXfer x.id (Xfer.cutOff Jeb.canon s.jeb))) s
    s.settleAll e) s

end Sys2Proof.Machine
end

