-- ==== Sys2Proof/Machine/Seal.lean ====
section
/-! DEFINITION. Key slots and their frames on both devices (R61, R265, R268 to R273): what a KEY frame holds, how a sender and
a receiver of an ACTIVATE change over, and when a retired slot is destroyed. -/

namespace Sys2Proof.Machine

open Sys2Proof

/-! ### KEY frames (R268) -/

def actInstall : Nat := 1
def actActivate : Nat := 2
def actRetire : Nat := 3
def actDestroy : Nat := 4

/-- AUX of a KEY frame. -/
def keyAux (action : Nat) (slot : BitVec 2) (rack : Byte) (tag : W16) (gen : W32) : W64 :=
  packW 64 [(0, action), (4, slot.toNat), (8, rack.toNat), (16, tag.toNat), (32, gen.toNat)]

/-- The data of an INSTALL: 40 wrapped bytes in two shingles. -/
def installData (kek key : BitVec 256) : List Shingle :=
  let w := keyWrap (keyBytes kek) (keyBytes key)
  [shingleOfBytes w, shingleOfBytes (w.drop 32)]

/-- The data of an ACTIVATE: G. -/
def activateData (g : W64) : List Shingle := [encodeShingle (BitVec.ofNat 256 g.toNat)]

/-- The key that an INSTALL carries, unwrapped; `none` where the integrity check fails. -/
def installKey (kek : Option (BitVec 256)) (data : List (BitVec 256)) : Option (BitVec 256) :=
  kek.bind fun k => (keyUnwrap (keyBytes k) ((data.flatMap fun w => bytesOf w 32).take 40)).map fun l => BitVec.ofNat 256 (natOfBytes l)

/-- The data of a control frame, or POISONED where a shingle is poisoned or uncorrectable. -/
def controlData (f : Frame) : Except Byte (List (BitVec 256)) :=
  let l := decodeData f
  if l.all Option.isSome then .ok (l.map fun w => w.getD 0) else .error stPoisoned

/-! ### Changing over (R272) -/

/-- A seal group 4 to 64 groups beyond the last one sent, from a free number (R272; log entry 5). -/
def SealSt.pick (x : SealSt) (free : Nat) : W64 := x.txGroup + BitVec.ofNat 64 (3 + free % 61)

/-- The transmitter will seal with a slot from a group on. -/
def SealSt.sendFrom (x : SealSt) (slot : BitVec 2) (g : W64) : SealSt := { x with txNext := some (slot, g) }

/-- The receiver learns from which group the first key is in use; of several announcements the newest holds until one has come into force.
Later keys are told by KEY_ID; the group announced says how long the key before is still needed. -/
def SealSt.expectFrom (x : SealSt) (slot : BitVec 2) (g : W64) : SealSt :=
  if x.rxOn ∨ x.rxFirst.any (fun h => decide (h.toNat ≤ x.rxCount.toNat)) then { x with rxNext := some g, rxSlot := slot }
  else { x with rxFirst := some g, rxSlot := slot }

/-- No key: what a destruction of the key leaves. The count of groups stays (R270). -/
def SealSt.unsealed (x : SealSt) : SealSt :=
  { x with txOn := false, rxOn := false, active := 0, due := [], txNext := none, anew := false, rxFirst := none, rxNext := none, rxSlot := 0, rxGroup := [], rxAt := [], txLaths := [], failed := none, retiring := none,
           gone := 0 }

/-- A port with its sealing changed. -/
def Port.onSeal (x : Port) (f : SealSt → SealSt) : Port := { x with sealing := f x.sealing }

/-- An announcement that waits at a port for its frame to be sent. -/
def State.announce (s : State) (p : PortRef) (d : KeyDue) : State := s.updPort p fun x => x.onSeal fun y => { y with due := y.due ++ [d] }

/-- What a frame that goes out announces. -/
def SealSt.dueFor (x : SealSt) (h : Header) : Option KeyDue :=
  x.due.find? fun d => decide (d.engine = h.srcEngine ∧ d.tag = h.tag ∧ h.opcode = (if d.ack then opAck else opKey) ∧ h.course = 4)

/-- A frame as it is sent: an ACTIVATE carries its G, the acknowledgement of one its G′, chosen now (R272). -/
def State.sendAs (s : State) (p : PortRef) (f : Frame) : Frame × State :=
  match (s.port p).sealing.dueFor f.hdr with
  | none => (f, s)
  | some d =>
    let g := (s.port p).sealing.pick s.freeNat
    (if d.ack then { f with hdr := { f.hdr with aux := g } } else { f with data := activateData g },
      s.updPort p fun x => x.onSeal fun y => { y.sendFrom d.slot g with due := y.due.erase d })

/-- A port that carries traffic seals under a slot, or its partner does. -/
def Port.sealsWith (x : Port) (slot : BitVec 2) : Bool :=
  (decide (x.train.state = .active) || decide (x.train.state = .retrain)) &&
    ((x.sealing.txOn && decide (x.sealing.active = slot)) || (x.sealing.rxOn && decide (x.sealing.rxSlot = slot)))

/-- A sealed port still needs a slot: a lath of it is held in the replay buffer, the port has not yet come to the group at which it leaves the
slot, or its partner has not; or no RETIRE has come by it, and it has not been told of another. Without that a rotation would interrupt the
traffic (R273; log entry 120). -/
def Port.needs (x : Port) (slot : BitVec 2) : Bool :=
  (decide (x.sealing.retiring ≠ some slot) && x.sealsWith slot) ||
  (x.sealing.txOn && ((x.retry.replay.any fun l => decide (l.keyId = slot)) ||
    (decide (x.sealing.active = slot) && (x.sealing.txNext.isSome || decide (x.sealing.due ≠ []))))) ||
  (x.sealing.rxOn && x.sealing.rxNext.any fun g => decide (x.sealing.rxCount.toNat < g.toNat))

/-! ### The Jalem block -/

/-- The retired slots that no port of the block needs any more are destroyed (R273). -/
def Jeb.retireDone (j : Jeb) : Jeb :=
  let due := (List.range 4).filter fun i =>
    (j.ports.any fun p => decide (p.2.sealing.retiring = some (BitVec.ofNat 2 i))) && j.ports.all fun p => !p.2.needs (BitVec.ofNat 2 i)
  if due = [] then j
  else { j with
    keys := due.foldl (fun t i => Tab.put none t i none) j.keys
    ports := Tab.mapAll Port.reset (fun x =>
      if x.sealing.retiring.any fun k => decide (k.toNat ∈ due) then x.onSeal fun y => { y with retiring := none } else x) j.ports }

/-- A module port that no longer needs its retired slot destroys it (R273). -/
def Port.retireDone (x : Port) : Port :=
  match x.sealing.retiring with
  | some k => if x.needs k then x else x.onSeal fun y => { y with retiring := none, gone := setBit y.gone k.toNat true }
  | none => x

def State.setSec (s : State) (f : Sec → Sec) : State := { s with sec := f s.sec }

/-- A slot's key destroyed. -/
def State.dropKey (s : State) (slot : BitVec 2) : State := s.setSec fun x => { x with linkKeys := Tab.put none x.linkKeys slot.toNat none }

/-- The slots that a rotation of the module's own has retired and that no port of it needs any more are destroyed (R273). -/
def State.dropRetired (s : State) : State :=
  (s.sec.retiring.filter fun k => !s.ports.any fun p => p.2.needs k).foldl
    (fun s k => (s.dropKey k).setSec fun x => { x with retiring := x.retiring.erase k }) s

/-- After acknowledgements at a port: retired slots that have become free of use. -/
def State.retireDone (s : State) (p : PortRef) : State :=
  match p with
  | .module n => (s.updPort (.module n) Port.retireDone).dropRetired
  | _ => s.updJeb Jeb.retireDone

/-- The key in a slot, as a port has it. -/
def State.portKey (s : State) (p : PortRef) (slot : BitVec 2) : Option LinkKey :=
  match p with
  | .module n => if bitAt (s.mport n.val).sealing.gone slot.toNat then none else Tab.get none s.sec.linkKeys slot.toNat
  | _ => Tab.get none s.jeb.keys slot.toNat

end Sys2Proof.Machine
end

