-- ==== Sys2Proof/Machine/Home.lean ====
section
/-! DEFINITION. The homes: eaves and their controllers (R181 to R198, R275) and the Jalem block's home (R149): one command for
each request opcode, the batten units (R116, R117, R196), stack training (R189) and patrol scrub (R198). -/

namespace Sys2Proof.Machine

open Sys2Proof

/-! ### What an eave counts (R183, R208) -/

/-- EAV_ERR_FIRST loaded while its KIND is 0. -/
def Eave.first (e : Eave) (i kind beat : Nat) : Eave :=
  if fld e.errFirst 31 3 = 0 then { e with errFirst := packW 64 [(0, i % eaveShingles % 2 ^ 31), (31, kind), (34, beat % 2 ^ 30)] } else e

/-- An eave's counter raised: 0 STACK_CORR, 16 SCRUB_CORR, 32 UNCORR, 48 POISON_STORED. -/
def Eave.bump (e : Eave) (lo k : Nat) : Eave := { e with err := satFld e.err lo 16 k }

/-- A mark counted at its eave and at its Gutter source; `ev` names the request that met it (R289). -/
def State.eaveMark (ev : Nat → Event) (s : State) (m : Mark × Nat) : State :=
  let n := m.2 / eaveShingles
  let ev := fun src => { ev src with addr := BitVec.ofNat 64 (maOfIndex s.eav.hashCfg m.2) }
  match m.1 with
  | .corrected => s.count (ev 0)
  | .uncorrectable => (s.setEave n (((s.eave n).bump 32 1).first m.2 3 s.beat)).count (ev 1)
  | .poisonStored => s.setEave n (((s.eave n).bump 48 1).first m.2 4 s.beat)

def State.eaveMarks (s : State) (ev : Nat → Event) (l : List (Mark × Nat)) : State := l.foldl (State.eaveMark ev) s

/-! ### Weight regions (R275) -/

/-- The weight register of the LOADING region that holds an address, with the region. -/
def State.weightAt (s : State) (ma : Nat) : Option (W64 × Dur) :=
  (s.eav.durs.find? fun p => decide (p.2.state = .loading ∧ p.2.lo ≤ ma ∧ ma ≤ p.2.hi)).bind fun p =>
    let w := Tab.get 0 s.sec.weights p.1
    if bitAt w 0 then some (w, p.2) else none

/-- One shingle of a write into a weight region decrypted, and what the eave met in it; a poisoned one stays, an uncorrectable one becomes
poisoned. -/
def weightShingle (key : BitVec 256) (w : W64) (d : Dur) (ma : Nat) (x : Shingle × Bool) : (Shingle × Bool) × List Mark :=
  if x.2 then (x, [])
  else
    let plain := fun v => encodeShingle (Config.weightPlain key (BitVec.ofNat 128 (fld w 32 32 * 2 ^ 64 + (ma - d.lo) / 32)) v)
    match decodeShingle x.1 with
    | .clean v => ((plain (Shingle.dataBits v), false), [])
    | .corrected v => ((plain (Shingle.dataBits v), false), [.corrected])
    | .uncorrectable => ((x.1, true), [.uncorrectable])

/-- The frame of a write as the eave stores it, and what it met: through the weight key where the region asks for it; `none` without a key. -/
def State.weighed (s : State) (f : Frame) (ma : Nat) : Option (Frame × List (Mark × Nat)) :=
  if rightOf f.hdr.opcode ≠ 1 then some (f, [])
  else match s.weightAt ma with
    | none => some (f, [])
    | some (w, d) => match Tab.get none s.sec.weightKeys (fld w 1 2) with
      | none => none
      | some key =>
        let l := f.data.zipIdx.map fun p => weightShingle key w d (ma + 32 * p.2) (p.1, poisoned f.hdr p.2)
        some ({ hdr := { f.hdr with poison := packW 8 (l.zipIdx.map fun p => (p.2, p.1.1.2.toNat)) }, data := l.map fun p => p.1.1 },
          l.zipIdx.flatMap fun p => p.1.2.map fun m => (m, shingleIndex s.eav.hashCfg (ma + 32 * p.2)))

/-! ### One request at an eave (R123, R187, R189) -/

/-- Requests of one engine. -/
def sameParty (h k : Header) : Bool := decide (h.srcNode = k.srcNode ∧ h.srcRack = k.srcRack ∧ h.srcEngine = k.srcEngine)

/-- A request that came before another of the same engine on the same link and virtual channel (R169). -/
def cameBefore (h : Header) (port : Option (Fin 144)) (order : Nat) (k : Header) (port' : Option (Fin 144)) (order' : Nat) : Bool :=
  decide (h.course = k.course ∧ h.sub = k.sub ∧ port = port' ∧ order < order') && sameParty h k

/-- A gather of the same engine, link and channel stands before a request: the gather's pages are read first (R169; log entry 92). -/
def State.gatherAhead (s : State) (e : Entry) : Bool :=
  (List.range 4).any fun g =>
    ((s.group g).lists.any fun b => cameBefore b.hdr b.port b.order e.frame.hdr e.ingress e.order) ||
    (s.queue (agentQueue g 2)).items.any fun q =>
      decide (q.frame.hdr.opcode = opBatten) && cameBefore q.frame.hdr q.ingress q.order e.frame.hdr e.ingress e.order

/-- A request that is no gather stands before a list. -/
def Entry.before (e : Entry) (b : BList) : Bool :=
  decide (e.frame.hdr.opcode ≠ opBatten ∧ e.frame.hdr.opcode ≠ opBattenCont) && cameBefore e.frame.hdr e.ingress e.order b.hdr b.port b.order

/-- Whether requests of the same engine, link and channel that came before a list have all been performed (R169; log entry 92). -/
def State.listTurn (s : State) (b : BList) : Bool :=
  !((s.eav.eaves.any fun p => p.2.homeQ.any fun e => e.before b) ||
    (List.range 4).any fun g => (s.queue (agentQueue g 2)).items.any fun e => e.before b)

/-- Request `i` of an eave's home queue, if it is of the opcode and mode and its turn at its line has come. -/
def State.homeTurn (s : State) (n : Fin 32) (i : Nat) (op : Byte) (ledger : Bool) : Option Entry :=
  let v := s.eave n.val
  match v.homeQ[i]? with
  | none => none
  | some e =>
    if e.frame.hdr.opcode = op ∧ (op ≠ opFadd ∨ e.ledger = ledger) ∧ !v.retraining ∧ !v.failed
        ∧ ((v.homeQ.take i).all fun r => decide (r.line ≠ e.line)) ∧ !s.gatherAhead e then some e
    else none

/-- A request leaves the home queue, performed. -/
def State.leaveHome (s : State) (n : Fin 32) (i : Nat) : State :=
  let v := s.eave n.val
  s.setEave n.val { v with homeQ := v.homeQ.eraseIdx i, lastDone := s.beat }

/-! ### One request at a Jalem home (R149) -/

/-- A request that arrives at the Jalem block: checked in the order of R120, performed at once, and answered on its link. -/
def State.jebPerform (s : State) (p : PortRef) (f : Frame) (op : Byte) : State :=
  if portDev p = .module ∨ f.hdr.opcode ≠ op then s
  else
    let s := s.jebTake p f
    match s.jebForm p f.hdr with
    | some c => s.jebRefuse p f.hdr c
    | none => match s.jebHome f.hdr (fpaOffset f.hdr.fpa) (accessBytes f.hdr) with
      | .error c => s.jebRefuse p f.hdr c
      | .ok a =>
        let r := homePerform f.hdr f.data s.jeb.store (a / 32) (a % 32) false (fun k => Config.freeKey k)
        let s := s.updJeb fun j => { j with mem := r.store.mem }
        if r.frame.hdr.status = stOk then s.jebSend p r.frame else (s.updJeb fun j => j.bump1 16).jebSend p r.frame

/-! ### Batten units (R116, R117, R196) -/

/-- A list's entries once its shingles are in; POISONED for one that cannot be read, BAD_LIST for a wrong count or a used
unused entry. -/
def BList.entries (b : BList) (poison : Bool) : Except Byte (List Nat) :=
  let count := battenCount b.hdr
  let l := b.got.map fun w => (decodeShingle w).data
  if b.got.length ≠ listShingles count then .error stBadList
  else if poison ∨ l.any Option.isNone then .error stPoisoned
  else match listEntries count (l.map fun w => w.getD 0) with
    | (es, true) => .ok es
    | (_, false) => .error stBadList

/-- The answer to a list that went on after 16 beats: the checks of R117 in their order, as far as the shingles are in. -/
def BList.lateAnswer (b : BList) : Frame :=
  errorFrame b.hdr (match b.entries (b.hdr.poison ≠ 0) with
    | .error c => if listShingles (battenCount b.hdr) ≤ b.got.length then c else stListIncomplete
    | .ok _ => stListIncomplete)

/-- List shingles that needed a correction. -/
def BList.corrections (b : BList) : Nat := (b.got.filter fun w => (decodeShingle w).wasCorrected).length

/-- One page at an eave group: window, durable state and eaves (R117, R120, R196, R201). The pages are checked one after the other (DESIGN CHOICE,
log entry 112). -/
def State.pageCheck (s : State) (h : Header) (entry : Nat) : Except Byte (Window × Nat) :=
  let page := pageBytes h
  let off := fpaOffset h.fpa + entry * page
  match windowFor s.eav.wins s.sec.rack.toNat h off page with
  | .error c => .error c
  | .ok w =>
    let lines := (List.range (page / 4096)).map fun k => w.moduleAddr (off + 4096 * k)
    match lines.findSome? fun ma => durCheck (s.eav.durAt ma) h.opcode with
    | some c => .error c
    | none =>
      let grans := (List.range (page / 256)).map fun k => w.moduleAddr (off + 256 * k)
      if grans.any fun ma => (s.eave (eaveOf s.eav.hashCfg ma).1).failed then .error stHomeFault else .ok (w, off)

/-- The shingles of a page in ascending address, with their poison, and what the eaves met; a ledger window's elements are rounded (R111). -/
def State.pageData (s : State) (h : Header) (w : Window) (off : Nat) : List ((Shingle × Bool) × List (Mark × Nat)) :=
  (List.range (pageBytes h / 32)).map fun k =>
    let i := shingleIndex s.eav.hashCfg (w.moduleAddr (off + 32 * k))
    if w.ledger then
      match ledgerElement s.eav.store i (Config.freeKey (s.fresh + k)) with
      | (x, bad, ms) => ((x, bad), ms)
    else (loadShingle s.eav.store i, [])

/-- The first failing page's code, or the pages. -/
def collectPages {α : Type} (check : Nat → Except Byte α) : List Nat → Except Byte (List α)
  | [] => .ok []
  | e :: es => match check e with
    | .error c => .error c
    | .ok p => match collectPages check es with
      | .error c => .error c
      | .ok ps => .ok (p :: ps)

/-- The frames that answer a whole list at an eave group, and what the eaves met; LIST_INCOMPLETE where it came whole after 16 beats. -/
def State.listAnswer (s : State) (b : BList) : List Frame × List (Mark × Nat) :=
  match b.entries (b.hdr.poison ≠ 0) with
  | .error c => ([errorFrame b.hdr c], [])
  | .ok es =>
    match collectPages (s.pageCheck b.hdr) es with
    | .error c => ([errorFrame b.hdr c], [])
    | .ok ps =>
      let l := ps.flatMap fun p => s.pageData b.hdr p.1 p.2
      (battenFrames b.hdr (l.map Prod.fst), l.flatMap Prod.snd)

/-- A list of a group ended with its answer. -/
def State.endList (s : State) (g : Fin 4) (b : BList) (answer : List Frame) : State :=
  let x := s.group g.val
  let s := s.setGroup g.val { x with lists := x.lists.erase b }
  answer.foldl (fun s f => s.respond (agentSource g.val) f) (s.spend 2048)

/-- A list that has all its shingles. -/
def BList.whole (b : BList) : Bool := decide (listShingles (battenCount b.hdr) ≤ b.got.length)

/-- Whether a list whose pages pass their checks waits for an eave that is retraining its stack (R189). -/
def State.listHeld (s : State) (b : BList) : Bool :=
  (s.eav.eaves.any fun p => p.2.retraining) &&
  match b.entries (b.hdr.poison ≠ 0) with
  | .error _ => false
  | .ok es => match collectPages (s.pageCheck b.hdr) es with
    | .error _ => false
    | .ok ps => ps.any fun p => (List.range (pageBytes b.hdr / 256)).any fun k =>
        (s.eave (eaveOf s.eav.hashCfg (p.1.moduleAddr (p.2 + 256 * k))).1).retraining

/-- A list that has all its shingles is answered once its turn has come and no eave of its pages retrains (R117, R169, R189); corrected list
shingles count to source 0 (R285). -/
def State.tryList (s : State) (g : Fin 4) (b : BList) : State :=
  if b.whole && s.listTurn b && !s.listHeld b then
    match s.listAnswer b with
    | (l, ms) => ((s.count { requestEvent 0 b.hdr with count := b.corrections }).eaveMarks (fun src => requestEvent src b.hdr) ms).endList g b l
  else s

/-- The open lists looked at again: those whose turn has come are answered. -/
def State.settleLists (s : State) : State :=
  (List.finRange 4).foldl (fun s g => (s.group g.val).lists.foldl (fun s b => s.tryList g b) s) s

/-- Whether a BATTEN_CONT continues a list (R116): the same FPA, source, tag and bay. -/
def continues (h : Header) (b : BList) : Bool :=
  decide (h.fpa = b.hdr.fpa ∧ h.srcNode = b.hdr.srcNode ∧ h.srcRack = b.hdr.srcRack ∧ h.srcEngine = b.hdr.srcEngine ∧ h.tag = b.hdr.tag
    ∧ h.bayTag = b.hdr.bayTag)

/-- The list with a continuation's shingles; the poison of any of them stays with the list. -/
def BList.extend (b : BList) (f : Frame) : BList := { b with got := b.got ++ f.data, hdr := { b.hdr with poison := b.hdr.poison ||| f.hdr.poison } }

/-- The head of a group's course-2 queue. -/
def State.battenHead (s : State) (g : Fin 4) : Option Entry := (s.queue (agentQueue g.val 2)).items.head?

/-- A BATTEN at the head of a group's queue accepted, if its unit has a free list (R196). -/
def State.acceptBatten (s : State) (g : Fin 4) : State :=
  match s.battenHead g with
  | none => s
  | some e =>
    if e.frame.hdr.opcode ≠ opBatten ∨ 64 ≤ (s.group g.val).lists.length then s
    else match s.dequeue (agentQueue g.val 2) with
      | none => s
      | some (_, s) =>
        let b : BList := { hdr := e.frame.hdr, got := e.frame.data, start := s.beat, port := e.ingress, order := e.order }
        let x := s.group g.val
        (((s.setGroup g.val { x with lists := x.lists ++ [b] }).tryList g b).serveGroup g.val).settleLists

/-- A BATTEN_CONT at the head of a group's queue: added to its list, or discarded and counted (R117). -/
def State.contBatten (s : State) (g : Fin 4) : State :=
  match s.battenHead g with
  | none => s
  | some e =>
    let f := e.frame
    if f.hdr.opcode ≠ opBattenCont then s
    else match s.dequeue (agentQueue g.val 2) with
      | none => s
      | some (_, s) =>
        let x := s.group g.val
        match x.lists.find? (continues f.hdr) with
        | none => ((s.drop f.hdr).serveGroup g.val).settleLists
        | some b =>
          let b' := b.extend f
          let s := s.setGroup g.val { x with lists := x.lists.map fun c => if c = b then b' else c }
          let s := if b.start + 16 < s.beat then s.endList g b' [b'.lateAnswer] else s.tryList g b'
          (s.serveGroup g.val).settleLists

/-! ### Gathers at a Jalem home -/

/-- The frames that answer a whole list at the Jalem block. -/
def State.jebListAnswer (s : State) (b : BList) : List Frame :=
  match b.entries (b.hdr.poison ≠ 0) with
  | .error c => [errorFrame b.hdr c]
  | .ok es =>
    let page := pageBytes b.hdr
    if b.start + 16 < s.jeb.tim.beat then [errorFrame b.hdr stListIncomplete]
    else match collectPages (fun e => s.jebHome b.hdr (fpaOffset b.hdr.fpa + e * page) page) es with
    | .error c => [errorFrame b.hdr c]
    | .ok as => battenFrames b.hdr (as.flatMap fun a => (upFrom (a / 32) (page / 32)).map (loadShingle s.jeb.store))

/-- A list of the block ended. -/
def State.jebEndList (s : State) (p : PortRef) (b : BList) (answer : List Frame) : State :=
  let s := s.updJeb fun j => { j with battens := j.battens.erase (p, b) }
  let s := if answer.any fun f => decide (f.hdr.status ≠ stOk) then s.updJeb fun j => j.bump1 16 else s
  answer.foldl (fun s f => s.jebSend p f) s

def State.jebTryList (s : State) (p : PortRef) (b : BList) : State :=
  if listShingles (battenCount b.hdr) ≤ b.got.length then
    s.jebEndList p b (s.jebListAnswer b)
  else s

/-- A batten frame that arrives at the Jalem block: taken and checked in form. -/
def State.jebBatten (s : State) (p : PortRef) (f : Frame) : State :=
  if portDev p = .module ∨ f.hdr.opcode ≠ opBatten then s
  else
    let s := s.jebTake p f
    match s.jebForm p f.hdr with
    | some c => s.jebRefuse p f.hdr c
    | none =>
      let b : BList := { hdr := f.hdr, got := f.data, start := s.jeb.tim.beat, port := none, order := 0 }
      (s.updJeb fun j => { j with battens := j.battens ++ [(p, b)] }).jebTryList p b

/-- A continuation at the block; one that matches no list cannot be answered: it is discarded and counted as a malformed request (R117, R285; log
entry 22). -/
def State.jebCont (s : State) (p : PortRef) (f : Frame) : State :=
  if portDev p = .module ∨ f.hdr.opcode ≠ opBattenCont then s
  else
    let s := s.jebTake p f
    match s.jebForm p f.hdr, s.jeb.battens.find? fun b => decide (b.1 = p) && continues f.hdr b.2 with
    | none, some (_, b) =>
      let b' := b.extend f
      (s.updJeb fun j => { j with battens := j.battens.map fun c => if c = (p, b) then (p, b') else c }).jebTryList p b'
    | _, _ => s.drop f.hdr

/-! ### A request performed at its eave -/

/-- A request performed at its eave: memory, counts, the answer, room for the next one, and the gathers that waited for it. -/
def State.eavePerform (s : State) (n : Fin 32) (i : Nat) (op : Byte) (ledger : Bool) : State :=
  match s.homeTurn n i op ledger with
  | none => s
  | some e =>
    let s := s.leaveHome n i
    let g := n.val / 8
    let s := match s.weighed e.frame e.ma with
      | none => s.refuse (agentSource g) e.frame.hdr stNoRight
      | some (f, met) =>
        let free := s.fresh
        let r := homePerform f.hdr f.data s.eav.store (shingleIndex s.eav.hashCfg e.ma) (e.ma % 32) e.ledger
          (fun k => Config.freeKey (free + k))
        let s := ({ s with eav := { s.eav with mem := r.store.mem } }.spend 16).eaveMarks (fun src => requestEvent src f.hdr) (met ++ r.marks)
        s.respond (agentSource g) r.frame
    (s.serveGroup g).settleLists

/-! ### Commands -/

/-- A request of an opcode at the home that a command names. -/
def State.atHome (s : State) (h : HomeSel) (op : Byte) : State :=
  match h with
  | .eave n i => s.eavePerform n i op false
  | .jalem p f => s.jebPerform p f op

/-- LOAD (R107, R182, R183, R193). -/
def execLoad (h : HomeSel) (s : State) : Host.Outcome State Fault Refusal := .next (s.atHome h opLoad)

/-- STORE (R107, R119, R183, R188, R193, R275). -/
def execStore (h : HomeSel) (s : State) : Host.Outcome State Fault Refusal := .next (s.atHome h opStore)

/-- ATOMIC (R108, R119, R175). -/
def execAtomic (h : HomeSel) (s : State) : Host.Outcome State Fault Refusal := .next (s.atHome h opAtomic)

/-- FADD in arrival mode (R109, R110); at a Jalem home a ledger-mode FADD is refused (R111). -/
def execFadd (h : HomeSel) (s : State) : Host.Outcome State Fault Refusal := .next (s.atHome h opFadd)

/-- FADD in ledger mode (R111, R192). -/
def execFaddLedger (n : Fin 32) (i : Nat) (s : State) : Host.Outcome State Fault Refusal := .next (s.eavePerform n i opFadd true)

/-- WIDEN_LOAD (R113, R195). -/
def execWidenLoad (h : HomeSel) (s : State) : Host.Outcome State Fault Refusal := .next (s.atHome h opWidenLoad)

/-- PUT of a chunk (R114, R119, R188, R193, R275). -/
def execPut (h : HomeSel) (s : State) : Host.Outcome State Fault Refusal := .next (s.atHome h opPut)

/-- GET of a chunk (R114, R182, R183, R193). -/
def execGet (h : HomeSel) (s : State) : Host.Outcome State Fault Refusal := .next (s.atHome h opGet)

/-- BATTEN (R116, R186, R196). -/
def execBatten (h : BattenSel) (s : State) : Host.Outcome State Fault Refusal :=
  .next (match h with
  | .group g => s.acceptBatten g
  | .jalem p f => s.jebBatten p f)

/-- BATTEN_ACCEPT (R196): a waiting BATTEN meets a free list. -/
def execBattenAccept (g : Fin 4) (s : State) : Host.Outcome State Fault Refusal := .next (s.acceptBatten g)

/-- BATTEN_CONT (R116, R117). -/
def execBattenCont (h : BattenSel) (s : State) : Host.Outcome State Fault Refusal :=
  .next (match h with
  | .group g => s.contBatten g
  | .jalem p f => s.jebCont p f)

/-- LIST_INCOMPLETE (R117): 16 beats after its acceptance a list is not whole. -/
def execListIncomplete (l : ListSel) (beat : W64) (s : State) : Host.Outcome State Fault Refusal :=
  let s := s.toBeat beat.toNat
  .next (match l with
  | .group g i =>
    match (s.group g.val).lists[i]? with
    | some b =>
      if b.start + 16 ≤ s.beat ∧ !b.whole then ((s.endList g b [errorFrame b.hdr stListIncomplete]).serveGroup g.val).settleLists else s
    | none => s
  | .jalem i =>
    match s.jeb.battens[i]? with
    | some (p, b) => if b.start + 16 ≤ s.jeb.tim.beat then s.jebEndList p b [errorFrame b.hdr stListIncomplete] else s
    | none => s)

/-! ### Stacks (R189) -/

/-- An eave out of service: fatal fault 14, and HOME_FAULT for what its home queue holds. -/
def State.failEave (s : State) (n : Fin 32) : State :=
  let v := s.eave n.val
  let s := s.setEave n.val { v with ready := false, failed := true, scrubRun := false, homeQ := [] }
  let ev := { eventOf 12 with addr := BitVec.ofNat 64 (maOfIndex s.eav.hashCfg (n.val * eaveShingles)) }
  let s := s.fatal 14 .module ev
  (v.homeQ.foldl (fun s e => s.refuse (agentSource (n.val / 8)) e.frame.hdr stHomeFault) s).serveGroup (n.val / 8) |>.settleLists

/-- STACK_RETRAINING (R189): the home queue is held. -/
def execStackRetraining (n : Fin 32) (s : State) : Host.Outcome State Fault Refusal :=
  .next (if (s.eave n.val).failed then s else s.setEave n.val { s.eave n.val with retraining := true })

/-- STACK_RETRAINED (R189): the home queue is released, and the gathers that waited for the eave go on. -/
def execStackRetrained (n : Fin 32) (s : State) : Host.Outcome State Fault Refusal :=
  .next (s.setEave n.val { s.eave n.val with retraining := false }).settleLists

/-- STACK_TRAINING_LOST (R189): 1 ms of retraining has not recovered the stack. -/
def execStackTrainingLost (n : Fin 32) (s : State) : Host.Outcome State Fault Refusal :=
  .next (if (s.eave n.val).retraining ∧ !(s.eave n.val).failed then s.failEave n else s)

/-- HOME_QUEUE_STOPPED (R189): a nonempty home queue has performed nothing for 2^10 beats. -/
def execHomeQueueStopped (n : Fin 32) (beat : W64) (s : State) : Host.Outcome State Fault Refusal :=
  let s := s.toBeat beat.toNat
  .next (if (s.eave n.val).homeQ ≠ [] ∧ (s.eave n.val).lastDone + 1024 ≤ s.beat then s.failEave n else s)

/-! ### Patrol scrub (R198) -/

/-- The scrub of an eave moves to its next shingle; a pass ends after the last. -/
def Eave.scrubNext (e : Eave) : Eave :=
  let i := (e.scrubShingle + 1) % eaveShingles
  let pos := setFld e.scrubPos 0 24 (i / 128)
  { e with scrubShingle := i, scrubRun := true, scrubPos := if i = 0 then satFld pos 24 8 1 else pos }

/-- One visit of the scrub: memory, and what it met. -/
def scrubShingle (m : Store) (i : Nat) : Store × Option Mark :=
  if markedAt m i then (m, none)
  else match decodeShingle (readShingle m i) with
    | .clean _ => (m, none)
    | .corrected v => (storeShingle m i v false, some .corrected)
    | .uncorrectable => (storeShingle m i (readShingle m i) true, some .uncorrectable)

/-- What storage has changed in the stored word of a shingle (R197: under encryption, in its ciphertext). -/
def Store.disturb (m : Store) (i : Nat) (err : Shingle) : Store :=
  if err = 0 then m else { m with mem := { m.mem with cells := writeCells m.mem.cells i (readCells m.mem.cells i ^^^ err) } }

/-- The corrections by the stack's own code since the last visit, of whatever access, counted (R182; log entry 93). -/
def State.stackCorr (s : State) (n k : Nat) : State :=
  let i := n * eaveShingles + (s.eave n).scrubShingle
  let ev := { eventOf 12 with addr := BitVec.ofNat 64 (maOfIndex s.eav.hashCfg i) }
  if k = 0 then s else (s.setEave n (((s.eave n).bump 0 k).first i 1 s.beat)).count { ev with count := k }

/-- The scrub's visit of its next shingle (R198). -/
def State.scrubVisit (s : State) (n : Nat) (err : Shingle) : State :=
  let v := s.eave n
  let i := n * eaveShingles + v.scrubShingle
  let ev := fun src => { eventOf src with addr := BitVec.ofNat 64 (maOfIndex s.eav.hashCfg i) }
  match scrubShingle (s.eav.store.disturb i err) i with
  | (m, met) =>
    let v := match met with
      | some .corrected => (v.bump 16 1).first i 2 s.beat
      | some .uncorrectable => (((v.bump 32 1).first i 3 s.beat).bump 48 1).first i 4 s.beat
      | _ => v
    let s : State := { s with eav := { s.eav with mem := m.mem } }.setEave n v.scrubNext
    match met with
    | some .corrected => s.count (ev 13)
    | some .uncorrectable => s.count (ev 1)
    | _ => s

/-- PATROL_SCRUB (R182, R198): `err` is what storage has changed in the shingle that the scrub visits next, `stackCorr` what the stack's own
code has corrected. Without a scrub in progress only the corrections are counted. -/
def execPatrolScrub (n : Fin 32) (err : Shingle) (stackCorr : W16) (s : State) : Host.Outcome State Fault Refusal :=
  let s := s.stackCorr n.val stackCorr.toNat
  .next (if !bitAt s.eav.scrubCfg 0 ∨ (s.eave n.val).failed ∨ (s.eave n.val).zeroizing then s else s.scrubVisit n.val err)

end Sys2Proof.Machine
end

