-- ==== Sys2Proof/Machine/Translate.lean ====
section
/-! DEFINITION. The Jalem block's translation (R133 to R136), the whole check of a transfer (R142) and the fault ring (R144,
R145). -/

namespace Sys2Proof.Machine

open Sys2Proof

/-! ### The walk (R133 to R136) -/

/-- Causes of a fault record (R145). -/
def causeUnmapped : Nat := 0
def causeNoPermission : Nat := 1
def causeBadTable : Nat := 2
def causeNoncontig : Nat := 3
def causeStaleDesc : Nat := 4
def causeDescNotArmed : Nat := 5

/-- Index of a virtual address in a table of a level, 4 down to 0. Bits [63:57] index nothing (DESIGN CHOICE, log entry 136). -/
def vaIndex (va level : Nat) : Nat :=
  match level with
  | 0 => va / 2 ^ 16 % 32
  | l => va / 2 ^ (21 + 9 * (l - 1)) % 512

/-- Page size of a leaf of a level (R133). -/
def leafBytes (level : Nat) : Nat :=
  match level with
  | 0 => 2 ^ 16
  | 1 => 2 ^ 21
  | _ => 2 ^ 30

/-- A table entry read from the mirror: 64 bits of accelerator memory in correcting mode; `none` where poisoned (R136). -/
def Jeb.tableEntry (j : Jeb) (unit i : Nat) : Option W64 :=
  let a := j.poolMirror.toNat / 4096 * 4096 + 4096 * unit + 8 * i
  (decodeAt j.store (a / 32)).1.map fun w => BitVec.ofNat 64 (fld w (8 * (a % 32)) 64)

/-- What the walk makes of an entry at a level: a leaf, the next table, or a cause (R134). -/
inductive WalkStep where
  | leaf (e : W64)
  | next (unit : Nat)
  | fail (cause : Nat)
deriving DecidableEq, Repr

/-- One entry of the walk. -/
def Jeb.walkEntry (j : Jeb) (level : Nat) (e : W64) : WalkStep :=
  if !bitAt e 0 then .fail causeUnmapped
  else if fld e 6 10 ≠ 0 then .fail causeBadTable
  else if bitAt e 1 then
    if 3 ≤ level then .fail causeBadTable
    else if fld e 16 48 * 2 ^ 16 % leafBytes level ≠ 0 then .fail causeBadTable
    else .leaf e
  else if level = 0 then .fail causeBadTable
  else if fld e 36 28 ≠ 0 ∨ j.poolSize.toNat ≤ fld e 16 20 then .fail causeBadTable
  else .next (fld e 16 20)

/-- The walk from a table of a level: the leaf with its level, or a cause. -/
def Jeb.walkFrom (j : Jeb) (va : Nat) : Nat → Nat → Except Nat (Nat × W64)
  | 0, unit =>
    match j.tableEntry unit (vaIndex va 0) with
    | none => .error causeBadTable
    | some e => match j.walkEntry 0 e with
      | .leaf e => .ok (0, e)
      | .next _ => .error causeBadTable
      | .fail c => .error c
  | l + 1, unit =>
    match j.tableEntry unit (vaIndex va (l + 1)) with
    | none => .error causeBadTable
    | some e => match j.walkEntry (l + 1) e with
      | .leaf e => .ok (l + 1, e)
      | .next u => j.walkFrom va l u
      | .fail c => .error c

/-- The walk of a context (R133, R135). A ROOT outside the pool is a table outside it (DESIGN CHOICE, log entry 137). -/
def Jeb.walk (j : Jeb) (ctx : BitVec 6) (va : Nat) : Except Nat (Nat × W64) :=
  let c := Tab.get 0 j.ctxs ctx.toNat
  if !bitAt c 0 then .error causeUnmapped
  else if j.poolSize.toNat ≤ fld c 16 20 then .error causeBadTable
  else j.walkFrom va 4 (fld c 16 20)

/-- The cached translation of an address in a context, if there is one (R136). -/
def Jeb.cached (j : Jeb) (ctx : BitVec 6) (va : Nat) : Option CacheEntry :=
  j.cache.find? fun c => decide (c.ctx = ctx ∧ c.page = va / leafBytes c.level)

/-- A translation added to the cache of 4,096 entries; where it is full, a free number says which entry goes (log entry 5). -/
def Jeb.cacheAdd (j : Jeb) (free : Nat) (c : CacheEntry) : Jeb :=
  if c ∈ j.cache then j
  else if j.cache.length < 4096 then { j with cache := c :: j.cache }
  else { j with cache := c :: j.cache.eraseIdx (free % 4096) }

/-- A granule translated: the cache or the walk, with the cache after it. A context with VALID 0 maps nothing, cached or not (R161). -/
def Jeb.translate (j : Jeb) (free : Nat) (ctx : BitVec 6) (va : Nat) : Except Nat CacheEntry × Jeb :=
  if !bitAt (Tab.get 0 j.ctxs ctx.toNat) 0 then (.error causeUnmapped, j)
  else match j.cached ctx va with
  | some c => (.ok c, j)
  | none => match j.walk ctx va with
    | .ok (l, e) =>
      let c : CacheEntry := { ctx := ctx, level := l, page := va / leafBytes l, leaf := e }
      (.ok c, j.cacheAdd free c)
    | .error c => (.error c, if c = causeBadTable then j.bump1 48 else j)

/-- The FPA that a leaf gives to an address in its page. -/
def CacheEntry.fpa (c : CacheEntry) (va : Nat) : W64 := BitVec.ofNat 64 (fld c.leaf 16 48 * 2 ^ 16 + va % leafBytes c.level)

/-! ### A transfer's extents (R141) -/

/-- Bytes of a LOAD's, STORE's or WIDEN_LOAD's SIZE (R106); none for the reserved code. -/
def sizeOf (t : Transfer) : Nat := 32 * [1, 2, 8].getD (fld t.attr 0 2) 0

/-- Bytes of a remote row: a WIDEN_LOAD's source is half its result (log entry 19). -/
def remoteRow (t : Transfer) : Nat :=
  match t.op with
  | .widenLoad => t.rowBytes / 2
  | .atomic => if bitAt t.attr 3 then 8 else 4
  | .fadd => 32
  | .batten => ((t.entries.map BitVec.toNat).foldl max 0 + 1) * (4096 * 2 ^ fld t.attr 0 3)
  | _ => t.rowBytes

/-- Bytes of a local row. -/
def localRow (t : Transfer) : Nat :=
  match t.op with
  | .atomic => 0
  | .fadd => 0
  | .batten => t.entries.length * (4096 * 2 ^ fld t.attr 0 3)
  | _ => t.rowBytes

/-- Rows of a transfer: one for an ATOMIC, an FADD and a BATTEN. -/
def rowCount (t : Transfer) : Nat :=
  match t.op with
  | .atomic => 1
  | .fadd => 1
  | .batten => 1
  | _ => t.rows

/-- Granules that `n` bytes from `va` cover. -/
def granulesOf (va n : Nat) : List Nat := if n = 0 then [] else upFrom (va / 65536) ((va + n - 1) / 65536 + 1 - va / 65536)

/-- Granules of a side: rows of `n` bytes at a pitch. -/
def sideGranules (va n pitch rows : Nat) : List Nat :=
  ((List.range rows).flatMap fun r => granulesOf (va + r * pitch) n).eraseDups

def remoteGranules (t : Transfer) : List Nat := sideGranules t.rva.toNat (remoteRow t) t.rpitch (rowCount t)
def localGranules (t : Transfer) : List Nat := sideGranules t.lva.toNat (localRow t) t.lpitch (rowCount t)

/-- Check 1 of R142 and the limits of R141: rows, bytes and pages. -/
def tooLarge (t : Transfer) : Bool :=
  let move := if t.op = .batten then localRow t else rowCount t * t.rowBytes
  (decide (t.op ≠ .atomic ∧ t.op ≠ .fadd) && (decide (rowCount t = 0 ∨ 4096 < rowCount t ∨ 2 ^ 26 < move))) ||
    decide (4097 * 65536 < remoteRow t) ||
    decide (4096 < (remoteGranules t).length + (localGranules t).length)

/-- Check 2 of R142: alignment under R105, SIZE, and the bulk limits of R114. -/
def misaligned (t : Transfer) : Bool :=
  let r := t.rva.toNat
  let pitches := decide (t.rpitch % 32 ≠ 0 ∨ t.lpitch % 32 ≠ 0)
  let all := fun n => (List.range (rowCount t)).all fun k => decide ((r + k * t.rpitch) % n = 0)
  match t.op with
  | .atomic => decide (r % remoteRow t ≠ 0)
  | .fadd => decide (r % 32 ≠ 0)
  | .batten => decide (r % (4096 * 2 ^ fld t.attr 0 3) ≠ 0 ∨ t.lva.toNat % 32 ≠ 0)
  | .put => pitches || !all 32 || decide (t.rowBytes % 32 ≠ 0 ∨ t.rowBytes < 256 ∨ t.lva.toNat % 32 ≠ 0)
  | .get => pitches || !all 32 || decide (t.rowBytes % 32 ≠ 0 ∨ t.rowBytes < 256 ∨ t.lva.toNat % 32 ≠ 0)
  | .widenLoad => pitches || decide (sizeOf t = 0 ∨ t.rowBytes = 0 ∨ t.rowBytes % sizeOf t ≠ 0 ∨ t.lva.toNat % 32 ≠ 0) || !all (sizeOf t / 2)
  | _ => pitches || decide (sizeOf t = 0 ∨ t.rowBytes = 0 ∨ t.rowBytes % sizeOf t ≠ 0 ∨ t.lva.toNat % 32 ≠ 0) || !all (sizeOf t)

/-- The right that a side needs: the bit of a leaf, 2 RD, 3 WR, 4 AT (R142 check 3). -/
def needBit (op : TOp) (localSide : Bool) : Nat :=
  match op with
  | .atomic => 4
  | .fadd => 4
  | .store => if localSide then 2 else 3
  | .put => if localSide then 2 else 3
  | _ => if localSide then 3 else 2

/-- OPCLASS of a fault record (R145). -/
def opClass : TOp → Nat
  | .load => 0 | .store => 0 | .atomic => 1 | .fadd => 2 | .widenLoad => 3 | .put => 4 | .get => 5 | .batten => 6

/-- A granule's page, or the cause of its failure; the cache follows. -/
def checkGranule (ctx : BitVec 6) (bit free : Nat) (r : Jeb × List (Nat × Except Nat CacheEntry)) (g : Nat) :
    Jeb × List (Nat × Except Nat CacheEntry) :=
  match r.1.translate (free + g) ctx (g * 65536) with
  | (.ok c, j) => (j, r.2 ++ [(g, if bitAt c.leaf bit then .ok c else .error causeNoPermission)])
  | (.error c, j) => (j, r.2 ++ [(g, .error c)])

/-- Every granule of a side. -/
def checkSide (j : Jeb) (ctx : BitVec 6) (bit free : Nat) (l : List Nat) : Jeb × List (Nat × Except Nat CacheEntry) :=
  l.foldl (checkGranule ctx bit free) (j, [])

/-- The failing granules of a side. -/
def badGranules (l : List (Nat × Except Nat CacheEntry)) : List (Nat × Nat) :=
  l.filterMap fun p => match p.2 with
    | .error c => some (p.1, c)
    | .ok _ => none

/-- The least granule of a nonempty list of failures. -/
def leastGranule (l : List (Nat × Nat)) : Option (Nat × Nat) :=
  l.foldl (fun acc p => match acc with
    | none => some p
    | some q => if p.1 < q.1 then some p else acc) none

/-- The first failure in ascending address, remote side first (R145). -/
def firstFault (op : TOp) (rem loc : List (Nat × Nat)) : Option FaultInfo :=
  let n := min (rem.length + loc.length) 0xFFFF
  match leastGranule rem, leastGranule loc with
  | some (g, c), _ => some { granule := g, cause := c, access := needBit op false - 2, localSide := false, bad := n }
  | none, some (g, c) => some { granule := g, cause := c, access := needBit op true - 2, localSide := true, bad := n }
  | none, none => none

/-- The page of an address among checked granules. -/
def pageOf (l : List (Nat × Except Nat CacheEntry)) (va : Nat) : Option CacheEntry :=
  match (l.find? fun p => decide (p.1 = va / 65536)).map Prod.snd with
  | some (.ok c) => some c
  | _ => none

def fpaAt (l : List (Nat × Except Nat CacheEntry)) (va : Nat) : W64 := ((pageOf l va).map fun c => c.fpa va).getD 0

/-- Check 4 of R142: the remote extent lies on one contiguous FPA range; the granules that lie off the one that the first begins,
which PAGES_BAD counts (R145; log entry 114). -/
def breakGranules (l : List (Nat × Except Nat CacheEntry)) : List Nat :=
  match l with
  | [] => []
  | (g0, _) :: _ =>
    let base := fpaAt l (g0 * 65536)
    (l.filter fun p => decide ((fpaAt l (p.1 * 65536)).toNat ≠ base.toNat + (p.1 - g0) * 65536) ||
      decide (fpaNode (fpaAt l (p.1 * 65536)) ≠ fpaNode base ∨ fpaRack (fpaAt l (p.1 * 65536)) ≠ fpaRack base)).map Prod.fst

/-- The chunks of a bulk row: cut at the 256 B boundaries of the remote address (R114). -/
def chunks (r l : Nat) : Nat → Nat → List (Nat × Nat × Nat)
  | 0, _ => []
  | fuel + 1, left =>
    if left = 0 then []
    else
      let n := min left (256 - r % 256)
      (r, l, n) :: chunks (r + n) (l + n) fuel (left - n)

/-- The parts that a transfer is issued in (R146): remote virtual address, local virtual address and bytes at the home. -/
def partsOf (t : Transfer) : List (Nat × Nat × Nat) :=
  let r := t.rva.toNat
  let l := t.lva.toNat
  match t.op with
  | .atomic => [(r, 0, remoteRow t)]
  | .fadd => [(r, 0, 32)]
  | .batten => [(r, l, remoteRow t)]
  | .put => (List.range t.rows).flatMap fun k => chunks (r + k * t.rpitch) (l + k * t.lpitch) (t.rowBytes / 32 + 1) t.rowBytes
  | .get => (List.range t.rows).flatMap fun k => chunks (r + k * t.rpitch) (l + k * t.lpitch) (t.rowBytes / 32 + 1) t.rowBytes
  | o =>
    let half := if o = .widenLoad then 2 else 1
    (List.range t.rows).flatMap fun k => (List.range (t.rowBytes / sizeOf t)).map fun i =>
      (r + k * t.rpitch + i * (sizeOf t / half), l + k * t.lpitch + i * sizeOf t, sizeOf t / half)

/-- The outcome of a check: a code, a fault to record, or the parts with the pages they need. -/
inductive Checked where
  | code (c : Byte)
  | fault (f : FaultInfo)
  | pass (specs : List Spec) (fmode : Bool) (lmap : List (Nat × Nat))
deriving DecidableEq, Repr

/-- The whole check of R142. -/
def Jeb.check (j : Jeb) (free : Nat) (t : Transfer) : Checked × Jeb :=
  if tooLarge t then (.code 0x52, j)
  else if misaligned t then (.code 0x11, j)
  else
    match checkSide j t.ctx (needBit t.op false) free (remoteGranules t) with
    | (j, rem) =>
      match checkSide j t.ctx (needBit t.op true) (free + 2 ^ 42) (localGranules t) with
      | (j, loc) =>
        match firstFault t.op (badGranules rem) (badGranules loc) with
        | some f => (.fault f, j)
        | none =>
          match (if t.op = .batten then breakGranules rem else []) with
          | g :: gs => (.fault { granule := g, cause := causeNoncontig, access := 0, localSide := false, bad := min (gs.length + 1) 0xFFFF }, j)
          | [] =>
            let specs := (partsOf t).map fun p => { remote := fpaAt rem p.1, bytes := p.2.2, lva := p.2.1 : Spec }
            let foreign := (specs.any fun p => !j.ownRack (fpaRack p.remote)) || loc.any fun p => !j.ownRack (fpaRack (fpaAt loc (p.1 * 65536)))
            if t.op ≠ .put ∧ t.op ≠ .get ∧ foreign then (.code 0x22, j)
            else (.pass specs (((pageOf rem t.rva.toNat).map fun c => bitAt c.leaf 5).getD false)
                   (loc.map fun p => (p.1, fpaOffset (fpaAt loc (p.1 * 65536)))), j)

/-! ### The fault ring (R144, R145) -/

/-- Entries of a ring of ORDER 6 to 16; other values act as 6. -/
def ringSize (order : BitVec 5) : Nat := 2 ^ (if 6 ≤ order.toNat ∧ order.toNat ≤ 16 then order.toNat else 6)

def Jeb.fltFull (j : Jeb) : Bool := decide ((j.fltTail.toNat + 1) % ringSize j.fltSize = j.fltHead.toNat % ringSize j.fltSize)

/-- A fault record of 32 B (R145). -/
def faultRecord (f : FaultInfo) (b : FaultBy) (gen seq : W32) (ns : Nat) : BitVec 256 :=
  let w0 := f.granule * 65536 % 2 ^ 57
  let w1 := b.task.toNat + b.ctx.toNat * 2 ^ 16 + b.engine.toNat * 2 ^ 22 + f.cause * 2 ^ 30 + 2 ^ f.access * 2 ^ 34 + b.cls * 2 ^ 37
    + f.localSide.toNat * 2 ^ 41 + f.bad * 2 ^ 48
  let w2 := gen.toNat + seq.toNat * 2 ^ 32
  BitVec.ofNat 256 (w0 + w1 * 2 ^ 64 + w2 * 2 ^ 128 + ns % 2 ^ 64 * 2 ^ 192)

/-- A fault record written, the tail advanced and the event raised. Its generation and time are those of the check (R138, R145). -/
def Jeb.recordFault (j : Jeb) (f : FaultInfo) (b : FaultBy) : Jeb :=
  let i := j.fltBase.toNat / 32 + j.fltTail.toNat % ringSize j.fltSize
  ({ j with mem := (storeShingle j.store i (encodeShingle (faultRecord f b b.gen j.fltSeq b.ns)) false).mem
            fltTail := BitVec.ofNat 16 ((j.fltTail.toNat + 1) % ringSize j.fltSize), fltSeq := j.fltSeq + 1, event := true }).bump1 32

end Sys2Proof.Machine
end

