-- ==== Sys2Proof/Machine/Transfer.lean ====
section
/-! DEFINITION. The Jalem block's issue side: transfers and fences accepted (R142 to R145, R164, R173), requests issued (R87,
R88, R92, R146, R169 to R173, R51), responses (R118, R150, R166), and the fault ring's head and resumption (R144, R145). -/

namespace Sys2Proof.Machine

open Sys2Proof

/-! ### Accepting -/

/-- Permitted combinations of ORD (R164). -/
def ordOk (t : Transfer) : Bool :=
  let one := fun (o : TOp) => decide (t.op = o ∧ t.rows = 1 ∧ t.rowBytes = 32 ∧ sizeOf t = 32)
  match t.ord.toNat with
  | 0 => true
  | 1 => one .load || decide (t.op = .atomic)
  | 2 => one .store || decide (t.op = .atomic) || decide (t.op = .fadd)
  | 3 => decide (t.op = .atomic)
  | _ => false

/-- Item `id` of a queue replaced. -/
def Engine.replace (g : Engine) (id : Nat) (i : QItem) : Engine :=
  { g with queue := g.queue.map fun j => if j.id = id then i else j }

/-- Whether an item waits unissued for a task, behind transfer `id` (R144). -/
def squashable (task : W16) (id : Nat) : QItem → Bool
  | .parked j t _ _ => decide (t.task = task ∧ id < j)
  | .xfer x => decide (x.t.task = task ∧ id < x.id) && !x.issued
  | .fence j f _ => decide (f.task = task ∧ id < j)

/-- A transfer that leaves a queue unissued completes with a code of R143. -/
def State.endItem (s : State) (e : Byte) (i : QItem) (code : Byte) : State :=
  match i with
  | .parked id t _ _ => s.endTransfer e id t code 0
  | .xfer x => s.endTransfer e x.id x.t code 0
  | .fence id f _ => s.finish e id f.comp code 0

/-- The transfers of a task behind a faulting one, fences among them, complete SQUASHED, in every engine's queue (R144). -/
def State.squash (s : State) (task : W16) (id : Nat) : State :=
  (s.jeb.engines.map Prod.fst).foldl (fun s k =>
    let e := BitVec.ofNat 8 k
    (((s.engine e).queue.filter (squashable task id)).map QItem.id).foldl
      (fun s j => match (s.engine e).queue.find? fun i => decide (i.id = j) with
        | some i => (s.setEngine e ((s.engine e).dropItem j)).endItem e i 0x51
        | none => s) s) s

/-- Every engine settled: a completion in one queue may follow from what another's loses. -/
def State.settleEvery (s : State) : State := (s.jeb.engines.map Prod.fst).foldl (fun s k => s.settleAll (BitVec.ofNat 8 k)) s

/-- A transfer's check, its item standing in the queue (R142 to R145). -/
def State.checkItem (s : State) (e : Byte) (id : Nat) (t : Transfer) (broken : Bool) : State :=
  match s.jeb.check s.freeNat t with
  | (res, j) =>
    let s := ({ s with jeb := j }).spend 1
    match res with
    | .code c => ((s.setEngine e ((s.engine e).dropItem id)).endTransfer e id t c 0).settleAll e
    | .fault f =>
      if s.jeb.fltFull then s.setEngine e ((s.engine e).replace id (.parked id t true broken))
      else
        let s := s.updJeb fun j =>
          let b : FaultBy := { task := t.task, ctx := t.ctx, engine := e, cls := opClass t.op, gen := j.genDone, ns := j.tim.ns }
          { j.recordFault f b with faulted := if t.task ∈ j.faulted then j.faulted else j.faulted ++ [t.task] }
        let s := (s.setEngine e ((s.engine e).dropItem id)).endTransfer e id t 0x50 0
        (s.squash t.task id).settleEvery
    | .pass specs fmode lmap =>
      let x : Xfer := { id := id, t := t, fmode := fmode, toIssue := specs, lmap := lmap, failed := none, issued := false, sent := false,
                        broken := broken, value := 0, serial := none }
      s.setEngine e ((s.engine e).replace id (.xfer x))

/-- Whether a parked item must go on waiting: its task is held, or an item before it waits for the fault ring. -/
def State.mustWait (s : State) (e : Byte) (id : Nat) (task : W16) : Bool :=
  decide (task ∈ s.jeb.faulted) || (itemsBefore (s.engine e).queue id).any fun i => match i with
    | .parked _ _ b _ => b
    | _ => false

/-- The parked items of an engine's queue checked in order, as far as they need not wait. -/
def State.unpark (s : State) (e : Byte) : State :=
  ((s.engine e).queue.map QItem.id).foldl (fun s id =>
    match (s.engine e).queue.find? fun i => decide (i.id = id) with
    | some (.parked _ t _ broken) => if s.mustWait e id t.task then s else s.checkItem e id t broken
    | _ => s) s

/-- The fault records of send descriptors that wait for space written as far as there is space (R145, R154): such a check has then ended, which
a GEN may wait for (R138). -/
def Jeb.writeWaiting (j : Jeb) : Nat → Jeb
  | 0 => j
  | n + 1 =>
    match j.fltWait with
    | [] => j
    | (f, b) :: l =>
      if j.fltFull then j
      else
        let ended := fun (w : GenWait) => { w with descs := w.descs - 1 }
        ({ j with fltWait := l, genWait := j.genWait.map ended }.recordFault f b).writeWaiting n

/-- A fault record of a send descriptor: written, or waiting while the ring is full (R145, R154). -/
def Jeb.sendFault (j : Jeb) (f : FaultInfo) (b : FaultBy) : Jeb :=
  let j := { j with fltWait := j.fltWait ++ [(f, b)] }
  j.writeWaiting j.fltWait.length

def State.unparkAll (s : State) : State :=
  let s := s.updJeb fun j => j.writeWaiting j.fltWait.length
  (s.jeb.engines.map Prod.fst).foldl (fun s k => s.unpark (BitVec.ofNat 8 k)) s

/-- The number of the next transfer or fence. -/
def State.nextId (s : State) : Nat × State := (s.jeb.nextXfer, s.updJeb fun j => { j with nextXfer := j.nextXfer + 1 })

/-- An item appended to an engine's queue. A boundary takes over a failed write behind it (R171), and a fence bounds the writes before it. -/
def State.enqueue (s : State) (e : Byte) (boundary : Bool) (i : Bool → QItem) : State :=
  let g := s.engine e
  let item := i (boundary && g.writeFailed)
  s.setEngine e { queue := g.queue ++ [item], writeFailed := !boundary && g.writeFailed,
                  bound := match item with
                    | .fence id _ _ => id
                    | _ => g.bound }

/-- TRANSFER (R141 to R145, R156, R164): engines are 0x00 to 0xFD. -/
def execTransfer (t : Transfer) (s : State) : Host.Outcome State Fault Refusal :=
  .next (if 0xFE ≤ t.engine.toNat then s
    else
      match s.nextId with
      | (id, s) =>
        let e := t.engine
        if s.jeb.stopped then s.endTransfer e id t stTeardown 0
        else if !ordOk t then (s.updJeb fun j => j.bumpOrd 32).endTransfer e id t 0x54 0
        else
          let s := s.enqueue e (decide (t.ord = 2 ∨ t.ord = 3)) (.parked id t false)
          s.unpark e)

/-- FENCE (R164, R173): a fence whose condition is met completes at once. -/
def execFence (f : FenceReq) (s : State) : Host.Outcome State Fault Refusal :=
  .next (if 0xFE ≤ f.engine.toNat then s
    else
      match s.nextId with
      | (id, s) =>
        if s.jeb.stopped then s.finish f.engine id f.comp stTeardown 0
        else if 3 ≤ f.kind.toNat ∨ f.ord ≠ 0 then (s.updJeb fun j => j.bumpOrd 32).finish f.engine id f.comp 0x54 0
        else (s.enqueue f.engine true (fun _ => .fence id f false)).settleAll f.engine)

/-! ### Issuing -/

/-- The bucket of an FPA (R87). -/
def Jeb.bucket (j : Jeb) (a : W64) : BitVec 6 := BitVec.ofNat 6 (pathHash a (BitVec.ofNat 8 j.node.toNat) j.spreadSeed)

/-- The ACTIVE rafter link with the most request credit on a course, the lowest on a tie (R88). -/
def State.bestLink (s : State) (course : Nat) : Option (Fin 18) :=
  let act := (List.finRange 18).filter fun q => decide ((s.rport q).train.state = .active)
  act.foldl (fun acc q => match acc with
    | none => some q
    | some p => if (s.rport p).cred.avail (2 * course) < (s.rport q).cred.avail (2 * course) then some q else acc) none

/-- How a part will travel: link, course and bucket. -/
structure Path where
  link : Option (Fin 18)
  course : Nat
  bucket : Option (BitVec 6)
deriving DecidableEq, Repr

/-- The course of a part (R105, R146). -/
def Jeb.courseOf (j : Jeb) (t : Transfer) (a : W64) : Nat :=
  match t.op with
  | .put => if j.ownRack (fpaRack a) then 2 else 3
  | .get => if j.ownRack (fpaRack a) then 2 else 3
  | .batten => 2
  | .atomic => 0
  | .fadd => 0
  | _ => if sizeOf t = 256 then 2 else 0

/-- The path of a part (R87, R88, R136, R51); `none` where no link is ACTIVE for a spread chunk. -/
def State.pathOf (s : State) (x : Xfer) (p : Spec) : Option Path :=
  let j := s.jeb
  let c := j.courseOf x.t p.remote
  let node := fpaNode p.remote
  match x.serial with
  | some (_, q) => some { link := some q, course := 2, bucket := none }
  | none =>
    if j.isLocal p.remote then some { link := none, course := c, bucket := none }
    else if 0x80 ≤ node ∧ node ≤ 0x8F then some { link := some (Fin.ofNat 18 (node - 0x80)), course := c, bucket := none }
    else if x.t.op = .put ∨ x.t.op = .get then (s.bestLink c).map fun q => { link := some q, course := c, bucket := none }
    else
      let b := j.bucket p.remote
      some { link := some (Fin.ofNat 18 (mapEntry j.spreadMap b.toNat)), course := c, bucket := some b }

/-- Whether two extents share a shingle (R169). -/
def overlapShingle (a n b m : Nat) : Bool := decide (a / 32 ≤ (b + m - 1) / 32 ∧ b / 32 ≤ (a + n - 1) / 32)

/-- Bytes of the local side of a part. -/
def Xfer.localBytes (x : Xfer) (p : Spec) : Nat :=
  match x.t.op with
  | .atomic => 0
  | .fadd => 0
  | .widenLoad => 2 * p.bytes
  | .batten => if x.serial.isSome then p.bytes else localRow x.t
  | _ => p.bytes

/-- The extents of a part's local side, which R162 puts under the same rules: addresses of the own node, as `Jeb.canon` writes them. -/
def Jeb.localExtents (j : Jeb) (x : Xfer) (p : Spec) : List (Nat × Nat) :=
  (granulesOf p.lva (x.localBytes p)).map fun g =>
    let a := max p.lva (g * 65536)
    (0xFF * 2 ^ 56 + j.node.toNat * 2 ^ 48 + localPhys x.lmap a, min (p.lva + x.localBytes p) (g * 65536 + 65536) - a)

/-- Both sides of a part. -/
def Jeb.extents (j : Jeb) (x : Xfer) (p : Spec) : List (Nat × Nat) := (j.canon p.remote, p.bytes) :: j.localExtents x p

/-- Whether any extent of one list shares a shingle with one of another. -/
def meetExtents (l m : List (Nat × Nat)) : Bool := l.any fun a => m.any fun b => overlapShingle a.1 a.2 b.1 b.2

/-- The extents still to be performed of an item of the engine's queue: those of a transfer's parts not yet issued; of one that waits to be
checked, as its pages translate now. -/
def State.itemExtents (s : State) : QItem → List (Nat × Nat)
  | .fence _ _ _ => []
  | .xfer y => y.toIssue.flatMap (s.jeb.extents y)
  | .parked id t _ b =>
    match (s.jeb.check s.freeNat t).1 with
    | .pass specs fmode lmap =>
      specs.flatMap (s.jeb.extents { id := id, t := t, fmode := fmode, toIssue := specs, lmap := lmap, failed := none, issued := false,
                                     sent := false, broken := b, value := 0, serial := none })
    | _ => []

/-- What an outstanding request has yet to write in accelerator memory: the local side of a read. -/
def State.landing (s : State) (r : Req) : List (Nat × Nat) :=
  match (s.engine r.hdr.srcEngine).findXfer r.xfer with
  | some y => if remoteRead y.t.op then s.jeb.localExtents y r.spec else []
  | none => []

/-- R169, for both sides of a part (R162): no earlier access of the engine to one of its shingles is unissued, nor outstanding, but a request
outstanding on the same link and channel, which stay in order as far as the home. -/
def State.orderedHere (s : State) (e : Byte) (before : List QItem) (x : Xfer) (p : Spec) (path : Path) : Bool :=
  let mine := s.jeb.extents x p
  (before.all fun i => !meetExtents (s.itemExtents i) mine) &&
  s.jeb.reqs.all fun r => decide (r.hdr.srcEngine ≠ e) ||
    (let there := [(s.jeb.canon r.spec.remote, r.spec.bytes)]
     let sameWay := decide (r.link = path.link ∧ r.hdr.course.toNat = path.course) && path.link.isSome
     !meetExtents (s.landing r) mine && !meetExtents there (s.jeb.localExtents x p) &&
       (sameWay || !meetExtents there [(s.jeb.canon p.remote, p.bytes)]))

/-- The line limit (R146): values above 64 act as 64. -/
def Jeb.lineFree (j : Jeb) (p : Spec) (course : Nat) : Bool :=
  decide (course ≠ 0) ||
    decide ((j.reqs.filter fun r => decide (r.hdr.course = 0 ∧ j.canon r.spec.remote / 256 = j.canon p.remote / 256)).length
      < min j.lineCap.toNat 64)

/-- Fabric requests tracked: at most 32,768 (R146). -/
def Jeb.trackerFree (j : Jeb) : Bool := decide ((j.reqs.filter fun r => r.link.isSome).length < 32768)

/-- The holds that items earlier in program order put on a transfer (R145, R171 to R173). -/
def heldBy (x : Xfer) : QItem → Bool
  | .fence _ f _ => decide (f.kind ≠ 1) || !remoteRead x.t.op
  | .xfer y => y.acquires || x.releases
  | .parked _ t b _ => b || x.releases || decide (t.ord = 1 ∨ t.ord = 3)

/-- The part of a transfer that goes next, and its path: the first in no bucket that a change of map still drains (R92), as far as it shares no
shingle with a part passed over (R169). -/
def State.nextPart (s : State) (x : Xfer) (passed : List (Nat × Nat)) : List Spec → Option (Spec × Path)
  | [] => none
  | p :: l => match s.pathOf x p with
    | none => none
    | some path =>
      if path.bucket.all (fun b => decide (b ∉ s.jeb.moved)) ∧ !meetExtents passed (s.jeb.extents x p) then some (p, path)
      else s.nextPart x (passed ++ s.jeb.extents x p) l

/-- Whether the next part of a transfer may be issued, and its path. -/
def State.mayIssue (s : State) (e : Byte) (x : Xfer) : Option (Spec × Path) :=
  let before := itemsBefore (s.engine e).queue x.id
  match s.nextPart x [] x.toIssue with
  | none => none
  | some (p, path) =>
    if before.any (heldBy x) ∨ (!x.issued ∧ x.t.task ∈ s.jeb.faulted) ∨ (x.releases ∧ x.broken)
        ∨ (x.serial.isSome ∧ s.outstanding x.id ≠ []) then none
    else
      let linkOk : Bool := match path.link with
        | none => true
        | some q => decide ((s.rport q).train.state = .active) && (s.rport q).sealing.txOn && (s.rport q).sealing.rxOn
      if linkOk ∧ s.orderedHere e before x p path ∧ s.jeb.lineFree p path.course ∧ (s.jeb.trackerFree ∨ path.link = none) then
        some (p, path)
      else none

/-- A free tag of an engine (R59). -/
def Jeb.freeTag (j : Jeb) (e : Byte) : W16 :=
  let busy := fun (t : W16) => (j.reqs.any fun r => decide (r.hdr.srcEngine = e ∧ r.hdr.tag = t)) ||
    (Tab.get Engine.reset j.engines e.toNat).queue.any fun i => match i with
      | .xfer x => x.serial.any fun p => decide (p.1 = t)
      | _ => false
  (((List.range 65536).map fun k => j.nextTag + BitVec.ofNat 16 k).find? fun t => !busy t).getD j.nextTag

/-- The data shingles that a STORE or PUT takes from accelerator memory (R57). -/
def sourceData (m : Store) (lmap : List (Nat × Nat)) (lva n : Nat) : List (Shingle × Bool) :=
  (List.range (n / 32)).map fun k => loadShingle m (localPhys lmap (lva + 32 * k) / 32)

/-- The header of a request of the block (R59, R155). -/
def Jeb.reqHdr (j : Jeb) (t : Transfer) (op attr : Byte) (course len : Nat) (poison : Byte) (fpa aux : W64) (tag : W16) : Header :=
  { opcode := op, course := BitVec.ofNat 3 course, sub := 0, len := BitVec.ofNat 4 len, poison := poison, attr := attr, fpa := fpa,
    srcNode := BitVec.ofNat 8 j.node.toNat, srcRack := j.rack, srcEngine := t.engine, tag := tag, bayTag := j.tag, status := 0,
    aux := aux, rsvd := 0 }

/-- The shingles of a batten list (R116). -/
def listData (entries : List W32) : List (BitVec 256) :=
  (List.range (listShingles entries.length)).map fun k =>
    BitVec.ofNat 256 ((List.range 8).foldl (fun acc i => acc + (entries.getD (8 * k + i) 0).toNat * 2 ^ (32 * i)) 0)

/-- The frames of a request, the first one with its header (R106, R108, R109, R114, R116); a WIDEN_LOAD to a link without
WIDEN goes as a LOAD of the shingles around its source (R51), whose place is the second component. -/
def Jeb.framesOf (j : Jeb) (x : Xfer) (p : Spec) (course : Nat) (widenOk : Bool) (tag : W16) : List Frame × Option Nat :=
  let t := x.t
  let h := j.reqHdr t
  let src := sourceData j.store x.lmap p.lva p.bytes
  let bad := packW 8 (src.zipIdx.map fun q => (q.2, q.1.2.toNat))
  match t.op with
  | .load => ([{ hdr := h opLoad t.attr course 0 0 p.remote 0 tag, data := [] }], none)
  | .store => ([{ hdr := h opStore t.attr course src.length bad p.remote 0 tag, data := src.map Prod.fst }], none)
  | .widenLoad =>
    if widenOk then ([{ hdr := h opWidenLoad t.attr course 0 0 p.remote 0 tag, data := [] }], none)
    else
      let n := if p.bytes ≤ 32 then 32 else 256
      let b := p.remote.toNat % n
      ([{ hdr := h opLoad (if n = 32 then 0 else 2) course 0 0 (BitVec.ofNat 64 (p.remote.toNat - b)) 0 tag, data := [] }], some b)
  | .atomic => ([{ hdr := h opAtomic t.attr 0 1 0 p.remote 0 tag, data := [encodeShingle t.operand] }], none)
  | .fadd => ([{ hdr := h opFadd (setBit t.attr 1 x.fmode) 0 1 0 p.remote 0 tag, data := [encodeShingle t.operand] }], none)
  | .put => ([{ hdr := h opPut 0 course src.length bad p.remote (BitVec.ofNat 64 p.bytes) tag, data := src.map Prod.fst }], none)
  | .get => ([{ hdr := h opGet 0 course 0 0 p.remote (BitVec.ofNat 64 p.bytes) tag, data := [] }], none)
  | .batten =>
    if x.serial.isSome then ([{ hdr := h opGet 0 2 0 0 p.remote (BitVec.ofNat 64 p.bytes) tag, data := [] }], none)
    else
      let runs := eights (t.entries.length + 1) (listData t.entries)
      (runs.zipIdx.map fun r =>
        { hdr := if r.2 = 0 then h opBatten t.attr 2 r.1.length 0 p.remote (BitVec.ofNat 64 t.entries.length) tag
                 else h opBattenCont 0 2 r.1.length 0 p.remote 0 tag
          data := r.1.map encodeShingle }, none)

/-- The GETs that stand for a gather on a link without BATTEN: 256 B at a time, in list order (R51; log entry 20). -/
def battenGets (t : Transfer) (p : Spec) : List Spec :=
  let page := 4096 * 2 ^ fld t.attr 0 3
  t.entries.zipIdx.flatMap fun e => (List.range (page / 256)).map fun k =>
    { remote := p.remote + BitVec.ofNat 64 (e.1.toNat * page + 256 * k), bytes := 256, lva := p.lva + e.2 * page + 256 * k }

/-- What accelerator memory itself answers to a request of the own node (R136): memory after it, and the frames. It looks at no extent (DESIGN CHOICE,
log entry 138). -/
def localAnswer (m : Store) (free : Nat → BitVec 256) (h : Header) (data : List Shingle) (t : Transfer) : Store × List Frame :=
  let a := fpaOffset h.fpa
  if h.opcode = opBatten then
    let page := 4096 * 2 ^ fld t.attr 0 3
    (m, battenFrames h (t.entries.flatMap fun e => (upFrom ((a + e.toNat * page) / 32) (page / 32)).map (loadShingle m)))
  else if h.opcode = opFadd ∧ bitAt h.attr 1 then (m, [errorFrame h stModeMismatch])
  else
    let r := homePerform h data m (a / 32) (a % 32) false free
    (r.store, [r.frame])

/-- A part issued on its path. A LOAD fence that waited for the last chunk of a PUT to be read is then met (R173). -/
def State.issuePart (s : State) (e : Byte) (x : Xfer) (p : Spec) (path : Path) : State :=
  let feats := match path.link with
    | some q => (s.rport q).train.features
    | none => 0xFF
  if x.t.op = .batten ∧ x.serial = none ∧ !bitAt feats featBatten then
    match path.link with
    | some q =>
      let tag := s.jeb.freeTag e
      s.setEngine e ((s.engine e).updXfer x.id fun y => { y with toIssue := battenGets x.t p, serial := some (tag, q), issued := true })
    | none => s
  else
    let tag := match x.serial with
      | some (t, _) => t
      | none => s.jeb.freeTag e
    match s.jeb.framesOf x p path.course (bitAt feats featWiden) tag with
    | (frames, widen) =>
      match frames with
      | [] => s
      | f :: _ =>
        let r : Req := { xfer := x.id, hdr := f.hdr, link := path.link, spec := p, widen := widen, bucket := path.bucket,
                         epoch := s.jeb.epochs, held := [] }
        let s := s.setEngine e ((s.engine e).updXfer x.id fun y => { y with toIssue := y.toIssue.erase p, issued := true, sent := true })
        let s := s.updJeb fun j => { j with reqs := j.reqs ++ [r], nextTag := tag + 1 }
        match path.link with
        | some q => (frames.foldl (fun s g => s.jebSend (.rafter q) g) s).settleAll e
        | none =>
          match localAnswer s.jeb.store (fun k => Config.freeKey (s.fresh + k)) f.hdr f.data x.t with
          | (m, answers) => (answers.foldl (fun s g => s.answerReq r g) ((s.updJeb fun j => { j with mem := m.mem }).spend 8)).settleAll e

/-- The first transfer of the engine, in program order, that is a release to be withheld or has a part that may be issued. -/
def State.nextIssue (s : State) (e : Byte) : Option (Xfer × Option (Spec × Path)) :=
  (s.engine e).queue.findSome? fun i => match i with
    | .xfer x =>
      if x.releases ∧ x.broken ∧ !x.issued ∧ ((itemsBefore (s.engine e).queue x.id).all fun j => !heldBy x j) then some (x, none)
      else (s.mayIssue e x).map fun r => (x, some r)
    | _ => none

/-- TRANSFER_ISSUE (R146, R171): one held request of an engine is issued, or a broken release is withheld. -/
def execTransferIssue (e : Byte) (s : State) : Host.Outcome State Fault Refusal :=
  .next (if s.jeb.stopped then s
    else match s.nextIssue e with
      | none => s
      | some (x, none) => ((s.updJeb fun j => j.bumpOrd 0).completeXfer e x 0x53).settleAll e
      | some (x, some (p, path)) => s.issuePart e x p path)

/-! ### Responses -/

/-- The request that a response answers: same engine and tag (R150). -/
def State.matchReq (s : State) (h : Header) : Option Req :=
  s.jeb.reqs.find? fun r => decide (r.hdr.srcEngine = h.srcEngine ∧ r.hdr.tag = h.tag) && r.link.isSome

/-- A request whose opcode no command of the block takes: one outside the table of R60, or a response opcode with SUB 0. -/
def strayRequest (h : Header) : Bool := !isResponse h && (opRow h.opcode).all fun r => decide (r.sub ≠ 0)

/-- A response that has arrived at a block's port and is no request's own: the answer to a report, or unmatched (R150, R160). -/
def State.spareResponse (s : State) (h : Header) : State :=
  if s.jeb.reports.any fun g => decide (g.srcEngine = h.srcEngine ∧ g.tag = h.tag) then
    s.updJeb fun j => { j with reports := j.reports.filter fun g => decide (g.srcEngine ≠ h.srcEngine ∨ g.tag ≠ h.tag) }
  else s.jebDropResponse h

/-- A response on a rafter link (R118, R120, R126, R147, R166). -/
def State.rafterResponse (s : State) (q : Fin 18) (f : Frame) : State :=
  if !formOk f.hdr (s.rport q).train.features true ∨ !s.jeb.tagged ∨ f.hdr.bayTag ≠ s.jeb.tag then s.jebDropResponse f.hdr
  else match s.matchReq f.hdr with
    | none => s.spareResponse f.hdr
    | some r => s.answerReq r f

/-- RESPONSE_ARRIVAL (R60, R118, R120, R126, R131, R147, R150, R166): a response that arrives at a port of the block, or a frame with the
opcode of none of the block's requests, which is answered BAD_REQUEST (R60). A tray port brings responses to KEY frames only, which are
KEY_ACK's; any other is unmatched. -/
def execResponseArrival (p : PortRef) (f : Frame) (s : State) : Host.Outcome State Fault Refusal :=
  let t := s.jebTake p f
  .next (if portDev p = .module then s
    else if strayRequest f.hdr then t.jebRefuse p f.hdr stBadRequest
    else if !isResponse f.hdr then s
    else match p with
      | .rafter q => t.rafterResponse q f
      | _ => if f.hdr.opcode = opAck ∧ f.hdr.course = 4 then s else t.jebDropResponse f.hdr)

/-! ### The fault ring -/

/-- A task written to JEB_FLT_RESUME. -/
def State.resumeTask (s : State) (task : W16) : State :=
  (s.updJeb fun j => { j with faulted := j.faulted.filter fun t => decide (t ≠ task) }).unparkAll

/-- JEB_FLT_RESUME (R144): a local-side write. -/
def execJebFltResume (task : W16) (s : State) : Host.Outcome State Fault Refusal := .next (s.resumeTask task)

/-- JEB_FLT_HEAD written: the head moves, and a transfer that waits for space proceeds. -/
def State.writeFltHead (s : State) (value : W32) : State :=
  (s.updJeb fun j =>
    let h : W16 := BitVec.ofNat 16 (fld value 0 16)
    { j with fltHead := h, event := j.event && decide (h.toNat % ringSize j.fltSize ≠ j.fltTail.toNat % ringSize j.fltSize) }).unparkAll

/-- JEB_FLT_HEAD (R145). -/
def execJebFltHead (value : W32) (s : State) : Host.Outcome State Fault Refusal := .next (s.writeFltHead value)

end Sys2Proof.Machine
end

