-- ==== Sys2Proof/Machine/Sends.lean ====
section
/-! DEFINITION. The Jalem block's posted frames and tile signals (R151 to R153, R372), and its send descriptors (R154, R235). -/

namespace Sys2Proof.Machine

open Sys2Proof

/-! ### SEG and SIGNAL (R151, R152) -/

/-- COUNTER of a posted frame (R234). -/
def counterOf (h : Header) : Nat := fld h.aux 48 12

/-- The shingles of a SEG written to accelerator memory from an address on. -/
def landSeg (m : Store) (a : Nat) (f : Frame) : Store :=
  f.data.zipIdx.foldl (fun t p => (landShingle t (a / 32 + p.2) p.1 (poisoned f.hdr p.2)).1) m

/-- A posted frame that arrives at the block: checked in form and at the window table, over `n` bytes from `off`. -/
def State.postedAt (s : State) (p : PortRef) (h : Header) (off n : Nat) : Option Nat :=
  match s.jebForm p h with
  | some _ => none
  | none => match s.jebHome h off n with
    | .ok a => some a
    | .error _ => none

/-- SEG (R151, R152). -/
def execSeg (p : PortRef) (f : Frame) (s : State) : Host.Outcome State Fault Refusal :=
  .next (if portDev p = .module ∨ f.hdr.opcode ≠ opSeg then s
    else
      let s := s.jebTake p f
      match s.postedAt p f.hdr (fpaOffset f.hdr.fpa) (accessBytes f.hdr) with
      | none => s.jebDropPosted f.hdr
      | some a =>
        let s := s.updJeb fun j => { j with mem := (landSeg j.store a f).mem }
        if bitAt f.hdr.attr 7 then s.advance (counterOf f.hdr) else s)

/-- SIGNAL (R151, R152, R372): the access is the aligned 32 B at its FPA. -/
def execSignal (p : PortRef) (f : Frame) (s : State) : Host.Outcome State Fault Refusal :=
  .next (if portDev p = .module ∨ f.hdr.opcode ≠ opSignal then s
    else
      let s := s.jebTake p f
      match s.postedAt p f.hdr (fpaOffset f.hdr.fpa / 32 * 32) 32 with
      | none => s.jebDropPosted f.hdr
      | some _ => s.advance (counterOf f.hdr))

/-! ### Descriptors (R154) -/

def State.desc (s : State) (n : Nat) : SendDesc := Tab.get SendDesc.reset s.jeb.sends n

def State.setDesc (s : State) (n : Nat) (d : SendDesc) : State :=
  s.updJeb fun j => { j with sends := Tab.put SendDesc.reset j.sends n d }

def SendDesc.armed (d : SendDesc) : Bool := bitAt d.ctl 46
def SendDesc.shingles (d : SendDesc) : Nat := fld d.ctl 0 14
def SendDesc.fmt (d : SendDesc) : Nat := fld d.ctl 16 4
def SendDesc.linkNo (d : SendDesc) : Nat := fld d.ctl 20 5
def SendDesc.comp (d : SendDesc) : Nat := fld d.ctl 26 12
def SendDesc.compEn (d : SendDesc) : Bool := bitAt d.ctl 38
def SendDesc.ctx (d : SendDesc) : BitVec 6 := BitVec.ofNat 6 (fld d.ctl 39 6)
def SendDesc.again (d : SendDesc) : Bool := bitAt d.ctl 45
def SendDesc.task (d : SendDesc) : W16 := BitVec.ofNat 16 (fld d.ctl 48 16)
def SendDesc.va (d : SendDesc) : Nat := fld d.src 5 52 * 32

/-- The link that LINK names (R161). -/
def SendDesc.port (d : SendDesc) : Option PortRef :=
  let l := d.linkNo
  if l < 18 then some (.rafter (Fin.ofNat 18 l)) else if l = 24 then some (.tray 0) else if l = 25 then some (.tray 1) else none

/-- Fields of JEB_SEND_CTL_n that a write sets, and STALE. -/
def sendCtlMask : W64 := 0xFFFF7FFFFDFF3FFF

/-- A fault record of a descriptor; the engine it names is free, as a descriptor names none (log entry 5). -/
def State.descFault (s : State) (d : SendDesc) (cls : Nat) (f : FaultInfo) : State :=
  let b : FaultBy := { task := d.task, ctx := d.ctx, engine := BitVec.ofNat 8 s.freeNat, cls := cls, gen := s.jeb.genDone, ns := s.jeb.tim.ns }
  (s.updJeb fun j => j.sendFault f b).spend 1

/-- The fault of a descriptor itself: its first granule, on the local side. -/
def SendDesc.fault (d : SendDesc) (cause : Nat) : FaultInfo :=
  { granule := d.va / 65536, cause := cause, access := 0, localSide := true, bad := 0 }

/-- The check of a source tile: RD on every granule (R142, R154). -/
def Jeb.checkTile (j : Jeb) (free : Nat) (d : SendDesc) : Except FaultInfo (List (Nat × Nat)) × Jeb :=
  match checkSide j d.ctx 2 free (granulesOf d.va (32 * d.shingles)) with
  | (j, l) =>
    match leastGranule (badGranules l) with
    | some (g, c) => (.error { granule := g, cause := c, access := 0, localSide := true, bad := min (badGranules l).length 0xFFFF }, j)
    | none => (.ok (l.map fun p => (p.1, fpaOffset (fpaAt l (p.1 * 65536)))), j)

/-- Arming: the check, and the pinned translations or a fault record (R154). -/
def State.arm (s : State) (n : Nat) (d : SendDesc) : State :=
  let off := { d with ctl := setBit (setBit d.ctl 46 false) 47 false, queued := 0, pins := [] }
  if d.port = none ∨ d.shingles = 0 ∨ 8192 < d.shingles then (s.setDesc n off).descFault d 7 (d.fault causeDescNotArmed)
  else match s.jeb.checkTile s.freeNat d with
    | (.error f, j) => (({ s with jeb := j }.spend 1).setDesc n off).descFault d 7 f
    | (.ok pins, j) =>
      ({ s with jeb := j }.spend 1).setDesc n { off with ctl := setBit off.ctl 46 true, queued := d.queued, pins := pins }

/-- JEB_SEND_CTL_n written: with ARMED = 1 it arms, with 0 it disarms. -/
def State.writeSendCtl (s : State) (n : Nat) (value : W64) : State :=
  let d := s.desc n
  let d' := { d with ctl := accessWrite sendCtlMask 0 d.ctl value }
  if bitAt value 46 then s.arm n { d' with queued := if d.armed then d.queued else 0 } else s.setDesc n (disarm d')

/-- SEND_ARM (R154). -/
def execSendArm (n : BitVec 10) (value : W64) (s : State) : Host.Outcome State Fault Refusal := .next (s.writeSendCtl n.toNat value)

/-- A GO (R154): queued, counted as an overrun, or a fault record of a descriptor that is not armed. -/
def State.go (s : State) (n : Nat) : State :=
  let d := s.desc n
  if !d.armed then s.descFault d 8 (d.fault (if bitAt d.ctl 47 then causeStaleDesc else causeDescNotArmed))
  else if d.queued = 255 then s.updJeb fun j => j.bump0 32
  else s.setDesc n { d with queued := d.queued + 1 }

/-- SEND_GO (R154). -/
def execSendGo (n : BitVec 10) (s : State) : Host.Outcome State Fault Refusal := .next (s.go n.toNat)

/-- The node of a tray partner (R131): the next position for tray port 0, the one before for tray port 1. -/
def Jeb.trayPartner (j : Jeb) (t : Fin 2) : Nat := j.node.toNat / 4 * 4 + (j.node.toNat % 4 + (if t = 0 then 1 else 3)) % 4

/-- The FPA of a descriptor's frame at a byte offset within the tile (R235). -/
def Jeb.sendFpa (j : Jeb) (p : PortRef) (aux : W64) (offset : Nat) : W64 :=
  match p with
  | .tray t => fpaOf 0xFF (j.trayPartner t) (fld aux 0 48 + offset)
  | .rafter q => fpaOf 0xFF (0x80 + q.val) offset
  | .module n => fpaOf 0xFF n.val offset

/-- The SEG frames of a tile (R154, R235): up to eight shingles each, SIG on the last; engine and tag of a posted frame are free
(log entry 5). -/
def State.tileFrames (s : State) (p : PortRef) (d : SendDesc) : List Frame :=
  let j := s.jeb
  let runs := eights (d.shingles / 8 + 1) (sourceData j.store d.pins d.va (32 * d.shingles))
  runs.zipIdx.map fun r =>
    { hdr := { opcode := opSeg, course := 1, sub := 0, len := BitVec.ofNat 4 r.1.length,
               poison := packW 8 (r.1.zipIdx.map fun q => (q.2, q.1.2.toNat)),
               attr := BitVec.ofNat 8 (d.fmt + 128 * (decide (r.2 + 1 = runs.length)).toNat),
               fpa := j.sendFpa p d.aux (256 * r.2), srcNode := BitVec.ofNat 8 j.node.toNat, srcRack := j.rack,
               srcEngine := BitVec.ofNat 8 s.freeNat, tag := BitVec.ofNat 16 (s.freeNat / 256), bayTag := j.tag, status := 0,
               aux := d.aux, rsvd := 0 }
      data := r.1.map Prod.fst }

/-- After a send: COMP, and the descriptor stays armed only with REPEAT. -/
def SendDesc.after (d : SendDesc) : SendDesc := if d.again then { d with queued := d.queued - 1 } else disarm d

/-- A link on which the block may send bay traffic now (R260). -/
def State.linkReady (s : State) (p : PortRef) : Bool :=
  decide ((s.port p).train.state = .active) && (s.port p).sealing.txOn && (s.port p).sealing.rxOn

/-- SEND (R154, R178): one queued send of a descriptor. -/
def execSend (n : BitVec 10) (s : State) : Host.Outcome State Fault Refusal :=
  let d := s.desc n.toNat
  .next (match d.port with
  | none => s
  | some p =>
    if d.armed ∧ d.queued ≠ 0 ∧ !s.jeb.stopped ∧ s.linkReady p then
      let s := (((s.tileFrames p d).foldl (fun s f => s.jebSend p f) s).spend 1).setDesc n.toNat d.after
      if d.compEn then s.advance d.comp else s
    else s)

end Sys2Proof.Machine
end

