-- ==== Sys2Proof/Machine/JebKeys.lean ====
section
/-! DEFINITION. Teardown, TDISP, reset and keys at the Jalem block (R156 to R160, R265 to R273, R299), and the KEY frames that
reach a module (R269). -/

namespace Sys2Proof.Machine

open Sys2Proof

/-! ### TEARDOWN (R156, R299) -/

/-- A TEARDOWN frame at the block: form, what the port carries, bay tag, source (R120, R131, R150). A tray port carries none. -/
def State.jebControl (s : State) (p : PortRef) (h : Header) : Option Byte :=
  match s.jebForm p h with
  | some c => some c
  | none => if 0x80 ≤ h.srcNode.toNat ∧ h.srcNode.toNat ≤ 0x8F then none else some stBadRequest

def teardownAction (h : Header) : Nat := fld h.aux 0 2

/-- A STOP received: issue stops, and the STOP waits for its acknowledgement. -/
def State.jebStop (s : State) (q : Fin 18) (h : Header) : State :=
  let s := if s.jeb.stopped then s else s.stopIssue
  (s.updJeb fun j => { j with stopAcks := j.stopAcks ++ [(q, h)], resumed := j.resumed.filter fun r => decide (r ≠ q) }).ackStops

/-- A RESUME received: acknowledged at once. -/
def State.jebResume (s : State) (q : Fin 18) (h : Header) : State :=
  let s := s.jebSend (.rafter q) (ackFrame h)
  (s.updJeb fun j => if j.stopped ∧ q ∉ j.resumed then { j with resumed := j.resumed ++ [q] } else j).leaveStop

/-- A TEARDOWN frame at a port of the block: refused, or acted on by the rafter link it came on. -/
def State.jebTeardown (s : State) (p : PortRef) (f : Frame) (act : Fin 18 → State → State) : State :=
  if portDev p = .module then s
  else
    let s := s.jebTake p f
    match s.jebControl p f.hdr, p with
    | some c, _ => s.jebRefuse p f.hdr c
    | none, .rafter q => act q s
    | none, _ => s

/-- JEB_TEARDOWN (R131, R150, R156, R295): a TEARDOWN frame with ACTION STOP. -/
def execJebTeardown (p : PortRef) (f : Frame) (s : State) : Host.Outcome State Fault Refusal :=
  .next (if f.hdr.opcode ≠ opTeardown ∨ teardownAction f.hdr = 1 then s else s.jebTeardown p f fun q s => s.jebStop q f.hdr)

/-- TEARDOWN_RESUME (R299): a TEARDOWN frame with ACTION RESUME. -/
def execTeardownResume (p : PortRef) (f : Frame) (s : State) : Host.Outcome State Fault Refusal :=
  .next (if f.hdr.opcode ≠ opTeardown ∨ teardownAction f.hdr ≠ 1 then s else s.jebTeardown p f fun q s => s.jebResume q f.hdr)

/-! ### TDISP (R158 to R160, R293) -/

/-- STATE enters ERROR (R160): the block acts as on TEARDOWN, and reports once that has ended. -/
def State.tdispFail (s : State) : State :=
  if s.jeb.tdisp = 3 then s
  else
    let s := s.updJeb fun j => { j with tdisp := 3, reportDue := true }
    (if s.jeb.stopped then s else s.stopIssue).ackStops

/-- TDISP_ERROR (R156, R160, R293). -/
def execTdispError (s : State) : Host.Outcome State Fault Refusal := .next s.tdispFail

/-- TDISP_STATE_CHANGE (R158, R161): STATE and IDE_OK follow the interface. -/
def execTdispStateChange (st : BitVec 2) (ideBound : Bool) (s : State) : Host.Outcome State Fault Refusal :=
  .next ((if st = 3 then s.tdispFail else s.updJeb fun j => { j with tdisp := st }).updJeb fun j => { j with ideOk := ideBound })

/-! ### Clearing and reset (R157, R271) -/

/-- What the block clears on a release (R157); each port is unsealed again. PENDING is set, and stays until the clearing has ended (log entry
45). -/
def Jeb.clearBay (j : Jeb) : Jeb :=
  { j with
    cache := [], sig := [], sends := [], wins := [], keys := [], activeKey := 0, retryAct := none, trayWaits := [], tag := 0, tagged := false, rack := 0
    ports := Tab.mapAll Port.reset (fun x => x.onSeal SealSt.unsealed) j.ports
    stopped := false, stopDone := false, stopAcks := [], resumed := [], zPending := true, zDone := false }

/-- The block after its reset (R271): its ports stay in DISABLED until REFCLK is present (R161, R366); accelerator memory stays, PENDING survives and its
clearing is finished. The waits of the matrix engines, which lie outside the block, stay too (R153; log entry 89). -/
def Jeb.afterReset (j : Jeb) (free : Nat) : Jeb :=
  { Jeb.reset with
    mem := j.mem, waits := j.waits, transport := some (Config.transportKey (free + 1)), zPending := false, zDone := j.zPending }

/-- JEB_RESET (R129, R130, R157, R271). -/
def execJebReset (s : State) : Host.Outcome State Fault Refusal :=
  let t : State := { s with jeb := s.jeb.afterReset s.fresh, latches := s.latches.filter fun l => decide (l.dev ≠ Dev.jalem) }
  .next (t.endWaits.spend 2)

/-! ### KEY frames at the block (R269, R272, R273) -/

/-- Whether a frame is a KEY frame that the command for `action` handles; one with a reserved ACTION is any command's. -/
def isKey (h : Header) (action : Nat) : Bool :=
  decide (h.opcode = opKey) && (decide (keyAction h = action) || !decide (keyAction h ∈ [1, 2, 3, 4]))

/-- The checks of a KEY frame at the block before its ACTION's own: form, bay tag with the exemptions of R269, and source.
INSTALL and DESTROY on a tray port answer BAD_REQUEST as R131 and R150 say, where R269 has NO_RIGHT (log entry 104). -/
def State.jebKeyCheck (s : State) (p : PortRef) (h : Header) : Option Byte :=
  let a := keyAction h
  let exempt := decide (a = actDestroy) || (decide (a = actInstall) && !s.jeb.tagged)
  if !formOk h (s.port p).train.features true then some stBadRequest
  else match p with
    | .tray t =>
      if a = actInstall ∨ a = actDestroy then some stBadRequest
      else if !s.jeb.tagged ∨ h.bayTag ≠ s.jeb.tag then some stBayMismatch
      else if h.srcNode.toNat ≠ s.jeb.trayPartner t then some stBadRequest
      else none
    | _ =>
      if !exempt ∧ (!s.jeb.tagged ∨ h.bayTag ≠ s.jeb.tag) then some stBayMismatch
      else if h.srcNode.toNat < 0x80 ∨ 0x8F < h.srcNode.toNat then some stBadRequest
      else none

/-- A KEY frame of the block's own on tray port 0, whose acknowledgement it awaits (R269, R272); its SRC_ENGINE and TAG are free (log entry 5). -/
def State.trayKey (s : State) (action : Nat) (slot : BitVec 2) (data : List Shingle) : State :=
  if (s.port (.tray 0)).train.state ≠ .active then s
  else
    let h : Header :=
      { opcode := opKey, course := 4, sub := 0, len := BitVec.ofNat 4 data.length, poison := 0, attr := 0,
        fpa := fpaOf 0xFF (s.jeb.trayPartner 0) 0, srcNode := BitVec.ofNat 8 s.jeb.node.toNat, srcRack := s.jeb.rack,
        srcEngine := BitVec.ofNat 8 s.freeNat, tag := BitVec.ofNat 16 (s.freeNat / 256), bayTag := s.jeb.tag, status := 0,
        aux := keyAux action slot 0 0 0, rsvd := 0 }
    let on := decide (action = actActivate)
    let s := s.updJeb fun j => { j with trayWaits := j.trayWaits ++ [{ activate := on, slot := slot, engine := h.srcEngine, tag := h.tag }] }
    let s := if on then s.announce (.tray 0) { slot := slot, ack := false, engine := h.srcEngine, tag := h.tag } else s
    (s.jebSend (.tray 0) { hdr := h, data := data }).spend 1

/-- The block's own ACTIVATE on tray port 0 (R272): every sending chooses its G. -/
def State.trayActivate (s : State) (slot : BitVec 2) : State :=
  (s.updJeb fun j => { j with retryAct := some slot }).trayKey actActivate slot (activateData 0)

/-- INSTALL (R269, R272): the key unwrapped into its slot; tag and rack taken where the block holds none. A key new to the block is activated on
tray port 0; the same key from a further module is not. -/
def State.jebInstall (s : State) (p : PortRef) (f : Frame) : State :=
  let h := f.hdr
  if s.jeb.tagged ∧ (keyTagOf h ≠ s.jeb.tag ∨ keyRack h ≠ s.jeb.rack) then s.jebRefuse p h stBadRequest
  else match controlData f with
    | .error c => s.jebRefuse p h c
    | .ok data =>
      match installKey s.jeb.transport data with
      | none => s.jebRefuse p h stNoRight
      | some key =>
        let held := Tab.get none s.jeb.keys (keySlot h).toNat
        let k : LinkKey := { key := key, gen := keyGen h }
        let s := s.updJeb fun j =>
          let j := { j with keys := Tab.put none j.keys (keySlot h).toNat (some k) }
          if j.tagged then j else { j with tag := keyTagOf h, rack := keyRack h, tagged := true }
        let s := s.jebSend p (ackFrame h)
        if held = some k then s else s.trayActivate (keySlot h)

/-- ACTIVATE (R272): the block opens the sender's groups from G, and its acknowledgement is to announce its own G′.
JEB_KEY_STATUS.ACTIVE names the slot from then on (DESIGN CHOICE, log entry 116). -/
def State.jebActivate (s : State) (p : PortRef) (f : Frame) : State :=
  let h := f.hdr
  match s.portKey p (keySlot h), controlData f with
  | none, _ => s.jebRefuse p h stNoRight
  | some _, .error c => s.jebRefuse p h c
  | some _, .ok data =>
    let g : W64 := BitVec.ofNat 64 (fld (data.headD 0) 0 64)
    let s := s.updPort p fun x => x.onSeal fun y => y.expectFrom (keySlot h) g
    let s := s.announce p { slot := keySlot h, ack := true, engine := h.srcEngine, tag := h.tag }
    (s.updJeb fun j => { j with activeKey := keySlot h }).jebSend p (ackFrame h)

/-- RETIRE (R272, R273): the slot goes once no lath of it is kept; one from a module is passed on to the tray partner. -/
def State.jebRetire (s : State) (p : PortRef) (h : Header) : State :=
  let s := (s.updPort p fun x => x.onSeal fun y => { y with retiring := some (keySlot h) }).jebSend p (ackFrame h)
  let s := if isTray p then s else s.trayKey actRetire (keySlot h) []
  s.updJeb Jeb.retireDone

/-- DESTROY (R157, R269): everything of the bay is cleared, and the frame acknowledged. -/
def State.jebDestroy (s : State) (p : PortRef) (h : Header) : State :=
  ((s.updJeb fun j => { j.clearBay with transport := some (Config.transportKey (s.fresh + 1)) }).endWaits.spend 2).jebSend p (ackFrame h)

/-- A KEY frame at the block, for one ACTION. -/
def State.jebKey (s : State) (p : PortRef) (f : Frame) (act : State → State) : State :=
  let s := s.jebTake p f
  match s.jebKeyCheck p f.hdr with
  | some c => s.jebRefuse p f.hdr c
  | none => act s

/-! ### KEY frames at a module (R269) -/

/-- A hip port of the bay and the partner that R18 requires. -/
def State.hipPartner (s : State) (n : Fin 144) (h : Header) : Bool :=
  decide (portRole n.val = .hip) && s.bayPort n && decide (h.srcNode.toNat = s.node ∧ h.srcRack.toNat = s.hipRack n)

/-- A KEY frame at a module port, answered on that port: `act` where its ACTION is one that a module accepts. -/
def State.moduleKey (s : State) (n : Fin 144) (f : Frame) (act : Option (State → State)) : State :=
  match s.agentTake agSoffit n f with
  | .error s => s
  | .ok s =>
    match act with
    | some a => if s.hipPartner n f.hdr then a s else s.answer n (errorFrame f.hdr stNoRight)
    | none => s.answer n (errorFrame f.hdr stNoRight)

/-- ACTIVATE from a hip partner. -/
def State.moduleActivate (s : State) (n : Fin 144) (f : Frame) : State :=
  let h := f.hdr
  match s.portKey (.module n) (keySlot h), controlData f with
  | none, _ => s.answer n (errorFrame h stNoRight)
  | some _, .error c => s.answer n (errorFrame h c)
  | some _, .ok data =>
    let g : W64 := BitVec.ofNat 64 (fld (data.headD 0) 0 64)
    let s := s.updPort (.module n) fun x => x.onSeal fun y => y.expectFrom (keySlot h) g
    (s.announce (.module n) { slot := keySlot h, ack := true, engine := h.srcEngine, tag := h.tag }).answer n (ackFrame h)

/-- RETIRE from a hip partner. -/
def State.moduleRetire (s : State) (n : Fin 144) (h : Header) : State :=
  (s.updPort (.module n) fun x => (x.onSeal fun y => { y with retiring := some (keySlot h) }).retireDone).answer n (ackFrame h)

/-! ### The commands -/

/-- KEY_INSTALL (R155, R268, R269). -/
def execKeyInstall (p : PortRef) (f : Frame) (s : State) : Host.Outcome State Fault Refusal :=
  .next (if !isKey f.hdr actInstall then s
    else match p with
      | .module n => s.moduleKey n f none
      | p => s.jebKey p f fun s => s.jebInstall p f)

/-- KEY_ACTIVATE (R269, R272). -/
def execKeyActivate (p : PortRef) (f : Frame) (s : State) : Host.Outcome State Fault Refusal :=
  .next (if !isKey f.hdr actActivate then s
    else match p with
      | .module n => s.moduleKey n f (some fun s => s.moduleActivate n f)
      | p => s.jebKey p f fun s => s.jebActivate p f)

/-- KEY_RETIRE (R269, R273). -/
def execKeyRetire (p : PortRef) (f : Frame) (s : State) : Host.Outcome State Fault Refusal :=
  .next (if !isKey f.hdr actRetire then s
    else match p with
      | .module n => s.moduleKey n f (some fun s => s.moduleRetire n f.hdr)
      | p => s.jebKey p f fun s => s.jebRetire p f.hdr)

/-- KEY_DESTROY (R157, R269, R278). -/
def execKeyDestroy (p : PortRef) (f : Frame) (s : State) : Host.Outcome State Fault Refusal :=
  .next (if !isKey f.hdr actDestroy then s
    else match p with
      | .module n => s.moduleKey n f none
      | p => s.jebKey p f fun s => s.jebDestroy p f.hdr)

/-- ACTIVATE_RETRY (R272): the block's tray ACTIVATE is repeated. -/
def execActivateRetry (slot : BitVec 2) (s : State) : Host.Outcome State Fault Refusal :=
  .next (if s.jeb.retryAct = some slot then s.trayActivate slot else s)

end Sys2Proof.Machine
end

