-- ==== Sys2Proof/Machine/Lath.lean ====
section
/-! DEFINITION. A lath as bytes: its layout (R38), control word (R39), scrambler (R40) and inner FEC (R41, R42). -/

namespace Sys2Proof.Machine

open Sys2Proof

/-- The lath control word (R39). -/
structure LathCtl where
  seq : BitVec 12
  ack : BitVec 12
  ltype : BitVec 3
  replayed : Bool
  keyId : BitVec 2
deriving DecidableEq, Repr

/-- The control word packed as R39 lays it out. -/
def LathCtl.toWord (c : LathCtl) : W32 :=
  BitVec.ofNat 32 (c.seq.toNat + c.ack.toNat * 2 ^ 12 + c.ltype.toNat * 2 ^ 24 + c.replayed.toNat * 2 ^ 27
    + c.keyId.toNat * 2 ^ 28)

/-- The control word unpacked. -/
def LathCtl.ofWord (w : W32) : LathCtl :=
  { seq := BitVec.ofNat 12 (fld w 0 12), ack := BitVec.ofNat 12 (fld w 12 12), ltype := BitVec.ofNat 3 (fld w 24 3),
    replayed := bitAt w 27, keyId := BitVec.ofNat 2 (fld w 28 2) }

/-- One step of the PRBS31 register x^31 + x^28 + 1: bit 30 leaves, the sum of bits 30 and 27 enters at bit 0
(log entry 13 for the bit order). -/
def prbsStep (s : BitVec 31) : BitVec 31 := (s <<< 1) ||| BitVec.ofNat 31 ((bitAt s 30 ^^ bitAt s 27).toNat)

/-- Eight output bits, the first in bit 0, and the register after them. -/
def prbsByte (s : BitVec 31) : Nat → Byte × BitVec 31
  | 0 => (0, s)
  | n + 1 =>
    match prbsByte (prbsStep s) n with
    | (b, s') => ((b <<< 1) ||| BitVec.ofNat 8 (bitAt s 30).toNat, s')

/-- The bytes XORed with the sequence from register `s`. -/
def prbsBytes : BitVec 31 → List Byte → List Byte
  | _, [] => []
  | s, b :: t =>
    match prbsByte s 8 with
    | (k, s') => (b ^^^ k) :: prbsBytes s' t

/-- The scrambler's seed: SEQ in bits [11:0] and 1 in bit 30 (R40). -/
def prbsSeed (seq : BitVec 12) : BitVec 31 := BitVec.ofNat 31 (seq.toNat + 2 ^ 30)

/-- Scrambling, and by its symmetry descrambling, of bytes 0 to 579. -/
def scramble (seq : BitVec 12) (l : List Byte) : List Byte := prbsBytes (prbsSeed seq) l

/-- The codeword that byte i of a lath belongs to (R41). -/
def fecWord (i : Nat) : Nat := (i + i / 4) % 4

/-- Polynomials over GF(2^8), the coefficient of the highest degree first: x·p + c·p for a root c. -/
def polyTimesRoot (p : List Byte) (c : Byte) : List Byte :=
  List.zipWith (· ^^^ ·) (p ++ [0]) (0 :: p.map (gfMul c))

/-- The generator with roots α^0 to α^7 (R41). -/
def fecGen : List Byte := (List.range 8).foldl (fun p j => polyTimesRoot p (alphaPow j)) [1]

/-- One step of the division by the generator: the remainder takes in the next symbol. -/
def fecStep (r : List Byte) (d : Byte) : List Byte :=
  let t := d ^^^ r.headD 0
  List.zipWith (fun a g => a ^^^ gfMul t g) (r.drop 1 ++ [0]) (fecGen.drop 1)

/-- The eight parity bytes of 145 data bytes. -/
def fecParity (d : List Byte) : List Byte := d.foldl fecStep (List.replicate 8 0)

/-- The members of codeword `w` among the first `n` lath bytes, in ascending order. -/
def fecMembers (w n : Nat) (l : List Byte) : List Byte :=
  ((l.take n).zipIdx.filter fun p => decide (fecWord p.2 = w)).map Prod.fst

/-- The byte at place `i` of the lath, taken from the four codewords. -/
def fecByteAt (words : List (List Byte)) (i : Nat) : Byte :=
  let w := fecWord i
  let k := ((List.range i).filter fun j => decide (fecWord j = w)).length
  (words.getD w []).getD k 0

/-- A lath's 580 bytes with their inner FEC parity (R41). -/
def fecEncode (l : List Byte) : List Byte :=
  let words := (List.range 4).map fun w => let m := fecMembers w 580 l; m ++ fecParity m
  l ++ (upFrom 580 32).map (fecByteAt words)

/-- The codeword as a polynomial at α^j. -/
def fecSyndrome (c : List Byte) (j : Nat) : Byte := c.foldl (fun acc b => gfMul acc (alphaPow j) ^^^ b) 0

/-- Row reduction of an augmented matrix over GF(2^8), one column at a time; `none` where it is singular. -/
def gfReduce : Nat → Nat → List (List Byte) → Option (List (List Byte))
  | 0, _, m => some m
  | k + 1, c, m =>
    match (m.drop c).findIdx? fun r => decide (r.getD c 0 ≠ 0) with
    | none => none
    | some i =>
      let p := m.getD (c + i) []
      let rest := m.eraseIdx (c + i)
      let row := p.map (gfMul (gfInv (p.getD c 0)))
      let cleared := rest.map fun r => List.zipWith (fun a b => a ^^^ gfMul (r.getD c 0) b) r row
      gfReduce k (c + 1) (cleared.take c ++ row :: cleared.drop c)

/-- The solution of a square system given as augmented rows. -/
def gfSolve (n : Nat) (m : List (List Byte)) : Option (List Byte) :=
  (gfReduce n 0 m).map fun r => r.map fun row => row.getD n 0

/-- The exponents of the error locators for `v` errors: the roots of the locator that Peterson's equations give. -/
def fecLocate (s : List Byte) (v : Nat) : Option (List Nat) :=
  (gfSolve v ((List.range v).map fun i => (List.range (v + 1)).map fun j => s.getD (i + j) 0)).map fun lam =>
    (List.range 153).filter fun e =>
      let x := alphaPow e
      decide ((gfPow x v) = ((List.range v).foldl (fun acc j => acc ^^^ gfMul (lam.getD j 0) (gfPow x j)) 0))

/-- The codeword with the errors at `locs` removed, if `v` errors there explain all eight syndromes. -/
def fecFix (c s : List Byte) (v : Nat) : Option (List Byte) :=
  match fecLocate s v with
  | none => none
  | some locs =>
    if locs.length ≠ v then none
    else
      match gfSolve v ((List.range v).map fun i => locs.map (fun e => alphaPow (e * i)) ++ [s.getD i 0]) with
      | none => none
      | some vals =>
        let fixed := (locs.zip vals).foldl (fun w p => listUpd w (152 - p.1) (· ^^^ p.2)) c
        if (List.range 8).all fun j => decide (fecSyndrome fixed j = 0) then some fixed else none

/-- The inner FEC on one codeword of 153 bytes: up to four bad bytes are corrected (R42). -/
def fecCorrect (c : List Byte) : Option (List Byte) :=
  let s := (List.range 8).map (fecSyndrome c)
  if s.all fun b => decide (b = 0) then some c else (upFrom 1 4).findSome? (fecFix c s)

/-- A received lath decoded: its 580 bytes and the number of corrected bytes; `none` where a codeword is
uncorrectable or the bytes are not 612 (R42). -/
def fecDecode (l : List Byte) : Option (List Byte × Nat) :=
  if l.length ≠ 612 then none
  else
    let words := (List.range 4).map fun w => fecCorrect (fecMembers w 612 l)
    if words.all Option.isSome then
      let good := (List.range 580).map (fecByteAt (words.map fun w => w.getD []))
      let all := (List.range 612).map (fecByteAt (words.map fun w => w.getD []))
      some (good, ((l.zip all).filter fun p => decide (p.1 ≠ p.2)).length)
    else none

/-- The bytes of the control word of a scrambled lath, as received. -/
def ctlBytes (l : List Byte) : List Byte := (l.drop 576).take 4

/-- The scrambler's 32 bits at bytes 576 to 579 for a seed; they are linear in the seed. -/
def ctlKeystream (s : BitVec 31) : W32 :=
  BitVec.ofNat 32 (natOfBytes ((prbsBytes s (List.replicate 580 0)).drop 576))

/-- SEQ of a received lath: the number nearest after `expect` whose own scrambling the control word shows (log
entry 13: SEQ is itself scrambled). -/
def findSeq (expect : BitVec 12) (l : List Byte) : Option (BitVec 12) :=
  let w := natOfBytes (ctlBytes l)
  let base := ctlKeystream (BitVec.ofNat 31 (2 ^ 30))
  let unit := (List.range 12).map fun i => ctlKeystream (BitVec.ofNat 31 (2 ^ i))
  ((List.range 4096).map fun d => expect + BitVec.ofNat 12 d).find? fun q =>
    let key := ((List.range 12).filter fun i => bitAt q i).foldl (fun acc i => acc ^^^ unit.getD i 0) base
    decide ((w ^^^ key.toNat) % 4096 = q.toNat)

/-- A lath's sixteen slots as bytes, 36 each, least significant byte first (R38). -/
def slotBytes (slots : List Shingle) : List Byte := ((slots ++ List.replicate 16 0).take 16).flatMap fun w => bytesOf w 36

/-- The sixteen slots of 576 bytes. -/
def slotsOfBytes (l : List Byte) : List Shingle :=
  (List.range 16).map fun i => BitVec.ofNat 288 (natOfBytes ((l.drop (36 * i)).take 36))

/-- Lanes of a port of the given WIDTH, lanes 0 on (R37, R68). -/
def laneCount (width : BitVec 2) : Nat := [0, 2, 4, 8].getD width.toNat 0

/-- The nibbles of a lath: 2i is the low nibble of byte i, 2i + 1 the high one (R40). -/
def lathNibbles (l : List Byte) : List (BitVec 4) := l.flatMap fun b => [b.extractLsb' 0 4, b.extractLsb' 4 4]

/-- A lath on its lanes: nibble j on lane j mod the number of lanes, in ascending j (R40). -/
def lathLanes (width : BitVec 2) (l : List Byte) : List (List (BitVec 4)) :=
  (List.range (laneCount width)).map fun k =>
    ((lathNibbles l).zipIdx.filter fun p => decide (p.2 % laneCount width = k)).map Prod.fst

/-- A lath on the wire (R38 to R41). -/
def lathBytes (c : LathCtl) (slots : List Shingle) : List Byte :=
  fecEncode (scramble c.seq (slotBytes slots ++ bytesOf c.toWord 4))

/-- A received lath: control word, slots and corrected bytes. -/
def lathOfBytes (expect : BitVec 12) (l : List Byte) : Option (LathCtl × List Shingle × Nat) :=
  match fecDecode l with
  | none => none
  | some (good, n) =>
    match findSeq expect good with
    | none => none
    | some q =>
      let plain := scramble q good
      some (LathCtl.ofWord (BitVec.ofNat 32 (natOfBytes (plain.drop 576))), slotsOfBytes plain, n)

end Sys2Proof.Machine
end

