-- ==== Sys2Proof/Machine/Time.lean ====
section
/-! DEFINITION. Rack time: marks, REFCLK, free running (R26 to R32, R132), and the neighbour offsets (R33, R34, R67). -/

namespace Sys2Proof.Machine

open Sys2Proof

/-- 2^30 ns and one REFCLK cycle, in units of 0.2 ns. -/
def epochFifths : Nat := 2 ^ 30 * 5
def cycleFifths : Nat := 32

/-- Rack time advanced by REFCLK cycles, if REFCLK is present (R27). -/
def Tim.run (t : Tim) (cycles : Nat) : Tim := if t.refclkOk then { t with fifths := t.fifths + cycleFifths * cycles } else t

/-- The nearest multiple of 2^30 ns. -/
def nearestEpoch (f : Nat) : Nat := (f + epochFifths / 2) / epochFifths * epochFifths

/-- The distance of a rack time from the nearest multiple. -/
def epochError (f : Nat) : Nat := max f (nearestEpoch f) - min f (nearestEpoch f)

/-- What a mark did: nothing to report, a slip while SYNC is set that moved rack time, the first slip of a bay, the second. -/
inductive MarkResult where
  | quiet
  | moved
  | first
  | second
deriving DecidableEq, Repr

/-- Rack time after a mark moved to `f`; the time since the start goes on as it was. -/
def Tim.onto (t : Tim) (f : Nat) : Tim := { t with fifths := f, ahead := t.ahead + ((f : Int) - t.fifths), slipRun := 0, moveNext := false, lastMark := f }

/-- A mark with ARM clear (R28, R30). `held`: a bay is admitted. -/
def Tim.check (t : Tim) (held : Bool) : Tim × MarkResult :=
  let n := nearestEpoch t.fifths
  if epochError t.fifths ≤ cycleFifths then (t.onto n, .quiet)
  else
    let u := { t with slip := true, slips := satAdd t.slips 1 }
    if !t.sync then (u.onto n, .quiet)
    else if !held ∨ t.moveNext then (u.onto n, .moved)
    else if t.slipRun = 0 then ({ u with slipRun := 1, lastMark := t.fifths }, .first)
    else ({ u with slipRun := 0, moveNext := true, lastMark := t.fifths }, .second)

/-- A mark at a module: FREE_RUN cleared, an armed epoch applied, else checked (R28 to R31). -/
def Tim.mark (t : Tim) (held : Bool) : Tim × MarkResult :=
  let t := { t with freeRun := false }
  if t.arm then ({ t.onto (t.epochNum.toNat * epochFifths) with arm := false, sync := true }, .quiet) else t.check held

/-- A mark at a Jalem block: the first one after the STAMP_RSP sets rack time and SYNC (R132). -/
def Tim.jebMark (t : Tim) (held : Bool) : Tim × MarkResult :=
  let t := { t with freeRun := false }
  match t.stamped, t.sync with
  | some (t3, since), false => ({ t.onto (nearestEpoch (t3 + (t.fifths - since))) with sync := true, stamped := none }, .quiet)
  | _, _ => t.check held

/-- EPOCH_MARK (R28, R30, R132): `cycles` of REFCLK after the last command, a mark arrives. Without REFCLK no mark is sampled. -/
def execEpochMark (dev : Dev) (cycles : W32) (s : State) : Host.Outcome State Fault Refusal :=
  .next (match dev with
  | .module =>
    if !s.tim.refclkOk then s
    else match (s.tim.run cycles.toNat).mark s.admitted with
      | (t, .quiet) => { s with tim := t }
      | (t, .moved) => { s with tim := t }.count (eventOf 7)
      | (t, .first) => { s with tim := t }.severe (eventOf 7)
      | (t, .second) => { s with tim := t }.fatal 2 .nothing (eventOf 7)
  | .jalem =>
    if !s.jeb.tim.refclkOk then s
    else { s with jeb := { s.jeb with tim := ((s.jeb.tim.run cycles.toNat).jebMark s.jeb.tagged).1 } })

/-- REFCLK_LOST (R31). -/
def execRefclkLost (dev : Dev) (s : State) : Host.Outcome State Fault Refusal :=
  .next (match dev with
  | .module =>
    if !s.tim.refclkOk then s
    else
      let t : State := { s with tim := { s.tim with refclkOk := false, sync := false } }
      if s.admitted then t.fatal 1 .nothing (eventOf 7) else t
  | .jalem => { s with jeb := { s.jeb with tim := { s.jeb.tim with refclkOk := false, sync := false } } })

/-- REFCLK present again: REFCLK_OK, counting on from the held value. The watch for marks goes on from the last one; while none has come it counts
from rack time 0 (DESIGN CHOICE, log entry 127). -/
def Tim.resume (t : Tim) : Tim := { t with refclkOk := true }

/-- Rafter and tray ports as built (R129, R131). -/
def rafterCount : Nat := 4 + Config.rafterPortsLess4.val
def trayCount : Nat := Config.trayPorts.val

/-- The ports of the block that are used: those built. Rafter ports 16 and 17 stay in DISABLED (R129), and so does a tray port that faces an
absent position (R131). -/
def builtPorts : List Nat :=
  List.range (min 16 rafterCount) ++ ((List.range trayCount).filter fun t => !Config.trayAbsent (Fin.ofNat 2 t)).map (18 + ·)

/-- The block's used ports leave DISABLED, while REFCLK is present, and look for a partner (R46, R366; log entry 34). -/
def Jeb.portsUp (j : Jeb) : Jeb :=
  if !j.tim.refclkOk then j
  else { j with ports := builtPorts.foldl (fun t i => Tab.upd Port.reset t i fun x =>
    if x.train.state ≠ .disabled then x else let y := x.up false; { y with train := { y.train with role := .rafter } }) j.ports }

/-- REFCLK_RETURN (R31, R366): used ports may then leave DISABLED. -/
def execRefclkReturn (dev : Dev) (s : State) : Host.Outcome State Fault Refusal :=
  .next (match dev with
  | .module => { s with tim := s.tim.resume }.portsUp
  | .jalem => { s with jeb := ({ s.jeb with tim := s.jeb.tim.resume } : Jeb).portsUp })

/-- Whether no mark has arrived for 2^30 + 2^20 ns (R31). -/
def Tim.overdue (t : Tim) : Bool := t.refclkOk && !t.freeRun && decide (t.lastMark + (2 ^ 30 + 2 ^ 20) * 5 < t.fifths)

/-- FREE_RUN (R31): `cycles` of REFCLK pass without a mark. -/
def execFreeRun (dev : Dev) (cycles : W32) (s : State) : Host.Outcome State Fault Refusal :=
  .next (match dev with
  | .module =>
    let t := s.tim.run cycles.toNat
    if t.overdue then { s with tim := { t with freeRun := true } }.count (eventOf 7) else { s with tim := t }
  | .jalem =>
    let t := s.jeb.tim.run cycles.toNat
    { s with jeb := { s.jeb with tim := if t.overdue then { t with freeRun := true } else t } })

/-! ### Timestamps -/

/-- Rack time as a STAMP frame carries it: units of 1/16 ns with STAMPFINE, whole ns without (R67). -/
def stampUnits (fifths : Nat) (fine : Bool) : W64 := BitVec.ofNat 64 (if fine then fifths * 16 / 5 else fifths / 5)

/-- Rack time of a port's device. -/
def State.portTime (s : State) (p : PortRef) : Tim := if portDev p = .module then s.tim else s.jeb.tim

def Port.fine (x : Port) : Bool := bitAt x.train.features featStampFine

/-- A link-local frame: its opcode, COURSE 7, and the bits [255:16] of its own layout (R59). -/
def linkLocalFrame (op : Byte) (rest : Nat) : RawFrame :=
  { hdr := encodeShingle (BitVec.ofNat 256 (op.toNat + 7 * 2 ^ 8 + rest)), data := [] }

/-- A link-local frame waits at a port's transmitter for slot 0 of a lath (R67). -/
def State.queueLocal (s : State) (p : PortRef) (f : Stamping) : State :=
  s.updPort p fun x => { x with arb := { x.arb with linkLocal := x.arb.linkLocal ++ [f] } }

/-- A STAMP_REQ to be sent (R33, R67). -/
def State.sendStamp (s : State) (p : PortRef) : State := s.queueLocal p .req

/-- Rack time now at a port, in the units of its STAMP frames. -/
def State.stampNow (s : State) (p : PortRef) : W64 := stampUnits (s.portTime p).fifths (s.port p).fine

/-- A STAMP frame as the lath that begins now carries it (R67). -/
def Stamping.frame (f : Stamping) (now : W64) : RawFrame :=
  match f with
  | .req => linkLocalFrame opStampReq (now.toNat * 2 ^ 160)
  | .rsp t2 t1 => linkLocalFrame opStampRsp (t2.toNat * 2 ^ 32 + t1.toNat * 2 ^ 96 + now.toNat * 2 ^ 160)

/-- A STAMP frame that has gone at time `now`: a request's t1 is that time, and waits for its response. -/
def Port.stamped (x : Port) (f : Stamping) (now : W64) : Port :=
  let x : Port := { x with arb := { x.arb with linkLocal := x.arb.linkLocal.erase f } }
  match f with
  | .req => { x with stamp := { x.stamp with openT1 := some now } }
  | .rsp _ _ => x

/-- When the lath of a STAMP frame came: as its port noted it where the frame waits there, else now. -/
def State.cameAt (s : State) (p : PortRef) (raw : RawFrame) : Nat :=
  let r := (s.port p).retry
  if r.rx.head? = some raw then (if (raw.hdr.extractLsb' 0 8) = opStampReq then r.reqAt else r.rspAt) else (s.portTime p).fifths

/-- The hip port of TIM_OFS_k. -/
def hipPortOf (k : Fin 12) : PortRef := .module (Fin.ofNat 144 (128 + k.val))

/-- STAMP_EXCHANGE (R33): at a beat that is a multiple of 256, on an active hip port. -/
def execStampExchange (k : Fin 12) (beat : W64) (s : State) : Host.Outcome State Fault Refusal :=
  let s := s.toBeat beat.toNat
  let p := hipPortOf k
  .next (if beat.toNat % 256 = 0 ∧ (s.port p).train.state = .active ∧ !(s.port p).laneIdle then s.sendStamp p else s)

/-- STAMP_REQ (R67): a response waits to go, with t2 the time at which the request's lath came. -/
def execStampReq (p : PortRef) (t1 : W64) (replayed sealFailed : Bool) (s : State) : Host.Outcome State Fault Refusal :=
  let raw := linkLocalFrame opStampReq (t1.toNat * 2 ^ 160)
  let t2 := stampUnits (s.cameAt p raw) (s.port p).fine
  .next (s.takeLocal p raw fun s => if replayed ∨ sealFailed then s else s.queueLocal p (.rsp t2 t1))

/-- A report from 16 pairs, each twice its offset in 1/16 ns: the mean, as OFFSET (log entry 17). -/
def meanOffset (l : List Int) : Int := max (-(2 ^ 19)) (min (2 ^ 19 - 1) (l.sum / 32))

/-- A pair added to a port's offsets; a report once there are 16 (R33, R34). -/
def Stamp.pair (x : Stamp) (twice : Int) : Stamp × Bool :=
  let l := (x.last16 ++ [twice]).drop ((x.last16.length + 1) - 16)
  if l.length < 16 then ({ x with openT1 := none, last16 := l }, false)
  else
    let m := meanOffset l
    let big := decide (3200 < m.natAbs)
    ({ x with openT1 := none, last16 := l, offset := BitVec.ofInt 20 m, valid := true, warn := decide (800 < m.natAbs),
              fault := big, overRun := if big then x.overRun + 1 else 0 }, big)

/-- The consequences of a report above 200 ns: OFS_FAULT, a severe fault, and after four in a row a fatal one (R34). -/
def State.offsetFault (s : State) (n : Fin 144) : State :=
  let s := { s with tim := { s.tim with ofsFault := true } }.severe (linkEvent 7 n.val)
  if 4 ≤ (s.mport n.val).stamp.overRun then
    (s.updPort (.module n) fun x => { x with stamp := { x.stamp with overRun := 0 } }).fatal 3 .nothing (linkEvent 7 n.val)
  else s

/-- STAMP_RSP (R33, R34, R67, R132): it completes the pair whose t1 it echoes. -/
def execStampRsp (p : PortRef) (t2 t1 t3 : W64) (replayed sealFailed : Bool) (s : State) : Host.Outcome State Fault Refusal :=
  let raw := linkLocalFrame opStampRsp (t2.toNat * 2 ^ 32 + t1.toNat * 2 ^ 96 + t3.toNat * 2 ^ 160)
  let came := s.cameAt p raw
  .next (s.takeLocal p raw fun s =>
    let x := s.port p
    if replayed ∨ sealFailed ∨ x.stamp.openT1 ≠ some t1 then s
    else match p with
      | .module n =>
        let t4 := (stampUnits came x.fine).toNat
        let unit : Int := if x.fine then 1 else 16
        let twice : Int := unit * (((t2.toNat : Int) - t1.toNat) - ((t4 : Int) - t3.toNat))
        let r := x.stamp.pair twice
        let s := s.updPort p fun y => { y with stamp := r.1 }
        if r.2 then s.offsetFault n else s
      | p =>
        let t3f := if x.fine then t3.toNat * 5 / 16 else t3.toNat * 5
        let s := s.updPort p fun y => { y with stamp := { y.stamp with openT1 := none } }
        { s with jeb := { s.jeb with tim := { s.jeb.tim with stamped := some (t3f, came) } } })

end Sys2Proof.Machine
end

