-- ==== Sys2Proof/Machine/Training.lean ====
section
/-! DEFINITION. Training of a port (R14, R18, R44 to R51, R63, R131): the state machine of R46 and what its ends bring about
(R45, R124, R126). A command names the physical event; its condition on the port's state is checked here. -/

namespace Sys2Proof.Machine

open Sys2Proof

/-! ### What a port sends of itself (R39, R40, R46, R48, R50, R53, R63, R130, R131) -/

/-- A lath goes onto the pins, split over the port's lanes. -/
def State.putLath (s : State) (p : PortRef) (ctl : LathCtl) (slots : List Shingle) : State :=
  s.emit (.lath p (lathLanes (s.port p).train.width (lathBytes ctl slots)))

/-- Whether the group that the transmitter is in is sealed, and with which key. -/
def State.txKey (s : State) (p : PortRef) : Option (BitVec 256) :=
  if (s.port p).sealing.txOn then (s.portKey p (s.port p).sealing.active).map fun k => k.key else none

/-- A free 288-bit slot (log entry 5). -/
def State.freeSlot (s : State) (i : Nat) : Shingle :=
  (Config.freeKey (s.fresh + 2 * i)).setWidth 288 ^^^ ((Config.freeKey (s.fresh + 2 * i + 1)).setWidth 288 <<< 256)

/-- A lath that carries no new SEQ: an idle one, a NAK (R43), or a training lath of RETRAIN (R46). It repeats the last SEQ sent (log entry 84). Its slots are idle; on a sealed
link they go encrypted like those of every lath (R61), by a count that the spec does not give for a lath of no group: they are free (log
entry 84). -/
def State.spareLath (s : State) (p : PortRef) (ltype : BitVec 3) : State :=
  let x := s.port p
  let on := (s.txKey p).isSome
  let slots := if on then (List.range 16).map s.freeSlot else List.replicate 16 0
  (s.putLath p { seq := x.retry.txSeq - 1, ack := x.retry.rxLast, ltype := ltype, replayed := false,
                 keyId := if on then x.sealing.active else 0 } slots).spend (if on then 32 else 0)

/-- A training lath (LTYPE 3) of a port in LOCK, before anything is negotiated: one stands for those that it sends without a gap; its slots are
idle (log entry 81). -/
def State.trainingLath (s : State) (p : PortRef) : State :=
  s.putLath p { seq := (s.port p).retry.txSeq - 1, ack := (s.port p).retry.rxLast, ltype := 3, replayed := false, keyId := 0 }
    (List.replicate 16 0)

/-- The identity record of a port (R48): for a Jalem block its node and link number, 24 and 25 for its tray ports (R270), for a module its
index, coordinates and port number. Both offer revision 2.3 (R53) and the features of FEAT_MASK (R68). -/
def State.ownIdentity (s : State) (p : PortRef) : Identity :=
  let x := s.port p
  let zero : Coord := { x := 0, y := 0, z := 0 }
  let block := fun (link : Nat) =>
    { jalem := true, role := x.train.role, node := BitVec.ofNat 8 s.jeb.node.toNat, link := BitVec.ofNat 5 link, index := 0, coord := zero,
      port := 0, rev := 3, feats := x.cfg.featMask.setWidth 16 : Identity }
  match p with
  | .module n =>
    { jalem := false, role := x.train.role, node := 0, link := 0, index := BitVec.ofNat 4 s.index, coord := s.coord,
      port := BitVec.ofNat 8 n.val, rev := 3, feats := x.cfg.featMask.setWidth 16 }
  | .rafter q => block q.val
  | .tray t => block (24 + t.val)

/-- A port's identity record sent. -/
def State.sendIdentity (s : State) (p : PortRef) : State := s.emit (.identity p (s.ownIdentity p))

/-! ### Leaving the active states -/

/-- A link's buffers and counts as they are lost with the link (R45): replay buffer, laths and frames in arrival. -/
def Port.lost (x : Port) : Port :=
  { x with
    retry := Port.reset.retry
    arb := { x.arb with linkLocal := [] }
    stamp := Port.reset.stamp
    sealing := { x.sealing with txGroup := if x.sealing.txLaths = [] then x.sealing.txGroup else x.sealing.txGroup + 1
                                rxCount := if x.sealing.rxGroup = [] then x.sealing.rxCount else x.sealing.rxCount + 1
                                txLaths := [], rxGroup := [], rxAt := [], failed := none } }

/-- Whether a bay is admitted at the port's device. -/
def State.inBay (s : State) (p : PortRef) : Bool := if portDev p = .module then s.admitted else s.jeb.tagged

/-- What the loss of a link brings about at its device (R45, R124, R126). -/
def State.linkDown (s : State) (p : PortRef) : State :=
  match p with
  | .module n => s.moduleDown n
  | .rafter q => s.linkLost q
  | .tray t => s.updPort (.tray t) fun x => { x with txq := [] }

/-- A port to DOWN, or from RETRAIN to HELD which counts as DOWN (R45), with its reason (R68). -/
def State.portDown (s : State) (p : PortRef) (st : PState) (fail : BitVec 4) : State :=
  (s.updPort p fun x =>
    { x.lost with train := { x.train with state := st, fail := fail, width := 0, bayDown := s.inBay p, asDown := decide (st = .held) } }).linkDown p

/-- A port to HELD in the course of training (R46): no link is lost. -/
def Port.hold (x : Port) (fail : BitVec 4) : Port := { x.lost with train := { x.train with state := .held, fail := fail, width := 0, asDown := false } }

/-- A cabling fault reported to Gutter by the side whose comparison fails (R14, R131; source 5 of R285). -/
def State.cabling (s : State) (p : PortRef) : State := s.count (s.portEvent 5 p)

/-- A port's training state replaced. -/
def State.setPState (s : State) (p : PortRef) (st : PState) : State := s.updPort p fun x => { x with train := { x.train with state := st } }

def State.pstate (s : State) (p : PortRef) : PState := (s.port p).train.state

/-! ### Retrain (R44, R45) -/

/-- A port enters RETRAIN, counted (R44, R68), and sends training laths again (R46), encrypted like every lath of a sealed link (R61; log entries 81,
84). R44 says what a received LTYPE 2 does, not who sends one:
a port that enters for its own causes sends none (log entry 82). -/
def State.enterRetrain (s : State) (p : PortRef) : State :=
  let s := s.updPort p fun x =>
    { x with train := { x.train with state := .retrain }, err := { x.err with lathErr := satFld x.err.lathErr 16 8 1 } }
  let s := s.spareLath p 3
  match p with
  | .module n => s.count (linkEvent 3 n.val)
  | _ => s

/-- RETRAIN (R44). -/
def execRetrain (p : PortRef) (_cause : RetrainCause) (s : State) : Host.Outcome State Fault Refusal :=
  .next (if s.pstate p = .active then s.enterRetrain p else s)

/-- Whether two records name the same partner (R44, R48). -/
def samePartner (a b : Identity) : Bool :=
  decide (a.jalem = b.jalem ∧ a.role = b.role ∧ a.node = b.node ∧ a.link = b.link ∧ a.index = b.index ∧ a.coord = b.coord ∧ a.port = b.port)

/-- RETRAIN_RELOCK (R44, R45): both sides exchange identity records again. -/
def execRetrainRelock (p : PortRef) (ident : Identity) (s : State) : Host.Outcome State Fault Refusal :=
  .next (if s.pstate p ≠ .retrain then s
    else if (s.port p).train.partner.any (samePartner ident) then
      (s.sendIdentity p).updPort p fun x => { x with train := { x.train with state := .active }, retry := { x.retry with resume := true } }
    else ((s.sendIdentity p).cabling p).portDown p .held 1)

/-- RETRAIN_TIMEOUT (R45): 20 µs have passed. -/
def execRetrainTimeout (p : PortRef) (s : State) : Host.Outcome State Fault Refusal :=
  .next (if s.pstate p = .retrain then s.portDown p .down 5 else s)

/-! ### From DETECT to IDENTIFY (R46, R47) -/

/-- PARTNER_DETECTED (R46). -/
def execPartnerDetected (p : PortRef) (s : State) : Host.Outcome State Fault Refusal :=
  .next (if s.pstate p = .detect then s.setPState p .equalise else s)

/-- EQUALISE_DONE (R46, R47): in LOCK the port sends training laths. -/
def execEqualiseDone (p : PortRef) (s : State) : Host.Outcome State Fault Refusal :=
  .next (if s.pstate p = .equalise then
      (s.updPort p fun x => { x with train := { x.train with state := .lock, width := x.train.tryWidth, eqFails := 0 } }).trainingLath p
    else s)

/-- Whether a port may run narrower than ×8: a service port that offers NARROW, unless its partner has left it off (R37, R47, R51). -/
def Port.mayNarrow (x : Port) : Bool := decide (x.train.role = .service) && bitAt x.cfg.featMask featNarrow && !x.train.narrowOff

/-- A failed EQUALISE: back to DETECT, at the next width where one is to be tried (R47). -/
def Port.equaliseFailed (x : Port) : Port :=
  let w := if x.mayNarrow ∧ 1 < x.train.tryWidth.toNat then x.train.tryWidth - 1 else x.train.tryWidth
  { x with train := { x.train with state := .detect, width := 0, eqFails := x.train.eqFails + 1, tryWidth := w } }

/-- EQUALISE_TIMEOUT (R46, R47): 50 ms; the third failure in a row takes the port DOWN. -/
def execEqualiseTimeout (p : PortRef) (s : State) : Host.Outcome State Fault Refusal :=
  .next (if s.pstate p ≠ .equalise then s
    else if 2 ≤ (s.port p).train.eqFails then s.portDown p .down 4
    else s.updPort p Port.equaliseFailed)

/-- LOCK_DONE (R46, R48): in IDENTIFY the port sends its identity record. -/
def execLockDone (p : PortRef) (s : State) : Host.Outcome State Fault Refusal :=
  .next (if s.pstate p = .lock then (s.setPState p .identify).sendIdentity p else s)

/-- LOCK_TIMEOUT (R46): 1 ms. -/
def execLockTimeout (p : PortRef) (s : State) : Host.Outcome State Fault Refusal :=
  .next (if s.pstate p = .lock then s.updPort p fun x => { x with train := { x.train with state := .equalise, width := 0 } } else s)

/-! ### IDENTIFY (R14, R18, R48, R131) -/

/-- Whether a record is that of the partner a port must have. -/
def State.partnerOk (s : State) (p : PortRef) (i : Identity) : Bool :=
  match p with
  | .module n =>
    match portRole n.val with
    | .rafter => i.jalem && decide (i.role = .rafter ∧ i.node.toNat = n.val ∧ i.link.toNat = s.index)
    | .hip => !i.jalem && decide (i.role = .hip ∧ i.index.toNat = s.index ∧ i.coord = neighbour s.sof.torus s.coord (hipDir n.val)
        ∧ i.port.toNat = hipPeer n.val)
    | _ => decide (i.role = .service) && (s.sof.serviceNodes.find? fun a => decide (a.1 = n)).all fun a => decide (i.node = a.2)
  | .rafter q => !i.jalem && decide (i.role = .rafter ∧ i.index.toNat = q.val ∧ i.port.toNat = s.jeb.node.toNat)
  | .tray t => i.jalem && decide (i.node.toNat = s.jeb.trayPartner t ∧ i.link.toNat = 25 - t.val)

/-- IDENTITY_RECORD (R14, R18, R48, R50, R131): in NEGOTIATE the port sends its highest revision and its feature mask. -/
def execIdentityRecord (p : PortRef) (ident : Identity) (s : State) : Host.Outcome State Fault Refusal :=
  .next (if s.pstate p ≠ .identify then s
    else
      let s := s.updPort p fun x => { x with train := { x.train with partner := some ident } }
      if s.partnerOk p ident then (s.setPState p .negotiate).emit (.offer p 3 ((s.port p).cfg.featMask.setWidth 16))
      else (s.updPort p fun x => x.hold 1).cabling p)

/-! ### NEGOTIATE (R50, R51, R53) -/

/-- The feature set with a partner of minor revision `r` and a mask (R50). -/
def Port.agreed (x : Port) (r : BitVec 2) (feats : W16) : Byte := feats.truncate 8 &&& revFeatures r &&& x.cfg.featMask

/-- A link narrower than ×8 whose NEGOTIATE leaves NARROW off: its fallback is ×8 only (R51), so it goes no further; like a port that cannot
run all eight lanes it fails EQUALISE (R47; log entry 83), and tries ×8 alone with this partner. -/
def Port.narrowRefused (x : Port) : Port :=
  { x with train := { x.train with state := .detect, width := 0, eqFails := x.train.eqFails + 1, tryWidth := x.train.limit, narrowOff := true } }

/-- NEGOTIATE (R50, R51, R63): the partner's highest minor revision, `none` below 2.0, and its mask. Both devices offer revision 2.3. In
CREDIT the port sends its grants. A HELD for the revision or, below, for credit sets FAIL and raises no event: R285 names no source for either
(DESIGN CHOICE, log entry 105). -/
def execNegotiate (p : PortRef) (rev : Option (BitVec 2)) (feats : W16) (s : State) : Host.Outcome State Fault Refusal :=
  .next (if s.pstate p ≠ .negotiate then s
    else match rev with
      | none => s.updPort p fun x => x.hold 2
      | some r =>
        if (s.port p).train.width ≠ 3 ∧ !bitAt ((s.port p).agreed r feats) featNarrow then s.updPort p Port.narrowRefused
        else
          (s.updPort p fun x =>
            { x with train := { x.train with state := .credit, rev := r, features := x.agreed r feats }
                     cred := { x.cred with granted := x.cfg.grants } }).emit (.grants p (s.port p).cfg.grants))

/-! ### CREDIT (R63) -/

/-- A port that becomes ACTIVE: its credit is that granted, its laths start at SEQ 0, its buckets are full. -/
def Port.start (x : Port) (grants : List W16) : Port :=
  { x.lost with
    train := { x.train with state := .active }
    sealing := { x.lost.sealing with anew := x.sealing.rxOn }
    cred := { x.cred with txGrant := grants.map BitVec.toNat, txSent := zeros12, txFreed := zeros12, rxFreed := zeros12, told := zeros12 }
    arb := { Port.reset.arb with tok4 := 25600, tok0 := 102400 } }

/-- A KEY DESTROY sent on a port, whose ACK is awaited (R278). -/
def State.sendDestroy (s : State) (n : Fin 144) : State :=
  let t := s.sof.sofTag
  let s := s.soffitSend n (s.soffitHdr opKey (s.partnerFpa n 0) (keyAux actDestroy 0 0 0 0) 0) []
  { s with sec := { s.sec with destroyWait := s.sec.destroyWait ++ [(n, t)] } }

/-- What a device does on a port that has become ACTIVE: a module sends the DESTROY that a release still owes (R278, R280), a
Jalem block asks for rack time on its lowest rafter port (R132), at each ACTIVE while SYNC is 0 (DESIGN CHOICE, log entry 135), and sends the report that
is due (R160). -/
def State.onActive (s : State) (p : PortRef) : State :=
  match p with
  | .module n =>
    if (s.mport n.val).train.destroyDue then
      (s.updPort p fun x => { x with train := { x.train with destroyDue := false } }).sendDestroy n
    else s
  | .rafter q => (if q = 0 ∧ !s.jeb.tim.sync then s.sendStamp p else s).sendReport
  | .tray _ => s

/-- INITIAL_CREDIT_GRANT (R63): each virtual channel needs 9 slots on both sides. -/
def execInitialCreditGrant (p : PortRef) (grants : List W16) (s : State) : Host.Outcome State Fault Refusal :=
  .next (if s.pstate p ≠ .credit then s
    else if grants.length = 12 ∧ (grants.all fun g => decide (9 ≤ g.toNat)) ∧ ((s.port p).cfg.grants.all fun g => decide (9 ≤ g)) then
      (s.updPort p fun x => x.start grants).onActive p
    else s.updPort p fun x => x.hold 3)

/-! ### Back to DETECT (R46) -/

/-- A port whose partner has gone returns to DETECT: its next training tries the widest width first (R46, R47). -/
def Port.partnerGone (x : Port) : Port :=
  { x with train := { x.train with state := .detect, width := 0, tryWidth := x.train.limit, narrowOff := false } }

/-- PARTNER_IDLE (R46). -/
def execPartnerIdle (p : PortRef) (s : State) : Host.Outcome State Fault Refusal :=
  .next (if s.pstate p ∈ [.lock, .identify, .negotiate, .credit] then s.updPort p Port.partnerGone else s)

/-- REFCLK is present at a port's device. -/
def State.clocked (s : State) (p : PortRef) : Bool := if portDev p = .module then s.tim.refclkOk else s.jeb.tim.refclkOk

/-- RESTART written: a port in HELD or DOWN returns to DETECT, unless a fence holds it (R46, R297); so does one that a pattern has left in
DISABLED, while REFCLK is present (R356, R366). An unused port and one on a lane that R23 holds stay in electrical idle (R16). -/
def State.restartPort (s : State) (p : PortRef) : State :=
  let held : Bool := match p with
    | .module n => s.fenced n.val
    | _ => false
  let off := decide (s.pstate p = .disabled) && s.clocked p
  if (s.pstate p = .down ∨ s.pstate p = .held ∨ off) ∧ !(s.port p).laneIdle ∧ !held ∧ (s.port p).train.role ≠ .unused then s.updPort p Port.toDetect else s

/-- PRT_CTRL_RESTART (R46): nobody writes it at the module in Sarking-only operation (R354). -/
def execPrtCtrlRestart (p : PortRef) (s : State) : Host.Outcome State Fault Refusal :=
  .next (if portDev p = .module ∧ !s.served then s else s.restartPort p)

end Sys2Proof.Machine
end

