-- ==== Sys2Proof/Machine/GableFmt.lean ====
section
/-! DEFINITION. Gable's formats and arithmetic (R209 to R220): widths and packing, the accumulators of the float and the fixed
class, combining at a tree node, and the one conversion at the output. -/

namespace Sys2Proof.Machine

open Sys2Proof

/-! ### Formats (R209 to R211, R245) -/

def fmtMx : Nat := 5

/-- Element width in bits; an MX FP4 element without its scale. -/
def gabWidth (fmt : Nat) : Nat := [32, 16, 16, 8, 8, 4, 8, 32].getD fmt 0

/-- The float class. -/
def gabFloat (fmt : Nat) : Bool := decide (fmt ≤ 2)

/-- The permitted pairs of R211. -/
def pairOk (ifmt ofmt : Nat) : Bool :=
  decide (ofmt ∈ [[0], [1, 0], [2, 0], [3, 2, 1, 0], [4, 2, 1, 0], [5, 1, 0], [6, 7], [7]].getD ifmt [])

/-- Bytes of e elements: pos(e, fmt) of R245 at a place where a group begins. -/
def gabBytes (fmt e : Nat) : Nat := if fmt = fmtMx then 544 * (e / 1024) else e * gabWidth fmt / 8

/-- pos(e, fmt) of R245: the byte at which element e begins. -/
def gabPos (fmt e : Nat) : Nat := if fmt = fmtMx then 544 * (e / 1024) + e % 1024 / 2 else e * gabWidth fmt / 8

/-- Input bytes, shingles and elements of a chunk (R213). -/
def chunkBytes (fmt : Nat) : Nat := if fmt = fmtMx then 544 else 256
def chunkShingles (fmt : Nat) : Nat := chunkBytes fmt / 32
def chunkElems (fmt : Nat) : Nat := if fmt = fmtMx then 1024 else 2048 / gabWidth fmt

/-- The conditions of R212 and R220 on a segment of L contributors and E elements. -/
def gabFits (l ifmt e : Nat) : Bool :=
  let quarter := if gabFloat ifmt then 16 else if ifmt = fmtMx then 33 else 32
  decide (2 ≤ l ∧ l ≤ 144 ∧ ifmt < 8 ∧ 0 < e) && decide (e % (if ifmt = fmtMx then 1024 else 256) = 0) &&
    decide ((1 + (l + 1) / 2) * e * quarter ≤ 4 * 262144)

/-! ### Accumulators (R214, R216) -/

/-- An element's accumulator: poisoned, an FP32 pattern, or a fixed-class number with its code (0 finite, 1 +∞, 2 −∞, 3 NaN). -/
inductive Acc where
  | bad
  | flt (w : Nat)
  | num (code : Nat) (v : Int)
deriving DecidableEq, Repr

/-- An MX FP4 block: poisoned, NaN (by overflow or not), or its base, NONE as `none`, with 32 integers. -/
inductive MxAcc where
  | bad
  | nan (big : Bool)
  | blk (base : Option Nat) (els : List Int)
deriving DecidableEq, Repr

/-- The exponent of a fixed-class unit. -/
def unitExp (ifmt : Nat) : Int := if ifmt = 3 then -9 else if ifmt = 4 then -16 else 0

/-- A decoded value as a fixed-class accumulator in units of 2^q. -/
def accOf (q : Int) : FVal → Acc
  | .nan => .num 3 0
  | .inf neg => .num (if neg then 2 else 1) 0
  | .fin neg m e => .num 0 (scaled neg m e q)

/-- The leaf conversion of an element. -/
def leafAcc (ifmt w : Nat) : Acc :=
  match ifmt with
  | 0 => .flt w
  | 1 => .flt (w * 65536)
  | 2 => .flt (fmtFp32.encode (fmtFp16.decode w))
  | 3 => accOf (-9) (fmtE4M3.decode w)
  | 4 => accOf (-16) (fmtE5M2.decode w)
  | 6 => .num 0 (toSigned 8 w)
  | _ => .num 0 (toSigned 32 w)

/-- The leaf conversion of an MX block: scale and 32 E2M1 codes. -/
def leafMx (scale : Nat) (codes : List Nat) : MxAcc :=
  if scale = 255 then .nan false
  else
    let els := codes.map fun c => match fmtE2M1.decode c with
      | .fin neg m e => scaled neg m e (-1)
      | _ => 0
    .blk (if els.all fun a => decide (a = 0) then none else some scale) els

/-! ### Combining (R214, R217) -/

/-- Codes combined: NaN from any NaN or from opposite infinities, an infinity over a finite value (R192, R217). -/
def codeAdd (a b : Nat) : Nat := if a = 0 then b else if b = 0 ∨ a = b then a else 3

/-- Two accumulators combined. -/
def Acc.add : Acc → Acc → Acc
  | .flt a, .flt b => .flt (fmtFp32.add a b)
  | .num c v, .num d w => if codeAdd c d = 0 then .num 0 (v + w) else .num (codeAdd c d) 0
  | _, _ => .bad

/-- The lower of two bases, NONE above every number. -/
def baseMin : Option Nat → Option Nat → Option Nat
  | none, b => b
  | a, none => a
  | some a, some b => some (min a b)

/-- The elements of a block brought to a base. -/
def toBase (base own : Option Nat) (els : List Int) : List Int := els.map fun a => a * ((2 ^ (own.getD 0 - base.getD 0) : Nat) : Int)

/-- A number of a magnitude that makes its block NaN. -/
def mxTooBig (l : List Int) : Bool := l.any fun a => decide (2 ^ 63 ≤ a.natAbs)

/-- Two blocks combined. -/
def MxAcc.add : MxAcc → MxAcc → MxAcc
  | .bad, _ => .bad
  | _, .bad => .bad
  | .nan a, .nan b => .nan (a || b)
  | .nan a, _ => .nan a
  | _, .nan b => .nan b
  | .blk ba ea, .blk bb eb =>
    let base := baseMin ba bb
    let pa := toBase base ba ea
    let pb := toBase base bb eb
    let sum := List.zipWith (· + ·) pa pb
    if mxTooBig pa || mxTooBig pb || mxTooBig sum then .nan true else .blk base sum

/-! ### Output (R215, R218, R219) -/

/-- A number as an exact value at exponent q; a fixed-class zero is +0. -/
def fvalOf (v q : Int) : FVal := .fin (decide (v < 0)) v.natAbs q

/-- A fixed-class root as an exact value. -/
def fixedVal (q : Int) (code : Nat) (v : Int) : FVal :=
  match code with
  | 0 => fvalOf v q
  | 1 => .inf false
  | 2 => .inf true
  | _ => .nan

/-- A value in FP8 E4M3: finite results beyond the range become ±448, infinities and NaN 0x7F. -/
def outE4M3 : FVal → Nat
  | .fin neg m e => min (fmtE4M3.roundMag m e) 0x7E + neg.toNat * 128
  | _ => 0x7F

/-- A value in FP8 E5M2: beyond the range ±∞, NaN 0x7F. -/
def outE5M2 : FVal → Nat
  | .nan => 0x7F
  | v => fmtE5M2.encode v

/-- An integer saturated to a two's complement range. -/
def saturateTo (w : Nat) (v : Int) : Nat := (max (-(2 ^ (w - 1) : Int)) (min (2 ^ (w - 1) - 1) v) % 2 ^ w).toNat

/-- An exact value in a float output format. -/
def outFloat (ofmt : Nat) (v : FVal) : Nat :=
  match ofmt with
  | 0 => fmtFp32.encode v
  | 1 => fmtBf16.encode v
  | 2 => fmtFp16.encode v
  | 3 => outE4M3 v
  | _ => outE5M2 v

/-- A root accumulator converted once; `none` where it is poisoned. -/
def Acc.out (ifmt ofmt : Nat) : Acc → Option Nat
  | .bad => none
  | .flt w => some (if ofmt = 0 then w else outFloat ofmt (fmtFp32.decode w))
  | .num code v =>
    some (if ofmt = 6 then saturateTo 8 v else if ofmt = 7 then saturateTo 32 v else outFloat ofmt (fixedVal (unitExp ifmt) code v))

/-- An E2M1 code of a value: nearest, ties to even, the magnitude at most 6 and the sign kept. -/
def outE2M1 (v q : Int) : Nat := min (fmtE2M1.roundMag v.natAbs q) 7 + (decide (v < 0)).toNat * 8

/-- An MX block rescaled (R219): scale, codes, and whether it is NaN by overflow or by its scale's range. -/
def mxBlockOut : MxAcc → Nat × List Nat × Bool
  | .bad => (0, List.replicate 32 0, false)
  | .nan big => (0xFF, List.replicate 32 0, big)
  | .blk base els =>
    let m := (els.map Int.natAbs).foldl max 0
    match base, m with
    | none, _ => (0x7F, List.replicate 32 0, false)
    | _, 0 => (0x7F, List.replicate 32 0, false)
    | some b, m =>
      let q : Int := (b : Int) - 128
      let x : Int := (Nat.log2 m : Int) + q - 2
      if 254 < x + 127 then (0xFF, List.replicate 32 0, true)
      else
        let x := max x (-127)
        ((x + 127).toNat, els.map fun v => outE2M1 v (q - x), false)

/-- An MX block's elements in a float format; `none` where it is poisoned. -/
def mxFloatOut (ofmt : Nat) : MxAcc → List (Option Nat)
  | .bad => List.replicate 32 none
  | .nan _ => List.replicate 32 (some (outFloat ofmt .nan))
  | .blk base els => els.map fun v => some (outFloat ofmt (fvalOf v ((base.getD 0 : Int) - 128)))

/-! ### Chunks -/

/-- A chunk's accumulators. -/
inductive ChunkVal where
  | els (l : List Acc)
  | mx (l : List MxAcc)
deriving DecidableEq, Repr

def ChunkVal.add : ChunkVal → ChunkVal → ChunkVal
  | .els a, .els b => .els (List.zipWith Acc.add a b)
  | .mx a, .mx b => .mx (List.zipWith MxAcc.add a b)
  | a, _ => a

/-- The leaf of a contributor's chunk: its shingles in order, `none` where poisoned (R210, R216, R222). -/
def leafChunk (ifmt : Nat) (l : List (Option (BitVec 256))) : ChunkVal :=
  if ifmt = fmtMx then
    .mx ((List.range 32).map fun j => match l.getD (j / 2) none, l.getD 16 none with
      | some w, some sc => leafMx (fld sc (8 * j) 8) (((elements 4 w).drop (32 * (j % 2))).take 32)
      | _, _ => .bad)
  else .els (l.flatMap fun w => match w with
    | some w => (elements (gabWidth ifmt) w).map (leafAcc ifmt)
    | none => List.replicate (256 / gabWidth ifmt) .bad)

/-- A list cut into pieces of `k`. -/
def pieces {α : Type} (k : Nat) : Nat → List α → List (List α)
  | 0, _ => []
  | n + 1, l => if l.isEmpty then [] else l.take k :: pieces k n (l.drop k)

/-- Elements packed in shingles, with their poison; a poisoned element's bits come from free words, one for each shingle (log entry 96). -/
def packElems (w : Nat) (free : Nat → BitVec 256) (l : List (Option Nat)) : List (BitVec 256 × Bool) :=
  (pieces (256 / w) (l.length + 1) l).zipIdx.map fun p =>
    (ofElements w (p.1.zipIdx.map fun q => q.1.getD (fld (free p.2) (w * q.2) w)), p.1.any Option.isNone)

/-- A root chunk as output shingles with their poison, and the MX blocks that count as NaN (R215, R218, R219, R222). -/
def outChunk (ifmt ofmt : Nat) (free : Nat → BitVec 256) : ChunkVal → List (BitVec 256 × Bool) × Nat
  | .els l => (packElems (gabWidth ofmt) free (l.map (Acc.out ifmt ofmt)), 0)
  | .mx l =>
    let wide := (l.filter fun b => decide (b = .nan true)).length
    if ofmt = fmtMx then
      let bs := l.map fun b => (mxBlockOut b, decide (b = .bad))
      let codes := bs.flatMap fun b => if b.2 then List.replicate 32 none else b.1.2.1.map some
      let scales := bs.map fun b => if b.2 then none else some b.1.1
      (packElems 4 free codes ++ packElems 8 (fun k => free (16 + k)) scales, (bs.filter fun b => b.1.2.2).length)
    else (packElems (gabWidth ofmt) free (l.flatMap (mxFloatOut ofmt)), wide)

end Sys2Proof.Machine
end

