-- ==== Sys2Proof/Machine/TrussOps.lean ====
section
/-! DEFINITION. The truss sequencer's shared operations (R228 to R250): programs and communicators read, ranks, carriers, hosts
and lines, collective frames sent, and the end of a run. -/

namespace Sys2Proof.Machine

open Sys2Proof

/-! ### Programs (R238, R239) -/

def Trs.word (t : Trs) (i : Nat) : W64 := Tab.get 0 t.prog i
def Trs.dir (t : Trs) (n : Nat) : ProgDir := Tab.get ProgDir.reset t.dirs n
def Trs.comm (t : Trs) (n : Nat) : Comm := Tab.get Comm.reset t.comms n

/-- The instruction words of a directory entry's program. -/
def Trs.words (t : Trs) (d : ProgDir) : List W64 := (List.range d.length.toNat).map fun i => t.word (d.first.toNat + 1 + i)

def insOp (w : W64) : Nat := fld w 0 4
def insHandle (w : W64) : Nat := fld w 4 2
def insStage (w : W64) : Nat := fld w 6 2
def insMode (w : W64) : Nat := fld w 8 2
def insIfmt (w : W64) : Nat := fld w 8 4
def insOfmt (w : W64) : Nat := fld w 12 4

/-- The SEGMENT instructions of a program: stage, input and output format. -/
def segmentsOf (l : List W64) : List (Nat × Nat × Nat) :=
  (l.filter fun w => decide (insOp w = 3)).map fun w => (insStage w, insIfmt w, insOfmt w)

/-- The formats of a stage that a SEGMENT names. -/
def fmtsOf (segs : List (Nat × Nat × Nat)) (st : Nat) : Option (Nat × Nat) := (segs.find? fun g => decide (g.1 = st)).map Prod.snd

/-- The output format of the highest stage. -/
def finalFmt (segs : List (Nat × Nat × Nat)) : Option Nat :=
  ((fmtsOf segs 3).or ((fmtsOf segs 2).or ((fmtsOf segs 1).or (fmtsOf segs 0)))).map Prod.snd

/-- The next torus stage below a stage that a SEGMENT names. -/
def lowerTorus (segs : List (Nat × Nat × Nat)) (st : Nat) : Option Nat :=
  ([2, 1].filter fun t => decide (t < st) && (fmtsOf segs t).isSome).head?

/-! ### Communicators (R231, R253) -/

def Comm.valid (c : Comm) : Bool := bitAt c.ctl 0
def Comm.progNo (c : Comm) : Nat := fld c.ctl 1 4
def Comm.priority (c : Comm) : Nat := fld c.ctl 5 3
def Comm.runDepth (c : Comm) : Nat := max 1 (min 64 (fld c.ctl 8 7))
def Comm.tag (c : Comm) : Nat := fld c.ctl 16 12
def Comm.depth (c : Comm) : Nat := max 1 (fld c.ctl 28 4)
def Comm.ctrBase (c : Comm) : Nat := fld c.ctl 32 12
def Comm.errCtr (c : Comm) : Nat := fld c.ctl 44 12

/-- The members, by node number: their ranks at the rack stage (R230). -/
def Comm.members (c : Comm) : List Nat :=
  (List.range 128).filter fun j => if j < 64 then bitAt c.mem0 j else bitAt c.mem1 (j - 64)

/-- Origin and size of the block on an axis: 1 X, 2 Y, 3 Z. -/
def Comm.org (c : Comm) (axis : Nat) : Nat := if axis = 1 then fld c.block 0 3 else if axis = 2 then fld c.block 3 3 else fld c.block 6 2
def Comm.size (c : Comm) (axis : Nat) : Nat := if axis = 1 then fld c.block 8 4 else if axis = 2 then fld c.block 12 3 else fld c.block 15 3

/-- Contributors of a stage (R230). -/
def Comm.leaves (c : Comm) (st : Nat) : Nat := if st = 0 then c.members.length else c.size st

/-- The landing or scratch area of an instance (R245). -/
def Comm.area (c : Comm) (land : Bool) (seq : Nat) : Nat :=
  fld (if land then c.land else c.scratch) 5 43 * 32 + seq % c.depth * (fld c.stride 5 43 * 32)

/-- SEQ and COMM_TAG of a bundle identifier (R232). -/
def bundleSeq (b : W32) : Nat := fld b 0 20
def bundleTag (b : W32) : Nat := fld b 20 12

/-- The valid entry with a COMM_TAG. -/
def Trs.commOf (t : Trs) (tag : Nat) : Option Nat := (List.range 64).find? fun n => (t.comm n).valid && decide ((t.comm n).tag = tag)

/-! ### Roles (R229, R230) -/

def coordOn (p : Nat × Nat × Nat) (axis : Nat) : Nat := if axis = 1 then p.1 else if axis = 2 then p.2.1 else p.2.2

def withCoord (p : Nat × Nat × Nat) (axis v : Nat) : Nat × Nat × Nat :=
  if axis = 1 then (v, p.2.1, p.2.2) else if axis = 2 then (p.1, v, p.2.2) else (p.1, p.2.1, v)

/-- The carrier of run k. -/
def State.carrier (s : State) (c : Comm) (k : Nat) : Nat := c.members.getD ((k + s.index) % c.members.length) 0

/-- The host's coordinate on an axis, relative to the block. -/
def State.hostCoord (s : State) (c : Comm) (k axis : Nat) : Nat := (k + s.index) % c.size axis

/-- The own rack's rank on an axis. -/
def State.rankOn (s : State) (c : Comm) (axis : Nat) : Nat := coordOn s.relCoord axis - c.org axis

/-- Whether this module hosts run k's line on a torus stage. The rack stage has a segment at every module. -/
def State.isHost (s : State) (c : Comm) (k st : Nat) : Bool := decide (st = 0) || decide (s.rankOn c st = s.hostCoord c k st)

/-- The RACK of the rack of the own line at a rank: 0xFF for the own rack. -/
def State.lineRack (s : State) (c : Comm) (st rank : Nat) : Nat :=
  let b := s.bay
  match withCoord s.relCoord st (c.org st + rank) with
  | (x, y, z) => if rank = s.rankOn c st then 0xFF else x + b.sx.toNat * (y + b.sy.toNat * z)

/-- The racks of the own line. -/
def State.line (s : State) (c : Comm) (st : Nat) : List Nat := (List.range (c.size st)).map (s.lineRack c st)

/-! ### Frames (R234 to R236, R372) -/

/-- A collective frame handed to Purlin (R78): to the module's own node inside the module. -/
def State.trsSend (s : State) (f : Frame) : State :=
  let a := fromAgent agTruss
  if fpaRack f.hdr.fpa = 0xFF ∧ fpaNode f.hdr.fpa = s.node then s.link f (agentQueue (localAgent f.hdr 0) 1) a
  else match s.dest f.hdr with
    | .port n => s.toPort n f a
    | .agent g => s.link f (agentQueue g 1) a
    | _ => s.drop f.hdr

/-- AUX of a RESULT or RELAY frame. -/
def trsAux (bundle : W32) (seg counter : Nat) : W64 := packW 64 [(0, bundle.toNat), (32, seg), (48, counter % 4096)]

/-- A collective frame of the sequencer; its tag is free (log entry 5). -/
def State.trsFrame (s : State) (op : Byte) (attr : Nat) (fpa aux : W64) (data : List (Shingle × Bool)) : Frame :=
  { hdr := { opcode := op, course := 1, sub := 0, len := BitVec.ofNat 4 data.length,
             poison := packW 8 (data.zipIdx.map fun q => (q.2, q.1.2.toNat)), attr := BitVec.ofNat 8 attr, fpa := fpa,
             srcNode := BitVec.ofNat 8 s.node, srcRack := s.sec.rack, srcEngine := 0xFD, tag := BitVec.ofNat 16 s.freeNat,
             bayTag := s.sec.tag, status := 0, aux := aux, rsvd := 0 }
    data := data.map Prod.fst }

/-- A SIGNAL of a KIND sent to a node. -/
def State.trsSignal (s : State) (kind rack node off : Nat) (aux : W64) : State :=
  s.trsSend (s.trsFrame opSignal (16 * kind) (fpaOf rack node off) aux [])

/-- A chunk's output sent to one destination, frame r at `off r`, SIG on its last frame where the chunk is the last (R240). -/
def State.sendOutput (s : State) (kind fmt rack node : Nat) (off : Nat → Nat) (aux : W64) (data : List (Shingle × Bool)) (last : Bool) : State :=
  let runs := eights (data.length / 8 + 1) data
  runs.zipIdx.foldl (fun s r =>
    let sig := last && decide (r.2 + 1 = runs.length)
    s.trsSend (s.trsFrame opSeg (fmt + 16 * kind + 128 * sig.toNat) (fpaOf rack node (off r.2)) aux r.1)) s

/-! ### Runs (R243 to R245) -/

def State.setTrs (s : State) (f : Trs → Trs) : State := { s with trs := f s.trs }

def Trs.findRun (t : Trs) (bundle : W32) (k : Nat) : Option Run := t.runs.find? fun r => decide (r.bundle = bundle ∧ r.k = k)
def Trs.runAt (t : Trs) (ctx : Nat) : Option Run := t.runs.find? fun r => decide (r.ctx = ctx)
def Trs.instOf (t : Trs) (r : Run) : Option Instance := t.insts.find? fun i => decide (i.bundle = r.bundle)

/-- A run replaced. -/
def Trs.setRun (t : Trs) (r : Run) : Trs := { t with runs := t.runs.map fun q => if q.ctx = r.ctx then r else q }

/-- The program of a run. -/
def Trs.runWords (t : Trs) (r : Run) : List W64 := t.words (t.dir (t.comm r.comm).progNo)

/-- E of run k of an instance. -/
def Instance.elems (i : Instance) (k : Nat) : Nat := 256 * (if k + 1 = i.k then i.lastEunits else i.eunits)

/-- The first element g of the part of run k that module p reduces. -/
def Instance.part (i : Instance) (k p : Nat) : Nat :=
  if k + 1 = i.k then 16 * (256 * i.eunits) * (i.k - 1) + p * i.elems k else (16 * k + p) * (256 * i.eunits)

/-- A run has ended (R243). -/
def Run.ended (r : Run) (words : Nat) : Bool :=
  decide (words ≤ r.pc) && decide (r.sends = []) && r.admitted.all fun st => decide (st ∈ r.released)

/-- The sequencer forgets a run, and its instance with the last one (R243, R246). -/
def Trs.endRun (t : Trs) (r : Run) : Trs :=
  let t := { t with
    runs := t.runs.filter fun q => decide (q.ctx ≠ r.ctx)
    readied := t.readied.filter fun q => !(decide (q.1 = r.bundle) && decide (q.2.toNat / 4 = r.k))
    relays := t.relays.filter fun f => !(decide (fld f.hdr.aux 0 32 = r.bundle.toNat) && decide (fld f.hdr.aux 34 14 = r.k)) }
  match t.instOf r with
  | none => t
  | some i =>
    if i.ended + 1 = i.k then
      { t with insts := t.insts.filter fun j => decide (j.bundle ≠ i.bundle)
               comms := Tab.upd Comm.reset t.comms i.comm fun c =>
                 { c with outstanding := c.outstanding - 1, doneSeq := BitVec.ofNat 20 (bundleSeq i.bundle) } }
    else { t with insts := t.insts.map fun j => if j.bundle = i.bundle then { j with ended := j.ended + 1 } else j }

/-- A run stored, and ended where nothing of it is left. -/
def State.putRun (s : State) (r : Run) : State :=
  s.setTrs fun t => if r.ended (t.runWords r).length then t.endRun r else t.setRun r

/-- A run past its current instruction. -/
def State.nextIns (s : State) (r : Run) : State := s.putRun { r with pc := r.pc + 1, since := s.tim.fifths }

/-! ### Output (R240, R244, R245) -/

/-- Where frame `n` of a chunk of format `fmt` lies in an area laid out by format `place` (R245): at the place of its first element. The scale
shingle of an MX FP4 group, frame 2, holds no element: it follows the group's element shingles, so that it stays within its own part (DESIGN
CHOICE, log entry 118). -/
def landOff (place fmt first n : Nat) : Nat :=
  if place = fmt then gabPos fmt first + 256 * n
  else if fmt = fmtMx ∧ n = 2 then gabPos place (first + 512) + 256
  else gabPos place (first + n * (2048 / gabWidth fmt))

/-- The output of a chunk sent where the segment's REDUCE directs it: 0 FAN, 1 CARRIER, 2 LINE. -/
def State.emitChunk (s : State) (r : Run) (d : Dest) (h : Handed) : State :=
  match s.trs.instOf r with
  | none => s
  | some i =>
    let c := s.trs.comm r.comm
    let segs := segmentsOf (s.trs.runWords r)
    let fmt := ((fmtsOf segs h.stage).getD (0, 0)).2
    let place := if d.dest = 1 then fmt else (finalFmt segs).getD fmt
    let base := c.area (decide (d.dest ≠ 1)) (bundleSeq r.bundle)
    let first := i.part r.k s.index + h.off
    let off := fun n => base + landOff place fmt first n
    let aux := trsAux r.bundle (4 * r.k + h.stage) d.counter.toNat
    let dests := if d.dest = 0 then c.members.map fun m => (0xFF, m)
              else if d.dest = 1 then [(0xFF, s.carrier c r.k)]
              else (s.line c h.stage).map fun k => (k, s.node)
    dests.foldl (fun s q => (s.sendOutput (if d.dest = 2 then 3 else 2) fmt q.1 q.2 off aux h.data h.last).spend 1) s

/-- Gable releases a slot: zeroed next in order of release (R224). -/
def Gab.release (g : Gab) (n : Nat) : Gab :=
  { g with slots := Tab.put Slot.reset g.slots n { Slot.reset with state := .zeroizing }, released := g.released ++ [n] }

/-- The slot that holds a segment. -/
def Gab.slotOf (g : Gab) (bundle : W32) (seg : Nat) : Option Nat :=
  (g.slots.find? fun p => decide (p.2.state = .active ∨ p.2.state = .stalled ∨ p.2.state = .draining) &&
    decide (p.2.bundle = bundle ∧ p.2.segment.toNat = seg)).map Prod.fst

/-- A chunk emitted; with the last one its segment is released (R244). -/
def State.emitRelease (s : State) (r : Run) (d : Dest) (h : Handed) : State :=
  let s := s.emitChunk r d h
  if h.last then
    let s := match s.gab.slotOf r.bundle (4 * r.k + h.stage) with
      | some n => { s with gab := s.gab.release n }
      | none => s
    match s.trs.findRun r.bundle r.k with
    | some q => s.putRun { q with released := q.released ++ [h.stage] }
    | none => s
  else s

/-- A chunk that Gable hands over: sent under its segment's REDUCE, or kept until one takes effect. -/
def State.takeChunk (s : State) (bundle : W32) (seg : Nat) (h : Handed) : State :=
  match s.trs.findRun bundle (seg / 4) with
  | none => s
  | some r =>
    match r.dests.find? fun d => decide (d.stage = h.stage) with
    | some d => s.emitRelease r d h
    | none => s.putRun { r with handed := r.handed ++ [h] }

/-- A RELAY frame sent on (R240, R371): as RESULT to every member of the own rack, and as RELAY to the other racks of the own
line on the next lower torus stage. -/
def State.relayOn (s : State) (c : Comm) (segs : List (Nat × Nat × Nat)) (f : Frame) : State :=
  let h := f.hdr
  let st := fld h.aux 32 2
  let data := f.data.zipIdx.map fun q => (q.1, poisoned h q.2)
  let attr := fun kind => fld h.attr 0 4 + 16 * kind + 128 * fld h.attr 7 1
  let s := c.members.foldl (fun s m =>
    (s.trsSend (s.trsFrame h.opcode (attr 2) (fpaOf 0xFF m (fpaOffset h.fpa)) h.aux data)).spend 1) s
  match (if 1 < st then lowerTorus segs st else none) with
  | none => s
  | some low =>
    ((s.line c low).filter fun k => decide (k ≠ 0xFF)).foldl (fun s k =>
      (s.trsSend (s.trsFrame h.opcode (attr 3) (fpaOf k s.node (fpaOffset h.fpa)) (setFld h.aux 32 2 low) data)).spend 1) s

/-- A RELAY SIGNAL, whose SEND may have closed with the frame before it (R371). -/
def State.relaySignal (s : State) (f : Frame) : State :=
  match s.trs.commOf (fld f.hdr.aux 20 12) with
  | some n =>
    let c := s.trs.comm n
    s.relayOn c (segmentsOf (s.trs.words (s.trs.dir c.progNo))) f
  | none => s

/-- A SEND's bytes taken off; it closes with the last of them. -/
def Run.took (r : Run) (st : Nat) (relay : Bool) (bytes : Nat) : Run :=
  match r.sends.find? fun o => decide (o.stage = st ∧ o.relay = relay) with
  | none => r
  | some o =>
    if o.left ≤ bytes then
      { r with sends := r.sends.filter (fun q => decide (q ≠ o)), closed := r.closed ++ [(st, relay)] }
    else { r with sends := r.sends.map fun q => if q = o then { o with left := o.left - bytes } else q }

/-- A RELAY frame taken by the run's open SEND RELAY. -/
def State.takeRelay (s : State) (r : Run) (f : Frame) : State :=
  let s := s.relayOn (s.trs.comm r.comm) (segmentsOf (s.trs.runWords r)) f
  match s.trs.findRun r.bundle r.k with
  | some q => s.putRun (q.took (fld f.hdr.aux 32 2) true (32 * f.data.length))
  | none => s

end Sys2Proof.Machine
end

