-- ==== Sys2Proof/Machine/Gable.lean ====
section
/-! DEFINITION. Gable's slots (R212, R213, R220 to R227): the intake of a CONTRIB frame, the tree, the handing over of chunks,
stalls, and the return of a slot. -/

namespace Sys2Proof.Machine

open Sys2Proof

def Gab.slot (g : Gab) (n : Nat) : Slot := Tab.get Slot.reset g.slots n

def State.setSlot (s : State) (n : Nat) (x : Slot) : State := { s with gab := { s.gab with slots := Tab.put Slot.reset s.gab.slots n x } }

/-! ### What a slot has received -/

def Slot.i (x : Slot) : Nat := x.ifmt.toNat
def Slot.o (x : Slot) : Nat := x.ofmt.toNat

/-- Elements, input bytes and chunks of a segment. -/
def Slot.elems (x : Slot) : Nat := 256 * x.eunits
def Slot.inBytes (x : Slot) : Nat := gabBytes x.i x.elems
def Slot.chunks (x : Slot) : Nat := x.elems / chunkElems x.i

/-- An input shingle of a rank. -/
def Slot.shingle (x : Slot) (rank i : Nat) : Option (BitVec 256 × Bool) := Tab.get none x.got (rank * 16384 + i)

/-- A rank's chunk is complete (R221). -/
def Slot.rankDone (x : Slot) (c rank : Nat) : Bool :=
  let k := chunkShingles x.i
  (List.range k).all fun i => (x.shingle rank (c * k + i)).isSome

/-- A node's value for a chunk can be computed: every rank under it is complete (R213). -/
def Slot.nodeDone (x : Slot) (c lo hi : Nat) : Bool := (upFrom lo (hi - lo)).all (x.rankDone c)

/-- The rank at which a node splits: the largest power of two below its width (R212). -/
def treeSplit (lo hi : Nat) : Nat := lo + 2 ^ Nat.log2 (hi - lo - 1)

/-- Whether (lo, hi) is a node with children of the tree over a range. -/
def isNode (lo hi : Nat) : Nat → Nat → Nat → Bool
  | 0, _, _ => false
  | n + 1, a, b =>
    if b - a < 2 ∨ lo < a ∨ b < hi then false
    else if lo = a ∧ hi = b then true
    else
      let m := treeSplit a b
      isNode lo hi n a m || isNode lo hi n m b

/-- A rank's chunk as accumulators. -/
def Slot.leaf (x : Slot) (c rank : Nat) : ChunkVal :=
  let k := chunkShingles x.i
  leafChunk x.i ((List.range k).map fun i => match x.shingle rank (c * k + i) with
    | some (w, false) => some w
    | _ => none)

/-- The value of node (lo, hi) for a chunk (R212, R213). -/
def Slot.value (x : Slot) (c : Nat) : Nat → Nat → Nat → ChunkVal
  | 0, lo, _ => x.leaf c lo
  | n + 1, lo, hi =>
    if hi - lo < 2 then x.leaf c lo
    else (x.value c n lo (treeSplit lo hi)).add (x.value c n (treeSplit lo hi) hi)

/-- The root's value. -/
def Slot.root (x : Slot) (c : Nat) : ChunkVal := x.value c 9 0 x.leaves

/-! ### Events -/

/-- A Gable event: the slot and the chunk (R289). -/
def gabEvent (src slot chunk : Nat) (h : Option Header) : Event :=
  let e := { eventOf src with addr := packW 64 [(0, slot % 256), (8, chunk % 1024)], access := 7 }
  match h with
  | some h => { e with node := h.srcNode, engine := h.srcEngine }
  | none => e

/-! ### Handing over (R224) -/

/-- The input shingles of a chunk, by rank. -/
def Slot.inputs (x : Slot) (c : Nat) : List (Option (BitVec 256 × Bool)) :=
  let k := chunkShingles x.i
  (List.range x.leaves).flatMap fun r => (List.range k).map fun i => x.shingle r (c * k + i)

/-- The next chunk of a slot handed over, where its root is complete. The bits of its poisoned elements are free, but equal wherever the formats
and the inputs are (R252; log entry 96). -/
def State.handOne (s : State) (n : Nat) : Option State :=
  let x := s.gab.slot n
  if (x.state = .active ∨ x.state = .stalled) ∧ x.next < x.chunks ∧ x.nodeDone x.next 0 x.leaves then
    let r := outChunk x.i x.o (Config.poisonBits x.i x.o (x.inputs x.next)) (x.root x.next)
    let bad := (r.1.filter Prod.snd).length
    let last := decide (x.next + 1 = x.chunks)
    let s := s.setSlot n { x with next := x.next + 1, state := if last then .draining else x.state }
    let s : State := { s with gab := { s.gab with err := satFld (satFld s.gab.err 32 16 bad) 48 16 r.2 } }
    let s := s.count { gabEvent 1 n x.next none with count := bad }
    some (s.takeChunk x.bundle x.segment.toNat
      { stage := x.segment.toNat % 4, off := x.next * chunkElems x.i, data := r.1.map fun p => (encodeShingle p.1, p.2),
        last := last })
  else none

/-- Chunks handed over in ascending order, as far as roots are complete. -/
def State.handOver (s : State) (n : Nat) : Nat → State
  | 0 => s
  | k + 1 => match s.handOne n with
    | some t => t.handOver n k
    | none => s

/-! ### Intake (R221, R222) -/

/-- The reason code of a refusal; 0 where the frame is taken. -/
def gabReason (slot : Option Slot) (f : Frame) (rank off : Nat) : Nat :=
  match slot with
  | none => 1
  | some x =>
    let last := off + 32 * f.data.length
    if fld f.hdr.attr 0 4 ≠ x.i then 2
    else if x.leaves ≤ rank then 3
    else if off % 32 ≠ 0 ∨ fld f.hdr.fpa 18 30 ≠ 0 ∨ off / chunkBytes x.i ≠ (last - 1) / chunkBytes x.i ∨ x.inBytes < last then 4
    else if (upFrom (off / 32) f.data.length).any fun i => (x.shingle rank i).isSome then 5
    else 0

/-- GAB_REFUSE_FIRST. -/
def refuseWord (slot rank reason off beat : Nat) : W64 :=
  packW 64 [(0, slot), (8, rank), (16, reason), (20, off), (38, beat % 2 ^ 25), (63, 1)]

/-- A frame refused (R221): counted, captured, and reported to the sequencer as R120 requires. -/
def State.gabRefuse (s : State) (slot : Option Nat) (h : Header) (rank off reason chunk : Nat) : State :=
  let n := slot.getD 0xFF
  let g := s.gab
  let s : State := { s with gab := { g with
    err := satFld g.err 0 16 1
    refuseFirst := if bitAt g.refuseFirst 63 then g.refuseFirst else refuseWord n rank reason off s.beat } }
  (s.count (gabEvent 14 n chunk (some h))).trsReport h 8

/-- The time at which a chunk is whole noted for its rank, where it is. -/
def Slot.note (x : Slot) (c rank now : Nat) : Slot :=
  if x.rankDone c rank then { x with doneAt := Tab.put 0 x.doneAt (rank * 1024 + c) now } else x

/-- The frame's shingles decoded in correcting mode and stored at a time. -/
def Slot.store (x : Slot) (f : Frame) (rank off now : Nat) : Slot :=
  { x with got := f.data.zipIdx.foldl (fun t p =>
      let v : BitVec 256 × Bool := if poisoned f.hdr p.2 then (0, true) else match (decodeShingle p.1).data with
        | some w => (w, false)
        | none => (0, true)
      Tab.put none t (rank * 16384 + off / 32 + p.2) (some v)) x.got : Slot }.note (off / chunkBytes x.i) rank now

/-- Shingles of a frame that correcting mode corrects. -/
def correctedIn (f : Frame) : Nat :=
  (f.data.zipIdx.filter fun p => !poisoned f.hdr p.2 && (decodeShingle p.1).wasCorrected).length

/-- The stalled nodes whose missing input has arrived are released; without any the slot is ACTIVE again (R223). -/
def Slot.unstall (x : Slot) : Slot :=
  let l := x.stalls.filter fun t => !x.nodeDone t.chunk t.lo t.hi
  { x with stalls := l, state := if x.state = .stalled ∧ l = [] then .active else x.state }

/-- A CONTRIB frame taken in. -/
def State.gabTake (s : State) (f : Frame) : State :=
  let h := f.hdr
  let rank := fld h.aux 48 8
  let off := fld h.fpa 0 18
  let slot := s.gab.slotOf (BitVec.ofNat 32 (fld h.aux 0 32)) (fld h.aux 32 16)
  let x := slot.map s.gab.slot
  let chunk := off / chunkBytes ((x.map Slot.i).getD 0)
  match gabReason x f rank off, slot with
  | 0, some n =>
    let x := ((s.gab.slot n).store f rank off s.tim.fifths).unstall
    let s := s.setSlot n x
    let s : State := { s with gab := { s.gab with work := s.gab.work + BitVec.ofNat 64 f.data.length } }
    (s.count { gabEvent 0 n chunk (some h) with count := correctedIn f }).handOver n x.chunks
  | r, _ => s.gabRefuse slot h rank off r chunk

/-- CONTRIB (R221, R222, R224): the frame at the head of Gable's queue; during a teardown it is discarded (R226). -/
def execContrib (s : State) : Host.Outcome State Fault Refusal :=
  .next (match s.dequeue (agentQueue agGable 1) with
  | none => s
  | some (e, s) => if s.inTeardown then s else s.gabTake e.frame)

/-! ### Stalls (R223) -/

/-- GAB_STALL_FIRST. -/
def stallWord (slot chunk lo hi beat : Nat) : W64 :=
  packW 64 [(0, slot), (8, chunk), (18, lo), (26, hi), (34, beat % 2 ^ 29), (63, 1)]

/-- One child of a node has its value for a chunk, and the other has not. -/
def Slot.oneChild (x : Slot) (c lo hi : Nat) : Bool :=
  x.nodeDone c lo (treeSplit lo hi) != x.nodeDone c (treeSplit lo hi) hi

/-- A node stalls its tree. -/
def State.stallNode (s : State) (n : Nat) (t : Stall) : State :=
  let x := s.gab.slot n
  if x.state = .stalled then
    (if t ∈ x.stalls then s else s.setSlot n { x with stalls := x.stalls ++ [t] })
  else
    let s := s.setSlot n { x with state := .stalled, stalls := [t], stallAt := s.tim.fifths }
    let g := s.gab
    let s : State := { s with gab := { g with
      err := satFld g.err 16 16 1
      stallFirst := if bitAt g.stallFirst 63 then g.stallFirst else stallWord n t.chunk t.lo t.hi s.beat } }
    s.count (gabEvent 10 n t.chunk none)

/-- GAB_SKEW_CFG.LIMIT in ns; values below 1,024 act as 1,024 (R227). -/
def Gab.skewNs (g : Gab) : Nat := max 1024 (fld g.skewCfg 0 16)

/-- When a range of ranks completed a chunk: with its last rank. -/
def Slot.doneTime (x : Slot) (c lo hi : Nat) : Nat := (upFrom lo (hi - lo)).foldl (fun a r => max a (Tab.get 0 x.doneAt (r * 1024 + c))) 0

/-- When the first child of a node completed a chunk, which started the node's timer (R223). -/
def Slot.firstDone (x : Slot) (c lo hi : Nat) : Nat :=
  let m := treeSplit lo hi
  if x.nodeDone c lo m then x.doneTime c lo m else x.doneTime c m hi

/-- STALLED (R223): LIMIT ns have passed since the first child of a node completed a chunk, and the second has not. -/
def execStalled (slot : Byte) (chunk : BitVec 10) (lo hi : Byte) (s : State) : Host.Outcome State Fault Refusal :=
  let x := s.gab.slot slot.toNat
  .next (if (x.state = .active ∨ x.state = .stalled) ∧ isNode lo.toNat hi.toNat 9 0 x.leaves ∧ chunk.toNat < x.chunks ∧
      x.oneChild chunk.toNat lo.toNat hi.toNat then
    (s.toTime (x.firstDone chunk.toNat lo.toNat hi.toNat + 5 * s.gab.skewNs)).stallNode slot.toNat { chunk := chunk.toNat, lo := lo.toNat, hi := hi.toNat }
  else s)

/-- GAB_SKEW_CFG.ABANDON; 0 acts as 0x4000 (R227). -/
def Gab.abandonBeats (g : Gab) : Nat := if fld g.skewCfg 16 16 = 0 then 0x4000 else fld g.skewCfg 16 16

/-- GABLE_ABANDON (R223): at a beat by which a slot has stayed STALLED for ABANDON beats. -/
def execGableAbandon (slot : Byte) (beat : W64) (s : State) : Host.Outcome State Fault Refusal :=
  let s := s.toBeat beat.toNat
  let x := s.gab.slot slot.toNat
  .next (if x.state = .stalled ∧ x.stallAt + 5120 * s.gab.abandonBeats ≤ s.beat * 5120 then
    s.fatal 10 .nothing (gabEvent 10 slot.toNat ((x.stalls.head?.map fun t => t.chunk).getD 0) none)
  else s)

/-! ### Release (R224) -/

/-- SLOT_FREE (R224): the slot released first has been written to zero. -/
def execSlotFree (s : State) : Host.Outcome State Fault Refusal :=
  .next (match s.gab.released with
  | [] => s
  | n :: l => ({ s with gab := { s.gab with released := l } }).setSlot n Slot.reset)

end Sys2Proof.Machine
end

