-- ==== Sys2Proof/Machine/Truss.lean ====
section
/-! DEFINITION. The truss sequencer's commands (R231 to R250): programs checked, communicators registered, instances and runs
started, the six instructions, and the collective frames that reach the sequencer. -/

namespace Sys2Proof.Machine

open Sys2Proof

/-! ### The program check (R241) -/

/-- The bits that an operation may set (R239). -/
def insMask (op : Nat) : W64 :=
  match op with
  | 1 => 0xF0F
  | 2 => 0x3FF
  | 3 => 0xFFFF
  | 4 => 0x1CF
  | 5 => 0x7FFFFF
  | 6 => 0x7FFFCF
  | _ => 0

/-- Code 2: a reserved OP, a reserved bit or a bit that the operation does not use. -/
def insReserved (w : W64) : Bool :=
  let op := insOp w
  decide (op = 0 ∨ 6 < op) || decide (w &&& ~~~ insMask op ≠ 0) || (decide (op = 1) && decide (10 < insIfmt w)) ||
    (decide (op = 2) && decide ((if insMode w = 1 then insStage w else insHandle w) ≠ 0)) ||
    ((decide (op = 5) || decide (op = 6)) && decide (insMode w = 3)) || (decide (op = 6) && decide (insMode w ≠ 2 ∧ insStage w ≠ 0))

/-- Code 5 for one SEGMENT: a torus stage whose input format is not the output format of the stage below it. -/
def segMismatch (segs : List (Nat × Nat × Nat)) (g : Nat × Nat × Nat) : Bool :=
  match (([2, 1, 0].filter fun t => decide (t < g.1)).filterMap fun t => fmtsOf segs t).head? with
  | some low => decide (g.1 ≠ 0 ∧ g.2.1 ≠ low.2)
  | none => false

/-- A REDUCE or WAIT REDUCED that names a handle with no earlier SEGMENT. -/
def handleMissing : List Nat → List W64 → Bool
  | _, [] => false
  | hs, w :: l =>
    if insOp w = 3 then handleMissing (insHandle w :: hs) l
    else ((decide (insOp w = 5) || (decide (insOp w = 2) && decide (insMode w = 1))) && !decide (insHandle w ∈ hs)) || handleMissing hs l

/-- A stage named by more than one SEGMENT. -/
def stageTwice (segs : List (Nat × Nat × Nat)) : Bool :=
  segs.any fun g => decide (1 < (segs.filter fun h => decide (h.1 = g.1)).length)

/-- REFUSE_CODE of a program with its header, at a first word; 0 where it passes. -/
def progCode (first : Nat) (head : W64) (l : List W64) : Nat :=
  let rev := fld head 0 4
  let len := fld head 16 10
  let segs := segmentsOf l
  if (rev ≠ 1 ∧ rev ≠ 2) ∨ len = 0 ∨ 8192 < first + 1 + len then 1
  else if head &&& ~~~ (0x3FF000F : W64) ≠ 0 ∨ l.any insReserved then 2
  else if l.any fun w => decide (rev = 1 ∧ 1 < insStage w) then 3
  else if segs.any fun g => !pairOk g.2.1 g.2.2 then 4
  else if segs.any (segMismatch segs) then 5
  else if handleMissing [] l ∨ stageTwice segs then 6
  else 0

/-- A directory entry's program checked, and measured where it passes (R241, R242). -/
def Trs.checkProg (t : Trs) (n : Nat) (d : ProgDir) : Trs :=
  let head := t.word d.first.toNat
  let d := { d with length := BitVec.ofNat 10 (fld head 16 10), rev := BitVec.ofNat 4 (fld head 0 4) }
  let l := t.words d
  let c := progCode d.first.toNat head l
  let d := { d with valid := decide (c = 0), refused := decide (c ≠ 0), code := BitVec.ofNat 3 c }
  { t with
    dirs := Tab.put ProgDir.reset t.dirs n d
    meas := if c = 0 then Tab.put 0 t.meas n (digestOf ((head :: l).flatMap fun w => bytesOf w 8)) else t.meas }

/-- A configuration error counted (R285), of the request that made it where there is one (R289). -/
def State.configError (s : State) : State :=
  s.count (match s.sof.request with
    | some h => requestEvent 15 h
    | none => eventOf 15)

/-- TRS_PROG_DIR_n written (R241, R242): while LOCK is 1 the write is ignored and counted. -/
def State.writeProgDir (s : State) (n : Nat) (value : W64) : State :=
  if s.trs.lock then s.configError
  else
    let d := { s.trs.dir n with first := BitVec.ofNat 13 (fld value 8 13), valid := false }
    if bitAt value 0 then s.setTrs fun t => t.checkProg n d
    else s.setTrs fun t => { t with dirs := Tab.put ProgDir.reset t.dirs n d }

/-- TRS_PROG_WORD_i written (R242). -/
def State.writeProgWord (s : State) (i : Nat) (value : W64) : State :=
  if s.trs.lock then s.configError else s.setTrs fun t => { t with prog := Tab.put 0 t.prog i value }

/-- TRS_PROG_DIR_VALID (R241). -/
def execTrsProgDirValid (who : Requester) (n : BitVec 4) (value : W64) (s : State) : Host.Outcome State Fault Refusal :=
  .next (if s.reaches who then s.inAccess who .module (0x600100 + 8 * n.toNat) fun s => s.writeProgDir n.toNat value else s)

/-! ### Registration (R231) -/

/-- The cases of R231 in which VALID is refused. -/
def State.commBad (s : State) (n : Nat) (c : Comm) : Bool :=
  let d := s.trs.dir c.progNo
  let segs := segmentsOf (s.trs.words d)
  let b := s.bay
  let within := fun axis room => decide (1 ≤ c.size axis ∧ c.org axis + c.size axis ≤ room)
  !(within 1 b.sx.toNat && within 2 b.sy.toNat && within 3 b.sz.toNat) || !d.valid ||
    decide (c.members = []) || (c.members.any fun m => decide ((s.mport m).train.role = .unused)) ||
    ([1, 2, 3].any fun axis => decide (c.size axis ≠ 1) != (fmtsOf segs axis).isSome) ||
    (List.range 64).any fun i => decide (i ≠ n) && (s.trs.comm i).valid && decide ((s.trs.comm i).tag = c.tag)

/-- Fields of TRS_COMM_CTL that a write sets. -/
def commCtlMask : W64 := 0x00FFFFFFFFFF7FFF

/-- TRS_COMM_CTL_n written (R231). -/
def State.writeCommCtl (s : State) (n : Nat) (value : W64) : State :=
  let c := s.trs.comm n
  let put := fun (s : State) (c : Comm) => s.setTrs fun t => { t with comms := Tab.put Comm.reset t.comms n c }
  if !s.admitted then s
  else if c.valid ∧ !bitAt value 0 ∧ c.outstanding ≠ 0 then s.configError
  else
    let c := { c with ctl := accessWrite commCtlMask 0 c.ctl value }
    if !bitAt value 0 then put s c
    else if s.commBad n c then (put s { c with ctl := setBit (setBit c.ctl 0 false) 15 true }).configError
    else put s { c with ctl := setBit c.ctl 15 false }

/-- TRS_COMM_CTL_VALID (R231): written in band only (R341). -/
def execTrsCommCtlValid (who : Requester) (n : BitVec 6) (value : W64) (s : State) : Host.Outcome State Fault Refusal :=
  .next (if (who = .inBand ∨ who = .thatch) ∧ s.reaches who then
    s.inAccess who .module (0x620000 + 0x40 * n.toNat) fun s => s.writeCommCtl n.toNat value else s)

/-! ### START (R233) -/

/-- The code of the first check that a START fails; `none` where it passes. -/
def State.startCode (s : State) (h : Header) : Option Nat :=
  let b : W32 := BitVec.ofNat 32 (fld h.aux 0 32)
  match s.trs.commOf (bundleTag b) with
  | none => some 1
  | some n =>
    let c := s.trs.comm n
    let segs := segmentsOf (s.trs.words (s.trs.dir c.progNo))
    let k := fld h.aux 32 16
    let sizes := [fld h.aux 48 8, fld h.aux 56 8]
    if !s.ownRack h.srcRack.toNat ∨ c.members.head? ≠ some h.srcNode.toNat then some 2
    else if bundleSeq b ≠ (c.lastSeq.toNat + 1) % 2 ^ 20 then some 5
    else if c.depth ≤ c.outstanding.toNat then some 4
    else if k = 0 ∨ 16384 < k ∨ sizes.any (fun e => decide (e = 0 ∨ 128 < e)) ∨
        segs.any (fun g => sizes.any fun e => !gabFits (c.leaves g.1) g.2.1 (256 * e)) then some 3
    else none

/-- A START refused: counted, captured, and its sender signalled (R233, R372). -/
def State.refuseStart (s : State) (h : Header) (code : Nat) : State :=
  let s := s.trsReport h code
  let b : W32 := BitVec.ofNat 32 (fld h.aux 0 32)
  let to' := match s.trs.commOf (bundleTag b) with
    | some n =>
      let c := s.trs.comm n
      (c.ctrBase + c.errCtr, c.area true (bundleSeq b))
    | none => (4095, 0)
  (s.trsSignal 2 0xFF h.srcNode.toNat to'.2 (trsAux b 0 to'.1)).spend 1

/-- An instance begins. -/
def Trs.beginInst (t : Trs) (n : Nat) (h : Header) : Trs :=
  let b : W32 := BitVec.ofNat 32 (fld h.aux 0 32)
  { t with
    comms := Tab.upd Comm.reset t.comms n fun c => { c with lastSeq := BitVec.ofNat 20 (bundleSeq b), outstanding := c.outstanding + 1 }
    insts := t.insts ++ [{ bundle := b, comm := n, k := fld h.aux 32 16, eunits := fld h.aux 48 8, lastEunits := fld h.aux 56 8,
                           nextRun := 0, ended := 0 }] }

/-- The frame at the head of the sequencer's queue, where it is of the given opcodes and KIND; during a teardown it is discarded
(R250). -/
def State.trsTake (s : State) (ops : List Byte) (kind : Nat) : Option (Frame × State) :=
  match (s.queue (agentQueue agTruss 1)).items with
  | [] => none
  | e :: _ =>
    if e.frame.hdr.opcode ∈ ops ∧ kindOf e.frame.hdr = kind then (s.dequeue (agentQueue agTruss 1)).map fun p => (p.1.frame, p.2)
    else none

/-- START (R233): the START at the head of the sequencer's queue. -/
def execStart (s : State) : Host.Outcome State Fault Refusal :=
  .next (match s.trsTake [opSignal] 4 with
  | none => s
  | some (f, s) =>
    if s.inTeardown then s
    else match s.startCode f.hdr, s.trs.commOf (fld f.hdr.aux 20 12) with
      | none, some n => s.setTrs fun t => t.beginInst n f.hdr
      | some c, _ => s.refuseStart f.hdr c
      | none, none => s)

/-! ### Runs start (R243, R246) -/

/-- The key of R246, as one number that orders as the tuple does. -/
def Trs.key (t : Trs) (i : Instance) (seg : Nat) : Nat :=
  let c := t.comm i.comm
  (((7 - c.priority) * 2 ^ 12 + c.tag) * 2 ^ 20 + (bundleSeq i.bundle + 2 ^ 20 - c.doneSeq.toNat) % 2 ^ 20) * 2 ^ 16 + seg

/-- An instance whose next run may start but for its context. -/
def Trs.mayStart (t : Trs) (i : Instance) : Bool :=
  decide (i.nextRun < i.k ∧ i.nextRun < i.ended + (t.comm i.comm).runDepth)

def Trs.ctxFree (t : Trs) (ctx : Nat) : Bool := t.runs.all fun r => decide (r.ctx ≠ ctx)

/-- The element with the least key. -/
def leastBy {α : Type} (key : α → Nat) : List α → Option α
  | [] => none
  | x :: l => match leastBy key l with
    | some y => if key y < key x then some y else some x
    | none => some x

/-- The run of a communicator that starts next. -/
def Trs.nextStart (t : Trs) (n : Nat) : Option Instance :=
  leastBy (fun i => t.key i (4 * i.nextRun)) (t.insts.filter fun i => decide (i.comm = n) && t.mayStart i)

/-- A context for the next run of a communicator: its reserved one, or a shared one where no other communicator's waiting run
has a lesser key. Contexts 0 to 63 are the reserved ones (log entry 26). -/
def Trs.contextFor (t : Trs) (n : Nat) (i : Instance) : Option Nat :=
  if t.ctxFree n then some n
  else
    let others := (List.range 64).filterMap fun m => if m ≠ n ∧ !t.ctxFree m then t.nextStart m else none
    if others.all fun j => decide (t.key i (4 * i.nextRun) < t.key j (4 * j.nextRun)) then (upFrom 64 448).find? t.ctxFree else none

/-- RUN_START (R243, R246): the next run of a communicator takes a context. -/
def execRunStart (comm : BitVec 6) (beat : W64) (s : State) : Host.Outcome State Fault Refusal :=
  let s := s.toBeat beat.toNat
  .next (match s.trs.nextStart comm.toNat with
  | none => s
  | some i =>
    match s.trs.contextFor comm.toNat i with
    | none => s
    | some ctx =>
      let r : Run := { ctx := ctx, bundle := i.bundle, comm := comm.toNat, k := i.nextRun, pc := 0, since := s.tim.fifths,
                       handles := [none, none, none, none], waitSlot := none, admitted := [], released := [], sends := [], closed := [],
                       dests := [], handed := [] }
      s.setTrs fun t => { t with
        runs := t.runs ++ [r]
        insts := t.insts.map fun j => if j.bundle = i.bundle then { j with nextRun := j.nextRun + 1 } else j })

/-! ### Instructions (R240) -/

/-- The instruction that a run executes next, where it is of an operation and the run waits for no slot. -/
def State.atIns (s : State) (ctx : BitVec 9) (op : Nat) : Option (Run × W64) :=
  (s.trs.runAt ctx.toNat).bind fun r =>
    match r.waitSlot, (s.trs.runWords r)[r.pc]? with
    | none, some w => if insOp w = op then some (r, w) else none
    | _, _ => none

/-- STEP: at a beat boundary after the run came to it, whose number is a multiple of 2^ALIGN. -/
def execStepInstr (ctx : BitVec 9) (beat : W64) (s : State) : Host.Outcome State Fault Refusal :=
  let s := s.toBeat beat.toNat
  .next (match s.atIns ctx 1 with
  | none => s
  | some (r, w) =>
    if beat.toNat % 2 ^ insIfmt w = 0 ∧ r.since < beat.toNat * 5120 ∧ beat.toNat ≤ s.beat then s.nextIns r else s)

/-- A run holds a slot: a segment admitted and not released (R244). -/
def Run.holds (r : Run) : Bool := r.admitted.any fun st => decide (st ∉ r.released)

/-- SEGMENT: a slot is requested; at a module that is not the host of a torus stage it has no effect. A run holds at most one
slot, so the request waits for the release of an earlier one (R244; log entry 27). -/
def execSegment (ctx : BitVec 9) (s : State) : Host.Outcome State Fault Refusal :=
  .next (match s.atIns ctx 3 with
  | none => s
  | some (r, w) =>
    let st := insStage w
    if !s.isHost (s.trs.comm r.comm) r.k st then s.nextIns r
    else if r.holds then s
    else s.putRun { r with waitSlot := some st, handles := r.handles.set (insHandle w) (some st) })

/-- The counter that an instruction names (R239). -/
def State.insCounter (s : State) (c : Comm) (w : W64) : Nat := (c.ctrBase + fld w 10 12 + (if bitAt w 22 then s.index else 0)) % 4096

/-- SIGNAL TO MEMBERS, TO CARRIER, TO LINE. -/
def State.doSignal (s : State) (r : Run) (w : W64) : State :=
  let c := s.trs.comm r.comm
  let seq := bundleSeq r.bundle
  let aux := trsAux r.bundle (4 * r.k) (s.insCounter c w)
  match insMode w with
  | 0 => c.members.foldl (fun s m => (s.trsSignal 2 0xFF m (c.area true seq) aux).spend 1) s
  | 1 => (s.trsSignal 2 0xFF (s.carrier c r.k) (c.area false seq) aux).spend 1
  | _ =>
    if s.isHost c r.k (insStage w) then
      (s.line c (insStage w)).foldl (fun s k => (s.trsSignal 5 k s.node 0 (trsAux r.bundle (4 * r.k + insStage w) 0)).spend 1) s
    else s

/-- SIGNAL (R240, R372). -/
def execSignalInstruction (ctx : BitVec 9) (s : State) : Host.Outcome State Fault Refusal :=
  .next (match s.atIns ctx 6 with
  | none => s
  | some (r, w) => (s.doSignal r w).nextIns r)

/-- Chunks that were handed over before their REDUCE go out in order. -/
def State.flush (s : State) (bundle : W32) (k : Nat) (d : Dest) (l : List Handed) : State :=
  l.foldl (fun s h => match s.trs.findRun bundle k with
    | some r => s.emitRelease r d h
    | none => s) s

/-- REDUCE (R240): a torus stage's acts at the host only. -/
def execReduce (ctx : BitVec 9) (s : State) : Host.Outcome State Fault Refusal :=
  .next (match s.atIns ctx 5 with
  | none => s
  | some (r, w) =>
    let c := s.trs.comm r.comm
    match r.handles.getD (insHandle w) none with
    | none => s.nextIns r
    | some st =>
      if !s.isHost c r.k (insStage w) then s.nextIns r
      else
        let d : Dest := { stage := st, dest := insMode w, counter := BitVec.ofNat 12 (s.insCounter c w) }
        let out := r.handed.filter fun h => decide (h.stage = st)
        let r := { r with dests := d :: r.dests.filter (fun e => decide (e.stage ≠ st)),
                          handed := r.handed.filter fun h => decide (h.stage ≠ st), pc := r.pc + 1, since := s.tim.fifths }
        ((s.setTrs fun t => t.setRun r).flush r.bundle r.k d out |> fun s =>
          match s.trs.findRun r.bundle r.k with
          | some q => s.putRun q
          | none => s))

/-- Bytes that a SEND accepts (R240): 0 where no SEGMENT gives the format (log entry 32). -/
def State.sendBytes (s : State) (r : Run) (relay : Bool) (st : Nat) : Nat :=
  let segs := segmentsOf (s.trs.runWords r)
  let fmt := if relay then finalFmt segs else (fmtsOf segs st).map Prod.fst
  match fmt, s.trs.instOf r with
  | some f, some i => gabBytes f (i.elems r.k)
  | _, _ => 0

/-- Whether a RELAY frame that waits belongs to a run's stage. -/
def relayFor (r : Run) (st : Nat) (f : Frame) : Bool :=
  decide (fld f.hdr.aux 0 32 = r.bundle.toNat ∧ fld f.hdr.aux 32 16 = 4 * r.k + st)

/-- SEND (R240): FORWARD or RELAY opens; RELAY frames that have waited are taken at once. -/
def execSendInstruction (ctx : BitVec 9) (s : State) : Host.Outcome State Fault Refusal :=
  .next (match s.atIns ctx 4 with
  | none => s
  | some (r, w) =>
    let relay := decide (insMode w = 1)
    let st := insStage w
    let bytes := s.sendBytes r relay st
    let r := { r with pc := r.pc + 1, since := s.tim.fifths }
    if bytes = 0 then s.putRun { r with closed := r.closed ++ [(st, relay)] }
    else
      let s := s.putRun { r with sends := r.sends ++ [{ stage := st, relay := relay, left := bytes }] }
      if relay then
        let wait := s.trs.relays.filter (relayFor r st)
        let s := s.setTrs fun t => { t with relays := t.relays.filter fun f => !relayFor r st f }
        wait.foldl (fun s f => match s.trs.findRun r.bundle r.k with
          | some q => s.takeRelay q f
          | none => if f.hdr.opcode = opSignal then s.relaySignal f else s) s
      else s)

/-- The condition of a WAIT. A handle that names no segment at this module holds nothing (log entry 27). -/
def State.waitMet (s : State) (r : Run) (w : W64) : Bool :=
  match insMode w with
  | 0 => decide ((r.bundle, BitVec.ofNat 16 (4 * r.k + insStage w)) ∈ s.trs.readied)
  | 1 => (r.handles.getD (insHandle w) none).all fun st => decide (st ∈ r.released)
  | 2 => decide ((insStage w, false) ∈ r.closed)
  | _ => decide ((insStage w, true) ∈ r.closed)

/-- WAIT (R240). -/
def execWait (ctx : BitVec 9) (s : State) : Host.Outcome State Fault Refusal :=
  .next (match s.atIns ctx 2 with
  | none => s
  | some (r, w) => if s.waitMet r w then s.nextIns r else s)

/-! ### Admission (R246) -/

/-- The incomplete segments of the started runs of a communicator, with whether each waits for a slot. -/
def State.incomplete (s : State) (n : Nat) : List (Run × Instance × Nat) :=
  (s.trs.runs.filter fun r => decide (r.comm = n)).flatMap fun r => match s.trs.instOf r with
    | some i => ((segmentsOf (s.trs.runWords r)).filter fun g => s.isHost (s.trs.comm n) r.k g.1 && decide (g.1 ∉ r.released)).map
        fun g => (r, i, g.1)
    | none => []

/-- The least segment by the key. -/
def Trs.least (t : Trs) (l : List (Run × Instance × Nat)) : Option (Run × Instance × Nat) :=
  leastBy (fun q => t.key q.2.1 (4 * q.1.k + q.2.2)) l

/-- `n` different slots of a list, by free choices. -/
def chooseSlots : Nat → List Nat → Nat → List Nat
  | 0, _, _ => []
  | n + 1, l, k =>
    let x := l.getD (Config.slotChoice k % l.length) 0
    x :: chooseSlots n (l.erase x) (k + 1)

/-- The 64 guaranteed slots, by communicator entry; the other 192 are the shared pool (R246). -/
def guaranteedSlots : List Nat := chooseSlots 64 (List.range 256) 0

/-- The communicator to which a slot is guaranteed. -/
def guaranteedTo (slot : Nat) : Option (Fin 64) := (List.finRange 64).find? fun n => decide (guaranteedSlots.getD n.val 0 = slot)

/-- The segment to which a free slot goes. -/
def State.grantTo (s : State) (slot : Nat) : Option (Run × Instance × Nat) :=
  match guaranteedTo slot with
  | some n => (s.trs.least (s.incomplete n.val)).filter fun q => decide (q.1.waitSlot = some q.2.2)
  | none => s.trs.least (((List.range 64).flatMap s.incomplete).filter fun q => decide (q.1.waitSlot = some q.2.2))

/-- SLOT_GRANT (R220, R244, R246): a FREE slot is granted, and the run continues. Under the brake none is (R327). -/
def execSlotGrant (slot : Byte) (s : State) : Host.Outcome State Fault Refusal :=
  let n := slot.toNat
  .next (if !s.gab.ready ∨ s.pwr.brake ∨ (s.gab.slot n).state ≠ .free then s
    else match s.grantTo n with
      | none => s
      | some (r, i, st) =>
        let f := (fmtsOf (segmentsOf (s.trs.runWords r)) st).getD (0, 0)
        let x : Slot := { Slot.reset with
          state := .active, ifmt := BitVec.ofNat 4 f.1, ofmt := BitVec.ofNat 4 f.2, leaves := (s.trs.comm r.comm).leaves st
          eunits := i.elems r.k / 256, comm := r.comm, bundle := r.bundle, segment := BitVec.ofNat 16 (4 * r.k + st) }
        (s.setSlot n x).nextIns { r with waitSlot := none, admitted := r.admitted ++ [st] })

/-! ### Frames (R240, R249, R371) -/

/-- The code with which a RAISE is refused: nothing open for its segment, or a source that is not the carrier or a member. -/
def State.raiseCode (s : State) (h : Header) : Option Nat :=
  let st := fld h.aux 32 2
  match s.trs.findRun (BitVec.ofNat 32 (fld h.aux 0 32)) (fld h.aux 34 14) with
  | none => some 6
  | some r =>
    let c := s.trs.comm r.comm
    let isOpen := if st = 0 then decide (0 ∈ r.admitted ∧ 0 ∉ r.released) else r.sends.any fun o => decide (o.stage = st) && !o.relay
    let good := s.ownRack h.srcRack.toNat &&
      (if st = 0 then decide (h.srcNode.toNat ∈ c.members) else decide (h.srcNode.toNat = s.carrier c r.k))
    if !isOpen then some 6 else if !good then some 7 else none

/-- A RAISE sent on as CONTRIB (R240): to the own Gable at the rack stage, to the host's at a torus stage. -/
def State.forwardRaise (s : State) (r : Run) (f : Frame) : State :=
  let h := f.hdr
  let st := fld h.aux 32 2
  let c := s.trs.comm r.comm
  let rank := if st = 0 then (c.members.findIdx? fun m => decide (m = h.srcNode.toNat)).getD 0 else s.rankOn c st
  let rack := if st = 0 then 0xFF else s.lineRack c st (s.hostCoord c r.k st)
  let aux := packW 64 [(0, fld h.aux 0 32), (32, fld h.aux 32 16), (48, rank)]
  let data := f.data.zipIdx.map fun q => (q.1, poisoned h q.2)
  let s := (s.trsSend (s.trsFrame opSeg (fld h.attr 0 4 + 16) (fpaOf rack s.node (fpaOffset h.fpa)) aux data)).spend 1
  match s.trs.findRun r.bundle r.k with
  | some q => s.putRun (q.took st false (32 * f.data.length))
  | none => s

/-- RAISE (R249): a RAISE SIGNAL is accepted without action (R371). -/
def execRaise (s : State) : Host.Outcome State Fault Refusal :=
  .next (match s.trsTake [opSeg, opSignal] 0 with
  | none => s
  | some (f, s) =>
    let h := f.hdr
    if s.inTeardown ∨ h.opcode = opSignal then s
    else match s.raiseCode h, s.trs.findRun (BitVec.ofNat 32 (fld h.aux 0 32)) (fld h.aux 34 14) with
      | none, some r => s.forwardRaise r f
      | c, _ => s.trsReport h (c.getD 6))

/-- Whether a RELAY frame's segment has frames that wait. -/
def Trs.relayWaits (t : Trs) (h : Header) : Bool := t.relays.any fun f => decide (fld f.hdr.aux 0 48 = fld h.aux 0 48)

/-- RELAY (R240, R371): taken by an open SEND RELAY; a frame before its SEND waits. -/
def execRelay (s : State) : Host.Outcome State Fault Refusal :=
  .next (match s.trsTake [opSeg, opSignal] 3 with
  | none => s
  | some (f, s) =>
    let h := f.hdr
    if s.inTeardown then s
    else if s.trs.relayWaits h then s.setTrs fun t => { t with relays := t.relays ++ [f] }
    else if h.opcode = opSignal then s.relaySignal f
    else match s.trs.findRun (BitVec.ofNat 32 (fld h.aux 0 32)) (fld h.aux 34 14) with
      | some r =>
        if r.sends.any fun o => decide (o.stage = fld h.aux 32 2) && o.relay then s.takeRelay r f
        else s.setTrs fun t => { t with relays := t.relays ++ [f] }
      | none => s.setTrs fun t => { t with relays := t.relays ++ [f] })

/-- READY (R240): the host's signal for a segment is noted. -/
def execReady (s : State) : Host.Outcome State Fault Refusal :=
  .next (match s.trsTake [opSignal] 5 with
  | none => s
  | some (f, s) =>
    if s.inTeardown then s
    else s.setTrs fun t => { t with
      readied := t.readied ++ [(BitVec.ofNat 32 (fld f.hdr.aux 0 32), BitVec.ofNat 16 (fld f.hdr.aux 32 16))] })

end Sys2Proof.Machine
end

