-- ==== Sys2Proof/Machine/Bay.lean ====
section
/-! DEFINITION. Bays, keys and attestation (R254 to R284): admission, MEASURE, release and zeroization, the SPDM key requests and
their KEY frames, sessions, and signed measurements. Sarking performs all of it. -/

namespace Sys2Proof.Machine

open Sys2Proof

/-! ### Ports of the bay -/

/-- A module port that the image uses (R16). -/
def State.usedPort (s : State) (n : Fin 144) : Bool := decide ((s.mport n.val).train.role ≠ .unused)

/-- The used rafter ports. -/
def State.usedRafters (s : State) : List (Fin 144) := allPorts.filter fun n => decide (portRole n.val = .rafter) && s.usedPort n

/-- The service ports of the bay: used, ACTIVE and with SEAL (R61, R258). -/
def State.bayServices (s : State) : List (Fin 144) := allPorts.filter fun n => decide (portRole n.val = .service) && s.usedPort n && s.bayPort n

/-- The used hip ports of the bay. -/
def State.bayHips (s : State) : List (Fin 144) :=
  allPorts.filter fun n => decide (portRole n.val = .hip) && s.usedPort n && insideBay s.bay s.sof.torus s.relCoord (hipDir n.val)

/-- The nodes of the bay that take keys, each with its port: the used rafter ports and the service nodes (R266). -/
def State.keyNodes (s : State) : List (Nat × Fin 144) := (s.usedRafters ++ s.bayServices).map fun n => (s.partnerNode n, n)

/-- The hip ports on which this module sends ACTIVATE: the partner rack has the higher global index (R267). -/
def State.activateHips (s : State) : List (Fin 144) :=
  s.bayHips.filter fun n => decide (rackIndex s.coord < rackIndex (neighbour s.sof.torus s.coord (hipDir n.val)))

/-! ### Purlin's buffer emptied (R72, R279) -/

/-- The reserves of a port's channels (R72): for each, half the credit granted in cells, and the credit in descriptors. -/
def State.portReserves (s : State) : List (Nat × Nat) :=
  (allPorts.filter s.usedPort).flatMap fun n => (s.mport n.val).cfg.grants.zipIdx.map fun p => (portSource n.val p.2, p.1)

/-- The reserves in cells and in descriptors of every source (R72). -/
def State.cellReserves (s : State) : Tab Nat :=
  (s.portReserves.map (fun (p : Nat × Nat) => (p.1, p.2 / 2)) ++ (List.range 7).map (fun a => (agentSource a, 2048))).filter fun p => decide (p.2 ≠ 0)
def State.descReserves (s : State) : Tab Nat :=
  (s.portReserves ++ (List.range 7).map (fun a => (agentSource a, 4096))).filter fun p => decide (p.2 ≠ 0)

/-- A pool with every entry free but those quarantined (R99). -/
def Pool.empty (p : Pool) (total reserved : Nat) : Pool :=
  let tags := p.tags.filter fun q => decide (q.2 = .quarantined)
  let p : Pool :=
    { tags := tags, used := tags.map fun q => (q.1, true), free := total - tags.length, transit := 0, quar := tags.length, occ := [],
      sharedUsed := 0, reserved := reserved, low := 0 }
  { p with low := p.sharedFree total }

/-- Purlin with no frame in it: every queue, cell and descriptor empty, the reserves whole. -/
def State.emptyBuffer (s : State) : State :=
  let rc := s.cellReserves
  let rd := s.descReserves
  { s with pur := { s.pur with
      cells := s.pur.cells.empty cellTotal (rc.map Prod.snd).sum
      descs := s.pur.descs.empty descTotal (rd.map Prod.snd).sum
      resCells := rc, resDescs := rd, bundles := []
      queues := Tab.mapAll Queue.reset (fun q => { q with head := q.tail, items := [] }) s.pur.queues } }

/-! ### Admission (R257 to R259) -/

/-- A command refused with a code; the state stays. -/
def State.secRefuse (s : State) (code : BitVec 4) : State := s.setSec fun x => { x with err := code }

/-- The shape that ADMIT takes. -/
def State.admitShape (s : State) : Shape := shapeUnpack s.sec.admitShape

/-- Check 4: R20, the own rack inside, and under the bench declaration one rack at the own coordinates. -/
def State.admitShapeOk (s : State) : Bool :=
  let b := s.admitShape
  shapeOk b s.sof.torus && (shapeRel b s.sof.torus s.coord).isSome &&
    (!s.sof.bench || decide (shapeRacks b = 1 ∧ b.org = s.coord))

/-- A rafter port as check 6 wants it, with no DESTROY owed (R278). -/
def State.rafterReady (s : State) (n : Fin 144) : Bool :=
  s.isActive n.val && bitAt (s.mport n.val).train.features featSeal && !(s.mport n.val).train.destroyDue &&
    !(s.sec.destroyWait.any fun w => decide (w.1 = n))

/-- The first failing check of R258 but check 7, in the table's order. -/
def State.admitErr (s : State) : Option (BitVec 4) :=
  if s.sec.pending then some 1
  else if s.gut.needService then some 10
  else if !s.tim.sync then some 2
  else if s.sof.cfgDefault then some 3
  else if s.sof.slots.any fun x => decide (x.state = .trial) then some 9
  else if !s.admitShapeOk then some 4
  else if s.sec.admitTag = 0 then some 5
  else if !s.usedRafters.all s.rafterReady then some 6
  else none

/-- The used hip ports that face a rack inside the shape under check. -/
def State.admitHips (s : State) : List (Fin 144) :=
  let b := s.admitShape
  match shapeRel b s.sof.torus s.coord with
  | none => []
  | some own => allPorts.filter fun n => decide (portRole n.val = .hip) && s.usedPort n && insideBay b s.sof.torus own (hipDir n.val)

/-- A hip port's fence lifted: it leaves DISABLED, and collects offsets anew (R23, R46). -/
def Port.lift (x : Port) : Port :=
  let x := { x with laneIdle := false, stamp := Port.reset.stamp }
  if x.train.state = .disabled then x.toDetect else x

/-- A hip port fenced: its lanes held in electrical idle (R23). A port held by R297 stays in HELD. -/
def Port.fence (x : Port) : Port :=
  let x := x.lost
  { x with
    laneIdle := true, stamp := Port.reset.stamp, sealing := x.sealing.unsealed
    train := { x.train with state := if x.train.state = .held then .held else .disabled, width := 0, partner := none, bayDown := false,
                            asDown := false } }

/-- The bay admitted, in one step (R259), with the shape and the tag that ADMIT took; each used service port without SEAL is reported (R258), and
GAB_WORK starts at 0 (R227). -/
def State.takeBay (s : State) : State :=
  let b := shapeUnpack s.sec.askedShape
  let s := s.setSec fun x => { x with
    shape := x.askedShape, tag := x.askedTag, rack := BitVec.ofNat 8 ((shapeIndexOf b s.sof.torus s.coord).getD 0), busy := false, lifted := []
    lastGen := none, installed := false, requester := none, resumeTo := .forming }
  let s : State := { s with gab := { s.gab with work := 0, told := 0 } }
  let s := s.setBay .forming
  let out := allPorts.filter fun n => decide (portRole n.val = .service) && s.usedPort n && !s.bayPort n
  out.foldl (fun s n => s.count (linkEvent 15 n.val)) s

/-- ADMIT ended with a code: the lifted hip ports fenced again, the state FREE. -/
def State.admitFail (s : State) (code : BitVec 4) : State :=
  let s := s.sec.lifted.foldl (fun s n => s.updPort (.module n) Port.fence) s
  (s.setSec fun x => { x with err := code, busy := false, lifted := [] }).setBay .free

/-- ADMIT (R257, R258): check 7 is left to HIP_ADMISSION_CHECK where a hip port faces the bay. A shape or a tag written meanwhile is for the next
ADMIT (R284). -/
def State.cmdAdmit (s : State) : State :=
  if s.sec.state ≠ .free then s.secRefuse 1
  else match (s.setBay .checking).admitErr with
    | some c => (s.setBay .checking).admitFail c
    | none =>
      let s := (s.setBay .checking).setSec fun x =>
        { x with busy := true, lifted := s.admitHips, askedShape := x.admitShape, askedTag := x.admitTag }
      if s.sec.lifted = [] then s.takeBay
      else s.sec.lifted.foldl (fun s n => s.updPort (.module n) Port.lift) s

/-- ADMIT (R257 to R259): in Sarking-only operation nothing forwards it (R351, R354). -/
def execAdmitBay (s : State) : Host.Outcome State Fault Refusal := .next (if s.served then s.cmdAdmit else s)

/-- A hip port as check 7 wants it: ACTIVE with SEAL, its offset reported and within 50 ns (R35). -/
def State.hipReady (s : State) (n : Fin 144) : Bool :=
  let x := s.mport n.val
  s.isActive n.val && bitAt x.train.features featSeal && x.stamp.valid && !x.stamp.warn

/-- HIP_ADMISSION_CHECK (R258, R35): the lifted hip ports looked at; `expired`: 100 ms have passed since ADMIT. A module that has lost SYNC
meanwhile admits no bay (R29, R31): check 2 fails (DEDUCED, log entry 117). -/
def execHipAdmissionCheck (expired : Bool) (s : State) : Host.Outcome State Fault Refusal :=
  .next (if s.sec.state ≠ .checking then s
    else if !s.tim.sync then s.admitFail 2
    else if s.sec.lifted.all s.hipReady then s.takeBay
    else if expired then s.admitFail 7
    else s)

/-! ### Measurements (R261, R263) -/

/-- SOF_ID of stepping C0 (R1). -/
def sofId : W32 := 0x96000C00

/-- The bay descriptor: SOF_ID, SOF_LOCATION, SOF_BAY_SHAPE, tag and state, in their registers' widths, least significant byte
first (log entry 28). -/
def State.bayDescriptor (s : State) : BitVec 384 :=
  digestOf (bytesOf sofId 4 ++ bytesOf (BitVec.setWidth 32 s.sof.location) 4 ++ bytesOf s.bayShapeWord 4 ++ bytesOf s.sec.tag 2 ++
    [BitVec.ofNat 8 s.sec.state.code])

/-- The digest of a durable entry: BASE, LIMIT, STATE and DIGEST. -/
def durDescriptor (d : Dur) : BitVec 384 :=
  if d = Dur.reset then 0 else digestOf (bytesOf d.base 8 ++ bytesOf d.limit 8 ++ [BitVec.ofNat 8 d.state.code] ++ bytesOf d.digest 48)

/-- The digest of the security state: debug access disabled, the seal, SEC_WEIGHT_k. -/
def State.securityState (s : State) : BitVec 384 :=
  digestOf ([1, BitVec.ofNat 8 s.gau.sealOk.toNat] ++ (List.range 16).flatMap fun k => bytesOf (Tab.get 0 s.sec.weights k) 8)

/-- A measurement of the report (R263); an index that stands for nothing reads as zero. -/
def State.measurement (s : State) (i : Nat) : BitVec 384 :=
  if i = 1 then Config.romDigest
  else if i = 2 then s.sof.otp.stage
  else if i = 3 then s.sec.meas3
  else if i = 4 then s.sec.meas4
  else if i = 5 then s.bayDescriptor
  else if 6 ≤ i ∧ i ≤ 21 then Tab.get 0 s.trs.meas (i - 6)
  else if 22 ≤ i ∧ i ≤ 37 then durDescriptor (Tab.get Dur.reset s.eav.durs (i - 22))
  else if i = 38 then s.securityState
  else if i = 39 then s.sec.index39
  else 0

/-- MEASURE (R257, R261). -/
def State.cmdMeasure (s : State) : State :=
  if s.sec.state ≠ .forming then s.secRefuse 1
  else if s.trs.dirs.any fun p => p.2.refused then s.secRefuse 8
  else
    let s := (s.setTrs fun t => { t with lock := true }).setBay .measured
    s.setSec fun x => { x with meas4 := (s.sof.image.map fun i => digestOf i.bytes).getD 0, meas5 := s.bayDescriptor }

/-- MEASURE (R257, R261, R354). -/
def execMeasure (s : State) : Host.Outcome State Fault Refusal := .next (if s.served then s.cmdMeasure else s)

/-- The alias key's signature: the key follows measurement indices 1 to 3 (R262). -/
def State.aliasSign (s : State) (body : List Byte) : List Byte := Config.aliasSign (s.measurement 1) (s.measurement 2) (s.measurement 3) body

/-- The certificate chain of slot 0 (R262), the device's certificate as the factory data holds it: once a programmer has written there, the chain
that goes out fails at the verifier (R367). -/
def State.certChain (s : State) : List (List Byte) :=
  let device := if s.sof.factory = [] then Config.deviceCert else Config.writtenCert s.sof.factory
  [Config.rootCert, device, Config.aliasCert (s.measurement 1) (s.measurement 2) (s.measurement 3)]

/-- SIGNED_MEASUREMENTS (R262 to R264): the requester's nonce, the measurements asked for, and the alias key's signature. A module stopped in mask ROM
answers nothing (R346). -/
def execSignedMeasurements (nonce : BitVec 256) (indices : List Nat) (s : State) : Host.Outcome State Fault Refusal :=
  let body := bytesOf nonce 32 ++ indices.flatMap fun i => BitVec.ofNat 8 i :: bytesOf (s.measurement i) 48
  .next (if s.sof.halted then s else s.emit (.report (body ++ s.aliasSign body)))

/-! ### Sessions (R262, R266) -/

/-- SECURE_SESSION_OPEN (R262, R266): SPDM 1.2 or 1.3, mutually authenticated; the requester by its public key. The chain of slot 0 goes out
with it. A module stopped in mask ROM opens none (R346). -/
def execSecureSessionOpen (session : Nat × Byte) (s : State) : Host.Outcome State Fault Refusal :=
  .next (if !s.sof.halted ∧ (session.2 = 0x12 ∨ session.2 = 0x13) then
      (s.setSec fun x => { x with sessions := x.sessions ++ [session] }).emit (.certificates s.certChain)
    else s)

/-- A requester has an open session (R266). -/
def Sec.inSession (x : Sec) (requester : Nat) : Bool := x.sessions.any fun p => decide (p.1 = requester)

/-- SECURE_SESSION_END (R262, R284): the i-th of the open sessions, oldest first. -/
def execSecureSessionEnd (i : Nat) (s : State) : Host.Outcome State Fault Refusal :=
  .next (s.setSec fun x => { x with sessions := x.sessions.eraseIdx i })

/-! ### Zeroization (R207, R278, R279) -/

/-- The keys of Sarking and of every port (R278 step 4, R207 step 1). -/
def Sec.noKeys (x : Sec) : Sec := { x with linkKeys := [], active := 0, retiring := [], transport := [], weightKeys := [] }

/-- Every key is gone. -/
def State.keysGone (s : State) : Bool :=
  decide (s.sec.linkKeys = [] ∧ s.sec.transport = [] ∧ s.sec.weightKeys = []) && s.eav.key.isNone

/-- Every port of the module unsealed. -/
def State.unsealPorts (s : State) : State := { s with ports := Tab.mapAll Port.reset (fun x => x.onSeal SealSt.unsealed) s.ports }

/-- The records and counts of the bay cleared; those of operator scope are not the bay's (R279, R282, R288). GUT_FATAL stays for the
management interfaces, and is no longer the bay's (R291; log entry 121). -/
def Gut.clearBay (g : Gut) : Gut :=
  { g with
    first := if bitAt g.first.info 7 then g.first else Capture.reset
    caps := g.caps.filter fun c => bitAt c.info 7
    dropped := 0, history := [], fatalOfBay := false
    srcs := Tab.mapAll Src.zero (fun c => if bitAt c.cfg 24 then c else { Src.zero with cfg := c.cfg }) g.srcs }

/-- The eaves begin to write zeros: they serve nothing, what they held in queues is gone, the scrub is idle, and no address of the bay stays in
a record (R207, R283). -/
def Eav.beginZero (e : Eav) : Eav :=
  { e with
    key := none, cryptOn := false, wins := [], groups := []
    eaves := (List.range 32).foldl (fun t n => Tab.upd Eave.reset t n fun x =>
      { x with zeroizing := true, scrubRun := false, homeQ := [], errFirst := 0 }) e.eaves }

/-- Steps 4 and 5 of R278: every key destroyed, and the parts of R279 begun; those that take microseconds are done. -/
def State.beginZero (s : State) : State :=
  let s : State := { s with
    sec := s.sec.noKeys, eav := s.eav.beginZero, gut := s.gut.clearBay
    gab := { s.gab.zeroize with ready := false, zeroizing := true, stallFirst := 0, refuseFirst := 0 }
    trs := { Trs.reset with ready := s.trs.ready }
    ports := Tab.mapAll Port.reset (fun x => { x.onSeal SealSt.unsealed with pendLog := [] }) s.ports
    pur := { s.pur with nodeLost := 0 } }
  s.emptyBuffer

/-- Whether the eave of a stored shingle is one that cannot serve. -/
def Eav.dead (e : Eav) (i : Nat) : Bool := (Tab.get Eave.reset e.eaves (i / eaveShingles)).failed

/-- The eaves after their last shingle (R207): zero at every address of an eave that serves, no durable entry, and the scrub going on where it
is enabled (R198). An eave that cannot serve keeps ZEROIZING and what stands in its stack. -/
def Eav.endZero (e : Eav) : Eav :=
  { e with
    mem := { cells := e.mem.cells.filter fun c => e.dead (c.1 / 36), marked := e.mem.marked.filter fun c => e.dead c.1 }
    durs := []
    eaves := Tab.mapAll Eave.reset
      (fun x => { x with zeroizing := x.zeroizing && x.failed, scrubRun := x.ready && bitAt e.scrubCfg 0 && !(x.zeroizing && x.failed) }) e.eaves }

/-- Gable's memory zero (R226). -/
def Gab.cleared (g : Gab) (ready : Bool) : Gab := { g with ready := ready, zeroizing := false, slots := [], released := [] }

/-- The eaves that cannot serve, by number. -/
def Eav.failures (e : Eav) : List Nat := (e.eaves.filter fun p => p.2.failed).map Prod.fst

/-- The severe fault of an eave that cannot finish (R280), with the first address of its memory (R289). -/
def State.unfinished (s : State) (n : Nat) : State :=
  s.severe { eventOf 20 with addr := BitVec.ofNat 64 (maOfIndex s.eav.hashCfg (n * eaveShingles)) }

/-- Steps 6 and 7 of R278: hip lanes fenced, the bay forgotten, FREE. DONE and the time belong to a release, which PENDING tells
from the zeroization after a failed retention (R280). -/
def State.endZero (s : State) : State :=
  let s := (allPorts.filter fun n => decide (portRole n.val = .hip)).foldl (fun s n => s.updPort (.module n) Port.fence) s
  let s : State := { s with
    eav := s.eav.endZero
    gab := s.gab.cleared (s.sof.started && !s.pwr.off)
    sec := { s.sec with
      shape := 0, tag := 0, rack := 0, weights := [], requester := none, installed := false, lastGen := none, index39 := 0, meas4 := 0, meas5 := 0
      pending := false, cold := s.sec.cold && !s.sec.pending, busy := false, done := s.sec.done || s.sec.pending
      zeroTime := if s.sec.pending then BitVec.ofNat 64 s.ns else s.sec.zeroTime }
    sof := { s.sof with log := Tab.mapAll LogEntry.reset (fun e => { e with ofBay := false }) s.sof.log } }
  s.setBay .free

/-- ZEROIZATION_COMPLETE (R207, R226, R278 to R280): every part that can has finished. An eave that cannot serve cannot finish: the others and Gable
are done without it, it raises a severe fault, and the module stays in ZEROIZING. -/
def execZeroizationComplete (s : State) : Host.Outcome State Fault Refusal :=
  .next (if s.sec.state ≠ .zeroizing ∨ !s.keysGone then s
    else if s.eav.failures ≠ [] then
      s.eav.failures.foldl State.unfinished { s with eav := s.eav.endZero, gab := s.gab.cleared (s.sof.started && !s.pwr.off) }
    else s.endZero)

/-! ### Release (R278, R281) -/

/-- Once no DESTROY is awaited, step 4 follows step 3. -/
def State.afterDestroy (s : State) : State :=
  if s.sec.state = .zeroizing ∧ s.sec.destroyWait = [] then s.beginZero else s

/-- Steps 1 to 3 of R278. -/
def State.startRelease (s : State) : State :=
  let was := s.sec.state
  let s := s.setSec fun x => { x with pending := true, busy := true, releaseDue := false, install := none, lifted := [] }
  let s := s.setBay .zeroizing
  let s : State := { s with gut := { s.gut with phase := .none, stopWait := [], resumeWait := [], toFence := [], endHeld := false } }
  let s : State := if was = .running ∨ was = .teardown then { s with trs := s.trs.stop, gab := s.gab.zeroize, pur := s.pur.disarm } else s
  let ports := allPorts.filter fun n => decide (portRole n.val ≠ .hip) && s.usedPort n && s.isActive n.val
  (ports.foldl State.sendDestroy s).afterDestroy

/-- RELEASE (R257, R278, R281): it waits while BAY_KEYS is being installed. -/
def State.cmdRelease (s : State) : State :=
  if s.sec.state = .free ∨ s.sec.state = .zeroizing then s.secRefuse 1
  else if s.sec.install.any fun i => !i.rotation then s.setSec fun x => { x with releaseDue := true }
  else s.startRelease

/-- RELEASE (R257, R278, R281, R354). -/
def execRelease (s : State) : Host.Outcome State Fault Refusal := .next (if s.served then s.cmdRelease else s)

/-- SEC_BAY_CTL written through the management interfaces (R257, R284); other codes are ignored. -/
def State.bayCommand (s : State) (cmd : Nat) : State :=
  match cmd with
  | 1 => s.cmdAdmit
  | 2 => s.cmdMeasure
  | 3 => s.cmdRelease
  | _ => s

/-- DESTROY_TIMEOUT (R278): 1 ms without an acknowledgement. The port is held, the node named, and DESTROY stays owed. -/
def execDestroyTimeout (n : Fin 144) (s : State) : Host.Outcome State Fault Refusal :=
  .next (if !s.sec.destroyWait.any fun w => decide (w.1 = n) then s
    else
      let s := s.setSec fun x => { x with destroyWait := x.destroyWait.filter fun w => decide (w.1 ≠ n) }
      let s := s.updPort (.module n) fun x => let y := x.hold x.train.fail; { y with train := { y.train with destroyDue := true } }
      let s := (s.answerLost n).count { eventOf 20 with node := BitVec.ofNat 8 (s.partnerNode n) }
      s.afterDestroy)

/-! ### Weights (R275) -/

/-- SEC_WEIGHT_k as an in-band write performs it: only while entry k is EMPTY. -/
def State.writeWeight (s : State) (k : Nat) (value : W64) : State :=
  if (Tab.get Dur.reset s.eav.durs k).state = .empty then
    s.setSec fun x => { x with weights := Tab.put 0 x.weights k (value &&& 0xFFFFFFFF00000007) }
  else s

/-- SEC_WEIGHT (R275): the write that Thatch forwards from the bay's fabric manager. -/
def execSecWeight (k : Fin 16) (value : W64) (s : State) : Host.Outcome State Fault Refusal :=
  .next (if s.served then s.writeWeight k.val value else s)

/-! ### Key requests (R266) -/

/-- An SPDM key request answered; a refusal stays in KEY_ERR. -/
def State.keyAnswer (s : State) (status : BitVec 4) (port : Byte) : State :=
  (if status = 0 then s else s.setSec fun x => { x with keyErr := status }).emit (.spdm (status.setWidth 8) port)

/-- The nodes of a NODES field, ascending. -/
def nodesOf (w : BitVec 256) : List Nat := (List.range 256).filter fun n => bitAt w n

/-- The NODES field of the bay. -/
def State.bayNodes (s : State) : List Nat := (List.range 256).filter fun n => s.keyNodes.any fun p => decide (p.1 = n)

/-- SLOT, byte 3 and GEN as every key request needs them (R266, R273). -/
def State.keyFieldsOk (s : State) (r : KeyReq) : Bool :=
  decide (r.slot.toNat ≤ 3 ∧ r.zero = 0) && s.sec.lastGen.all fun g => decide (g.toNat < r.gen.toNat)

/-- The key of a link slot in use. -/
def State.slotUsed (s : State) (slot : Nat) : Bool := (Tab.get none s.sec.linkKeys slot).isSome

/-- The status of a BAY_KEYS request before anything is installed. -/
def State.bayKeysStatus (s : State) (requester : Nat) (r : KeyReq) : BitVec 4 :=
  if s.sec.install.isSome then 5
  else if s.sec.state ≠ .measured ∨ s.sec.installed ∨ !s.sec.requester.all fun q => decide (q = requester) then 1
  else if r.tag ≠ s.sec.tag then 2
  else if !s.keyFieldsOk r ∨ nodesOf r.nodes ≠ s.bayNodes ∨ r.transport.length ≠ (nodesOf r.nodes).length then 3
  else 0

/-- The status of a ROTATE request. -/
def State.rotateStatus (s : State) (requester : Nat) (r : KeyReq) : BitVec 4 :=
  if s.sec.install.isSome then 5
  else if s.sec.state ≠ .running ∨ s.sec.requester ≠ some requester then 1
  else if r.tag ≠ s.sec.tag then 2
  else if !s.keyFieldsOk r ∨ r.nodes ≠ 0 ∨ r.transport ≠ [] ∨ s.slotUsed r.slot.toNat then 3
  else 0

/-! ### Installing (R267, R268, R272, R273) -/

/-- A KEY frame on a port, whose ACK is awaited. On a port that is not ACTIVE nothing goes out, and the ACK stays missing. -/
def State.sendKey (s : State) (n : Fin 144) (action : Nat) (aux : W64) (data : List Shingle) : State :=
  let w : KeyWait := { port := n, action := BitVec.ofNat 4 action, tag := s.sof.sofTag }
  let s := s.setSec fun x => { x with install := x.install.map fun i => { i with waits := i.waits ++ [w] } }
  if s.isActive n.val then s.soffitSend n (s.soffitHdr opKey (s.partnerFpa n 0) aux data.length) data
  else { s with sof := { s.sof with sofTag := s.sof.sofTag + 1 } }

/-- INSTALL to a node under its transport key. -/
def State.sendInstall (s : State) (slot : BitVec 2) (key : LinkKey) (p : Nat × Fin 144) : State :=
  s.sendKey p.2 actInstall (keyAux actInstall slot s.sec.rack s.sec.tag key.gen) (installData ((Tab.get none s.sec.transport p.1).getD 0) key.key)

/-- ACTIVATE on a port; its G is chosen as it goes. -/
def State.sendActivate (s : State) (slot : BitVec 2) (n : Fin 144) : State :=
  (s.announce (.module n) { slot := slot, ack := false, engine := 0xFB, tag := s.sof.sofTag }).sendKey n actActivate
    (keyAux actActivate slot 0 0 0) (activateData 0)

/-- The slot of every port takes a key. -/
def State.placeKey (s : State) (slot : BitVec 2) (key : LinkKey) : State :=
  let s := s.setSec fun x => { x with linkKeys := Tab.put none x.linkKeys slot.toNat (some key) }
  { s with ports := Tab.mapAll Port.reset (fun x => x.onSeal fun y => { y with gone := setBit y.gone slot.toNat false }) s.ports }

/-- The eave key pair made where none is held (R267 step 1), and whether it was. -/
def State.eaveKey (s : State) : Bool × State :=
  if s.eav.key.isSome then (false, s)
  else (true, { s with eav := { s.eav with key := some (Config.freeKey s.fresh ++ Config.freeKey (s.fresh + 1) : BitVec 512) } }.spend 2)

/-- Steps 2 and 3 of R267: INSTALL to every node, ACTIVATE on every port. -/
def State.spread (s : State) (slot : BitVec 2) (key : LinkKey) : State :=
  let nodes := s.keyNodes.mergeSort fun a b => decide (a.1 ≤ b.1)
  let s := nodes.foldl (fun s p => s.sendInstall slot key p) s
  (nodes.map Prod.snd ++ s.activateHips).foldl (fun s n => s.sendActivate slot n) s

/-- A port back on the old slot after a rotation that failed. -/
def SealSt.fallBack (y : SealSt) (slot old : BitVec 2) : SealSt :=
  { y with active := if y.active = slot then old else y.active, due := y.due.filter fun d => decide (d.slot ≠ slot)
           txNext := if y.txNext.any fun p => decide (p.1 = slot) then none else y.txNext }

/-- The installation or rotation ends, and a release that waited for it begins (R281). -/
def State.endInstall (s : State) : State :=
  let s := s.setSec fun x => { x with install := none }
  if s.sec.releaseDue then s.startRelease else s

/-- A port failed to seal (R267): the key goes, the eave keys too where this BAY_KEYS made them, and status 4 names the port. -/
def State.installFailed (s : State) (i : Install) (port : Nat) : State :=
  let s := s.dropKey i.slot
  let s : State := if i.newEaveKey then { s with eav := { s.eav with key := none, cryptOn := false } } else s
  let s : State := if i.rotation then
      { s with ports := Tab.mapAll Port.reset (fun x => x.onSeal fun y => y.fallBack i.slot i.oldSlot) s.ports }
    else s.unsealPorts
  let s := (s.setSec fun x => { x with keyErrPort := BitVec.ofNat 8 port }).keyAnswer 4 (BitVec.ofNat 8 port)
  s.endInstall

/-- A rotation's last RETIRE is acknowledged: the module's own old slot goes, once no port of the module needs it. -/
def State.rotated (s : State) (i : Install) : State := (s.setSec fun x => { x with retiring := x.retiring ++ [i.oldSlot] }).dropRetired.endInstall

/-- RETIRE of the old slot on every port (R273). -/
def State.retireAll (s : State) (i : Install) : State :=
  let s := s.setSec fun x => { x with install := some { i with waits := [], retiring := true } }
  let s := (s.keyNodes.map Prod.snd ++ s.bayHips).foldl (fun s n => s.sendKey n actRetire (keyAux actRetire i.oldSlot 0 0 0) []) s
  if s.sec.install.all fun (j : Install) => decide (j.waits = []) then s.rotated i else s

/-- Every ACK has come (R267 step 5, R273, R276): RUNNING and index 39, or RETIRE for the old slot. -/
def State.installed (s : State) (i : Install) : State :=
  let s := (s.setSec fun x => { x with active := i.slot }).keyAnswer 0 0
  if i.rotation then s.retireAll i
  else
    let s := s.setSec fun x => { x with installed := true, index39 := digestOf (bytesOf (BitVec.ofNat 776 i.requester) 97) }
    let s := if s.sec.state = .measured then s.setBay .running else s.setSec fun x => { x with resumeTo := .running }
    s.endInstall

/-- An installation, or the retiring of a rotation, with no ACK outstanding ends (R267, R273). -/
def State.settleInstall (s : State) : State :=
  match s.sec.install with
  | none => s
  | some i => if i.waits ≠ [] then s else if i.retiring then s.rotated i else s.installed i

/-- The installation after a wait has ended. -/
def State.afterWait (s : State) (i : Install) (w : KeyWait) : State :=
  (s.setSec fun x => { x with install := some { i with waits := i.waits.erase w } }).settleInstall

/-- BAY_KEYS that passed its checks. -/
def State.startBayKeys (s : State) (requester : Nat) (r : KeyReq) : State :=
  let slot : BitVec 2 := BitVec.ofNat 2 r.slot.toNat
  let key : LinkKey := { key := r.key, gen := r.gen }
  match s.eaveKey with
  | (made, s) =>
    let s := s.setSec fun x => { x with
      requester := some requester, lastGen := some r.gen
      transport := ((nodesOf r.nodes).zip r.transport).map fun p => (p.1, some p.2)
      install := some { rotation := false, slot := slot, requester := requester, newEaveKey := made, oldSlot := 0, waits := [], retiring := false } }
    ((({ s with eav := { s.eav with cryptOn := true } }).placeKey slot key).spread slot key).settleInstall

/-- ROTATE that passed its checks. -/
def State.startRotate (s : State) (requester : Nat) (r : KeyReq) : State :=
  let slot : BitVec 2 := BitVec.ofNat 2 r.slot.toNat
  let key : LinkKey := { key := r.key, gen := r.gen }
  let s := s.setSec fun x => { x with
    lastGen := some r.gen
    install := some { rotation := true, slot := slot, requester := requester, newEaveKey := false, oldSlot := x.active, waits := [], retiring := false } }
  ((s.placeKey slot key).spread slot key).settleInstall

/-- BAY_KEYS (R266, R267). Key material is taken only inside a session (R266). -/
def execBayKeys (requester : Nat) (r : KeyReq) (s : State) : Host.Outcome State Fault Refusal :=
  let c := s.bayKeysStatus requester r
  .next (if !s.sec.inSession requester then s else if c = 0 then s.startBayKeys requester r else s.keyAnswer c 0)

/-- ROTATE (R266, R273). -/
def execRotate (requester : Nat) (r : KeyReq) (s : State) : Host.Outcome State Fault Refusal :=
  let c := s.rotateStatus requester r
  .next (if !s.sec.inSession requester then s else if c = 0 then s.startRotate requester r else s.keyAnswer c 0)

/-- The status of WEIGHT_KEY and WEIGHT_DESTROY. -/
def State.weightStatus (s : State) (requester : Nat) (wellFormed : Bool) : BitVec 4 :=
  if s.sec.state ≠ .running ∨ s.sec.requester ≠ some requester then 1 else if !wellFormed then 3 else 0

/-- A weight slot set. -/
def State.setWeightKey (s : State) (slot : Nat) (key : Option (BitVec 256)) : State :=
  s.setSec fun x => { x with weightKeys := Tab.put none x.weightKeys slot key }

/-- WEIGHT_KEY (R266, R275). -/
def execWeightKey (requester : Nat) (slot : Byte) (zero : BitVec 24) (key : BitVec 256) (s : State) : Host.Outcome State Fault Refusal :=
  let c := s.weightStatus requester (decide (slot.toNat ≤ 3 ∧ zero = 0))
  .next (if !s.sec.inSession requester then s else (if c = 0 then s.setWeightKey slot.toNat (some key) else s).keyAnswer c 0)

/-- WEIGHT_DESTROY (R266, R275). -/
def execWeightDestroy (requester : Nat) (slot : Byte) (s : State) : Host.Outcome State Fault Refusal :=
  let c := s.weightStatus requester (decide (slot.toNat ≤ 3))
  .next (if !s.sec.inSession requester then s else (if c = 0 then s.setWeightKey slot.toNat none else s).keyAnswer c 0)

/-! ### Acknowledgements (R267, R269, R272, R273, R278) -/

/-- The ACK of a KEY frame of Sarking's on port `n`. -/
def State.sarkingAck (s : State) (n : Fin 144) (h : Header) : State :=
  match s.sec.install.bind fun i => (i.waits.find? fun w => decide (w.port = n ∧ w.tag = h.tag)).map fun w => (i, w) with
  | some (i, w) =>
    if i.retiring then s.afterWait i w
    else if h.status ≠ stOk then s.installFailed i n.val
    else
      let s := if w.action.toNat = actActivate then s.updPort (.module n) fun x => x.onSeal fun y => y.expectFrom i.slot h.aux else s
      s.afterWait i w
  | none =>
    if (n, h.tag) ∈ s.sec.destroyWait ∧ h.status = stOk then
      (s.setSec fun x => { x with destroyWait := x.destroyWait.erase (n, h.tag) }).afterDestroy
    else s

/-- The acknowledgement of a KEY frame of the block's own on a tray port, matched by SRC_ENGINE and TAG (R269): OK to an ACTIVATE opens the
partner's groups from G′; after another status it is sent again, and the group announced is given up (R272). Others are unmatched. -/
def State.trayAck (s : State) (p : PortRef) (h : Header) : State :=
  match s.jeb.trayWaits.find? fun w => decide (w.engine = h.srcEngine ∧ w.tag = h.tag) with
  | none => s.jebDropResponse h
  | some w =>
    let s := s.updJeb fun j => { j with trayWaits := j.trayWaits.erase w }
    if !w.activate then s
    else if h.status = stOk then
      (s.updPort p fun x => x.onSeal fun y => y.expectFrom w.slot h.aux).updJeb fun j =>
        { j with retryAct := if j.retryAct = some w.slot then none else j.retryAct }
    else s.updPort p fun x => x.onSeal fun y => { y with txNext := if y.txNext.any fun k => decide (k.1 = w.slot) then none else y.txNext }

/-- KEY_ACK (R267, R269, R272, R273, R278). -/
def execKeyAck (p : PortRef) (f : Frame) (s : State) : Host.Outcome State Fault Refusal :=
  .next (if f.hdr.opcode ≠ opAck ∨ f.hdr.course ≠ 4 then s
    else match p with
      | .module n =>
        match s.agentTake agSoffit n f with
        | .error s => s
        | .ok s => s.sarkingAck n f.hdr
      | .tray t => (s.jebTake (.tray t) f).trayAck (.tray t) f.hdr
      | .rafter q => (s.jebTake (.rafter q) f).jebDropResponse f.hdr)

/-- KEY_ACK_TIMEOUT (R267, R273): 1 ms without every ACK. -/
def execKeyAckTimeout (s : State) : Host.Outcome State Fault Refusal :=
  .next (match s.sec.install with
    | none => s
    | some i =>
      if i.retiring then s.rotated i
      else s.installFailed i ((i.waits.map fun w => w.port.val).foldl min 143))

end Sys2Proof.Machine
end

