-- ==== Sys2Proof/Machine/Durable.lean ====
section
/-! DEFINITION. Durable regions (R200 to R206): the commands of EAV_DUR_CTL_k and the end of a digest. Thatch carries the
commands out for the bay's fabric manager. -/

namespace Sys2Proof.Machine

open Sys2Proof

def State.dur (s : State) (k : Nat) : Dur := Tab.get Dur.reset s.eav.durs k

def State.setDur (s : State) (k : Nat) (d : Dur) : State :=
  { s with eav := { s.eav with durs := Tab.put Dur.reset s.eav.durs k d } }

/-- 2 MiB chunks of a region. -/
def Dur.chunks (d : Dur) : Nat := fld d.limit 21 20 + 1 - fld d.base 21 20

/-- Module memory that a valid ledger window takes: 16 times its size (R191, R194). -/
def ledgerExtent (w : Window) : Nat × Nat :=
  let lo := fld w.loc 16 25 * 2 ^ 16
  (lo, lo + 16 * (w.hi + 1 - w.lo) - 1)

/-- Whether two ranges, ends inclusive, meet. -/
def rangesMeet (a b c d : Nat) : Bool := decide (a ≤ d ∧ c ≤ b)

/-- The check of DEFINE and SILVER (R194, R203): BASE ≤ LIMIT, no other entry's region, no valid ledger window's extent. -/
def State.regionOk (s : State) (k : Nat) (d : Dur) : Bool :=
  decide (fld d.base 21 20 ≤ fld d.limit 21 20) &&
  (s.eav.durs.all fun p => decide (p.1 = k) || decide (p.2.state = .empty) || !rangesMeet d.lo d.hi p.2.lo p.2.hi) &&
  s.eav.wins.all fun p => !(p.2.valid && p.2.ledger) || !rangesMeet d.lo d.hi (ledgerExtent p.2).1 (ledgerExtent p.2).2

/-- A command that its state does not list (R203). -/
def State.durErr (s : State) (k : Nat) : State := s.setDur k { s.dur k with err := true }

/-- DEFINE and SILVER: from EMPTY into a state, the region checked. -/
def State.openRegion (s : State) (k : Nat) (dst : DurState) : State :=
  let d := s.dur k
  if d.state = .empty ∧ s.regionOk k d then s.setDur k { d with state := dst, mark := 0 } else s.durErr k

/-- DEFINE (R203). -/
def State.cmdDefine (s : State) (k : Nat) : State := s.openRegion k .loading

/-- SEAL: the digest starts. -/
def State.cmdSeal (s : State) (k : Nat) : State :=
  let d := s.dur k
  if d.state = .loading then s.setDur k { d with state := .sealing } else s.durErr k

/-- REOPEN: DIGEST is cleared. -/
def State.cmdReopen (s : State) (k : Nat) : State :=
  let d := s.dur k
  if d.state = .sealed then s.setDur k { d with state := .loading, digest := 0 } else s.durErr k

/-- SILVER (R203). -/
def State.cmdSilver (s : State) (k : Nat) : State := s.openRegion k .silvering

/-- ADVANCE: the mark moves; at the chunk count verification starts. -/
def State.cmdAdvance (s : State) (k : Nat) : State :=
  let d := s.dur k
  if d.state = .silvering then
    let m := d.mark + 1
    s.setDur k { d with mark := m, state := if m.toNat = d.chunks then .verifying else .silvering }
  else s.durErr k

/-- DECLARE_LOST. -/
def State.cmdLost (s : State) (k : Nat) : State :=
  let d := s.dur k
  if d.state = .empty then s.durErr k else s.setDur k { d with state := .lost }

/-- DISSOLVE: the contents stay. -/
def State.cmdDissolve (s : State) (k : Nat) : State := s.setDur k { s.dur k with state := .empty, mark := 0 }

/-- A code written to EAV_DUR_CTL_k.CMD (R203); code 0 is no command. -/
def State.durCommand (s : State) (k code : Nat) : State :=
  match code with
  | 0 => s
  | 1 => s.cmdDefine k
  | 2 => s.cmdSeal k
  | 3 => s.cmdReopen k
  | 4 => s.cmdSilver k
  | 5 => s.cmdAdvance k
  | 6 => s.cmdLost k
  | _ => s.cmdDissolve k

/-! ### The digest (R202) -/

/-- The shingles of a range of module memory, and what the digest met: the data of each, or nothing. -/
def State.digestShingles (s : State) (ma n : Nat) : List (Option (BitVec 256) × List (Mark × Nat)) :=
  (List.range n).map fun k => decodeAt s.eav.store (shingleIndex s.eav.hashCfg (ma + 32 * k))

/-- The digest of a region: SHA-384 over the SHA-384 of each chunk's data bytes; `none` with a lost shingle. -/
def State.regionDigest (s : State) (d : Dur) : Option (BitVec 384) :=
  let chunk := fun c => s.digestShingles (d.lo + c * 2 ^ 21) 65536
  if (List.range d.chunks).all fun c => (chunk c).all fun p => p.1.isSome then
    some (digestOf ((List.range d.chunks).flatMap fun c => sha384 ((chunk c).flatMap fun p => bytesOf (p.1.getD 0) 32)))
  else none

/-- What a digest met on its way, up to the shingle that ended it. -/
def State.digestMarks (s : State) (d : Dur) : List (Mark × Nat) :=
  let all := s.digestShingles d.lo (d.chunks * 65536)
  let good := all.takeWhile fun p => p.1.isSome
  (all.take (good.length + 1)).flatMap Prod.snd

/-- A digest's end (R202, R203): SEALED, or back with ERR on a lost shingle or a mismatch. -/
def State.endDigest (s : State) (k : Nat) (r : Option (BitVec 384)) : State :=
  let d := s.dur k
  match d.state, r with
  | .sealing, some v => s.setDur k { d with state := .sealed, digest := v }
  | .sealing, none => s.setDur k { d with state := .loading, err := true }
  | .verifying, some v =>
    if v = d.expect then s.setDur k { d with state := .sealed, digest := v }
    else s.setDur k { d with state := .silvering, mark := 0, err := true }
  | .verifying, none => s.setDur k { d with state := .silvering, mark := 0, err := true }
  | _, _ => s

/-- Whether a digest of the entry is running. -/
def digesting (d : Dur) : Bool := decide (d.state = .sealing) || decide (d.state = .verifying)

/-- DIGEST_DONE (R202, R203). -/
def execDigestDone (k : Fin 16) (s : State) : Host.Outcome State Fault Refusal :=
  .next (let d := s.dur k.val
    if digesting d then (s.endDigest k.val (s.regionDigest d)).eaveMarks eventOf (s.digestMarks d) else s)

/-- DEFINE (R194, R203). A command of the durable table comes through Thatch, and none in Sarking-only operation (R208, R354). -/
def execDefine (k : Fin 16) (s : State) : Host.Outcome State Fault Refusal :=
  .next (if s.served then s.cmdDefine k.val else s)

/-- SEAL (R203). -/
def execSealRegion (k : Fin 16) (s : State) : Host.Outcome State Fault Refusal :=
  .next (if s.served then s.cmdSeal k.val else s)

/-- REOPEN (R203). -/
def execReopen (k : Fin 16) (s : State) : Host.Outcome State Fault Refusal :=
  .next (if s.served then s.cmdReopen k.val else s)

/-- SILVER (R194, R203, R205). -/
def execSilver (k : Fin 16) (s : State) : Host.Outcome State Fault Refusal :=
  .next (if s.served then s.cmdSilver k.val else s)

/-- ADVANCE (R203, R205). -/
def execAdvance (k : Fin 16) (s : State) : Host.Outcome State Fault Refusal :=
  .next (if s.served then s.cmdAdvance k.val else s)

/-- DECLARE_LOST (R203, R206). -/
def execDeclareLost (k : Fin 16) (s : State) : Host.Outcome State Fault Refusal :=
  .next (if s.served then s.cmdLost k.val else s)

/-- DISSOLVE (R203). -/
def execDissolve (k : Fin 16) (s : State) : Host.Outcome State Fault Refusal :=
  .next (if s.served then s.cmdDissolve k.val else s)

end Sys2Proof.Machine
end

