-- ==== Sys2Proof/Machine/Gauge.lean ====
section
/-! DEFINITION. Gauge, the sealed meter (R308 to R317): the items of its channel, periods and their attribution, signed records
and the log, tamper, and the two read requests. -/

namespace Sys2Proof.Machine

open Sys2Proof

/-! ### What the module delivers (R309, R311) -/

/-- Ranges joined in ascending order: the bytes that at least one of them covers, from `lo` upward. -/
def unionBytes : Nat → List (Nat × Nat) → Nat
  | _, [] => 0
  | lo, (a, b) :: l => (b + 1 - max lo a) + unionBytes (max lo (b + 1)) l

/-- The home extent of a valid window. -/
def homeExtent (w : Window) : Nat × Nat :=
  if w.ledger then ledgerExtent w else (fld w.loc 16 25 * 2 ^ 16, fld w.loc 16 25 * 2 ^ 16 + (w.hi - w.lo))

/-- Bytes of module memory in a home extent of the bay's windows or in a durable region that is not EMPTY, counted once. -/
def Eav.occupied (e : Eav) : Nat :=
  let wins := (e.wins.filter fun p => p.2.valid).map fun p => homeExtent p.2
  let durs := (e.durs.filter fun p => decide (p.2.state ≠ .empty)).map fun p => (p.2.lo, min p.2.hi (moduleBytes - 1))
  unionBytes 0 ((wins ++ durs).mergeSort fun a b => decide (a.1 ≤ b.1))

/-- An item of the one-way channel (R309). -/
structure GaugeItem where
  sync : Bool
  bayState : BitVec 3
  tag : W16
  shape : BitVec 18
  bytes : List Nat
  occupied : Nat
  work : W64
deriving DecidableEq, Repr

/-- The item of the current beat. -/
def State.gaugeItem (s : State) : GaugeItem :=
  { sync := s.tim.sync, bayState := BitVec.ofNat 3 s.sec.state.code, tag := if s.admitted then s.sec.tag else 0, shape := s.sec.shape,
    bytes := s.pur.bytesIn, occupied := s.eav.occupied,
    work := if s.gab.told.toNat ≤ s.gab.work.toNat then s.gab.work - s.gab.told else s.gab.work }

/-- The counters of an item start again with it. -/
def State.itemSent (s : State) : State :=
  { s with pur := { s.pur with bytesIn := [0, 0, 0, 0, 0, 0] }, gab := { s.gab with told := s.gab.work } }

/-! ### Records (R314, R315) -/

def recInterval : Nat := 1
def recSplit : Nat := 2
def recPowerLoss : Nat := 3
def recPowerUp : Nat := 4
def recTamper : Nat := 5

/-- Records that the log holds. -/
def gaugeRing : Nat := 58254

/-- States that belong to a bay (R312). -/
def billed (st : BitVec 3) : Bool := decide (3 ≤ st.toNat)

/-- Bytes 0 to 191 of a record that closes the running period. `free` stands for the voltage where none was measured (log entry
5). -/
def Gau.recordBody (g : Gau) (type flags : Nat) (endBeat : W64) (free : Nat) : List Byte :=
  let p := g.period
  let measured := decide (p.vMin.toNat ≤ p.vMax.toNat)
  let fl := flags + 4 * p.range.toNat + 8 * p.lost.toNat
  bytesOf (0x47410001 : W32) 4 ++ bytesOf (BitVec.ofNat 64 g.nextSeq) 8 ++ [BitVec.ofNat 8 type, BitVec.ofNat 8 fl, 0, 0] ++
  bytesOf Config.serial 8 ++ bytesOf g.tag 2 ++ [0, 0] ++ bytesOf (BitVec.ofNat 32 g.shape.toNat) 4 ++ bytesOf g.admission 8 ++
  bytesOf p.start 8 ++ bytesOf endBeat 8 ++ bytesOf p.energy 8 ++ p.bytes.flatMap (fun w => bytesOf w 8) ++
  bytesOf (BitVec.ofNat 64 (p.occRest / 10 ^ 9)) 8 ++ bytesOf p.gable 8 ++
  bytesOf (if measured then p.vMin else BitVec.ofNat 16 free) 2 ++ bytesOf (if measured then p.vMax else BitVec.ofNat 16 (free / 65536)) 2 ++
  bytesOf p.pPeak 2 ++ [0, 0] ++ bytesOf g.lastHash 48 ++ List.replicate 8 0

/-- A record signed: 288 bytes. -/
def signRecord (body : List Byte) : List Byte := body ++ (Config.gaugeSign body ++ List.replicate 96 0).take 96

/-- The running period closed by a record, and the next one opened at its end; the occupancy's remainder stays with the bay. -/
def Gau.close (g : Gau) (type flags : Nat) (endBeat : W64) (free : Nat) : Gau :=
  if !g.keyOk then g
  else
    let r := signRecord (g.recordBody type flags endBeat free)
    { g with
      records := Tab.put [] g.records (g.nextSeq % gaugeRing) r
      nextSeq := g.nextSeq + 1
      lastHash := digestOf r
      period := { Period.reset with start := endBeat, occRest := g.period.occRest % 10 ^ 9 } }

/-- A new attribution: FORMING after a state without a bay is an admission (R312); another bay takes no remainder over. -/
def Gau.attribute (g : Gau) (st : BitVec 3) (tag : W16) (shape : BitVec 18) : Gau :=
  let moved := decide (billed g.bayState ≠ billed st)
  { g with
    admission := if !billed g.bayState ∧ st = 3 then g.admission + 1 else g.admission
    bayState := st
    tag := if billed st then tag else 0
    shape := shape
    next := none
    period := if moved then { g.period with occRest := 0 } else g.period }

/-- The attribution that was to begin at an interval boundary whose record has not been written: split there. -/
def Gau.applyNext (g : Gau) (free : Nat) : Gau :=
  match g.next with
  | some (st, tag, shape) => (g.close recSplit 0 g.lastBeat free).attribute st tag shape
  | none => g

/-- Gauge's own measurements of a beat added to the running period (R310). -/
def Gau.measure (g : Gau) (m : GaugeMeas) : Gau :=
  let p := g.period
  { g with
    power := m.watts
    period := { p with
      energy := p.energy + m.energy
      vMin := if m.volts.toNat < p.vMin.toNat then m.volts else p.vMin
      vMax := if p.vMax.toNat < m.volts.toNat then m.volts else p.vMax
      pPeak := if p.pPeak.toNat < m.watts.toNat then m.watts else p.pPeak
      range := p.range || decide (m.volts.toNat < 30000 ∨ 42000 < m.volts.toNat) } }

/-- An item's counters added to the running period. -/
def Gau.addItem (g : Gau) (i : GaugeItem) : Gau :=
  let p := g.period
  { g with period := { p with
      bytes := List.zipWith (fun a b => a + BitVec.ofNat 64 b) p.bytes i.bytes
      occRest := p.occRest + i.occupied
      gable := p.gable + i.work } }

/-- Whether a beat is an interval boundary (R313). -/
def boundary (beat : W64) : Bool := decide (beat.toNat % 2 ^ 26 = 0)

/-- An item taken: measured, counted, and the period split where the bay state moved between a bay and no bay; on an interval
boundary the INTERVAL record closes the period instead (R313), be it already written or still to come (log entry 98). -/
def Gau.take (g : Gau) (beat : W64) (i : GaugeItem) (m : GaugeMeas) (free : Nat) : Gau :=
  let g := (((g.applyNext free).measure m).addItem i)
  let g := { g with sync := i.sync, channelOk := true, lastBeat := beat }
  if billed g.bayState = billed i.bayState then g.attribute i.bayState i.tag i.shape
  else if i.sync ∧ boundary beat ∧ g.period.start = beat then g.attribute i.bayState i.tag i.shape
  else if i.sync ∧ boundary beat then { g with next := some (i.bayState, i.tag, i.shape) }
  else (g.close recSplit 0 beat free).attribute i.bayState i.tag i.shape

/-- GAUGE_BEAT_ITEM (R309 to R313): the item of a beat boundary. The module's counters start again with it, whether Gauge has power or not. -/
def execGaugeBeatItem (beat : W64) (meas : GaugeMeas) (s : State) : Host.Outcome State Fault Refusal :=
  let s := s.toBeat beat.toNat
  .next (if s.beat ≠ beat.toNat then s
    else if !s.gau.powered then s.itemSent
    else ({ s with gau := s.gau.take beat s.gaugeItem meas s.freeNat }.itemSent).spend 1)

/-- CHANNEL_LOST (R309): a beat without a well-formed item. Gauge measures on; what the module counted for the lost item is in no other. -/
def execChannelLost (beat : W64) (meas : GaugeMeas) (s : State) : Host.Outcome State Fault Refusal :=
  .next (if !s.gau.powered then s.itemSent
    else
      let g := (s.gau.applyNext s.freeNat).measure meas
      { s with gau := { g with channelOk := false, lastBeat := beat, period := { g.period with lost := true } } }.itemSent.spend 1)

/-- Whether an interval by Gauge's own oscillator differs from 2^36 ns by more than 0.1 %. -/
def suspect (elapsed : W64) : Bool := decide (2 ^ 36 < 1000 * (max elapsed.toNat (2 ^ 36) - min elapsed.toNat (2 ^ 36)))

/-- INTERVAL (R313): at a boundary beat while SYNC is 1, once; else by Gauge's own oscillator, rack time held or not. -/
def execInterval (beat elapsed : W64) (ownClock : Bool) (s : State) : Host.Outcome State Fault Refusal :=
  .next (if !s.gau.powered ∨ ownClock = s.gau.sync ∨ (!ownClock ∧ (!boundary beat ∨ s.gau.period.start = beat)) then s
    else
      let g := s.gau.close recInterval ((suspect elapsed).toNat + 2 * ownClock.toNat) beat s.freeNat
      let g := match g.next with
        | some (st, tag, shape) => g.attribute st tag shape
        | none => g
      { s with gau := g }.spend 1)

/-- The input below 250 V within the running period: it left 300 to 420 V, and its least voltage, which no command gives, is a free value
below that (R308, R313, R314; log entry 5). -/
def Gau.fell (g : Gau) (free : Nat) : Gau :=
  let p := g.period
  let v : W16 := BitVec.ofNat 16 (free % 25000)
  { g with period := { p with range := true, vMin := if v.toNat < p.vMin.toNat then v else p.vMin, vMax := if p.vMax.toNat < v.toNat then v else p.vMax } }

/-- A period on hold-up after POWER_LOSS: the input below 250 V, and no module counter. -/
def Gau.dark (g : Gau) (free : Nat) : Gau :=
  let h := g.fell free
  { h with period := { h.period with lost := true } }

/-- The period of an outage, which POWER_UP closes: at its end the input is above 250 V. -/
def Gau.outage (g : Gau) (free : Nat) : Gau :=
  let h := g.dark free
  { h with period := { h.period with vMax := BitVec.ofNat 16 (25000 + free / 25000 % 40536) } }

/-- How long Gauge's hold-up lasts: at least 2 s (R308). -/
def holdUpTime : Nat := 10 ^ 10 + Config.holdUpMore

/-- POWER_LOSS (R308, R313): the record closes the period inside the hold-up, and Gauge measures no more; the pin is driven until the hold-up has run
out, by the module's clock (log entry 98). -/
def execPowerLoss (s : State) : Host.Outcome State Fault Refusal :=
  .next (if !s.gau.powered then s
    else { s with pins := { s.pins with sealUntil := s.tim.up + holdUpTime }
                  gau := { ((s.gau.applyNext s.freeNat).fell s.freeNat).close recPowerLoss 0 s.gau.lastBeat s.freeNat with powered := false, channelOk := false } }.spend 1)

/-- POWER_UP (R313): its record opens the next period. -/
def execPowerUp (beat : W64) (s : State) : Host.Outcome State Fault Refusal :=
  .next (if s.gau.powered then s
    else { s with gau := ({ s.gau with powered := true, lastBeat := beat }.outage s.freeNat).close recPowerUp 0 beat s.freeNat }.spend 1)

/-- TAMPER (R316): the TAMPER record, on hold-up too, then the key is destroyed. No record follows. -/
def execTamper (s : State) : Host.Outcome State Fault Refusal :=
  .next (if !s.gau.sealOk then s
    else
      let g := if s.gau.powered then s.gau else s.gau.dark s.freeNat
      { s with gau := { g.close recTamper 0 s.gau.lastBeat s.freeNat with keyOk := false, sealOk := false } }.spend 1)

/-! ### Reading (R317) -/

/-- A record of the log by SEQ, while it is not overwritten. -/
def Gau.record (g : Gau) (seq : Nat) : Option (List Byte) :=
  if seq < g.nextSeq ∧ g.nextSeq ≤ seq + gaugeRing then some (Tab.get [] g.records (seq % gaugeRing)) else none

/-- LOG_READ (R317): up to 16 records from a SEQ on. -/
def execLogRead (first : W64) (count : Byte) (s : State) : Host.Outcome State Fault Refusal :=
  .next (s.emit (.gauge ((upFrom first.toNat (min count.toNat 16)).filterMap s.gau.record)))

/-- CERT_READ (R317). -/
def execCertRead (s : State) : Host.Outcome State Fault Refusal := .next (s.emit (.cert Config.gauCert))

end Sys2Proof.Machine
end

