-- ==== Sys2Proof/Machine/Gutter.lean ====
section
/-! DEFINITION. Gutter (R285 to R307): windows, the write-1 registers, STOP, the drain, QUIESCENT and the fences, restart, HELD, the
poll of Jalem counters, and margins with the health score. -/

namespace Sys2Proof.Machine

open Sys2Proof

def State.setGut (s : State) (f : Gut → Gut) : State := { s with gut := f s.gut }

/-! ### Windows and records (R286, R290, R291, R297) -/

/-- SOURCE_WINDOW_CLOSE (R286): at a beat by which the window has been open for 2^WIN beats. -/
def execSourceWindowClose (n : Fin 23) (beat : W64) (s : State) : Host.Outcome State Fault Refusal :=
  let s := s.toBeat beat.toNat
  .next (s.setGut fun g => { g with srcs := Tab.upd Src.zero g.srcs n.val fun c => c.expire s.beat })

/-- GUT_FATAL.VALID written 1: ignored while the phase is STOPPING, DRAINING or HELD (R291). -/
def State.clearFatal (s : State) : State :=
  if s.gut.phase = .stopping ∨ s.gut.phase = .draining ∨ s.gut.phase = .held then s
  else s.setGut fun g => { g with fatal := setBit g.fatal 63 false }

/-- GUT_FATAL_VALID (R291). -/
def execGutFatalValid (who : Requester) (s : State) : Host.Outcome State Fault Refusal := .next (if s.reaches who then s.clearFatal else s)

/-- GUT_CAP_STATUS.CLEAR written 1 (R290). -/
def State.clearCaptures (s : State) : State := s.setGut fun g => { g with caps := [] }

/-- GUT_CAP_STATUS_CLEAR (R290): CLEAR is not among the fields that R344 opens in band. -/
def execGutCapStatusClear (who : Requester) (s : State) : Host.Outcome State Fault Refusal :=
  .next (if s.reaches who ∧ who ≠ .inBand then s.clearCaptures else s)

/-- GUT_FENCE_PORT_w written (R297): the operator clears fences while QUIESCENT, or with no bay. -/
def State.clearFences (s : State) (w : Nat) (value : W64) : State :=
  if s.gut.phase = .quiescent ∨ !s.admitted then
    s.setGut fun g => { g with fencePorts := g.fencePorts &&& ~~~ BitVec.ofNat 144 (value.toNat * 2 ^ (64 * w)) }
  else s

/-- GUT_FENCE_PORT (R297): through the management interfaces. -/
def execGutFencePort (who : Requester) (w : Fin 3) (value : W64) (s : State) : Host.Outcome State Fault Refusal :=
  .next (if s.mgmt who then s.clearFences w.val value else s)

/-! ### STOP (R294, R295) -/

/-- The bay is in a teardown: state TEARDOWN or HELD. -/
def State.tornDown (s : State) : Bool := decide (s.sec.state = .teardown) || decide (s.sec.state = .held)

/-- A STOP: at a module already in teardown it has no effect; else fatal fault 12 or 13, with its event. -/
def State.stopBay (s : State) (code : Nat) (via : Option (Fin 144)) (e : Event) : State :=
  if s.tornDown then s
  else
    let s := (s.note e 2 code).fatalFor code .nothing via
    s.logEvent 2 [s.gut.fatal] true

/-- GUT_TD_CTL_STOP (R294): through the management interfaces. -/
def execGutTdCtlStop (who : Requester) (s : State) : Host.Outcome State Fault Refusal :=
  .next (if s.mgmt who then s.stopBay 12 none (eventOf 22) else s)

/-- A request of the bay's fabric manager: the service node that the image names, in the own rack (R344). -/
def State.fromManager (s : State) (h : Header) : Bool := decide (some h.srcNode = s.sof.fmNode) && s.ownRack h.srcRack.toNat

/-- A TEARDOWN frame accepted from a module, or with STOP from the fabric manager (R294, R344): its effect and its answer. -/
def State.teardownFrame (s : State) (n : Fin 144) (h : Header) : State :=
  let hip := s.hipPartner n h
  let stop := decide (teardownAction h = 0)
  if !hip && !(s.fromManager h && stop) then s.answer n (errorFrame h stNoRight)
  else if 2 ≤ teardownAction h ∨ h.aux &&& ~~~ 0xFFFF03 ≠ 0 then s.answer n (errorFrame h stBadRequest)
  else
    let s := if stop then s.stopBay (if hip then 13 else 12) (if hip then some n else none) (requestEvent 22 h) else s
    s.answer n (ackFrame h)

/-- TEARDOWN_STOP (R294, R295): a TEARDOWN frame that reaches the module. -/
def execTeardownStop (n : Fin 144) (f : Frame) (s : State) : Host.Outcome State Fault Refusal :=
  .next (if f.hdr.opcode ≠ opTeardown then s
    else match s.agentTake agSoffit n f with
      | .error s => s
      | .ok s => s.teardownFrame n f.hdr)

/-- STOP_ACK_TIMEOUT (R296): 1 ms without the acknowledgement. The port is taken DOWN, its STOP no longer awaited. No
reason of FAIL fits: the old one stays (DESIGN CHOICE, log entry 108). -/
def execStopAckTimeout (n : Fin 144) (s : State) : Host.Outcome State Fault Refusal :=
  .next (if !s.gut.stopWait.any fun w => decide (w.1 = n) then s
    else
      let s := s.setGut fun g => { g with stopWait := g.stopWait.filter fun w => decide (w.1 ≠ n) }
      if s.isActive n.val ∨ (s.mport n.val).train.state = .retrain then s.portDown (.module n) .down (s.mport n.val).train.fail else s)

/-! ### QUIESCENT (R296) -/

/-- The conditions of R296 for QUIESCENT. -/
def State.quiet (s : State) : Bool :=
  decide (s.gut.stopWait = []) && (s.ports.all fun p => decide (p.2.pendLog = [])) && (s.pur.queues.all fun p => decide (p.2.items = [])) &&
    decide (s.pur.bundles = []) && (s.eav.eaves.all fun p => decide (p.2.homeQ = [])) && decide (s.gab.slots = [])

/-! ### Fences and the end of a teardown (R297, R300) -/

/-- A port held and fenced: FAIL 6 after a second tag failure, else the old reason (log entry 108). -/
def State.fencePort (s : State) (n : Fin 144) : State :=
  let held := fun (x : Port) => let y := x.hold (if x.train.sealFault then 6 else x.train.fail); { y with train := { y.train with sealFault := false } }
  let s := (s.updPort (.module n) held).answerLost n
  s.setGut fun g => { g with fencePorts := setFld g.fencePorts n.val 1 1 }

/-- The object of a fatal fault fenced. -/
def State.fenceObj (s : State) (o : FaultObj) : State :=
  match o with
  | .nothing => s
  | .port n => s.fencePort n
  | .node n => s.fencePort (Fin.ofNat 144 n.toNat)
  | .module => s.setGut fun g => { g with needService := true }

/-- A teardown complete: fences in force, ports that went DOWN in the bay train anew (R46), no node stays declared lost (R124), and
the phase QUIESCENT, or HELD after three restarts (R300). -/
def State.becomeQuiet (s : State) : State :=
  let s := s.gut.toFence.foldl State.fenceObj s
  let s : State := { s with
    pur := { s.pur with nodeLost := 0 }
    gut := { s.gut with toFence := [], phase := if s.gut.endHeld then .held else .quiescent } }
  let s := (allPorts.filter fun n => !s.fenced n.val).foldl (fun s n => s.updPort (.module n) Port.afterTeardown) s
  if s.gut.endHeld then s.setBay .held else s

/-- QUIESCENT (R296, R297, R300). -/
def execQuiescent (s : State) : Host.Outcome State Fault Refusal :=
  .next (if s.gut.phase ≠ .stopping ∧ s.gut.phase ≠ .draining then s
    else
      let s := s.drainNow
      if s.quiet then s.becomeQuiet else s)

/-! ### Restart (R299, R300) -/

/-- RESTART is accepted. -/
def State.restartOk (s : State) : Bool :=
  decide (s.gut.phase = .quiescent) && !s.gut.needService && s.tim.sync && decide (s.restarts < 3)

/-- RESTART written: accepted, or refused with ERR. -/
def State.restartBay (s : State) : State :=
  if !s.restartOk then s.setGut fun g => { g with tdErr := true }
  else
    let s := s.setGut fun g => { g with history := (BitVec.ofNat 54 s.beat :: g.history).take 3, phase := .resuming }
    let r := s.sendAll (allPorts.filter fun n => s.bayPort n && decide (portRole n.val ≠ .hip)) 1
    r.2.setGut fun g => { g with resumeWait := r.1 }

/-- GUT_TD_CTL_RESTART (R299, R300): through the management interfaces. -/
def execGutTdCtlRestart (who : Requester) (s : State) : Host.Outcome State Fault Refusal := .next (if s.mgmt who then s.restartBay else s)

/-- A RESUME may still be acknowledged: its port is up. -/
def State.resumeDue (s : State) (w : Fin 144 × W16) : Bool := s.isActive w.1.val || decide ((s.mport w.1.val).train.state = .retrain)

/-- RESUME_ACKNOWLEDGED (R299, R276): the phase is cleared, and the bay is in the state in which the teardown began. -/
def execResumeAcknowledged (s : State) : Host.Outcome State Fault Refusal :=
  .next (if s.gut.phase = .resuming ∧ !s.gut.resumeWait.any s.resumeDue then
      (s.setGut fun g => { g with phase := .none, resumeWait := [] }).setBay s.sec.resumeTo
    else s)

/-- UNHOLD written (R300): the history is cleared, the phase QUIESCENT, the bay in TEARDOWN. -/
def State.unhold (s : State) : State :=
  if s.gut.phase = .held then (s.setGut fun g => { g with history := [], endHeld := false, phase := .quiescent }).setBay .teardown else s

/-- GUT_TD_CTL_UNHOLD (R300): ignored in band. -/
def execGutTdCtlUnhold (who : Requester) (s : State) : Host.Outcome State Fault Refusal := .next (if s.mgmt who then s.unhold else s)

/-! ### Jalem counters (R292) -/

/-- The nodes that this module polls: those of its share whose port is ACTIVE. -/
def State.pollNodes (s : State) : List (Fin 144) :=
  allPorts.filter fun n => decide (n.val < 128 ∧ n.val % 16 = s.index) && s.isActive n.val

/-- A CTRL_RD of the six words of a node's counters; its answer is awaited. -/
def State.poll (s : State) (n : Fin 144) : State :=
  let t := s.soffitSend n (s.soffitHdr opCtrlRd (s.partnerFpa n 0xA0000) 5 0) []
  t.setGut fun g => { g with polls := g.polls ++ [(n, s.sof.sofTag)] }

/-- The nodes of a poll in the order in which it reads them: those of `order` first, then the rest. R292 gives no order (log entry 52). -/
def State.pollOrder (s : State) (order : List (Fin 144)) : List (Fin 144) :=
  (order.filter (fun n => decide (n ∈ s.pollNodes)) ++ s.pollNodes).dedup

/-- JALEM_POLL (R292): at a beat that is a multiple of 2^16. The answers are added to source 16 as they arrive (`State.pollAnswer`). -/
def execJalemPoll (beat : W64) (order : List (Fin 144)) (s : State) : Host.Outcome State Fault Refusal :=
  let s := s.toBeat beat.toNat
  .next (if beat.toNat % 65536 = 0 ∧ bitAt s.gut.ctrl 8 ∧ s.admitted then (s.pollOrder order).foldl State.poll s else s)

/-! ### Margins (R304, R305) -/

/-- A score: linear between floor and nominal, clamped (R304), rounded down (log entry 29). -/
def score (floor nominal v : Nat) : Nat := min 255 ((v - floor) * 255 / (nominal - floor))

/-- A lane's measures with their codes. -/
def laneScores (l : Nat × Nat × Nat) : List (Nat × Nat) :=
  [(score 15000 60000 l.1, 0), (score 8000 30000 l.2.1, 1), (score 5000 8000 l.2.2, 2)]

/-- The least of scores with lane and measure; the first of equal ones. -/
def leastScore (l : List (Nat × Nat × Nat)) : Nat × Nat × Nat :=
  l.foldl (fun a b => if b.1 < a.1 then b else a) (l.headD (255, 0, 0))

/-- The score of a measurement, with lane and measure. -/
def marginScore (o : MarginObj) (m : MarginMeas) : Nat × Nat × Nat :=
  match o with
  | .port _ => leastScore (m.lanes.zipIdx.flatMap fun p => (laneScores p.1).map fun q => (q.1, p.2, q.2))
  | .eave _ => (score 8000 40000 m.value, 0, 3)
  | .rail _ => (score 1000 5000 m.value, 0, 4)

/-- The index of an object in the health table: ports, then eaves, then rails. -/
def healthKey : MarginObj → Nat
  | .port n => n.val
  | .eave n => 144 + n.val
  | .rail n => 176 + n.val

/-- An entry after a measurement (R305): four in a row below the level enter DEGRADED, four at or above leave it. -/
def Health.take (h : Health) (level : Nat) (m : Nat × Nat × Nat) : Health :=
  let h := { h with score := BitVec.ofNat 8 m.1, lane := BitVec.ofNat 3 m.2.1, measure := BitVec.ofNat 3 m.2.2 }
  if m.1 < level then
    let k := min 4 (h.below + 1)
    { h with below := k, above := 0, degraded := h.degraded || decide (k = 4) }
  else
    let k := min 4 (h.above + 1)
    { h with above := k, below := 0, degraded := h.degraded && decide (k < 4) }

/-- The event of an object that enters DEGRADED (R289): a port with the lane of its least score, an eave with the first address of its memory. -/
def State.degradeEvent (s : State) (o : MarginObj) (lane : Nat) : Event :=
  match o with
  | .port n => { linkEvent 19 n.val with addr := packW 64 [(0, n.val), (8, lane)] }
  | .eave n => { eventOf 19 with addr := BitVec.ofNat 64 (maOfIndex s.eav.hashCfg (n.val * eaveShingles)) }
  | .rail _ => eventOf 19

/-- An object enters DEGRADED: source 19, and COMMON with the eighth entry within 2^20 beats. -/
def State.degrade (s : State) (o : MarginObj) (lane : Nat) : State :=
  let l := (s.beat :: s.gut.degradedAt).take 8
  let near := l.filter fun b => decide (s.beat < b + 2 ^ 20)
  (s.setGut fun g => { g with degradedAt := l, common := g.common || decide (near.length = 8) }).count (s.degradeEvent o lane)

/-- MARGIN_MEASUREMENT (R304, R305). -/
def execMarginMeasurement (o : MarginObj) (m : MarginMeas) (beat : W64) (s : State) : Host.Outcome State Fault Refusal :=
  let s := s.toBeat beat.toNat
  let old := Tab.get Health.reset s.gut.health (healthKey o)
  let h := old.take (fld s.gut.ctrl 16 8) (marginScore o m)
  let s := s.setGut fun g => { g with health := Tab.put Health.reset g.health (healthKey o) h }
  .next (if h.degraded ∧ !old.degraded then s.degrade o h.lane.toNat else s)

end Sys2Proof.Machine
end

