-- ==== Sys2Proof/Machine/Spar.lean ====
section
/-! DEFINITION. The Spar test engines (R356, R357, R359): patterns, the generator and the checker, and TEST frames at both devices. -/

namespace Sys2Proof.Machine

open Sys2Proof

def State.updSpar (s : State) (n : Fin 144) (f : Spar → Spar) : State := s.updPort (.module n) fun x => { x with spar := f x.spar }

/-! ### Patterns (R356) -/

/-- A port of the admitted bay: a used rafter port, a used hip port inside it, or a used service port with SEAL (R258). -/
def State.ofBay (s : State) (n : Fin 144) : Bool :=
  let t := (s.mport n.val).train
  s.admitted && decide (t.role ≠ .unused) &&
    (match portRole n.val with
     | .hip => !s.hipIdle n
     | .service => bitAt t.features featSeal
     | _ => true)

/-- R356 allows a pattern: the port is in DISABLED, DOWN or HELD, and no port of an admitted bay. A module stopped in mask ROM drives none, nor
does one in Sarking-only operation (R346). -/
def State.mayPattern (s : State) (n : Fin 144) : Bool :=
  s.served && decide ((s.mport n.val).train.state ∈ [PState.disabled, .down, .held]) && !s.ofBay n

/-- The lane checkers' error counts raised by what the lanes deliver (free, log entry 5). -/
def addLaneErrors (lanes : Tab W32) (free : Nat → Nat) : Tab W32 :=
  (List.range 8).foldl (fun t l => Tab.upd 0 t l fun w => satAdd w (free l)) lanes

/-- MODE 1 or 2 written: every lane is driven, and every checker locks; refused while R356 forbids it. -/
def State.setPattern (s : State) (n : Fin 144) (mode : Nat) : State :=
  if s.mayPattern n then
    (s.updSpar n fun x =>
      { x with ctl := setFld (setFld x.ctl 0 2 mode) 8 8 0xFF, lanes := addLaneErrors x.lanes fun l => Config.freeNat (s.fresh + l) }).spend 8
  else s

/-- PRBS31 (R356). -/
def execPrbs31 (n : Fin 144) (s : State) : Host.Outcome State Fault Refusal := .next (s.setPattern n 1)

/-- PRBS13Q (R356). -/
def execPrbs13q (n : Fin 144) (s : State) : Host.Outcome State Fault Refusal := .next (s.setPattern n 2)

/-- MODE 0 written: a pattern stops, and the port is DISABLED; a fenced port is HELD (R297). -/
def State.patternOff (s : State) (n : Fin 144) : State :=
  if fld (s.mport n.val).spar.ctl 0 2 = 0 then s
  else
    let st : PState := if s.fenced n.val then .held else .disabled
    s.updPort (.module n) fun x =>
      { x with spar := { x.spar with ctl := setFld (setFld x.spar.ctl 0 2 0) 8 8 0 }
               train := { x.train with state := st, bayDown := false, asDown := false } }

/-- PATTERN_OFF (R356). -/
def execPatternOff (n : Fin 144) (s : State) : Host.Outcome State Fault Refusal := .next (if s.served then s.patternOff n else s)

/-! ### The data of a stream (R357) -/

/-- `n` bytes of PRBS31 from a register, and the register after them. -/
def prbsRun (st : BitVec 31) : Nat → List Byte × BitVec 31
  | 0 => ([], st)
  | n + 1 =>
    match prbsByte st 8 with
    | (b, st) => match prbsRun st n with
      | (l, st) => (b :: l, st)

/-- The register whose first 31 output bits are the first bits of a run of bytes. -/
def prbsSync (l : List Byte) : BitVec 31 := (BitVec.ofNat 31 (natOfBytes (l.take 4))).reverse

/-- A 256-bit word of eight equal or incrementing 32-bit words. -/
def wordRow (f : Nat → Nat) : BitVec 256 := packW 256 ((List.range 8).map fun i => (32 * i, f i % 2 ^ 32))

/-- The data of frame `num` of `len` shingles by PATTERN, and the PRBS31 register after it. -/
def patternData (pattern len : Nat) (word num : W32) (st : BitVec 31) : List (BitVec 256) × BitVec 31 :=
  match pattern with
  | 1 =>
    let r := prbsRun st (32 * len)
    ((List.range len).map fun i => BitVec.ofNat 256 (natOfBytes ((r.1.drop (32 * i)).take 32)), r.2)
  | 2 => ((List.range len).map fun i => wordRow fun k => (num.toNat * len + i) * 8 + k, st)
  | 3 => (List.replicate len (wordRow fun _ => word.toNat), st)
  | _ => (List.replicate len 0, st)

/-! ### The generator (R356, R357) -/

/-- The header of the generator's next frame on a port. -/
def State.genHdr (s : State) (n : Fin 144) (x : Spar) : Header :=
  let len := min (fld x.gen 11 4) 8
  { opcode := BitVec.ofNat 8 (fld x.gen 0 8), course := BitVec.ofNat 3 (fld x.gen 8 3), sub := 0, len := BitVec.ofNat 4 len, poison := 0
    attr := packW 8 [(0, fld x.gen 15 1), (1, fld x.gen 16 2)], fpa := fpaOf 0xFF (s.partnerNode n) 0, srcNode := BitVec.ofNat 8 s.node
    srcRack := s.sec.rack, srcEngine := 0xFC, tag := x.txNum.truncate 16, bayTag := s.sec.tag, status := 0
    aux := packW 64 [(0, x.txNum.toNat % 2 ^ 32), (32, n.val)], rsvd := 0 }

/-- What the generator may send: on an ACTIVE port; within an admitted bay only TEST on course 5. -/
def State.mayGenerate (s : State) (n : Fin 144) : Bool :=
  let x := (s.mport n.val).spar
  s.isActive n.val && decide (fld x.gen 8 3 ≤ 5) && (!s.admitted || (decide (fld x.gen 0 8 = 0x40) && decide (fld x.gen 8 3 = 5)))

/-- One frame generated: put up for sending, with its time where an echo is due, until the lath that takes it goes; the generator stops after FRAMES frames. -/
def State.generate (s : State) (n : Fin 144) : State :=
  let x := (s.mport n.val).spar
  let h := s.genHdr n x
  match patternData (fld x.gen 16 2) h.len.toNat (BitVec.ofNat 32 (fld x.gen 32 32)) (x.txNum.setWidth 32) x.txPrbs with
  | (d, st) =>
    let last := decide (x.genCount ≠ 0 ∧ x.genCount.toNat ≤ x.txNum.toNat + 1)
    let s := s.updSpar n fun x => { x with
      txNum := x.txNum + 1, txPrbs := st, ctl := if last then setBit x.ctl 2 false else x.ctl
      sentAt := if isPosted h then x.sentAt else x.sentAt ++ [(x.txNum.setWidth 32, s.ns)] }
    s.sendOn agSoffit (.module n) { hdr := h, data := d.map encodeShingle }

/-- GEN_EN set: a stream begins at frame 0. -/
def Spar.begin (x : Spar) : Spar :=
  if bitAt x.ctl 2 then x else { x with ctl := setBit x.ctl 2 true, txNum := 0, txPrbs := 0x7FFFFFFF, sentAt := [], echoAt := [] }

/-- The generator runs, and while GEN_EN is 1 sends its next frame where it may; nobody starts one in Sarking-only operation (R346, R354). -/
def State.genEn (s : State) (n : Fin 144) : State :=
  let s := if s.served then s.updSpar n Spar.begin else s
  if bitAt (s.mport n.val).spar.ctl 2 ∧ s.mayGenerate n then s.generate n else s

/-- GEN_EN (R356, R357). -/
def execGenEn (n : Fin 144) (s : State) : Host.Outcome State Fault Refusal := .next (s.genEn n)

/-! ### The checker (R356, R357) -/

/-- Shingles of a frame that differ from the expected data or have a nonzero syndrome. -/
def dataErrors (data : List Shingle) (want : List (BitVec 256)) : Nat :=
  ((data.zip want).filter fun p => flashBad p.1 || decide ((decodeShingle p.1).data ≠ some p.2)).length

/-- The checker's registers after a TEST or TEST_ECHO frame: frames, gaps and repeats, and data errors; what it expects next.
An echo carries no ATTR, so its pattern is the generator's. -/
def Spar.take (x : Spar) (f : Frame) : Spar :=
  let num : W32 := BitVec.ofNat 32 (fld f.hdr.aux 0 32)
  let stream := fld f.hdr.aux 32 8
  let old := Tab.get none x.rx stream
  let gap := decide (num ≠ 0) && old.any fun p => decide (p.1 ≠ num)
  let pattern := if f.hdr.opcode = opTest then fld f.hdr.attr 1 2 else fld x.gen 16 2
  let st := if num = 0 then 0x7FFFFFFF
    else match old, gap with
      | some p, false => p.2
      | _, _ => prbsSync (bytesOf (f.data.headD 0) 4)
  match patternData pattern f.data.length (BitVec.ofNat 32 (fld x.gen 32 32)) num st with
  | (want, st) =>
    let chk := satFld (satFld (satFld x.chk 0 32 1) 32 16 gap.toNat) 48 16 (dataErrors f.data want)
    { x with chk := chk, rx := Tab.put none x.rx stream (some (num + 1, st)) }

/-- Whether a port's checker runs (R356, R359). -/
def State.checks (s : State) (n : Fin 144) : Bool := bitAt (s.mport n.val).spar.ctl 3 && s.isActive n.val

/-- A frame at a port's checker, while it runs. -/
def State.check (s : State) (n : Fin 144) (f : Frame) : State := if s.checks n then s.updSpar n fun x => x.take f else s

/-- A round trip recorded, in ns: from the lath that took the TEST to the one that brought the echo (R67); for an echo that no lath brought, to
now. -/
def Spar.roundTrip (x : Spar) (num : W32) (now : Nat) : Spar :=
  match x.sentAt.find? fun p => decide (p.1 = num) with
  | none => x
  | some p =>
    let came := ((x.echoAt.find? fun q => decide (q.1 = num)).map Prod.snd).getD now
    let t := min (came - p.2) (2 ^ 32 - 1)
    { x with
      sentAt := x.sentAt.filter fun q => decide (q.1 ≠ num), echoAt := x.echoAt.filter fun q => decide (q.1 ≠ num)
      lat := packW 64 [(0, min (fld x.lat 0 32) t), (32, max (fld x.lat 32 32) t)] }

/-! ### TEST and TEST_ECHO (R357) -/

/-- The echo of a TEST frame: its AUX and data. -/
def echoFrame (f : Frame) : Frame :=
  { hdr := respHdr f.hdr opTestEcho stOk f.data.length f.hdr.poison f.hdr.aux, data := f.data }

/-- TEST at a module: checked, and echoed where it is not posted. -/
def State.moduleTest (s : State) (n : Fin 144) (f : Frame) : State :=
  match s.agentTake agSpar n f with
  | .error s => s
  | .ok s =>
    let s := s.check n f
    if isPosted f.hdr then s else s.answer n (echoFrame f)

/-- TEST at the Jalem block: echoed, or discarded where it is posted; one that fails a check is refused. -/
def State.jebTest (s : State) (p : PortRef) (f : Frame) : State :=
  let s := s.jebTake p f
  match s.jebForm p f.hdr with
  | some c => if isPosted f.hdr then s.jebDropPosted f.hdr else s.jebRefuse p f.hdr c
  | none => if isPosted f.hdr then s else s.jebSend p (echoFrame f)

/-- TEST (R357): a TEST frame that arrives on a port. -/
def execTest (p : PortRef) (f : Frame) (s : State) : Host.Outcome State Fault Refusal :=
  .next (if f.hdr.opcode ≠ opTest then s
    else match p with
      | .module n => s.moduleTest n f
      | p => s.jebTest p f)

/-- TEST_ECHO (R357): an echo that arrives on a port. A Jalem block sends no TEST, so one is a response without a request there. -/
def execTestEcho (p : PortRef) (f : Frame) (s : State) : Host.Outcome State Fault Refusal :=
  .next (if f.hdr.opcode ≠ opTestEcho then s
    else match p with
      | .module n =>
        match s.agentTake agSpar n f with
        | .error s => s
        | .ok s => if s.checks n then (s.check n f).updSpar n fun x => x.roundTrip (BitVec.ofNat 32 (fld f.hdr.aux 0 32)) s.ns else s
      | p => (s.jebTake p f).jebDropResponse f.hdr)

end Sys2Proof.Machine
end

