-- ==== Sys2Proof/Machine/FlashMem.lean ====
section
/-! DEFINITION. Soffit's memories (R335, R336, R351): the two domains' reach into the SRAM, the immutable stage against its digest, the layout of
the flash, and who writes each part of it. -/

namespace Sys2Proof.Machine

open Sys2Proof

def State.setSof (s : State) (f : Sof → Sof) : State := { s with sof := f s.sof }

/-! ### Domains and SRAM (R335) -/

/-- The two privilege domains of the Soffit processor (R335). -/
inductive Domain where
  | sarking
  | thatch
deriving DecidableEq, Repr

/-- Bytes of SRAM, and those of them that only Sarking reaches. -/
def sramBytes : Nat := 2 ^ 21
def sarkingSram : Nat := 2 ^ 19

/-- Whether a domain reaches a byte of the SRAM. -/
def Domain.reachesSram (d : Domain) (a : Nat) : Bool := decide (a < sramBytes) && (decide (d = .sarking) || decide (sarkingSram ≤ a))

/-- A byte of the SRAM as a domain reads it; `none` where the firewall refuses. -/
def State.sramByte (s : State) (d : Domain) (a : Nat) : Option Byte := if d.reachesSram a then some (Tab.get 0 s.sof.sram a) else none

/-! ### The immutable stage (R335, R345, R346) -/

/-- Bytes of the immutable stage: 256 KiB, which nothing writes. -/
def stageBytes : Nat := 2 ^ 18

/-- A byte of the immutable stage: what manufacture wrote, but for what has failed since. -/
def State.stageByte (s : State) (a : Nat) : Option Byte :=
  if a < stageBytes then some (Config.stageByte a ^^^ Tab.get 0 s.sof.stage a) else none

/-- The immutable stage hashed and compared with its stored digest, which manufacture computed over what it wrote: they match exactly while every
byte reads as written (log entry 122). -/
def State.stageMatches (s : State) : Bool := decide (s.sof.stage = [])

/-- A bit of the stage's memory has failed, so that its digest mismatches: which one no command tells (log entry 5). -/
def State.stageFails (s : State) : State :=
  (s.setSof fun x => { x with stage := Tab.put 0 x.stage (s.freeNat % stageBytes) 1 }).spend 1

/-! ### The flash (R336) -/

/-- The areas of the flash. -/
inductive FlashArea where
  | slot (i : Fin 2)
  | copy (i : Fin 2)
  | log
  | reserved
  | factory
deriving DecidableEq, Repr

/-- The flash: offset, size and area (R336). -/
def flashLayout : List (Nat × Nat × FlashArea) :=
  [(0x0000000, 0x800000, .slot 0), (0x0800000, 0x800000, .slot 1), (0x1000000, 0x400000, .copy 0), (0x1400000, 0x400000, .copy 1),
   (0x1800000, 0x800000, .reserved), (0x2000000, 0x1000000, .log), (0x3000000, 0xF00000, .reserved), (0x3F00000, 0x100000, .factory)]

/-- Bytes of a Thatch slot. -/
def thatchSlotBytes : Nat := 0x800000

/-- The area of a flash address, with the offset within it. -/
def flashAt (a : Nat) : Option (FlashArea × Nat) :=
  (flashLayout.find? fun r => decide (r.1 ≤ a ∧ a < r.1 + r.2.1)).map fun r => (r.2.2, a - r.1)

/-- Who writes a part: the factory data and the slot headers only Sarking, a reserved area nobody, the rest either domain (R336, R351). -/
def Domain.writes (d : Domain) : FlashPart → Bool
  | .reserved => false
  | .header _ | .factory => decide (d = .sarking)
  | .body _ | .copy _ | .log => true

/-- What a domain writes to the flash: a slot's header or its image, or a configuration copy. -/
inductive FlashWrite where
  | header (i : Fin 2) (state : FwState) (major minor : Byte) (svn : W16) (sigOk : Bool)
  | body (i : Fin 2) (bytes : List Byte)
  | copy (i : Fin 2) (img : Option CfgImage)
deriving DecidableEq, Repr

/-- The part that a write is of. -/
def FlashWrite.part : FlashWrite → FlashPart
  | .header i .. => .header i
  | .body i _ => .body i
  | .copy i _ => .copy i

/-- The flash after a write. -/
def Sof.written (x : Sof) : FlashWrite → Sof
  | .header i st major minor svn ok =>
    { x with slots := listUpd x.slots i.val fun y => { y with state := st, major := major, minor := minor, svn := svn, sigOk := ok } }
  | .body i bytes => { x with slots := listUpd x.slots i.val fun y => { y with bytes := bytes } }
  | .copy i img => { x with copies := listUpd x.copies i.val fun _ => img }

/-- A domain's write to the flash; the firewall refuses what is not the domain's, and counts it (R351). -/
def State.flashWrite (s : State) (d : Domain) (w : FlashWrite) : State :=
  if d.writes w.part then s.setSof fun x => x.written w else s.count (eventOf 21)

/-- The bytes of a slot or copy, erased flash after them. -/
def bytesAt (l : List Byte) (i : Nat) : Byte := l.getD i 0xFF

/-- A byte of the factory data: the serial number and the device's certificates (R262); where in it is the implementation's. A programmer may have
written over it (R367). -/
def Sof.factoryByte (x : Sof) (o : Nat) : Byte := (Tab.get none x.factory o).getD (Config.factoryByte o)

/-- A byte of the flash. The spec gives no byte layout of a log entry: `none` there. -/
def State.flashByte (s : State) (a : Nat) : Option Byte :=
  match flashAt a with
  | some (.slot i, o) => some (bytesAt (s.sof.slots.getD i.val FwSlot.reset).bytes o)
  | some (.copy i, o) => some (bytesAt (((s.sof.copies.getD i.val none).map CfgImage.bytes).getD []) o)
  | some (.reserved, _) => some 0xFF
  | some (.factory, o) => some (s.sof.factoryByte o)
  | _ => none

end Sys2Proof.Machine
end

