-- ==== Sys2Proof/Machine/Laths.lean ====
section
/-! DEFINITION. Laths on a link: link retry (R39 to R44), sealing of groups (R61, R270), frames out of slots (R58), credit
(R63), and the transmitter's arbiter (R65, R66, R82, R125). -/

namespace Sys2Proof.Machine

open Sys2Proof

/-! ### Sealing a group (R61, R270) -/

/-- A transmitter's salt (R270). -/
def saltOf (rack node port : Nat) : W32 := packW 32 [(24, rack % 256), (16, node % 256), (8, port % 256)]

/-- The global rack index of the block's rack, which its partners' records give. -/
def State.jebRack (s : State) : Nat :=
  ((List.finRange 18).findSome? fun q => ((s.rport q).train.partner).map fun i => rackIndex i.coord).getD 0

/-- The salt of a port's own transmitter. -/
def State.txSalt (s : State) (p : PortRef) : W32 :=
  match p with
  | .module n => saltOf (rackIndex s.coord) s.node n.val
  | .rafter q => saltOf s.jebRack s.jeb.node.toNat q.val
  | .tray t => saltOf s.jebRack s.jeb.node.toNat (24 + t.val)

/-- The salt of a port's partner. -/
def State.rxSalt (s : State) (p : PortRef) : W32 :=
  match p with
  | .module n =>
    match portRole n.val with
    | .rafter => saltOf (rackIndex s.coord) n.val s.index
    | .hip => saltOf (rackIndex (neighbour s.sof.torus s.coord (hipDir n.val))) s.node (hipPeer n.val)
    | _ => saltOf (rackIndex s.coord) (s.partnerNode n) (((s.mport n.val).train.partner.map fun i => i.link.toNat).getD 0)
  | .rafter q => saltOf s.jebRack (0x80 + q.val) s.jeb.node.toNat
  | .tray t => saltOf s.jebRack (s.jeb.trayPartner t) (25 - t.val)

/-- The nonce of a group (log entry 14 for the byte order). -/
def groupNonce (salt : W32) (count : W64) : List Byte := bigEndian 4 salt.toNat ++ bigEndian 8 count.toNat

/-- The part of a control word that a retransmission keeps: SEQ, LTYPE and KEY_ID, the associated data (log entry 24). -/
def aadWord (w : W32) : W32 := w &&& 0x37000FFF

/-- Counter mode from a block on. -/
def ctrFrom (keys : List (List Byte)) (nonce : List Byte) (block : Nat) (l : List Byte) : List Byte :=
  (((blocks16 (l.length / 16 + 1) l).zipIdx.map fun p => xorBytes p.1 (aesBlock keys (nonce ++ bigEndian 4 (p.2 + 2 + block)))).flatten).take
    l.length

/-- The slots of lath `k` of a group under the group's keystream. -/
def groupCrypt (key : BitVec 256) (nonce : List Byte) (k : Nat) (slots : List Shingle) : List Shingle :=
  let l := ctrFrom (aesKeys (keyBytes key)) nonce (36 * k) (slots.flatMap fun w => bytesOf w 36)
  (List.range slots.length).map fun i => BitVec.ofNat 288 (natOfBytes ((l.drop (36 * i)).take 36))

/-- The tag of a group's eight laths: the control words and the 127 slots as sent. -/
def groupTag (key : BitVec 256) (nonce : List Byte) (laths : List (W32 × List Shingle)) : List Byte :=
  gcmTag (aesKeys (keyBytes key)) nonce (laths.flatMap fun p => bytesOf (aadWord p.1) 4)
    ((laths.flatMap Prod.snd).take 127 |>.flatMap fun w => bytesOf w 36)

/-! ### Sending laths -/

/-- Slots of the coming lath that frames may take: the last lath of a sealed group gives one to the tag (R61). -/
def State.slotRoom (s : State) (p : PortRef) : Nat := if (s.txKey p).isSome ∧ (s.port p).retry.txSeq.toNat % 8 = 7 then 15 else 16

/-- Tokens of the buckets after one lath (R65): 0.32 slots for course 4, LAT_CAP/16 for course 0. -/
def Port.refill (x : Port) : Port :=
  { x with arb := { x.arb with tok4 := min 25600 (x.arb.tok4 + 128), tok0 := min 102400 (x.arb.tok0 + 25 * x.cfg.latCap.toNat) } }

/-- The sealing state at the start of a group: a coming slot is taken into use at its group (R272). -/
def SealSt.turnOver (x : SealSt) : SealSt :=
  match x.txNext with
  | some (k, g) => if g.toNat ≤ x.txGroup.toNat then { x with txOn := true, active := k, txNext := none } else x
  | none => x

/-- One lath with the given slots sent: sealed where the group is, kept for replay, the buckets refilled. The tag stands in the low 16 bytes of
its slot, the other bits 0 (DESIGN CHOICE, log entry 106). -/
def State.sendLath (s : State) (p : PortRef) (plain : List Shingle) : State :=
  let x := s.port p
  let seq := x.retry.txSeq
  let k := seq.toNat % 8
  let key := s.txKey p
  let nonce := groupNonce (s.txSalt p) x.sealing.txGroup
  let ctl : LathCtl :=
    { seq := seq, ack := x.retry.rxLast, ltype := 0, replayed := false, keyId := if key.isSome then x.sealing.active else 0 }
  let plain := (plain ++ List.replicate 16 0).take (if key.isSome ∧ k = 7 then 15 else 16)
  let slots := match key with
    | some kk =>
      let c := groupCrypt kk nonce k plain
      if k = 7 then c ++ [BitVec.ofNat 288 (natOfBytes (groupTag kk nonce (x.sealing.txLaths ++ [(ctl.toWord, c)])))] else c
    | none => plain
  let done := decide (k = 7)
  let sealing : SealSt := { x.sealing with
    txLaths := if done ∨ key = none then [] else x.sealing.txLaths ++ [(ctl.toWord, slots)]
    txGroup := if done then x.sealing.txGroup + 1 else x.sealing.txGroup }
  let x : Port := { x with
    sealing := if done then sealing.turnOver else sealing
    retry := { x.retry with txSeq := seq + 1, txSlots := [],
                            replay := x.retry.replay ++ [{ seq := seq, keyId := ctl.keyId, slots := slots, tries := 0 }] } }
  (s.setPort p x.refill).putLath p ctl slots

/-- An idle lath that carries no new SEQ, while the replay buffer is full (R43). -/
def State.idleLath (s : State) (p : PortRef) : State := (s.setPort p (s.port p).refill).spareLath p 0

/-- A NAK counted in its beat; more than 64 in a beat take the port to RETRAIN (R44). -/
def State.countNak (s : State) (p : PortRef) : State :=
  let b := (s.portTime p).beat
  let s := s.updPort p fun x =>
    { x with retry := { x.retry with nakBeat := b, nakCount := if x.retry.nakBeat = b then x.retry.nakCount + 1 else 1 } }
  if 64 < (s.port p).retry.nakCount ∧ s.pstate p = .active then s.enterRetrain p else s

/-- A NAK sent: LTYPE 1 with ACK the last good lath (R43). It carries no new SEQ but the last one sent (log entry 84). -/
def State.sendNak (s : State) (p : PortRef) : State :=
  ((s.spareLath p 1).updPort p fun x => { x with err := { x.err with retry := satFld x.err.retry 0 16 1 } }).countNak p

/-! ### The partner's acknowledgements (R43, R44) -/

/-- The replay buffer without the laths that an ACK frees. -/
def freeAcked (l : List KeptLath) (ack : BitVec 12) : List KeptLath :=
  if l.any fun k => decide (k.seq = ack) then (l.dropWhile fun k => decide (k.seq ≠ ack)).drop 1 else l

def State.takeAck (s : State) (p : PortRef) (ack : BitVec 12) : State :=
  (s.updPort p fun x => { x with retry := { x.retry with replay := freeAcked x.retry.replay ack } }).retireDone p

/-- Laths sent again with REPLAYED, each counted. -/
def State.resend (s : State) (p : PortRef) (pick : KeptLath → Bool) : State :=
  let x := s.port p
  let again := x.retry.replay.filter pick
  let s := s.setPort p { x with
    retry := { x.retry with replay := x.retry.replay.map fun k => if pick k then { k with tries := k.tries + 1 } else k }
    err := { x.err with retry := satFld x.err.retry 16 16 again.length } }
  again.foldl (fun s k => s.putLath p { seq := k.seq, ack := x.retry.rxLast, ltype := 0, replayed := true, keyId := k.keyId } k.slots) s

/-- A NAK received (R43): the laths after ACK are sent again, with selective retry only the first; a lath that has been sent
again four times takes the port to RETRAIN (R44). -/
def State.nakReceived (s : State) (p : PortRef) (ack : BitVec 12) : State :=
  let s := (s.takeAck p ack).countNak p
  if s.pstate p ≠ .active then s
  else
    let one := bitAt (s.port p).train.features featSelRetry
    let pick := fun (k : KeptLath) => !one || decide (k.seq = ack + 1)
    if (s.port p).retry.replay.any fun k => pick k && decide (4 ≤ k.tries) then s.enterRetrain p else s.resend p pick

/-- NAK (R43, R44). -/
def execNak (p : PortRef) (ack : BitVec 12) (s : State) : Host.Outcome State Fault Refusal :=
  .next (if s.pstate p = .active then s.nakReceived p ack else s)

/-! ### Receiving laths -/

/-- Frames at the front of received slots, as far as they are whole (R58); idle slots between frames are skipped. After an uncorrectable
header, whose LEN nobody knows, the very next slot is read as a header (log entry 85). -/
def framesIn : Nat → List Shingle → List RawFrame × List Shingle
  | 0, l => ([], l)
  | _ + 1, [] => ([], [])
  | n + 1, w :: l =>
    if w = 0 then framesIn n l
    else match headerDecode w with
      | none => match framesIn n l with
        | (fs, r) => ({ hdr := w, data := [] } :: fs, r)
      | some h =>
        let k := if h.course = 7 then 0 else h.len.toNat
        if l.length < k then ([], w :: l)
        else match framesIn n (l.drop k) with
          | (fs, r) => ({ hdr := w, data := l.take k } :: fs, r)

/-- A frame as its laths deliver it, and the syndromes counted then: a link-local header is corrected (R59), and a block discards a header that
cannot be (log entry 88). Any other frame waits unchanged, and its syndromes are counted as it is taken (R56). -/
def settleFrame (block : Bool) (f : RawFrame) : Option RawFrame × Nat :=
  match (decodeShingle f.hdr).data with
  | none => if block then (none, 1) else (some f, 0)
  | some d => if (headerOf d).course = 7 then (some { f with hdr := encodeShingle d }, (flashBad f.hdr).toNat) else (some f, 0)

/-- The frames of some received slots as they come to wait at a port, the syndromes counted, and the slots of a frame not yet whole. -/
def arrivals (block : Bool) (slots : List Shingle) : List RawFrame × Nat × List Shingle :=
  match framesIn (slots.length + 1) slots with
  | (fs, r) => ((fs.map (settleFrame block)).filterMap Prod.fst, ((fs.map (settleFrame block)).map Prod.snd).sum, r)

/-- The opcode of a header slot, corrected where it can be. -/
def slotOpcode (w : Shingle) : Byte := ((headerDecode w).map fun h => h.opcode).getD 0

/-- The echoes among arriving frames that a port's generator has waited for, with the time in ns of the lath that completed each (R67, R357; log
entry 123). -/
def Spar.arrived (x : Spar) (fs : List RawFrame) (came : Nat) : Spar :=
  let l := fs.filterMap fun f => (headerDecode f.hdr).bind fun h =>
    let num : W32 := BitVec.ofNat 32 (fld h.aux 0 32)
    if h.opcode = opTestEcho ∧ x.sentAt.any (fun p => decide (p.1 = num)) then some (num, came / 5) else none
  if l = [] then x else { x with echoAt := x.echoAt ++ l }

/-- The slots of a lath delivered to a port: the frames they complete wait to be handled. For a STAMP frame in slot 0 the rack time at which
its lath came is noted (R67). -/
def State.deliver (s : State) (p : PortRef) (came : Nat) (slots : List Shingle) : State :=
  let r := (s.port p).retry
  let op := if r.rxSlots = [] then slotOpcode (slots.headD 0) else 0
  match arrivals (decide (portDev p = .jalem)) (r.rxSlots ++ slots) with
  | (fs, bad, rest) =>
    (s.updPort p fun x => { x with spar := x.spar.arrived fs came, retry := { x.retry with
      rx := x.retry.rx ++ fs, rxSlots := rest
      reqAt := if op = opStampReq then came else x.retry.reqAt, rspAt := if op = opStampRsp then came else x.retry.rspAt } }).countFlash p bad

/-- Laths delivered one after the other, each with the rack time at which it came. -/
def State.deliverAll (s : State) (p : PortRef) (came : List Nat) (laths : List (List Shingle)) : State :=
  (laths.zipIdx).foldl (fun s q => s.deliver p (came.getD q.2 0) q.1) s

/-- Whether the group being received is sealed (R272). -/
def SealSt.rxSealed (x : SealSt) : Bool := x.rxOn || x.rxFirst.any fun g => decide (g.toNat ≤ x.rxCount.toNat)

/-- The port of this module at the other side of a Jalem block's port, if there is one (R14). -/
def State.facing (s : State) (p : PortRef) : FaultObj :=
  match p with
  | .module n => .port n
  | .rafter q => if q.val = s.index then .port (Fin.ofNat 144 s.jeb.node.toNat) else .nothing
  | .tray _ => .nothing

/-- The port that a second tag failure is to fence keeps the reason (R68). -/
def State.markSealFault (s : State) (o : FaultObj) : State :=
  match o with
  | .port n => s.updPort (.module n) fun x => { x with train := { x.train with sealFault := true } }
  | _ => s

/-- A failed seal group (R61): discarded, counted and asked for again; its second failure is fatal for the bay, at a block's port too, where
what is fenced is this module's port to the block (log entry 33). -/
def State.sealFailed (s : State) (p : PortRef) (first : BitVec 12) : State :=
  let again := decide ((s.port p).sealing.failed = some (s.port p).sealing.rxCount)
  let s := s.updPort p fun x =>
    { x with err := { x.err with lathErr := satFld x.err.lathErr 24 8 1 }
             retry := { x.retry with rxLast := first - 1, discarding := true, rxKept := [] }
             sealing := { x.sealing with rxGroup := [], rxAt := [], failed := some x.sealing.rxCount } }
  let s := if again then (s.markSealFault (s.facing p)).fatal 6 (s.facing p) (s.portEvent 4 p) else s.count (s.portEvent 4 p)
  s.sendNak p

/-- The first group after a link has started again fails its tag: the partner was reset and sends unsealed, counting from 0, until the next
ACTIVATE; this side sends unsealed too, its own count kept (R260, R271, R277; log entry 94). -/
def State.partnerAnew (s : State) (p : PortRef) : State :=
  let y := (s.port p).sealing
  (s.updPort p fun x => { x with sealing := { y.unsealed with rxCount := 1, gone := y.gone } }).deliverAll p y.rxAt (y.rxGroup.map Prod.snd)

/-- A group whose tag does not verify. -/
def State.badGroup (s : State) (p : PortRef) (first : BitVec 12) : State :=
  if (s.port p).sealing.anew then s.partnerAnew p else s.sealFailed p first

/-- The end of a sealed group: its tag verified, and its slots opened. -/
def State.openGroup (s : State) (p : PortRef) : State :=
  let x := s.port p
  let laths := x.sealing.rxGroup
  let first := (LathCtl.ofWord ((laths.headD (0, [])).1)).seq
  match s.portKey p (LathCtl.ofWord ((laths.headD (0, [])).1)).keyId with
  | none => s.badGroup p first
  | some k =>
    let nonce := groupNonce (s.rxSalt p) x.sealing.rxCount
    let tag := bytesOf (((laths.getLast?.map Prod.snd).getD []).getD 15 0) 16
    if tag = groupTag k.key nonce laths then
      let body := laths.zipIdx.map fun q => groupCrypt k.key nonce q.2 (if q.2 = 7 then q.1.2.take 15 else q.1.2)
      let came := x.sealing.rxAt
      (s.updPort p fun x => { x with sealing := { x.sealing with
        rxOn := true, anew := false, rxFirst := none, rxGroup := [], rxAt := [], rxCount := x.sealing.rxCount + 1, failed := none } }).deliverAll p came body
    else s.badGroup p first

/-- A lath taken in SEQ order: delivered at once where its group is not sealed, held with its group where it is. It counts as received in order
and without error at once, so that ACK may pass it before the tag of its group has verified (log entry 86). -/
def State.acceptLath (s : State) (p : PortRef) (ctl : LathCtl) (slots : List Shingle) (came : Nat) : State :=
  let last := decide (ctl.seq.toNat % 8 = 7)
  let s := s.updPort p fun x => { x with retry := { x.retry with rxLast := ctl.seq, discarding := false } }
  if (s.port p).sealing.rxSealed then
    let s := s.updPort p fun x => { x with sealing := { x.sealing with
      rxGroup := x.sealing.rxGroup ++ [(ctl.toWord, slots)], rxAt := x.sealing.rxAt ++ [came] } }
    if last then s.openGroup p else s
  else
    (s.updPort p fun x => { x with sealing := { x.sealing with
      rxCount := if last then x.sealing.rxCount + 1 else x.sealing.rxCount } }).deliver p came slots

/-- Laths kept by selective retry that have come into turn. -/
def State.acceptKept (s : State) (p : PortRef) : Nat → State
  | 0 => s
  | n + 1 =>
    let r := (s.port p).retry
    match r.rxKept.find? fun k => decide (k.seq = r.rxLast + 1) with
    | none => s
    | some k =>
      let s := s.updPort p fun x => { x with retry := { x.retry with rxKept := x.retry.rxKept.erase k } }
      (s.acceptLath p { seq := k.seq, ack := 0, ltype := 0, replayed := false, keyId := k.keyId } k.slots k.came).acceptKept p n

/-- A good data lath (R43): in turn it is delivered, behind it is ignored, ahead it shows a gap. -/
def State.dataLath (s : State) (p : PortRef) (ctl : LathCtl) (slots : List Shingle) : State :=
  let r := (s.port p).retry
  let ahead := (ctl.seq - (r.rxLast + 1)).toNat
  if ahead = 0 then (s.acceptLath p ctl slots (s.portTime p).fifths).acceptKept p (r.rxKept.length + 1)
  else if 2048 ≤ ahead then s
  else
    let sel := bitAt (s.port p).train.features featSelRetry
    let s := if sel ∧ (r.rxKept.all fun k => decide (k.seq ≠ ctl.seq)) then
        s.updPort p fun x => { x with retry := { x.retry with
          rxKept := x.retry.rxKept ++ [{ seq := ctl.seq, keyId := ctl.keyId, slots := slots, tries := 0, came := (s.portTime p).fifths }] } }
      else s
    if r.discarding then s
    else (s.updPort p fun x => { x with retry := { x.retry with discarding := true } }).sendNak p

/-- A lath discarded as uncorrectable (R42, R43): each is asked for again, one within a retransmission too. -/
def State.badLath (s : State) (p : PortRef) : State :=
  let s := s.updPort p fun x => { x with err := { x.err with lathErr := satFld x.err.lathErr 0 16 1 } }
  let s := match p with
    | .module n => s.count (linkEvent 2 n.val)
    | _ => s
  (s.updPort p fun x => { x with retry := { x.retry with discarding := true } }).sendNak p

/-- A good lath by its LTYPE (R39). -/
def State.goodLath (s : State) (p : PortRef) (ctl : LathCtl) (slots : List Shingle) : State :=
  match ctl.ltype.toNat with
  | 0 =>
    let s := s.takeAck p ctl.ack
    let s := if (s.port p).retry.resume then
        (s.updPort p fun x => { x with retry := { x.retry with resume := false } }).resend p fun _ => true
      else s
    s.dataLath p ctl slots
  | 1 => s.nakReceived p ctl.ack
  | 2 => s.enterRetrain p
  | _ => s

/-- LATH_RECEIVE (R39 to R44, R58, R61). -/
def execLathReceive (p : PortRef) (bytes : List Byte) (s : State) : Host.Outcome State Fault Refusal :=
  .next (if s.pstate p ≠ .active then s
    else match lathOfBytes ((s.port p).retry.rxLast + 1) bytes with
      | none => s.badLath p
      | some (ctl, slots, n) =>
        (s.updPort p fun x => { x with err := { x.err with fecCorr := satFld x.err.fecCorr 0 48 n } }).goodLath p ctl slots)

/-! ### Credit (R63) -/

/-- CREDIT frame with twelve counts: channel v in bits [64 + 16v + 15:64 + 16v]. -/
def creditFrame (counts : List W16) : RawFrame :=
  linkLocalFrame opCredit ((counts.zipIdx.map fun p => p.1.toNat * 2 ^ (64 + 16 * p.2)).sum)

/-- The channels whose credit returns the governor delays: the request channels of courses 1, 2, 3 and 5 (R324); under the brake every
request channel (R327). -/
def pacedChannels (brake : Bool) : List Nat := if brake then [0, 2, 4, 6, 8, 10] else [2, 4, 6, 10]

/-- The quantum of a course in PRT_QUANTUM (R65, R68): 9 where the field is 0. Course 4 has none; the brake paces it as course 0. -/
def courseQuantum (q : W64) (c : Nat) : Nat :=
  let n := fld q (12 * (if c = 4 then 0 else if c = 5 then 4 else c)) 12
  if n = 0 then 9 else n

/-- The counts that a port reports. Paced channels return, of what is freed and not yet told, slots in proportion to their quanta (R324):
`free` times each quantum, in 1/64 slot, as the manual gives no amount (log entry 5). -/
def Credit.report (c : Credit) (brake : Bool) (quantum : W64) (free : Nat) : List W16 :=
  (List.range 12).map fun v =>
    let told := c.told.getD v 0
    let freed := c.rxFreed.getD v 0
    if c.paced ∧ v ∈ pacedChannels brake then
      told + BitVec.ofNat 16 (min (freed - told).toNat (free % 65536 * courseQuantum quantum (v / 2) / 64))
    else freed

/-- The counts that a port reports now. -/
def State.report (s : State) (p : PortRef) : List W16 := (s.port p).cred.report s.pwr.brake (s.port p).cfg.quantum s.freeNat

/-- CREDIT (R63): the partner's cumulative counts replace those held. -/
def execCredit (p : PortRef) (counts : List W16) (s : State) : Host.Outcome State Fault Refusal :=
  .next (s.takeLocal p (creditFrame counts) fun s => s.updPort p fun x =>
    { x with cred := { x.cred with txFreed := (List.range 12).map fun v => counts.getD v 0 } })

/-! ### Arbitration (R65, R66) -/

/-- The frames waiting at a port, by virtual channel: the first of each, with its ingress port where it has one. -/
def State.portHead (s : State) (p : PortRef) (v : Nat) : Option (Frame × Option (Fin 144)) :=
  match p with
  | .module n => ((s.queue (portQueue n.val v)).items.head?).map fun e => (e.frame, e.ingress)
  | p => ((s.port p).txq.find? fun f => decide (vcOf f.hdr = v)).map fun f => (f, none)

/-- Whether a request has a response for which the pending log needs an entry (R125). -/
def logged (h : Header) : Bool := !isResponse h && !isPosted h && decide (h.opcode ≠ opBattenCont)

/-- What a port may carry before its sealing is active (R260): key traffic, and the refusals of other requests. -/
def unsealedOk (h : Header) : Bool := keyTraffic h || (isResponse h && decide (h.status ≠ 0))

/-- Whether the first frame of a channel may start now: credit (R63, R82), the pending log (R125), and R260. -/
def State.mayStart (s : State) (p : PortRef) (v : Nat) : Option Frame :=
  match s.portHead p v with
  | none => none
  | some (f, ingress) =>
    let x := s.port p
    let need := match p with
      | .module n => s.creditNeed n ingress (frameSlots f)
      | _ => frameSlots f
    let logOk : Bool := match p with
      | .module n => portRole n.val = .hip || !logged f.hdr || decide (x.pendLog.length < 16384)
      | _ => true
    let sealOk := x.sealed || unsealedOk f.hdr || (decide (portDev p = .module) && !s.admitted)
    if need ≤ x.cred.avail v ∧ logOk ∧ sealOk then some f else none

/-- The frame of a course in turn: responses first, but a request that has waited 64 laths (R66). -/
def State.courseHead (s : State) (p : PortRef) (c : Nat) : Option (Frame × Nat) :=
  let req := (s.mayStart p (2 * c)).map fun f => (f, 2 * c)
  let rsp := (s.mayStart p (2 * c + 1)).map fun f => (f, 2 * c + 1)
  if 64 ≤ (s.port p).arb.waited.getD c 0 then (match req with | some r => some r | none => rsp)
  else match rsp with
    | some r => some r
    | none => req

/-- The courses of the round, and their quanta in slots (R65, R68); 0 acts as 9. -/
def roundCourse (t : Nat) : Nat := [0, 1, 2, 3, 5].getD t 0
def Arb.quantum (a : Arb) (t : Nat) : Nat := let q := fld a.roundQ (12 * t) 12; if q = 0 then 9 else q

/-- The arbiter at its next course: a round that begins takes PRT_QUANTUM (R68). -/
def Arb.newRound (a : Arb) (q : W64) : Arb := if a.turn % 5 = 0 ∧ !a.earned then { a with roundQ := q } else a

/-- The deficit round: the next course with a frame and deficit for it, each course earning its quantum once a round. A course
with nothing to send keeps no deficit, nor does one whose first frame may not start yet (DESIGN CHOICE, log entry 107). -/
def State.drr (s : State) (p : PortRef) : Nat → Arb → Option (Frame × Nat × Arb)
  | 0, _ => none
  | n + 1, a =>
    let a := a.newRound (s.port p).cfg.quantum
    let t := a.turn % 5
    let on : Arb := { a with turn := (t + 1) % 5, earned := false }
    match s.courseHead p (roundCourse t) with
    | none => s.drr p n { on with deficit := a.deficit.set t 0 }
    | some (f, v) =>
      let d := a.deficit.getD t 0 + (if a.earned then 0 else a.quantum t)
      if frameSlots f ≤ d then some (f, v, { a with turn := t, earned := true, deficit := a.deficit.set t (d - frameSlots f) })
      else s.drr p n { on with deficit := a.deficit.set t d }

/-- What the arbiter picks (R65): a STAMP frame or, with `none`, a CREDIT frame of the port's own; a frame; or nothing. -/
inductive Pick where
  | own (f : Option Stamping)
  | frame (f : Frame) (v : Nat) (a : Arb)
  | nothing
deriving DecidableEq, Repr

/-- The link-local frame that may go: STAMP frames only in slot 0 (R67), one slot in 16; a CREDIT when counts changed. R65 gives no order
among link-local frames: a STAMP frame goes before a CREDIT frame that is due (log entry 87). -/
def State.localPick (s : State) (p : PortRef) : Option (Option Stamping) :=
  let x := s.port p
  if x.arb.sinceLocal < 16 then none
  else
    match x.arb.linkLocal.find? fun _ => decide (x.retry.txSlots = []) with
    | some f => some (some f)
    | none => if s.report p ≠ x.cred.told then some none else none

/-- The pick at a frame boundary. -/
def State.pick (s : State) (p : PortRef) : Pick :=
  let x := s.port p
  match s.localPick p with
  | some f => .own f
  | none =>
    let drr := match s.drr p 60 x.arb with
      | some (f, v, a) => Pick.frame f v a
      | none => .nothing
    let c0 := match s.courseHead p 0 with
      | some (f, v) => if x.cfg.latCap ≠ 0 ∧ 400 * frameSlots f ≤ x.arb.tok0 then
          Pick.frame f v { x.arb with tok0 := x.arb.tok0 - 400 * frameSlots f } else drr
      | none => drr
    match s.courseHead p 4 with
    | some (f, v) => if 400 * frameSlots f ≤ x.arb.tok4 then .frame f v { x.arb with tok4 := x.arb.tok4 - 400 * frameSlots f } else c0
    | none => c0

/-- The first frame of a channel leaves its queue (R74, R77), and its request is logged (R125). -/
def State.leave (s : State) (p : PortRef) (v : Nat) (f : Frame) : State :=
  match p with
  | .module n =>
    match s.dequeue (portQueue n.val v) with
    | none => s
    | some (e, s) =>
      let s := s.countBundle e
      if portRole n.val ≠ .hip ∧ logged f.hdr then
        s.updPort p fun x => { x with pendLog := x.pendLog ++ [{ hdr := f.hdr }] }
      else s
  | p => s.updPort p fun x => { x with txq := x.txq.eraseP fun g => decide (vcOf g.hdr = v) }

/-- Slots put behind those that wait; every lath that they fill is sent. -/
def State.fillLaths (s : State) (p : PortRef) : Nat → State
  | 0 => s
  | n + 1 =>
    let room := s.slotRoom p
    let l := (s.port p).retry.txSlots
    if l.length < room then s
    else
      let s := s.sendLath p (l.take room)
      (s.updPort p fun x => { x with retry := { x.retry with txSlots := l.drop room } }).fillLaths p n

/-- After laths have gone: how long a request of each course has been eligible. -/
def State.ageRequests (s : State) (p : PortRef) (picked : Option Nat) (laths : Nat) : State :=
  let w := (List.range 6).map fun c =>
    if picked = some (2 * c) ∨ (s.mayStart p (2 * c)).isNone then 0 else (s.port p).arb.waited.getD c 0 + laths
  s.updPort p fun x => { x with arb := { x.arb with waited := w } }

/-- Slots sent, and the bookkeeping of the arbiter. -/
def State.sendSlots (s : State) (p : PortRef) (l : List Shingle) (isLocal : Bool) (picked : Option Nat) : State :=
  let before := (s.port p).retry.txSeq
  let s := s.updPort p fun x =>
    { x with retry := { x.retry with txSlots := x.retry.txSlots ++ l }
             arb := { x.arb with sinceLocal := if isLocal then 1 else min 16 (x.arb.sinceLocal + l.length) } }
  let s := s.fillLaths p 3
  s.ageRequests p picked ((s.port p).retry.txSeq - before).toNat

/-- Once the STOPs of a teardown have left, the phase STOPPING ends and the drain begins (R296). -/
def State.afterSending (s : State) (p : PortRef) : State := if portDev p = .module ∧ s.gut.phase = .stopping then s.drainNow else s

/-- A TEST of a port's own generator goes with a lath now: its round trip begins (R67, R357). -/
def Spar.sent (x : Spar) (h : Header) (now : Nat) : Spar :=
  let num : W32 := BitVec.ofNat 32 (fld h.aux 0 32)
  if h.opcode = opTest ∧ h.srcEngine = 0xFC ∧ x.sentAt.any (fun p => decide (p.1 = num)) then
    { x with sentAt := x.sentAt.map fun p => if p.1 = num then (num, now) else p }
  else x

/-- At a frame boundary one choice is sent; with none, the lath is filled with idle slots. While the replay buffer is full only idle laths
go. -/
def State.arbitrate (s : State) (p : PortRef) : State :=
  if s.pstate p ≠ .active then s
    else if 512 ≤ (s.port p).retry.replay.length then s.idleLath p
    else (match s.pick p with
      | .own none =>
        let told := s.report p
        (s.updPort p fun x => { x with cred := { x.cred with told := told } }).sendSlots p [(creditFrame told).hdr] true none
      | .own (some f) =>
        let now := s.stampNow p
        (s.updPort p fun x => x.stamped f now).sendSlots p [(f.frame now).hdr] true none
      | .frame f v a =>
        let s := s.updPort p fun x => { x with arb := a, cred := { x.cred with
          txSent := listUpd x.cred.txSent v (· + BitVec.ofNat 16 (frameSlots f)) }, spar := x.spar.sent f.hdr (s.portTime p).ns }
        match (s.leave p v f).sendAs p f with
        | (f, s) => s.sendSlots p ((rawOf f).hdr :: f.data) false (some v)
      | .nothing => s.sendSlots p (List.replicate (s.slotRoom p - (s.port p).retry.txSlots.length) 0) false none).spend 1 |>.afterSending p

/-- ARBITRATION (R43, R58, R61, R63 to R66). -/
def execArbitration (p : PortRef) (s : State) : Host.Outcome State Fault Refusal := .next (s.arbitrate p)

/-- Laths sent on a port until the STOP that waits there has gone, at most `k`. -/
def State.flushStop (s : State) (n : Fin 144) : Nat → State
  | 0 => s
  | k + 1 =>
    if s.stopWaits n ∨ (s.mport n.val).retry.txSlots ≠ [] then (s.arbitrate (.module n)).flushStop n k else s

/-- The STOPs of a teardown sent on the ACTIVE ports where they wait. -/
def State.sendStops (s : State) : State := (allPorts.filter s.stopWaits).foldl (fun s n => s.flushStop n 64) s

end Sys2Proof.Machine
end

