-- ==== Sys2Proof/Machine/Power.lean ====
section
/-! DEFINITION. Power and cooling (R320 to R333): the governor, pacing and ballast, the cap, the brake, the input voltage, the
loss of input, coolant and the orderly shutdown. -/

namespace Sys2Proof.Machine

open Sys2Proof

def State.setPwr (s : State) (f : Pwr → Pwr) : State := { s with pwr := f s.pwr }

/-- One watt in the unit of the ceilings. -/
def watt : Nat := 1000000

/-! ### Limits (R322, R327, R334) -/

/-- PWR_CAP and PWR_SLEW taken by the interval that begins (R322). -/
def Pwr.latch (p : Pwr) : Pwr := { p with capHeld := p.cap, slewHeld := p.slew }

/-- The cap in force: 1,000 W to 3,200 W. -/
def Pwr.capNow (p : Pwr) : Nat := watt * max 1000 (min 3200 p.capHeld.toNat)

/-- The step of an interval: slew × 65.536 / 1000 W, slew 50 to 3,200 W per ms. -/
def Pwr.step (p : Pwr) : Nat := 65536 * max 50 (min 3200 (fld p.slewHeld 0 16))

def Pwr.ballastOn (p : Pwr) : Bool := bitAt p.slewHeld 16
def Pwr.throttleT (p : Pwr) : Nat := min 100 (fld p.thermCfg 0 8)
def Pwr.shutdownT (p : Pwr) : Nat := min 110 (fld p.thermCfg 8 8)
def Pwr.flowMin (p : Pwr) : Nat := fld p.thermCfg 16 8
def Pwr.flowLost (p : Pwr) : Nat := fld p.thermCfg 24 8

/-- The lower of a power and the thermal ceiling. -/
def Pwr.underThermal (p : Pwr) (c : Nat) : Nat := match p.thermalCeiling with
  | some t => min t c
  | none => c

/-- PWR_STATUS.MODE. -/
def Pwr.mode (p : Pwr) : Nat := if p.off then 4 else if p.ramp then 3 else if p.brake then 2 else if p.paced then 1 else 0

/-! ### Lag (R326) -/

/-- LAG_BEATS counted up to a beat since the start. -/
def Pwr.countLag (p : Pwr) (beat : Nat) : Pwr :=
  { p with lagBeats := if p.capLag then satAdd p.lagBeats (beat - p.lagFrom) else p.lagBeats, lagFrom := beat }

/-- PWR_STATUS (R334). -/
def Pwr.statusWord (p : Pwr) : W64 :=
  packW 64 [(0, p.mode), (3, p.capLag.toNat), (4, p.downLag.toNat), (5, p.brake.toNat), (6, p.vinRange.toNat), (7, p.inputLost.toNat),
    (8, p.rcLost.toNat), (9, p.throttle.toNat), (10, p.inletHigh.toNat), (11, p.flowLow.toNat), (12, p.pumpLost.toNat),
    (13, p.restartBlocked.toNat)]

/-- The brake is on, or has been within the interval in progress. -/
def Pwr.underBrake (p : Pwr) : Bool := p.brake || p.braked

/-- A power stands more than R323's 30 W above the ceiling, which outside an interval of the brake only what courses 0 and 4 draw can bring about
(R324). -/
def Pwr.unmet (p : Pwr) (power : Nat) : Bool := p.started && !p.underBrake && decide (p.ceiling + 30 * watt < watt * power)

/-- CAP_LAG: the ceiling above the cap (R323), or a ceiling that is not met (R324); the start of an episode counts. -/
def State.setLag (s : State) (unmet : Bool) : State :=
  let p := s.pwr.countLag s.tim.upBeat
  let lag := decide (p.capNow < p.ceiling) || unmet
  let s := s.setPwr fun _ => { p with capLag := lag, episodes := if lag ∧ !p.capLag then satAdd p.episodes 1 else p.episodes }
  if lag ∧ !p.capLag then s.count (eventOf 17) else s

/-! ### Pacing (R324) -/

/-- Every ingress port holds back its paced channels' credit, or returns it. -/
def State.pace (s : State) (on : Bool) : State :=
  allPorts.foldl (fun s n => if (s.mport n.val).cred.paced = on then s else
    s.updPort (.module n) fun x => { x with cred := { x.cred with paced := on } }) s

/-- Pacing follows the demand and the brake. -/
def State.setPacing (s : State) (demand : Nat) : State :=
  let on := decide (s.pwr.ceiling < watt * demand)
  (s.setPwr fun p => { p with paced := on }).pace (on || s.pwr.brake)

/-! ### The brake (R327, R333) -/

/-- brake_target in µW: 0.45 of a power, at least the floor; a floor below 800 W acts as 800 W. -/
def Pwr.targetOf (p : Pwr) (power : Nat) : Nat := max (450000 * power) (watt * max 800 p.brakeFloor.toNat)

/-- The brake takes effect: the ceiling at once, no ballast in this interval, every ingress port paced, one event. PWR_POWER.BALLAST goes on showing
the last interval's. -/
def State.engageBrake (s : State) (power : Nat) : State :=
  let t := s.pwr.targetOf power
  let s := s.setPwr fun p => { p with
    brake := true, braked := true, brakeTarget := t, brakeCount := satAdd p.brakeCount 1
    ceiling := if p.ramp then min p.ceiling t else p.underThermal t }
  ((s.setLag false).pace true).count (eventOf 17)

/-! ### Off (R328, R330) -/

/-- A port turned off: its lanes idle and its link gone. -/
def Port.off (x : Port) : Port :=
  { x with
    train := { x.train with state := .disabled, width := 0, partner := none, asDown := false, bayDown := false }
    retry := Port.reset.retry, arb := Port.reset.arb, stamp := { x.stamp with openT1 := none }, laneIdle := true }

/-- Every port of the module turned off. -/
def State.portsOff (s : State) : State := { s with ports := Tab.mapAll Port.reset Port.off s.ports }

/-- An eave placed in self-refresh, and not ready. -/
def State.selfRefresh (s : State) (n : Nat) : State := s.setEave n { s.eave n with selfRefresh := true, ready := false, scrubRun := false }

/-- OFF (R330): the switch logic stopped as the last step of an orderly shutdown. -/
def State.turnOff (s : State) : State :=
  { s with
    pur := { s.pur with ready := false }, gab := { s.gab with ready := false }, trs := { s.trs with ready := false }
    pwr := { s.pwr with off := true, ramp := false, ballast := 0, paced := false } }

/-- What an interval turns off of things of one power each, of which some are left: as many as it has brought down, a step of power in an interval; and
by how much it has lowered the next one. -/
def Pwr.offGroup (p : Pwr) (power left : Nat) : Nat × Nat :=
  let k := min ((p.offRest + p.step) / power) left
  (k, if k = left then 0 else p.offRest + p.step - k * power)

/-- The most that a port draws, 8 lanes of 0.45 W (R321), and an eave's share, in µW (log entry 99). -/
def portPower : Nat := 3600000
def eavePower : Nat := 6500000

/-- What an interval of an orderly shutdown turns off once the ceiling is down at idle (R330), at most a step of power: a group of ports, then a group
of eaves into self-refresh, then the switch logic. A port or an eave that draws more than a step goes down over several intervals. -/
def State.turnOffStep (s : State) : State :=
  let p := s.pwr
  if p.offPorts < 144 then
    let g := p.offGroup portPower (144 - p.offPorts)
    ((upFrom p.offPorts g.1).foldl (fun s n => s.updPort (.module (Fin.ofNat 144 n)) Port.off) s).setPwr fun p =>
      { p with offPorts := p.offPorts + g.1, offRest := g.2 }
  else if p.offEaves < 32 then
    let g := p.offGroup eavePower (32 - p.offEaves)
    ((upFrom p.offEaves g.1).foldl State.selfRefresh s).setPwr fun p => { p with offEaves := p.offEaves + g.1, offRest := g.2 }
  else s.turnOff

/-! ### The governor (R323, R325, R329, R330) -/

/-- The thermal ceiling for the next interval: under THROTTLE it falls by a step until Tj stands below THROTTLE_T − 5 °C, and then rises by a
step until it limits no longer; with PUMP_LOST it goes by steps to 1,000 W. -/
def Pwr.thermalNext (p : Pwr) : Pwr :=
  let cur := p.thermalCeiling.getD p.ceiling
  let falls := p.throttle && p.thermalFall && decide (p.throttleT - 5 ≤ p.cool.tj.toNat)
  let p := { p with thermalFall := falls }
  if falls then { p with thermalCeiling := some (cur - p.step) }
  else if p.pumpLost then
    { p with thermalCeiling := some (if cur ≤ 1000 * watt then min (1000 * watt) (cur + p.step) else max (1000 * watt) (cur - p.step)) }
  else match p.thermalCeiling with
    | none => { p with throttle := false }
    | some t => if p.capNow ≤ t + p.step then { p with thermalCeiling := none, throttle := false } else { p with thermalCeiling := some (t + p.step) }

/-- The ceiling of the next interval from the power of the last one (R323, R327, R330). -/
def Pwr.ceilingNext (p : Pwr) (prev : Nat) : Nat :=
  let target := p.underThermal p.capNow
  let cur := if p.started then p.ceiling else prev
  let down := min cur prev - p.step
  if p.ramp then
    let c := max (Config.idlePower * watt) down
    if p.brake then min c p.brakeTarget else c
  else if p.brake then p.underThermal p.brakeTarget
  else if cur ≤ target then min target (prev + p.step)
  else max target down

/-- Ballast that held the floor in the last interval, and whether more than 1,000 W was needed (R325). -/
def Pwr.ballastOf (p : Pwr) (demand : Nat) : Nat × Bool :=
  if p.started ∧ p.ballastOn ∧ !p.underBrake ∧ !p.ramp then
    let need := (watt * p.now.toNat - p.step) - watt * demand
    (min (min need (1000 * watt)) p.ceiling / watt, decide (1000 * watt < need))
  else (0, false)

/-- The governor's decision at an interval boundary. The interval that ends was held to the slew and the cap that it began with, and the one that
begins takes the registers' (R322). The power of the last interval above its own ceiling sets CAP_LAG, and CAP_LAG stays set
while that power is above the present one (R324; log entry 61). -/
def State.govern (s : State) (m : PwrMeas) : State :=
  let old := s.pwr
  let b := s.pwr.ballastOf m.demand.toNat
  let lagged := b.2 && !s.pwr.downEpisode
  let p := if s.pwr.started then s.pwr else { s.pwr with ceiling := watt * m.power.toNat }
  let p := { p.latch with
    braked := p.brake, ballast := BitVec.ofNat 16 b.1, downLag := p.downLag || b.2, downEpisode := b.2, now := m.power
    peak := if p.peak.toNat < m.peak.toNat then m.peak else p.peak }
  let p := p.thermalNext
  let p := { p with ceiling := p.ceilingNext (watt * m.power.toNat), started := true }
  let s := s.setPwr fun _ => p
  let unmet := old.unmet m.power.toNat || (old.capLag && p.unmet m.power.toNat)
  let s := if lagged then s.count (eventOf 17) else s
  let s := (s.setLag unmet).setPacing m.demand.toNat
  if p.ramp ∧ p.ceiling ≤ Config.idlePower * watt then s.turnOffStep else s

/-- GOVERNOR_INTERVAL (R323): at a beat that is a multiple of 64. The governor is halted from the loss of input (R328), and has
nothing to govern in OFF. A brake that was asserted during reset takes effect at the first one after it (R366). -/
def execGovernorInterval (beat : W64) (meas : PwrMeas) (s : State) : Host.Outcome State Fault Refusal :=
  let s := s.toBeat beat.toNat
  .next (if beat.toNat % 64 = 0 ∧ !s.pwr.inputLost ∧ !s.pwr.off then
      (if !s.pins.brakeN ∧ !s.pwr.brake ∧ s.pins.resetN then s.engageBrake meas.power.toNat else s).govern meas
    else s)

/-! ### The cap (R322, R332) -/

/-- PWR_CAP written by the rack controller. -/
def State.writeCap (s : State) (value : W32) : State :=
  s.setPwr fun p => { p with cap := value.truncate 16, lastCap := s.beat, rcLost := false }

/-- PWR_CAP (R322, R341): other requesters' writes are ignored. -/
def execPwrCap (who : Requester) (value : W32) (s : State) : Host.Outcome State Fault Refusal :=
  .next (if who = .rackController ∧ s.mgmt who then s.writeCap value else s)

/-- RC_LOST (R332): 2^22 beats have passed without a write of PWR_CAP. -/
def execRcLost (beat : W64) (s : State) : Host.Outcome State Fault Refusal :=
  let s := s.toBeat beat.toNat
  .next (if !s.pwr.rcLost ∧ s.pwr.lastCap + 2 ^ 22 ≤ s.beat then (s.setPwr fun p => { p with rcLost := true }).count (eventOf 17) else s)

/-! ### The brake's pin (R327, R366) -/

/-- BRAKE_N_ASSERT (R327, R366): during reset it has no effect but on the pin. -/
def execBrakeAssert (lastBeatPower : W16) (s : State) : Host.Outcome State Fault Refusal :=
  let s : State := { s with pins := { s.pins with brakeN := false } }
  .next (if s.pwr.brake ∨ !s.pins.resetN then s else s.engageBrake lastBeatPower.toNat)

/-- BRAKE_N_RELEASE (R327): BRAKE_N has been high for one whole beat. -/
def execBrakeRelease (beat : W64) (s : State) : Host.Outcome State Fault Refusal :=
  let s := s.toBeat beat.toNat
  let s : State := { s with pins := { s.pins with brakeN := true } }
  .next (if s.pwr.brake then (s.setPwr fun p => { p with brake := false }).pace s.pwr.paced else s)

/-! ### The input (R320, R328) -/

/-- A reading of VIN: the least one since the last reset stands in VIN_MIN. -/
def State.readVin (s : State) (vin : W16) : State :=
  ({ s with pins := { s.pins with vin := vin } } : State).setPwr fun p => { p with
    vin := vin, vinMin := if p.vinMin = 0 ∨ vin.toNat < p.vinMin.toNat then vin else p.vinMin }

/-- The hold-up capture (R328): GUT_FIRST, GUT_FATAL, PWR_STATUS and every capture record in the log, in as many entries as their words
need; a flash operation in progress is abandoned, and leaves the slot or copy invalid (R337). -/
def State.holdUpCapture (s : State) : State :=
  let words := [s.gut.first.addr, s.gut.first.info, s.gut.first.ns, s.gut.fatal, s.pwr.statusWord] ++ s.gut.caps.flatMap fun c => [c.info, c.ns]
  let t := s.logEvent 6 (words.take 28)
  if words.length ≤ 28 then t else t.logEvent 6 (words.drop 28)

/-- The hold-up sequence (R328, R366): the bay stops and its STOPs leave, the records are kept, ports and converters go off, and retention has
failed. -/
def State.holdUp (s : State) : State :=
  if s.pwr.inputLost then s
  else
    let s := s.setPwr fun p => { p with inputLost := true }
    let s := (s.fatal 15 .module (eventOf 17)).sendStops
    let s := s.holdUpCapture.portsOff
    { s with sof := { s.sof with updating := none }, pins := { s.pins with rails := false, retain := false } }

/-! ### Coolant (R329, R330) -/

/-- Inlet and flow stand within their limits or not. -/
def Pwr.inletHot (m : CoolMeas) : Bool := decide (40 < m.inlet.toNat)

/-- A reading of the coolant and Tj: INLET_HIGH and FLOW_LOW follow it, and PUMP_LOST ends with the flow's return. A condition that
begins counts one event. -/
def State.readCool (s : State) (m : CoolMeas) : State :=
  let p := s.pwr
  let hot := Pwr.inletHot m
  let low := decide (m.flow.toNat < p.flowMin)
  let s := s.setPwr fun p => { p with
    cool := m, tjPeak := if p.tjPeak.toNat < m.tj.toNat then m.tj else p.tjPeak, inletHigh := hot, flowLow := low
    pumpLost := p.pumpLost && decide (m.flow.toNat < p.flowLost) }
  (s.count { eventOf 18 with count := (hot && !p.inletHigh).toNat }).count { eventOf 18 with count := (low && !p.flowLow).toNat }

/-- INLET_HIGH (R329). -/
def execInletHigh (m : CoolMeas) (s : State) : Host.Outcome State Fault Refusal := .next (s.readCool m)

/-- THROTTLE (R329): the thermal ceiling falls, from the first time or anew. -/
def execThrottle (m : CoolMeas) (s : State) : Host.Outcome State Fault Refusal :=
  let s := s.readCool m
  .next (if s.pwr.throttleT ≤ m.tj.toNat ∧ !(s.pwr.throttle ∧ s.pwr.thermalFall) then
      (s.setPwr fun p => { p with throttle := true, thermalFall := true }).count (eventOf 18)
    else s)

/-- PUMP_LOST (R329): the flow has been below FLOW_LOST for 1 s. -/
def execPumpLost (m : CoolMeas) (s : State) : Host.Outcome State Fault Refusal :=
  let s := s.readCool m
  .next (if m.flow.toNat < s.pwr.flowLost ∧ !s.pwr.pumpLost then
      (s.setPwr fun p => { p with pumpLost := true }).count (eventOf 18)
    else s)

/-- ORDERLY_SHUTDOWN (R329, R330): Tj at SHUTDOWN_T, or PUMP_LOST for 10 s. The fatal fault is its one event of source 18. -/
def execOrderlyShutdown (m : CoolMeas) (pumpTenSeconds : Bool) (s : State) : Host.Outcome State Fault Refusal :=
  let s := s.readCool m
  .next (if (s.pwr.shutdownT ≤ m.tj.toNat ∨ (pumpTenSeconds ∧ s.pwr.pumpLost)) ∧ !s.pwr.ramp ∧ !s.pwr.off then
      (s.setPwr fun p => { p with ramp := true }).fatal 15 .module (eventOf 18)
    else s)

end Sys2Proof.Machine
end

