-- ==== Sys2Proof/Machine/Start.lean ====
section
/-! DEFINITION. Reset, start, the configuration image, firmware and the pins (R277, R303, R337 to R355, R364 to R367). -/

namespace Sys2Proof.Machine

open Sys2Proof

def State.setPins (s : State) (f : Pins → Pins) : State := { s with pins := f s.pins }

/-! ### Reset (R199, R303, R366) -/

/-- A durable entry over a reset: a digest in progress is not taken up again (R203, R303). -/
def Dur.afterReset (d : Dur) : Dur :=
  { d with state := match d.state with
      | .sealing => .loading
      | .verifying => .silvering
      | st => st }

/-- An eave over a reset: in self-refresh; ZEROIZING survives (R199, R207). -/
def Eave.afterReset (x : Eave) : Eave := { Eave.reset with selfRefresh := true, zeroizing := x.zeroizing }

/-- The eaves over a reset: contents, durable table and keys are kept, windows cleared (R122, R199). -/
def Eav.afterReset (e : Eav) : Eav :=
  { Eav.reset with
    eaves := Tab.fill Eave.reset e.eaves 0 32 fun n => (Tab.get Eave.reset e.eaves n).afterReset
    durs := Tab.mapAll Dur.reset Dur.afterReset e.durs
    retained := e.retained, lost := e.lost, key := e.key, mem := e.mem }

/-- SEC over a reset: what the retained store holds (R303). -/
def Sec.afterReset (x : Sec) : Sec :=
  { Sec.reset with
    state := x.state, weights := x.weights, pending := x.pending, cold := x.cold, tag := x.tag, rack := x.rack, shape := x.shape }

/-- Gutter over a reset (R303). -/
def Gut.afterReset (g : Gut) : Gut :=
  { Gut.reset with fatal := g.fatal, fatalNs := g.fatalNs, fatalOfBay := g.fatalOfBay, history := g.history, fencePorts := g.fencePorts }

/-- Soffit over a reset: the flash, the one-time-programmable memory and the immutable stage (R303, R335). An update in progress is over, and has
left its slot or copy invalid (R355). -/
def Sof.afterReset (x : Sof) : Sof :=
  { Sof.reset with
    copies := x.copies, slots := x.slots, svnMin := x.svnMin, log := x.log, logNext := x.logNext, logWrapped := x.logWrapped
    logHoldup := x.logHoldup, otp := x.otp, stage := x.stage, factory := x.factory }

/-- The module after its internal reset; Gauge, the Jalem block and what the retained store and the flash hold stay. Gable is to be
zeroized (R226), and a module in OFF stays there (R330). What is left of Gauge's hold-up runs on. -/
def State.moduleReset (s : State) : State :=
  { s with
    ports := [], tim := Tim.reset, pur := Pur.reset, eav := s.eav.afterReset, gab := { Gab.reset with zeroizing := true }
    trs := Trs.reset, sec := s.sec.afterReset, gut := s.gut.afterReset, pwr := { Pwr.reset with off := s.pwr.off, offLow := s.pwr.offLow }
    pins := { s.pins with sealUntil := s.pins.sealUntil - s.tim.up }
    sof := s.sof.afterReset, latches := s.latches.filter fun l => decide (l.dev ≠ Dev.module) }

/-- RESET_N_LOW (R11, R199, R366, R367): a low of `us` µs. -/
def execResetNLow (us : Nat) (s : State) : Host.Outcome State Fault Refusal :=
  if us < 2 then .next s
  else if us < 10 then .fault .resetPulseUnspecified
  else
    let s := s.setPwr fun p => { p with offLow := p.off }
    .next (s.moduleReset.setPins fun p => { p with resetN := false, external := !p.qspiExtN })

/-- VIN lies within 300 V to 420 V, and PRESENT_N senses full mating (R366). -/
def Pins.supplied (p : Pins) : Bool := p.mated && decide (3000 ≤ p.vin.toNat ∧ p.vin.toNat ≤ 4200)

/-- Conversion starts once PWR_EN is high, VIN in range and the module fully mated (R366): a module whose rails were off comes up in reset, and one in
OFF stays there (R330). -/
def State.convert (s : State) : State :=
  if s.pins.rails ∨ !s.pins.pwrEn ∨ !s.pins.supplied then s else s.moduleReset.setPins fun p => { p with rails := true }

/-- PWR_EN_HIGH (R366). -/
def execPwrEnHigh (s : State) : Host.Outcome State Fault Refusal := .next (s.setPins fun p => { p with pwrEn := true }).convert

/-- VIN at its new value, which may start conversion. -/
def State.takeVin (s : State) (vin : W16) : State := (s.setPins fun p => { p with vin := vin }).convert.readVin vin

/-- VIN_RANGE (R320): between 270 V and 300 V, or 420 V and 430 V, in units of 0.1 V. -/
def execVinRange (vin : W16) (s : State) : Host.Outcome State Fault Refusal :=
  let s := s.takeVin vin
  let v := vin.toNat
  .next (if (2700 ≤ v ∧ v < 3000) ∨ (4200 < v ∧ v ≤ 4300) then
      (s.setPwr fun p => { p with vinRange := true }).count (eventOf 17)
    else s)

/-- INPUT_LOSS (R320, R328, R366): VIN below 270 V or above 430 V. A module that does not run, or stands in reset, only switches its
conversion off, and retention fails. -/
def execInputLoss (vin : W16) (s : State) : Host.Outcome State Fault Refusal :=
  let s := s.takeVin vin
  .next (if 2700 ≤ vin.toNat ∧ vin.toNat ≤ 4300 then s
    else if s.sof.started ∧ s.pins.resetN then s.holdUp
    else s.setPins fun p => { p with rails := false, retain := false })

/-- PWR_EN_LOW (R366): the hold-up sequence while the module runs, else conversion off; retention fails. -/
def execPwrEnLow (s : State) : Host.Outcome State Fault Refusal :=
  let s := s.setPins fun p => { p with pwrEn := false }
  .next (if s.sof.started ∧ s.pins.resetN then s.holdUp else s.setPins fun p => { p with rails := false, retain := false })

/-! ### The configuration image (R347, R348) -/

/-- A little-endian field of an image. -/
def imageField (l : List Byte) (a n : Nat) : Nat := natOfBytes ((l.drop a).take n)

/-- The sections of an image, TYPE with body; `none` where one has flags, or does not fit. -/
def sectionsOf : Nat → List Byte → Option (List (Nat × List Byte))
  | 0, l => if l = [] then some [] else none
  | n + 1, l =>
    let len := imageField l 4 4
    if l.length < 8 ∨ imageField l 2 2 ≠ 0 ∨ l.length < 8 + len then none
    else (sectionsOf n (l.drop (8 + len))).map fun r => (imageField l 0 2, (l.drop 8).take len) :: r

def imageLength (i : CfgImage) : Nat := imageField i.bytes 8 4
def imageSequence (i : CfgImage) : Nat := imageField i.bytes 12 8
def imageSerial (i : CfgImage) : Nat := imageField i.bytes 20 8

/-- Each content of an image has its section. -/
def bodyInSections (b : CfgBody) (types : List Nat) : Bool :=
  let needs := fun (present : Bool) (t : Nat) => !present || decide (t ∈ types)
  needs b.location.isSome 1 && (decide (b.ports = []) || types.any fun t => decide (2 ≤ t ∧ t ≤ 4)) &&
    needs (b.lrt.isSome || b.shareCfg.isSome || b.bundleCtrl.isSome || decide (b.pairSeed ≠ 0)) 5 &&
    needs (!b.serviceNodes.isEmpty || b.fmNode.isSome) 6 && needs (b.hashCfg.isSome || b.scrubCfg.isSome) 7 && needs b.skewCfg.isSome 8 &&
    needs (!b.srcCfg.isEmpty || b.gutCtrl.isSome) 9 &&
    needs (b.pwrCap.isSome || b.pwrSlew.isSome || b.brakeFloor.isSome || b.thermCfg.isSome) 10 && decide (b.bench = decide (12 ∈ types))

/-- The content that a port's settings may have (R15, R63), and no used hip port under a bench declaration (R349). -/
def portCfgOk (bench : Bool) (c : PortCfg) : Bool :=
  (decide (c.role = .unused) || decide (c.role = portRole c.port.val)) && !(bench && decide (c.role = .hip)) &&
    decide (c.grants.length = 12 ∧ c.grants.sum ≤ 4096)

/-- Every section known and well formed. -/
def imageWellFormed (i : CfgImage) : Bool :=
  match sectionsOf (imageField i.bytes 6 2) ((i.bytes.take (imageLength i - 96)).drop 128) with
  | none => false
  | some l =>
    (l.all fun p => decide (1 ≤ p.1 ∧ p.1 ≤ 12) && (decide (p.1 ≠ 12) || decide (p.2 = [1]))) && bodyInSections i.body (l.map Prod.fst) &&
      i.body.ports.all (portCfgOk i.body.bench) && (i.body.srcCfg.all fun p => decide (p.1 < 23))

/-- A copy is valid (R347): among the rest its signature verifies under the owner's key; with a blank owner slot none is. -/
def imageValid (owner : Option (BitVec 384)) (i : CfgImage) : Bool :=
  let n := imageLength i
  decide (imageField i.bytes 0 4 = 0x47464E43 ∧ imageField i.bytes 4 2 = 1) && decide (224 ≤ n ∧ n + 4 ≤ 2 ^ 22 ∧ i.bytes.length = n + 4) &&
    decide (imageField i.bytes n 4 = (crc32c (i.bytes.take n)).toNat) && i.sigOk && decide (owner = some i.signer) && decide (imageSequence i ≠ 0) &&
    (decide (imageSerial i = 0) || decide (imageSerial i = Config.serial.toNat)) && imageWellFormed i

/-- A port's factory default (R348). -/
def factoryPort (n : Fin 144) : PortCfg :=
  { port := n, role := if portRole n.val = .hip then .unused else portRole n.val, width := 3, featMask := 0xFF, latCap := 0x40
    quantum := Port.reset.cfg.quantum, grants := defaultGrants }

/-- The factory defaults of the ROM (R348), but for the module index, which the straps give. -/
def factoryBody (slotId : BitVec 4) : CfgBody :=
  { location := some (slotId, { x := 0, y := 0, z := 0 }), torus := (1, 1, 1), ports := allPorts.map factoryPort, lrt := none, pairSeed := 0
    shareCfg := none, bundleCtrl := none, serviceNodes := [], fmNode := none, hashCfg := none, scrubCfg := none, skewCfg := none
    srcCfg := [], gutCtrl := none, pwrCap := none, pwrSlew := none, brakeFloor := none, thermCfg := none, rcCert := 0, bench := false }

/-- The image chosen, with its copy; `none`: factory defaults (R347, R348). -/
def Sof.choose (x : Sof) : Option (BitVec 1 × CfgImage) :=
  let copy := fun (i : Nat) => (x.copies.getD i none).filter (imageValid x.otp.owner)
  match copy 0, copy 1 with
  | some a, some b => if imageSequence a < imageSequence b then some (1, b) else some (0, a)
  | some a, none => some (0, a)
  | none, some b => some (1, b)
  | none, none => none

/-- Whether exactly one copy is valid. -/
def Sof.oneCopy (x : Sof) : Bool := decide ((x.copies.filter fun c => c.any (imageValid x.otp.owner)).length = 1)

/-- SOF_LOCATION as an image gives it (R348, R349). -/
def locationOf (b : CfgBody) (slotId : BitVec 4) : BitVec 12 :=
  let m := (b.location.map fun l => l.1).getD (if b.bench then slotId else 0)
  let c : Coord := if b.bench then { x := 0, y := 0, z := 0 } else (b.location.map fun l => l.2).getD { x := 0, y := 0, z := 0 }
  packW 12 [(0, m.toNat), (4, c.x.toNat), (7, c.y.toNat), (10, c.z.toNat)]

/-- A register word with the fields that an image sets: the reserved bits of the image's word are dropped (R6, R348). -/
def imageWord {n : Nat} (old : BitVec n) (v : Option (BitVec n)) (mask : BitVec n) : BitVec n :=
  match v with
  | none => old
  | some v => (old &&& ~~~mask) ||| (v &&& mask)

/-- A port's settings loaded. -/
def Port.configure (x : Port) (c : PortCfg) : Port :=
  { x with
    train := { x.train with role := c.role, limit := if c.role = .service then c.width else 3, tryWidth := if c.role = .service then c.width else 3 }
    cfg := { featMask := c.featMask, latCap := c.latCap, quantum := c.quantum &&& 0x0FFFFFFFFFFFFFFF, grants := c.grants } }

/-- The local route table of an image without one (R79). -/
def State.defaultRoutes (s : State) : Tab W32 :=
  let rafters := (List.range 128).filterMap fun n => if (s.mport n).train.role = .unused then none else some (n, BitVec.ofNat 32 (0x200 + n))
  let t := rafters ++ [(s.node, (0x300 : W32))]
  s.sof.serviceNodes.foldl (fun t p => Tab.put 0 t p.2.toNat (BitVec.ofNat 32 (0x200 + p.1.val))) t

/-- An entry of the image's table that names a port unused or held under R23 (R25, R79). -/
def State.imageRouteBad (s : State) (e : W32) : Bool :=
  let n := fld e 0 8
  bitAt e 9 && !bitAt e 8 && (decide (144 ≤ n) || decide ((s.mport n).train.role = .unused) || s.hipIdle (Fin.ofNat 144 n))

/-- The local route table loaded: the image's, unless an entry of it is refused, or the default (R79). -/
def State.startRoutes (s : State) (b : CfgBody) : Tab W32 :=
  match b.lrt with
  | none => s.defaultRoutes
  | some l =>
    if l.any fun e => s.imageRouteBad e.value then []
    else l.foldl (fun t e => Tab.put 0 t e.index.toNat (e.value &&& 0x3FF)) []

/-- The registers loaded from an image's content (R345, R348). An image without the power section gives PWR_SLEW its default (R334).
The sizes of the torus come with the image, unbounded: R348 lists no section for them (DESIGN CHOICE, log entry 126). -/
def State.loadBody (s : State) (b : CfgBody) (slotId : BitVec 4) : State :=
  let s : State := { s with
    ports := b.ports.foldl (fun t c => Tab.upd Port.reset t c.port.val fun x => x.configure c) s.ports
    sof := { s.sof with
      location := locationOf b slotId, torus := if b.bench then (1, 1, 1) else b.torus, fmNode := b.fmNode, serviceNodes := b.serviceNodes
      bench := b.bench }
    eav := { s.eav with hashCfg := imageWord s.eav.hashCfg b.hashCfg 0x11F, scrubCfg := imageWord s.eav.scrubCfg b.scrubCfg 0x3F01 }
    gab := { s.gab with skewCfg := b.skewCfg.getD s.gab.skewCfg }
    gut := { s.gut with
      ctrl := imageWord s.gut.ctrl b.gutCtrl 0x00FF0103
      srcs := b.srcCfg.foldl (fun t p => Tab.upd Src.zero t p.1 fun c => { c with cfg := imageWord c.cfg (some p.2) 0x3FFFFF }) s.gut.srcs }
    pwr := { s.pwr with
      cap := b.pwrCap.getD s.pwr.cap, slew := imageWord 0x10190 b.pwrSlew 0x1FFFF, capHeld := b.pwrCap.getD s.pwr.cap
      slewHeld := imageWord 0x10190 b.pwrSlew 0x1FFFF, brakeFloor := b.brakeFloor.getD s.pwr.brakeFloor
      thermCfg := b.thermCfg.getD s.pwr.thermCfg } }
  let t := s.startRoutes b
  { s with pur := { s.pur with
      lrt := t, shadow := t, pairSeed := b.pairSeed, shareCfg := imageWord s.pur.shareCfg b.shareCfg 0xFFFFFF
      bundleCtrl := imageWord s.pur.bundleCtrl b.bundleCtrl 3 } }

/-! ### Start (R345, R346) -/

/-- The bay state that a reset with retention leaves (R277). -/
def BayState.kept : BayState → BayState
  | .free => .free
  | .checking => .free
  | .zeroizing => .zeroizing
  | .held => .held
  | _ => .forming

/-- The retained store read (R199, R277, R280): with retention the bay state of R277, else every part of it is gone and the whole
module is to be zeroized. Zeroization begins again where it is due. -/
def State.readRetained (s : State) : State :=
  let s : State :=
    if s.pins.retain then
      let st := s.sec.state.kept
      { s with
        sec := if st = .free then { Sec.reset with cold := s.sec.cold, weights := s.sec.weights } else { s.sec with state := st }
        eav := { s.eav with retained := true } }
    else
      { s with
        sec := { Sec.reset with state := .zeroizing, cold := true }
        eav := { s.eav with retained := false, lost := true, durs := [], key := none }
        gut := Gut.reset }
  let s : State := if s.sec.state = .held then { s with gut := { s.gut with phase := .held, endHeld := true } } else s
  if s.sec.state = .zeroizing then s.beginZero else s

/-- The configuration chosen (R347, R348). -/
def State.chooseConfig (s : State) : State :=
  match s.sof.choose with
  | none => (s.setSof fun x => { x with cfgDefault := true, cfgOne := false, cfgSeq := 0, image := none }).count (eventOf 15)
  | some (k, i) =>
    let one := s.sof.oneCopy
    let s := s.setSof fun x =>
      { x with cfgDefault := false, cfgOne := one, cfgCopy := k, cfgSeq := BitVec.ofNat 64 (imageSequence i), image := some i }
    if one then s.count (eventOf 15) else s

/-- Whether Sarking accepts a slot's image (R352), which fits its slot (R336). -/
def FwSlot.accepted (x : FwSlot) (svnMin : W16) : Bool :=
  decide (x.state ≠ .empty) && x.sigOk && decide (x.bytes.length ≤ thatchSlotBytes) && decide (x.major = 3 ∧ x.minor.toNat ≤ 4) && decide (svnMin.toNat ≤ x.svn.toNat)

/-- The first accepted slot in a state. -/
def Sof.slotIn (x : Sof) (st : FwState) : Option Nat :=
  [0, 1].find? fun i => let y := x.slots.getD i FwSlot.reset; decide (y.state = st) && y.accepted x.svnMin

/-- Thatch runs from a slot, which is measured as index 3 (R345); with no slot, Sarking-only operation (R346). -/
def State.runThatch (s : State) (slot : Option Nat) : State :=
  match slot with
  | none => s.setSof fun x => { x with thatchRun := false, trial := false, noThatch := true }
  | some i =>
    let y := s.sof.slots.getD i FwSlot.reset
    let t := s.setSof fun x => { x with thatchRun := true, thatchSlot := BitVec.ofNat 1 i, trial := decide (y.state = .trial) }
    t.setSec fun x => { x with meas3 := digestOf y.bytes }

/-- A slot whose signature no longer verifies holds no valid image (R352, R367). -/
def Sof.checkSlots (x : Sof) : Sof := { x with slots := x.slots.map fun y => if y.sigOk then y else { y with state := .empty } }

/-- A Thatch slot chosen (R352): a READY one, which becomes TRIAL, where no bay state but FREE was retained; else the COMMITTED one. -/
def State.startThatch (s : State) (fresh : Bool) : State :=
  match s.sof.slotIn .ready, fresh with
  | some i, true => (s.setSof fun x => { x with slots := listUpd x.slots i fun y => { y with state := .trial } }).runThatch (some i)
  | _, _ => s.runThatch (s.sof.slotIn .committed)

/-- An eave out of self-refresh and serving. -/
def Eave.begin (x : Eave) (scrub : Bool) : Eave := { x with ready := true, selfRefresh := false, scrubRun := scrub }

/-- Gable out of reset (R226): its memory is zero, unless the whole bay is being zeroized. -/
def State.gableUp (s : State) : State :=
  { s with gab := { s.gab with ready := decide (s.sec.state ≠ .zeroizing), zeroizing := decide (s.sec.state = .zeroizing) } }

/-- With Thatch running: registers loaded, reserves set, READY, and the ports out of DISABLED (R345). A DESTROY that a release still
owes is the first frame of each rafter and service port (R280). -/
def State.bringUp (s : State) (destroy : Bool) (slotId : BitVec 4) : State :=
  let s := s.loadBody ((s.sof.image.map CfgImage.body).getD (factoryBody slotId)) slotId
  let s := if s.sof.image.isSome ∧ s.index ≠ slotId.toNat then s.count (eventOf 15) else s
  let s : State := { s with
    eav := { s.eav with
      cryptOn := s.eav.key.isSome
      eaves := Tab.fill Eave.reset s.eav.eaves 0 32 fun n => (Tab.get Eave.reset s.eav.eaves n).begin (bitAt s.eav.scrubCfg 0 && !(Tab.get Eave.reset s.eav.eaves n).zeroizing) }
    gab := s.gableUp.gab
    trs := { s.trs with ready := true }
    pur := { s.pur with ready := true } }
  let s := if destroy then
      (s.usedRafters ++ allPorts.filter fun n => decide (portRole n.val = .service) && s.usedPort n).foldl (fun s n =>
        s.updPort (.module n) fun x => { x with train := { x.train with destroyDue := true } }) s
    else s
  s.emptyBuffer.portsUp

/-- The steps of R345 after the release of the internal reset. Gable clears its memory with or without Thatch (R226). -/
def State.startUp (s : State) (slotId : BitVec 4) : State :=
  let owed := !s.pins.retain || decide (s.sec.state = .zeroizing)
  let fresh := !s.pins.retain || decide (s.sec.state.kept = .free)
  let s := s.readRetained.chooseConfig
  let s := (s.setPins fun p => { p with retain := true }).setSof fun x => { x with started := true }
  let s := (s.setSof Sof.checkSlots).startThatch fresh
  if s.sof.thatchRun then s.bringUp owed slotId else s.gableUp

/-- MODULE_START (R330, R345, R346, R366): RESET_N rises, or the rails have come up behind it. `slotId` are the straps, `stageOk`
that no byte of the immutable stage is found to have failed by now. From OFF the module starts only through RESET_N, cool and with coolant flowing. -/
def execModuleStart (coolTj flow : Byte) (slotId : BitVec 4) (stageOk : Bool) (s : State) : Host.Outcome State Fault Refusal :=
  .next (if s.sof.started ∨ s.sof.halted ∨ (s.pwr.off ∧ !s.pwr.offLow) then s
    else
      let s := s.setPins fun p => { p with resetN := true, external := false }
      if !s.pins.rails then s
      else if s.pwr.off ∧ (80 ≤ coolTj.toNat ∨ flow.toNat < s.pwr.flowMin) then
        s.setPwr fun p => { p with restartBlocked := true, offLow := false }
      else
      let s := if stageOk then s else s.stageFails
      if !s.stageMatches then s.setSof fun x => { x with halted := true }
      else (s.setPwr fun p => { p with off := false, offLow := false }).startUp slotId)

/-! ### Thatch and the watchdog (R353, R354) -/

/-- The TRIAL slot marked EMPTY, and Thatch restarted from the COMMITTED slot; one event of source 21 (R353). -/
def State.revert (s : State) : State :=
  let s := s.setSof fun x => { x with slots := x.slots.map fun y => if y.state = .trial then { y with state := .empty } else y }
  ((s.runThatch (s.sof.slotIn .committed)).count (eventOf 21)).logEvent 4 []

/-- A watchdog expiry (R353, R354); it ends an update in progress, whose slot or copy stays invalid (R355). -/
def State.expire (s : State) : State :=
  let l := s.beat :: s.sof.expiries.filter fun b => decide (s.beat < b + 2 ^ 30)
  let s := s.setSof fun x => { x with expiries := l, updating := none }
  if s.sof.trial then s.revert
  else
    let s := (s.count (eventOf 21)).logEvent 4 []
    if 3 ≤ l.length then s.setSof fun x => { x with thatchRun := false, thatchFailed := true } else s

/-- WATCHDOG (R353, R354): Thatch has not serviced it for 2 s. -/
def execWatchdog (beat : W64) (s : State) : Host.Outcome State Fault Refusal :=
  let s := s.toBeat beat.toNat
  .next (if s.sof.thatchRun then s.expire else s)

/-- TRIAL_TIMEOUT (R353): no COMMIT within 60 s. -/
def execTrialTimeout (s : State) : Host.Outcome State Fault Refusal :=
  .next (if s.sof.thatchRun ∧ s.sof.trial then s.revert else s)

/-- COMMIT, and with it ADVANCE (R353). -/
def State.commit (s : State) (advance : Bool) : State :=
  let i := s.sof.thatchSlot.toNat
  let y := s.sof.slots.getD i FwSlot.reset
  if !s.sof.thatchRun ∨ !s.sof.trial ∨ y.state ≠ .trial then s
  else
    let slots := (listUpd s.sof.slots i fun y => { y with state := .committed })
    let slots := listUpd slots (1 - i) fun y => if y.state = .empty then y else { y with state := .ready }
    (s.setSof fun x => { x with
      slots := slots, trial := false, svnMin := if advance ∧ x.svnMin.toNat < y.svn.toNat then y.svn else x.svnMin }).logEvent 4 []

/-- SOF_FW_CTL_COMMIT (R353): the Thatch domain only. -/
def execSofFwCtlCommit (who : Requester) (s : State) : Host.Outcome State Fault Refusal := .next (if who = .thatch then s.commit false else s)

/-- SOF_FW_CTL_ADVANCE (R353): written with COMMIT. -/
def execSofFwCtlAdvance (who : Requester) (s : State) : Host.Outcome State Fault Refusal := .next (if who = .thatch then s.commit true else s)

/-! ### Updates (R337, R350, R355) -/

/-- The slot that an update writes: the one that is not COMMITTED; with none COMMITTED, the one that does not run. -/
def Sof.updateSlot (x : Sof) : Nat :=
  if (x.slots.getD 0 FwSlot.reset).state = .committed then 1
  else if (x.slots.getD 1 FwSlot.reset).state = .committed then 0
  else if x.thatchRun then 1 - x.thatchSlot.toNat else 0

/-- The domain that writes an image into the flash: Thatch, or Sarking where Thatch does not run (R336, R346). -/
def State.updater (s : State) : Domain := if s.sof.thatchRun then .thatch else .sarking

/-- An update has ended without a valid image: what it wrote stays invalid, and source 21 counts it (R350, R355). -/
def State.updateFails (s : State) (kind : Byte) : State := ((s.setSof fun x => { x with updating := none }).count (eventOf 21)).logEvent kind []

/-- The slot of an update holds no valid image from its beginning. -/
def State.beginFirmware (s : State) : State :=
  let i : Fin 2 := Fin.ofNat 2 s.sof.updateSlot
  let y := s.sof.slots.getD i.val FwSlot.reset
  (s.flashWrite .sarking (.header i .empty y.major y.minor y.svn y.sigOk)).setSof fun x => { x with updating := some (.body i) }

/-- A complete image put into its slot, READY, or refused (R352, R355). -/
def State.endFirmware (s : State) (i : Fin 2) (img : FwImage) : State :=
  let y : FwSlot := { state := .ready, major := img.major, minor := img.minor, svn := img.svn, bytes := img.bytes, sigOk := img.sigOk }
  if y.accepted s.sof.svnMin then
    (((s.flashWrite s.updater (.body i img.bytes)).flashWrite .sarking (.header i .ready img.major img.minor img.svn img.sigOk)).setSof
      fun x => { x with updating := none }).logEvent 4 []
  else s.updateFails 4

/-- FIRMWARE_UPDATE (R352, R355): a second update is refused while one is in progress. -/
def execFirmwareUpdate (img : FwImage) (step : UpdateStep) (s : State) : Host.Outcome State Fault Refusal :=
  .next (if !s.sof.started then s
    else match step, s.sof.updating with
      | .begins, none => s.beginFirmware
      | .begins, some _ => s.emit .updateBusy
      | .completes, some (.body i) => s.endFirmware i img
      | .breaksOff, some (.body _) => s.updateFails 4
      | _, _ => s)

/-- The copy that an update writes: the one that is not in force (R350). -/
def Sof.updateCopy (x : Sof) : Nat := if x.cfgDefault then 0 else 1 - x.cfgCopy.toNat

/-- The copy of an update is invalid from its beginning. -/
def State.beginConfig (s : State) : State :=
  let k : Fin 2 := Fin.ofNat 2 s.sof.updateCopy
  (s.flashWrite s.updater (.copy k none)).setSof fun x => { x with updating := some (.copy k) }

/-- A complete image put into its copy, or refused (R347, R350). -/
def State.endConfig (s : State) (k : Fin 2) (img : CfgImage) : State :=
  if imageValid s.sof.otp.owner img then
    ((s.flashWrite s.updater (.copy k (some img))).setSof fun x => { x with updating := none }).logEvent 5 []
  else s.updateFails 5

/-- CONFIGURATION_UPDATE (R347, R350): it takes effect at the next start. Soffit runs one flash operation at a time (R337): another is refused. -/
def execConfigurationUpdate (img : CfgImage) (step : UpdateStep) (s : State) : Host.Outcome State Fault Refusal :=
  .next (if !s.sof.started then s
    else match step, s.sof.updating with
      | .begins, none => s.beginConfig
      | .begins, some _ => s.emit .updateBusy
      | .completes, some (.copy k) => s.endConfig k img
      | .breaksOff, some (.copy _) => s.updateFails 5
      | _, _ => s)

/-! ### Pins (R364, R367) -/

/-- ALERT_RESPONSE_ADDRESS (R364): Soffit has answered, and SMB_ALERT_N is released. -/
def execAlertResponseAddress (s : State) : Host.Outcome State Fault Refusal := .next { s with gut := { s.gut with alert := false } }

/-- What an external programmer writes while it has the bus. -/
def Sof.programmed (x : Sof) : QspiAccess → Sof
  | .ext _ => x
  | .slot i img => { x with slots := listUpd x.slots i.val fun y =>
      { y with major := img.major, minor := img.minor, svn := img.svn, bytes := img.bytes, sigOk := img.sigOk } }
  | .copy i img => { x with copies := listUpd x.copies i.val fun _ => img }
  | .factory o b => { x with factory := Tab.put none x.factory o.val (some b) }

/-- QSPI_SERVICE_ACCESS (R367): QSPI_EXT_N falls or rises, or the programmer that has the bus writes. -/
def execQspiServiceAccess (access : QspiAccess) (s : State) : Host.Outcome State Fault Refusal :=
  .next (match access with
    | .ext low => s.setPins fun p => { p with qspiExtN := !low, external := low && !p.resetN }
    | a => if s.pins.external then s.setSof fun x => x.programmed a else s)

end Sys2Proof.Machine
end

