-- ==== Sys2Proof/Machine/RegMap.lean ====
section
/-! DEFINITION. The register space of the module and of the Jalem block (R7, R161, R370): the registers, their addresses and
widths, the fields that software writes, clears and read-clears (R6), and what a register reads. -/

namespace Sys2Proof.Machine

open Sys2Proof

/-- The registers of the index of R370. Indexes are those of the index; `win d n k` is register `k` of window entry `n`: BASE, LIMIT,
SRC, ATTR, LOCAL. -/
inductive Reg where
  | sofId | sofStatus | sofCfgSeq | sofVendor | sofLocation | sofBayShape | sofFwSlot (i : Nat) | sofFwCtl | sofLogStatus
  | timStatus | timNow | timEpochLoad | timSlipCount | timOfs (k : Nat)
  | tstCtl (n : Nat) | tstGen (n : Nat) | tstGenCount (n : Nat) | tstChk (n : Nat) | tstLat (n : Nat) | tstLane (n l : Nat)
  | purStatus | purCells | purDesc | purShareCfg | purReserved | purEpochAt | purEpochStatus | purPairSeed | purBundleCtrl | purBundleCount
  | purAuditStatus | purAuditQuarDesc | purAuditFirst | purNodeLost (k : Nat) | purNodeLostSet | purLrt (n : Nat) | purLrtShadow (n : Nat)
  | prtStatus (p : PortRef) | prtCtrl (p : PortRef) | prtQuantum (p : PortRef) | prtFecCorr (p : PortRef) | prtLathErr (p : PortRef)
  | prtRetry (p : PortRef) | prtFlashErr (p : PortRef) | prtPartner (p : PortRef) | prtCredit (p : PortRef) (v : Nat)
  | eavStatus (n : Nat) | eavErr (n : Nat) | eavErrFirst (n : Nat) | eavScrubPos (n : Nat) | eavLinePeak (n : Nat)
  | win (d : Dev) (n k : Nat) | eavHashCfg | eavScrubCfg | eavRetain | eavCrypt | eavBatten
  | durBase (k : Nat) | durLimit (k : Nat) | durCtl (k : Nat) | durMark (k : Nat) | durDigest (k w : Nat) | durExpect (k w : Nat)
  | gabStatus | gabSkewCfg | gabErr | gabStallFirst | gabRefuseFirst | gabWork | gabSlot (n : Nat)
  | trsStatus | trsProgDir (n : Nat) | trsErr | trsErrFirst | trsProgMeas (n w : Nat) | trsProgWord (i : Nat) | trsCommCtl (n : Nat)
  | trsCommMembers (n w : Nat) | trsCommBlock (n : Nat) | trsCommLand (n : Nat) | trsCommScratch (n : Nat) | trsCommStride (n : Nat)
  | trsCommState (n : Nat)
  | gutCtrl | gutStatus | gutFirstAddr | gutFirstInfo | gutFirstTime | gutCapStatus | gutCapInfo (j : Nat) | gutCapTime (j : Nat) | gutFatal
  | gutFatalTime | gutTdCtl | gutTdStatus | gutRestartBeat (i : Nat) | gutFencePort (w : Nat) | gutJebReport | gutSrcCfg (n : Nat)
  | gutSrcCount (n : Nat) | gutSrcState (n : Nat) | gutHealth (i : Nat) | gutHealthSum
  | secBayCtl | secBayStatus | secAdmitShape | secAdmitTag | secKeyStatus | secKeyErrPort | secSession | secWeight (k : Nat) | secZeroize
  | secZeroizeTime
  | pwrStatus | pwrCap | pwrSlew | pwrPower | pwrBrake | pwrLag | pwrInput | pwrThermal | pwrThermCfg
  | gauId | gauStatus | gauSerial | gauSeq | gauLive | gauCertLen | gauCert (w : Nat) | gauRec (r w : Nat)
  | jebId | jebCfg | jebMemSize | jebCtrl | jebStatus | jebSpreadMap (k : Nat) | jebSpreadShadow (k : Nat) | jebSpreadSeed | jebEpochAt
  | jebEpochStatus | jebTimeNow | jebPoolHost | jebPoolMirror | jebPoolSize | jebCtx (n : Nat) | jebInvBase | jebInvSize | jebInvTail
  | jebInvHead | jebGenDone | jebGen | jebFltBase | jebFltSize | jebFltTail | jebFltHead | jebFltResume | jebSig (n : Nat)
  | jebSendSrc (n : Nat) | jebSendCtl (n : Nat) | jebSendAux (n : Nat) | jebSendGo (n : Nat) | jebBay | jebKeyStatus | jebTdisp | jebZeroize
  | jebErr0 | jebErr1 | jebOrdErr
deriving DecidableEq, Repr

/-! ### Addresses (R370) -/

/-- The index of offset `o` in an array of `n` registers at `base`, each `stride` bytes from the last. -/
def arrayAt (o base stride n : Nat) : Option Nat :=
  if base ≤ o ∧ (o - base) % stride = 0 ∧ (o - base) / stride < n then some ((o - base) / stride) else none

/-- The first of several choices that is present. -/
def firstOf (l : List (Option Reg)) : Option Reg := (l.filterMap id).head?

/-- A register at a fixed offset. -/
def regAtOffset (o : Nat) (l : List (Nat × Reg)) : Option Reg := (l.find? fun p => decide (p.1 = o)).map Prod.snd

def sofReg (o : Nat) : Option Reg :=
  regAtOffset o [(0, .sofId), (4, .sofStatus), (8, .sofCfgSeq), (0x10, .sofVendor), (0x20, .sofLocation), (0x28, .sofBayShape),
    (0x40, .sofFwSlot 0), (0x48, .sofFwSlot 1), (0x50, .sofFwCtl), (0x58, .sofLogStatus)]

def timReg (o : Nat) : Option Reg :=
  firstOf [regAtOffset o [(0, .timStatus), (8, .timNow), (0x10, .timEpochLoad), (0x18, .timSlipCount)], (arrayAt o 0x100 4 12).map .timOfs]

def tstReg (o : Nat) : Option Reg :=
  let n := o / 0x100
  let r := o % 0x100
  if 144 ≤ n then none
  else firstOf [regAtOffset r [(0, .tstCtl n), (8, .tstGen n), (0x10, .tstGenCount n), (0x20, .tstChk n), (0x28, .tstLat n)],
    (arrayAt r 0x40 4 8).map fun l => .tstLane n l]

def purReg (o : Nat) : Option Reg :=
  firstOf [regAtOffset o [(0, .purStatus), (8, .purCells), (0x10, .purDesc), (0x18, .purShareCfg), (0x20, .purReserved), (0x100, .purEpochAt),
      (0x108, .purEpochStatus), (0x110, .purPairSeed), (0x200, .purBundleCtrl), (0x208, .purBundleCount), (0x300, .purAuditStatus),
      (0x304, .purAuditQuarDesc), (0x308, .purAuditFirst), (0x410, .purNodeLostSet)],
    (arrayAt o 0x400 4 4).map .purNodeLost, (arrayAt o 0x10000 4 256).map .purLrt, (arrayAt o 0x10400 4 256).map .purLrtShadow]

/-- The PRT layout of a port (R68). -/
def prtReg (p : PortRef) (o : Nat) : Option Reg :=
  firstOf [regAtOffset o [(0, .prtStatus p), (4, .prtCtrl p), (8, .prtQuantum p), (0x10, .prtFecCorr p), (0x18, .prtLathErr p),
      (0x1C, .prtRetry p), (0x20, .prtFlashErr p), (0x28, .prtPartner p)], (arrayAt o 0x40 4 12).map fun v => .prtCredit p v]

def modulePrtReg (o : Nat) : Option Reg := if h : o / 0x1000 < 144 then prtReg (.module ⟨o / 0x1000, h⟩) (o % 0x1000) else none

/-- The window table at an offset within it (R122, R149). -/
def winReg (d : Dev) (o : Nat) : Option Reg :=
  let n := o / 0x20
  if 256 ≤ n then none
  else regAtOffset (o % 0x20) [(0, .win d n 0), (8, .win d n 1), (0x10, .win d n 2), (0x14, .win d n 3), (0x18, .win d n 4)]

def durReg (o : Nat) : Option Reg :=
  let k := o / 0x100
  let r := o % 0x100
  if 16 ≤ k then none
  else firstOf [regAtOffset r [(0, .durBase k), (8, .durLimit k), (0x10, .durCtl k), (0x18, .durMark k)],
    (arrayAt r 0x40 8 6).map fun w => .durDigest k w, (arrayAt r 0x80 8 6).map fun w => .durExpect k w]

def eavReg (o : Nat) : Option Reg :=
  if o < 0x80000 then
    let n := o / 0x4000
    regAtOffset (o % 0x4000) [(0, .eavStatus n), (8, .eavErr n), (0x10, .eavErrFirst n), (0x18, .eavScrubPos n), (0x20, .eavLinePeak n)]
  else if o < 0x90000 then winReg .module (o - 0x80000)
  else if o < 0xA0000 then regAtOffset (o - 0x90000) [(0, .eavHashCfg), (4, .eavScrubCfg), (8, .eavRetain), (0xC, .eavCrypt), (0x10, .eavBatten)]
  else durReg (o - 0xA0000)

def gabReg (o : Nat) : Option Reg :=
  firstOf [regAtOffset o [(0, .gabStatus), (8, .gabSkewCfg), (0x100, .gabErr), (0x108, .gabStallFirst), (0x110, .gabRefuseFirst),
    (0x200, .gabWork)], (arrayAt o 0x10000 8 256).map .gabSlot]

def trsCommReg (o : Nat) : Option Reg :=
  let n := o / 0x40
  if 64 ≤ n then none
  else regAtOffset (o % 0x40) [(0, .trsCommCtl n), (8, .trsCommMembers n 0), (0x10, .trsCommMembers n 1), (0x18, .trsCommBlock n),
    (0x20, .trsCommLand n), (0x28, .trsCommScratch n), (0x30, .trsCommStride n), (0x38, .trsCommState n)]

def trsReg (o : Nat) : Option Reg :=
  if o < 0x1000 then firstOf [regAtOffset o [(0, .trsStatus), (0x200, .trsErr), (0x208, .trsErrFirst)], (arrayAt o 0x100 8 16).map .trsProgDir]
  else if o < 0x10000 then
    let n := (o - 0x1000) / 0x40
    if 16 ≤ n then none else (arrayAt (o % 0x40) 0 8 6).map fun w => .trsProgMeas n w
  else if o < 0x20000 then (arrayAt o 0x10000 8 8192).map .trsProgWord
  else trsCommReg (o - 0x20000)

def gutReg (o : Nat) : Option Reg :=
  if o < 0x10000 then
    firstOf [regAtOffset o [(0, .gutCtrl), (4, .gutStatus), (0x100, .gutFirstAddr), (0x108, .gutFirstInfo), (0x110, .gutFirstTime),
        (0x200, .gutCapStatus), (0x400, .gutFatal), (0x408, .gutFatalTime), (0x500, .gutTdCtl), (0x504, .gutTdStatus), (0x600, .gutJebReport)],
      (arrayAt o 0x210 0x10 16).map .gutCapInfo, (arrayAt o 0x218 0x10 16).map .gutCapTime, (arrayAt o 0x510 8 3).map .gutRestartBeat,
      (arrayAt o 0x540 8 3).map .gutFencePort]
  else if o < 0x20000 then
    let n := (o - 0x10000) / 0x20
    if 23 ≤ n then none else regAtOffset (o % 0x20) [(0, .gutSrcCfg n), (8, .gutSrcCount n), (0x10, .gutSrcState n)]
  else firstOf [(arrayAt o 0x20000 4 144).map .gutHealth, (arrayAt o 0x20400 4 32).map fun n => .gutHealth (144 + n),
    (arrayAt o 0x20500 4 16).map fun n => .gutHealth (176 + n), regAtOffset o [(0x20600, .gutHealthSum)]]

def secReg (o : Nat) : Option Reg :=
  firstOf [regAtOffset o [(0, .secBayCtl), (4, .secBayStatus), (8, .secAdmitShape), (0xC, .secAdmitTag), (0x10, .secKeyStatus),
    (0x14, .secKeyErrPort), (0x18, .secSession), (0x200, .secZeroize), (0x208, .secZeroizeTime)], (arrayAt o 0x100 8 16).map .secWeight]

def pwrReg (o : Nat) : Option Reg :=
  regAtOffset o [(0, .pwrStatus), (8, .pwrCap), (0xC, .pwrSlew), (0x10, .pwrPower), (0x18, .pwrBrake), (0x1C, .pwrLag), (0x20, .pwrInput),
    (0x28, .pwrThermal), (0x30, .pwrThermCfg)]

def gauReg (o : Nat) : Option Reg :=
  if o < 0x10000 then firstOf [regAtOffset o [(0, .gauId), (4, .gauStatus), (8, .gauSerial), (0x10, .gauSeq), (0x18, .gauLive),
    (0x100, .gauCertLen)], (arrayAt o 0x1000 8 256).map .gauCert]
  else
    let r := (o - 0x10000) / 0x200
    if 256 ≤ r then none else (arrayAt (o % 0x200) 0 8 36).map fun w => .gauRec r w

/-- The module's register at an address (R370). -/
def moduleReg (a : Nat) : Option Reg :=
  let o := a % 0x100000
  match a / 0x100000 with
  | 0x0 => sofReg o
  | 0x1 => purReg o
  | 0x2 => modulePrtReg o
  | 0x4 => eavReg o
  | 0x5 => gabReg o
  | 0x6 => trsReg o
  | 0x7 => gutReg o
  | 0x8 => secReg o
  | 0x9 => pwrReg o
  | 0xA => gauReg o
  | 0xB => timReg o
  | 0xC => tstReg o
  | _ => none

/-- The translation and fault ring registers of the block. The spec gives JEB_XLT_CTX_32 to 35 the addresses of the registers at 0x3_0200 to
0x3_021C too: an access there is one of those (DESIGN CHOICE, log entry 103). -/
def jebXltReg (o : Nat) : Option Reg :=
  firstOf [regAtOffset o [(0x30000, .jebPoolHost), (0x30008, .jebPoolMirror), (0x30010, .jebPoolSize), (0x30200, .jebInvBase),
    (0x30208, .jebInvSize), (0x30210, .jebInvTail), (0x30214, .jebInvHead), (0x30218, .jebGenDone), (0x3021C, .jebGen), (0x40000, .jebFltBase),
    (0x40008, .jebFltSize), (0x40010, .jebFltTail), (0x40014, .jebFltHead), (0x40018, .jebFltResume)], (arrayAt o 0x30100 8 64).map .jebCtx]

/-- The Jalem block's register at an address (R161, R370). -/
def jalemReg (o : Nat) : Option Reg :=
  if o < 0x10000 then
    firstOf [regAtOffset o [(0, .jebId), (4, .jebCfg), (8, .jebMemSize), (0x10, .jebCtrl), (0x14, .jebStatus), (0x1040, .jebSpreadSeed),
        (0x1048, .jebEpochAt), (0x1050, .jebEpochStatus), (0x2000, .jebTimeNow)],
      (arrayAt o 0x1000 8 4).map .jebSpreadMap, (arrayAt o 0x1020 8 4).map .jebSpreadShadow]
  else if o < 0x22000 then
    if h : (o - 0x10000) / 0x1000 < 18 then prtReg (.rafter ⟨(o - 0x10000) / 0x1000, h⟩) (o % 0x1000) else none
  else if o < 0x30000 then
    if h : 0x24000 ≤ o ∧ (o - 0x24000) / 0x1000 < 2 then prtReg (.tray ⟨(o - 0x24000) / 0x1000, h.2⟩) (o % 0x1000) else none
  else if o < 0x50000 then jebXltReg o
  else if o < 0x60000 then (arrayAt o 0x50000 4 4096).map .jebSig
  else if o < 0x80000 then
    let n := (o - 0x60000) / 0x20
    if 1024 ≤ n then none
    else regAtOffset (o % 0x20) [(0, .jebSendSrc n), (8, .jebSendCtl n), (0x10, .jebSendAux n), (0x18, .jebSendGo n)]
  else if o < 0x90000 then winReg .jalem (o - 0x80000)
  else regAtOffset o [(0x90000, .jebBay), (0x90008, .jebKeyStatus), (0x90010, .jebTdisp), (0x90018, .jebZeroize), (0xA0000, .jebErr0),
    (0xA0008, .jebErr1), (0xA0010, .jebOrdErr)]

/-- The register that begins at an address of a device. -/
def regAt (d : Dev) (a : Nat) : Option Reg := match d with
  | .module => moduleReg a
  | .jalem => jalemReg a

/-- The registers of 64 bits. -/
def Reg.wide : Reg → Bool
  | .sofCfgSeq | .sofFwSlot _ | .timNow | .timEpochLoad | .tstGen _ | .tstGenCount _ | .tstChk _ | .tstLat _ | .purCells | .purDesc => true
  | .purReserved | .purEpochAt | .purBundleCount | .purAuditFirst | .prtQuantum _ | .prtFecCorr _ | .eavErr _ | .eavErrFirst _ => true
  | .win _ _ k => decide (k ∉ [2, 3])
  | .durBase _ | .durLimit _ | .durDigest _ _ | .durExpect _ _ | .gabErr | .gabStallFirst | .gabRefuseFirst | .gabWork | .gabSlot _ => true
  | .trsProgDir _ | .trsErr | .trsErrFirst | .trsProgMeas _ _ | .trsProgWord _ | .trsCommCtl _ | .trsCommMembers _ _ => true
  | .trsCommLand _ | .trsCommScratch _ | .trsCommStride _ | .gutFirstAddr | .gutFirstInfo | .gutFirstTime | .gutCapInfo _ | .gutCapTime _ => true
  | .gutFatal | .gutFatalTime | .gutRestartBeat _ | .gutFencePort _ | .gutSrcCount _ | .secWeight _ | .secZeroizeTime | .pwrPower => true
  | .pwrThermal | .gauSerial | .gauSeq | .gauLive | .gauCert _ | .gauRec _ _ | .jebMemSize | .jebSpreadMap _ | .jebSpreadShadow _ => true
  | .jebEpochAt | .jebTimeNow | .jebPoolHost | .jebPoolMirror | .jebCtx _ | .jebInvBase | .jebFltBase | .jebSendSrc _ | .jebSendCtl _ => true
  | .jebSendAux _ | .jebErr0 | .jebErr1 | .jebOrdErr => true
  | _ => false

/-- A register half or word that an aligned 32-bit address names: the register, and whether it is the upper half. -/
def wordAt (d : Dev) (a : Nat) : Option (Reg × Bool) :=
  match regAt d a with
  | some r => some (r, false)
  | none =>
    if a < 4 then none
    else match regAt d (a - 4) with
      | some r => if r.wide then some (r, true) else none
      | none => none

/-! ### Access codes (R6) -/

/-- Fields that a read clears (RC). -/
def Reg.rc : Reg → W64
  | .timSlipCount => 0xFFFF
  | .tstChk _ | .tstLat _ | .purBundleCount | .eavErr _ | .gabErr | .trsErr | .jebErr0 | .jebErr1 => 0xFFFFFFFFFFFFFFFF
  | .tstLane _ _ | .prtLathErr _ | .prtRetry _ | .pwrLag => 0xFFFFFFFF
  | .purCells => 0x001FFFFF00000000
  | .purDesc => 0x003FFFFF00000000
  | .prtFecCorr _ => 0x0000FFFFFFFFFFFF
  | .prtFlashErr _ => 0xFFFFFF
  | .eavScrubPos _ => 0xFF000000
  | .eavLinePeak _ => 0x007F07FF
  | .gutCapStatus | .pwrBrake | .pwrInput => 0xFFFF0000
  | .gutSrcCount _ => 0xFFFFFFFF
  | .pwrPower => 0x0000FFFF00000000
  | .pwrThermal => 0x000000FF00000000
  | .jebOrdErr => 0x0000FFFFFFFFFFFF
  | _ => 0

/-- Fields that a written 1 clears (W1C). -/
def Reg.w1c : Reg → W64
  | .sofLogStatus => 0x20000
  | .timStatus => 0x28
  | .purEpochStatus | .jebEpochStatus => 0x3
  | .eavRetain | .jebZeroize => 0x2
  | .durCtl _ => 0x800
  | .gabStallFirst | .gabRefuseFirst | .trsErrFirst | .gutFirstInfo | .gutFatal => 0x8000000000000000
  | .gutTdStatus => 0x10
  | .gutFencePort _ => 0xFFFFFFFFFFFFFFFF
  | .gutSrcState _ | .jebGen => 0x1
  | .gutHealthSum => 0x10000
  | .secZeroize => 0x6
  | .pwrStatus => 0x50
  | .jebStatus => 0x20
  | _ => 0

/-- Fields that a write sets (RW). -/
def Reg.rw : Reg → W64
  | .timEpochLoad => 0x80000003FFFFFFFF
  | .tstCtl _ => 0xF
  | .tstGen _ => 0xFFFFFFFFFF03FFFF
  | .tstGenCount _ => 0xFFFFFFFFFFFFFFFF
  | .purShareCfg => 0xFFFFFF
  | .purEpochAt | .jebEpochAt => 0x803FFFFFFFFFFFFF
  | .purPairSeed => 0x3F
  | .purBundleCtrl => 0x3
  | .purLrtShadow _ => 0x3FF
  | .prtCtrl _ => 0xFFFF00
  | .prtQuantum _ => 0x0FFFFFFFFFFFFFFF
  | .eavErrFirst _ => 0x0000000380000000
  | .win _ _ 0 => 0x0000FFFFFFFF0001
  | .win _ _ 1 => 0x0000FFFFFFFF0000
  | .win _ _ 2 => 0xFFFFFFFF
  | .win .module _ 3 => 0xF
  | .win .jalem _ 3 => 0x7
  | .win _ _ _ => 0x000001FFFFFF0000
  | .eavHashCfg => 0x11F
  | .eavScrubCfg => 0x3F01
  | .durBase _ | .durLimit _ => 0x000001FFFFE00000
  | .durExpect _ _ | .trsProgWord _ | .trsCommMembers _ _ | .jebSpreadShadow _ | .jebSendAux _ => 0xFFFFFFFFFFFFFFFF
  | .gabSkewCfg | .pwrThermCfg | .jebSig _ => 0xFFFFFFFF
  | .trsProgDir _ => 0x00000000001FFF01
  | .trsCommCtl _ => 0x00FFFFFFFFFF7FFF
  | .trsCommBlock _ | .secAdmitShape => 0x3FFFF
  | .trsCommLand _ | .trsCommScratch _ | .trsCommStride _ => 0x0000FFFFFFFFFFE0
  | .gutCtrl => 0x00FF0103
  | .gutSrcCfg _ => 0x3FFFFF
  | .secAdmitTag | .pwrCap | .pwrBrake | .jebInvTail | .jebFltHead => 0xFFFF
  | .secWeight _ => 0xFFFFFFFF00000007
  | .pwrSlew => 0x1FFFF
  | .jebMemSize => 0x000001FFFFFF0000
  | .jebCtrl => 0x7F
  | .jebSpreadSeed => 0x3F00
  | .jebPoolHost | .jebPoolMirror => 0xFFFFFFFFFFFFF000
  | .jebPoolSize => 0x1FFFFF
  | .jebCtx _ => 0x0000000FFFFF0001
  | .jebInvBase => 0xFFFFFFFFFFFFFFC0
  | .jebInvSize | .jebFltSize => 0x1F
  | .jebFltBase => 0xFFFFFFFFFFFFFFE0
  | .jebSendSrc _ => 0x01FFFFFFFFFFFFE0
  | .jebSendCtl _ => sendCtlMask
  | _ => 0

/-- The bits that the fields of a register take up, but for fields that are only written: every other bit reads 0 (R6, R7). -/
def Reg.fields : Reg → W64
  | .sofLocation | .gauCertLen => 0xFFF
  | .sofBayShape => 0x7FFFF
  | .timStatus | .purPairSeed | .jebStatus | .jebKeyStatus | .gauStatus => 0x3F
  | .timEpochLoad => 0x80000003FFFFFFFF
  | .timSlipCount | .jebInvTail | .jebInvHead | .jebFltTail | .jebFltHead | .secAdmitTag | .pwrCap => 0xFFFF
  | .timOfs _ => 0x700FFFFF
  | .prtStatus _ => 0xFFF07FF
  | .prtCtrl _ => 0xFFFF00
  | .prtQuantum _ => 0xFFFFFFFFFFFFFFF
  | .prtFecCorr _ | .jebOrdErr | .gutSrcCount _ => 0xFFFFFFFFFFFF
  | .prtFlashErr _ | .purShareCfg | .trsCommState _ => 0xFFFFFF
  | .prtPartner _ => 0x3FFFFFF
  | .prtCredit _ _ => 0x1FFF1FFF
  | .purLrt _ | .purLrtShadow _ => 0x3FF
  | .purStatus | .jebTdisp | .secZeroize | .gutStatus => 0x7
  | .purCells => 0x1FFFFF001FFFFF
  | .purDesc => 0x3FFFFF003FFFFF
  | .purReserved => 0x3FFFFF001FFFFF
  | .purEpochAt | .jebEpochAt | .gutRestartBeat _ => 0x803FFFFFFFFFFFFF
  | .purEpochStatus | .purBundleCtrl | .jebZeroize | .eavRetain | .eavCrypt | .gutSrcState _ => 0x3
  | .purAuditStatus => 0x1FFF000F
  | .purAuditQuarDesc | .pwrStatus => 0x3FFF
  | .purNodeLostSet | .jebFltResume | .secBayCtl | .gutTdCtl | .gutJebReport | .sofFwCtl => 0x0
  | .win _ _ 0 => 0xFFFFFFFF0001
  | .win _ _ 1 => 0xFFFFFFFF0000
  | .win _ _ 2 => 0xFFFFFFFF
  | .win .module _ 3 => 0xF
  | .win .jalem _ 3 => 0x7
  | .win _ _ _ => 0x1FFFFFF0000
  | .jebCfg => 0x7F7F
  | .jebMemSize => 0x1FFFFFF0000
  | .jebCtrl => 0x7F
  | .jebSpreadSeed => 0x3F3F
  | .jebEpochStatus => 0x7F03
  | .jebPoolHost | .jebPoolMirror => 0xFFFFFFFFFFFFF000
  | .jebPoolSize | .trsStatus => 0x1FFFFF
  | .jebCtx _ => 0xFFFFF0001
  | .jebInvBase => 0xFFFFFFFFFFFFFFC0
  | .jebInvSize | .jebFltSize | .eavStatus _ => 0x1F
  | .jebGen => 0xF
  | .jebFltBase => 0xFFFFFFFFFFFFFFE0
  | .jebSendSrc _ => 0x1FFFFFFFFFFFFE0
  | .jebSendCtl _ => 0xFFFFFFFFFDFF3FFF
  | .jebSendGo _ => 0x1FF00
  | .jebBay => 0x1FFFFFF
  | .eavLinePeak _ => 0x7F07FF
  | .eavHashCfg => 0x11F
  | .eavScrubCfg => 0x3F01
  | .eavBatten => 0x7F7F7F7F
  | .durBase _ | .durLimit _ => 0x1FFFFE00000
  | .durCtl _ => 0xF00
  | .durMark _ => 0xFFFFF
  | .gabStatus => 0x1FF03
  | .gabRefuseFirst => 0xFFFFFFFFFFF7FFFF
  | .gabSlot _ => 0xFFFFFFFFFF7
  | .trsProgDir _ => 0xFF03FF001FFF01
  | .trsCommCtl _ | .pwrThermal => 0xFFFFFFFFFFFFFF
  | .trsCommBlock _ | .secAdmitShape | .sofLogStatus => 0x3FFFF
  | .trsCommLand _ | .trsCommScratch _ | .trsCommStride _ => 0xFFFFFFFFFFE0
  | .trsErrFirst => 0x8FFFFFFFFFFFFFFF
  | .secBayStatus | .secKeyErrPort | .sofStatus => 0xFF
  | .secKeyStatus => 0xF0FFF
  | .secSession => 0xFF03
  | .secWeight _ => 0xFFFFFFFF00000007
  | .gutCtrl => 0xFF0103
  | .gutFirstInfo | .gutCapInfo _ => 0x800000FF0FFFFFFF
  | .gutCapStatus => 0xFFFF001F
  | .gutFatal => 0x8000000003FFFFFF
  | .gutTdStatus => 0x31F
  | .gutSrcCfg _ => 0x13FFFFF
  | .gutHealth _ => 0x13FFF
  | .gutHealthSum | .pwrSlew => 0x1FFFF
  | .sofFwSlot _ => 0xFFFFFFFF00FFFF03
  | .tstCtl _ => 0xFF0F
  | .tstGen _ => 0xFFFFFFFFFF03FFFF
  | r => if r.wide then 0xFFFFFFFFFFFFFFFF else 0xFFFFFFFF

/-! ### What a register reads -/

/-- Slice `k` of 64 bits of a word. -/
def slice64 {n : Nat} (w : BitVec n) (k : Nat) : W64 := BitVec.ofNat 64 (fld w (64 * k) 64)

/-- A flag as a number. -/
def flag (b : Bool) : Nat := b.toNat

/-- A word from a list of bytes, least significant first. -/
def wordOfBytes (l : List Byte) (w : Nat) : W64 := BitVec.ofNat 64 (natOfBytes ((l.drop (8 * w)).take 8))

/-- The value with the bits of the four slots of a key table that hold a key. -/
def slotBits {α : Type} (t : Tab (Option α)) : Nat := (List.range 4).foldl (fun acc i => acc + (Tab.get none t i).isSome.toNat * 2 ^ i) 0

/-- PRT_PARTNER of a port (R68). LINK of a tray partner, 24 or 25, is shown modulo 16 (DESIGN CHOICE, log entry 130). -/
def partnerWord (p : Option Identity) : W64 :=
  match p with
  | none => 0
  | some i =>
    if i.jalem ∨ i.role = .service then packW 64 [(0, i.node.toNat), (8, if i.jalem then i.link.toNat % 16 else 0), (24, i.rev.toNat)]
    else packW 64 [(0, i.index.toNat), (12, i.coord.x.toNat), (15, i.coord.y.toNat), (18, i.coord.z.toNat), (20, (i.port.toNat - 128) % 16),
      (24, i.rev.toNat)]

/-- The registers of a port (R68). -/
def Port.statusWord (x : Port) : W64 :=
  let t := x.train
  packW 64 [(0, t.state.code), (4, t.width.toNat), (6, t.rev.toNat), (8, roleCode t.role), (10, flag x.sealed), (16, t.features.toNat), (24, t.fail.toNat)]

def Port.ctrlWord (x : Port) : W64 := packW 64 [(8, x.cfg.featMask.toNat), (16, x.cfg.latCap.toNat)]

def Port.creditWord (x : Port) (v : Nat) : W64 := packW 64 [(0, x.cred.granted.getD v 0 % 8192), (16, x.cred.avail v % 8192)]

/-- A record of the mirror (R317, R319), `r` places before the newest. -/
def Gau.mirror (g : Gau) (r : Nat) : List Byte := if r < g.nextSeq then (g.record (g.nextSeq - 1 - r)).getD [] else []

/-- Whether a record belongs to the current bay: its BAY_TAG and ADMISSION (R317). -/
def State.ownRecord (s : State) (l : List Byte) : Bool :=
  s.admitted && decide (natOfBytes ((l.drop 24).take 2) = s.sec.tag.toNat ∧ natOfBytes ((l.drop 32).take 8) = s.gau.admission.toNat)

def State.sofVal (s : State) : Reg → W64
  | .sofId => sofId.setWidth 64
  | .sofStatus =>
    let x := s.sof
    packW 64 [(0, flag x.cfgDefault), (1, flag x.cfgOne), (2, x.cfgCopy.toNat), (3, flag x.thatchRun), (4, x.thatchSlot.toNat), (5, flag x.trial),
      (6, flag x.noThatch), (7, flag x.thatchFailed)]
  | .sofCfgSeq => s.sof.cfgSeq
  | .sofVendor => Config.sofVendor.setWidth 64
  | .sofLocation => s.sof.location.setWidth 64
  | .sofBayShape => s.bayShapeWord.setWidth 64
  | .sofFwSlot i =>
    let y := s.sof.slots.getD i FwSlot.reset
    packW 64 [(0, y.state.code), (8, y.minor.toNat), (16, y.major.toNat), (32, y.svn.toNat), (48, s.sof.svnMin.toNat)]
  | .sofLogStatus => packW 64 [(0, s.sof.logNext.toNat), (16, flag s.sof.logWrapped), (17, flag s.sof.logHoldup)]
  | .timStatus =>
    let t := s.tim
    let warn := allPorts.any fun n => decide (portRole n.val = .hip) && s.isActive n.val && (s.mport n.val).stamp.warn
    packW 64 [(0, flag t.refclkOk), (1, flag t.sync), (2, flag t.freeRun), (3, flag t.slip), (4, flag warn), (5, flag t.ofsFault)]
  | .timNow => BitVec.ofNat 64 s.ns
  | .timEpochLoad => packW 64 [(0, s.tim.epochNum.toNat), (63, flag s.tim.arm)]
  | .timSlipCount => s.tim.slips.setWidth 64
  | .timOfs k =>
    let x := (s.port (hipPortOf (Fin.ofNat 12 k))).stamp
    packW 64 [(0, x.offset.toNat), (28, flag x.valid), (29, flag x.warn), (30, flag x.fault)]
  | .tstCtl n => (s.mport n).spar.ctl.setWidth 64
  | .tstGen n => (s.mport n).spar.gen
  | .tstGenCount n => (s.mport n).spar.genCount
  | .tstChk n => (s.mport n).spar.chk
  | .tstLat n => (s.mport n).spar.lat
  | .tstLane n l => (Tab.get 0 (s.mport n).spar.lanes l).setWidth 64
  | _ => 0

/-- An audit pass is in progress: over 2^20 cells and 2^21 descriptors, one in a core cycle, it takes 1,536 beats (R99). -/
def State.auditRunning (s : State) : Bool := s.pur.auditRun.any fun b => decide (b ≤ s.beat ∧ s.beat < b + 1536)

def State.purVal (s : State) : Reg → W64
  | .purStatus => packW 64 [(0, flag s.pur.ready), (1, flag s.auditRunning), (2, flag s.pur.epochArm)]
  | .purCells => packW 64 [(0, s.pur.cells.free), (32, s.pur.cells.low)]
  | .purDesc => packW 64 [(0, s.pur.descs.free), (32, s.pur.descs.low)]
  | .purShareCfg => s.pur.shareCfg.setWidth 64
  | .purReserved => packW 64 [(0, s.pur.cells.reserved), (32, s.pur.descs.reserved)]
  | .purEpochAt => packW 64 [(0, s.pur.epochBeat.toNat), (63, flag s.pur.epochArm)]
  | .purEpochStatus => packW 64 [(0, flag s.pur.epochDone), (1, flag s.pur.epochReject)]
  | .purPairSeed => s.pur.pairSeed.setWidth 64
  | .purBundleCtrl => s.pur.bundleCtrl.setWidth 64
  | .purBundleCount => s.pur.bundleCount
  | .purAuditStatus => packW 64 [(0, s.pur.auditLast.toNat), (16, min s.pur.cells.quar 8191)]
  | .purAuditQuarDesc => BitVec.ofNat 64 (min s.pur.descs.quar 16383)
  | .purAuditFirst => s.pur.auditFirst
  | .purNodeLost k => BitVec.ofNat 64 (fld s.pur.nodeLost (32 * k) 32)
  | .purLrt n => (Tab.get 0 s.pur.lrt n).setWidth 64
  | .purLrtShadow n => (Tab.get 0 s.pur.shadow n).setWidth 64
  | .prtStatus p => (s.port p).statusWord
  | .prtCtrl p => (s.port p).ctrlWord
  | .prtQuantum p => (s.port p).cfg.quantum
  | .prtFecCorr p => (s.port p).err.fecCorr.setWidth 64
  | .prtLathErr p => (s.port p).err.lathErr.setWidth 64
  | .prtRetry p => (s.port p).err.retry.setWidth 64
  | .prtFlashErr p => (s.port p).err.flashErr.setWidth 64
  | .prtPartner p => partnerWord (s.port p).train.partner
  | .prtCredit p v => (s.port p).creditWord v
  | _ => 0

/-- The window entries of a device. -/
def State.winOf (s : State) (d : Dev) (n : Nat) : Window :=
  Tab.get Window.reset (match d with | .module => s.eav.wins | .jalem => s.jeb.wins) n

/-- Register `k` of a window entry. -/
def Window.reg (w : Window) (k : Nat) : W64 :=
  match k with
  | 0 => w.base
  | 1 => w.limit
  | 2 => w.src.setWidth 64
  | 3 => w.attr.setWidth 64
  | _ => w.loc

def State.eavVal (s : State) : Reg → W64
  | .eavStatus n =>
    let e := s.eave n
    packW 64 [(0, flag e.ready), (1, flag e.selfRefresh), (2, flag s.eav.cryptOn), (3, flag e.scrubRun), (4, flag e.zeroizing)]
  | .eavErr n => (s.eave n).err
  | .eavErrFirst n => (s.eave n).errFirst
  | .eavScrubPos n => (s.eave n).scrubPos.setWidth 64
  | .eavLinePeak n => (s.eave n).linePeak.setWidth 64
  | .win d n k => (s.winOf d n).reg k
  | .eavHashCfg => s.eav.hashCfg.setWidth 64
  | .eavScrubCfg => s.eav.scrubCfg.setWidth 64
  | .eavRetain => packW 64 [(0, flag s.eav.retained), (1, flag s.eav.lost)]
  | .eavCrypt => packW 64 [(0, flag s.eav.cryptOn), (1, flag s.eav.key.isSome)]
  | .eavBatten => packW 64 ((List.range 4).map fun g => (8 * g, min (s.group g).lists.length 127))
  | .durBase k => (s.dur k).base
  | .durLimit k => (s.dur k).limit
  | .durCtl k => packW 64 [(8, (s.dur k).state.code), (11, flag (s.dur k).err)]
  | .durMark k => (s.dur k).mark.setWidth 64
  | .durDigest k w => slice64 (s.dur k).digest w
  | .durExpect k w => slice64 (s.dur k).expect w
  | .gabStatus =>
    packW 64 [(0, flag s.gab.ready), (1, flag s.gab.zeroizing), (8, (s.gab.slots.filter fun p => decide (p.2.state ≠ .free)).length)]
  | .gabSkewCfg => s.gab.skewCfg.setWidth 64
  | .gabErr => s.gab.err
  | .gabStallFirst => s.gab.stallFirst
  | .gabRefuseFirst => s.gab.refuseFirst
  | .gabWork => s.gab.work
  | .gabSlot n =>
    let x := s.gab.slot n
    packW 64 [(0, x.state.code), (4, x.i), (8, x.o), (12, x.leaves % 256), (20, x.eunits % 256), (28, x.next % 1024), (38, x.comm % 64)]
  | _ => 0

def State.trsVal (s : State) : Reg → W64
  | .trsStatus =>
    packW 64 [(0, flag s.trs.ready), (1, flag s.trs.lock), (2, min s.trs.runs.length 512),
      (12, min (s.trs.runs.filter fun r => r.waitSlot.isSome).length 511)]
  | .trsProgDir n =>
    let d := s.trs.dir n
    packW 64 [(0, flag d.valid), (8, d.first.toNat), (32, d.length.toNat), (48, d.rev.toNat), (52, flag d.refused), (53, d.code.toNat)]
  | .trsErr => s.trs.err
  | .trsErrFirst => s.trs.errFirst
  | .trsProgMeas n w => slice64 (Tab.get 0 s.trs.meas n) w
  | .trsProgWord i => s.trs.word i
  | .trsCommCtl n => (s.trs.comm n).ctl
  | .trsCommMembers n w => if w = 0 then (s.trs.comm n).mem0 else (s.trs.comm n).mem1
  | .trsCommBlock n => (s.trs.comm n).block.setWidth 64
  | .trsCommLand n => (s.trs.comm n).land
  | .trsCommScratch n => (s.trs.comm n).scratch
  | .trsCommStride n => (s.trs.comm n).stride
  | .trsCommState n => packW 64 [(0, (s.trs.comm n).lastSeq.toNat), (20, (s.trs.comm n).outstanding.toNat)]
  | _ => 0

def State.gutVal (s : State) : Reg → W64
  | .gutCtrl => s.gut.ctrl.setWidth 64
  | .gutStatus => packW 64 [(0, flag s.faultLow), (1, flag (s.gut.srcs.any fun p => p.2.severe)), (2, flag (bitAt s.gut.fatal 63))]
  | .gutFirstAddr => s.gut.first.addr
  | .gutFirstInfo => s.gut.first.info
  | .gutFirstTime => s.gut.first.ns
  | .gutCapStatus => packW 64 [(0, s.gut.caps.length), (16, s.gut.dropped.toNat)]
  | .gutCapInfo j => ((s.gut.caps[j]?).getD Capture.reset).info
  | .gutCapTime j => ((s.gut.caps[j]?).getD Capture.reset).ns
  | .gutFatal => s.gut.fatal
  | .gutFatalTime => s.gut.fatalNs
  | .gutTdStatus => packW 64 [(0, s.gut.phase.code), (3, flag s.gut.needService), (4, flag s.gut.tdErr), (8, min s.restarts 3)]
  | .gutRestartBeat i => match s.gut.history[i]? with
    | some b => packW 64 [(0, b.toNat), (63, 1)]
    | none => 0
  | .gutFencePort w => slice64 s.gut.fencePorts w
  | .gutSrcCfg n => (Tab.get Src.zero s.gut.srcs n).cfg.setWidth 64
  | .gutSrcCount n => packW 64 [(0, (Tab.get Src.zero s.gut.srcs n).total.toNat), (32, (Tab.get Src.zero s.gut.srcs n).inWin.toNat)]
  | .gutSrcState n =>
    packW 64 [(0, flag (Tab.get Src.zero s.gut.srcs n).severe), (1, flag (Tab.get Src.zero s.gut.srcs n).openAt.isSome)]
  | .gutHealth i =>
    let h := Tab.get Health.reset s.gut.health i
    packW 64 [(0, h.score.toNat), (8, h.lane.toNat), (11, h.measure.toNat), (16, flag h.degraded)]
  | .gutHealthSum =>
    let least := s.gut.health.foldl (fun m p => min m p.2.score.toNat) 255
    packW 64 [(0, least), (8, min (s.gut.health.filter fun p => p.2.degraded).length 255), (16, flag s.gut.common)]
  | _ => 0

def State.secVal (s : State) : Reg → W64
  | .secBayStatus => packW 64 [(0, s.sec.state.code), (3, flag s.sec.busy), (4, s.sec.err.toNat)]
  | .secAdmitShape => s.sec.admitShape.setWidth 64
  | .secAdmitTag => s.sec.admitTag.setWidth 64
  | .secKeyStatus =>
    packW 64 [(0, slotBits s.sec.linkKeys), (4, s.sec.active.toNat), (6, flag (s.sec.install.any fun i => i.rotation)), (7, flag s.eav.key.isSome),
      (8, slotBits s.sec.weightKeys), (16, s.sec.keyErr.toNat)]
  | .secKeyErrPort => s.sec.keyErrPort.setWidth 64
  | .secSession => packW 64 [(0, flag !s.sec.sessions.isEmpty), (1, flag s.sec.requester.isSome), (8, (s.sec.sessions.getLastD (0, 0)).2.toNat)]
  | .secWeight k => Tab.get 0 s.sec.weights k
  | .secZeroize => packW 64 [(0, flag s.sec.pending), (1, flag s.sec.cold), (2, flag s.sec.done)]
  | .secZeroizeTime => s.sec.zeroTime
  | .pwrStatus => s.pwr.statusWord
  | .pwrCap => s.pwr.cap.setWidth 64
  | .pwrSlew => s.pwr.slew.setWidth 64
  | .pwrPower => packW 64 [(0, s.pwr.now.toNat), (16, min (s.pwr.ceiling / watt) 65535), (32, s.pwr.peak.toNat), (48, s.pwr.ballast.toNat)]
  | .pwrBrake => packW 64 [(0, s.pwr.brakeFloor.toNat), (16, s.pwr.brakeCount.toNat)]
  | .pwrLag => packW 64 [(0, s.pwr.episodes.toNat), (16, (s.pwr.countLag s.tim.upBeat).lagBeats.toNat)]
  | .pwrInput => packW 64 [(0, s.pwr.vin.toNat), (16, s.pwr.vinMin.toNat)]
  | .pwrThermal =>
    let c := s.pwr.cool
    let limit := match s.pwr.thermalCeiling with
      | some t => min (t / watt) 65535
      | none => if s.pwr.started then 0xFFFF else 0
    packW 64 [(0, c.tj.toNat), (8, c.inlet.toNat), (16, c.outlet.toNat), (24, c.flow.toNat), (32, s.pwr.tjPeak.toNat), (40, limit)]
  | .pwrThermCfg => s.pwr.thermCfg.setWidth 64
  | .gauId => Config.gauId.setWidth 64
  | .gauStatus =>
    let g := s.gau
    packW 64 [(0, flag g.sealOk), (1, flag g.keyOk), (2, flag g.holdupOk), (3, flag !g.sync), (4, flag g.channelOk), (5, flag (decide (gaugeRing < g.nextSeq)))]
  | .gauSerial => Config.serial
  | .gauSeq => BitVec.ofNat 64 (s.gau.nextSeq - 1)
  | .gauLive => packW 64 [(0, s.gau.period.energy.toNat % 2 ^ 48), (48, s.gau.power.toNat)]
  | .gauCertLen => BitVec.ofNat 64 (min Config.gauCert.length 2048)
  | .gauCert w => wordOfBytes Config.gauCert w
  | .gauRec r w => wordOfBytes (s.gau.mirror r) w
  | _ => 0

def State.jebVal (s : State) : Reg → W64
  | .jebId => 0x4A960102
  | .jebCfg => packW 64 [(0, rafterCount), (5, trayCount), (8, s.jeb.node.toNat)]
  | .jebMemSize => s.jeb.memSize
  | .jebCtrl => s.jeb.lineCap.setWidth 64
  | .jebStatus =>
    let t := s.jeb.tim
    packW 64 [(0, flag s.jeb.tagged), (1, flag s.jeb.stopped), (2, flag t.refclkOk), (3, flag t.sync), (4, flag t.freeRun), (5, flag t.slip)]
  | .jebSpreadMap k => slice64 s.jeb.spreadMap k
  | .jebSpreadShadow k => slice64 s.jeb.shadowMap k
  | .jebSpreadSeed => packW 64 [(0, s.jeb.spreadSeed.toNat), (8, s.jeb.shadowSeed.toNat)]
  | .jebEpochAt => packW 64 [(0, s.jeb.epochBeat.toNat), (63, flag s.jeb.epochArm)]
  | .jebEpochStatus => packW 64 [(0, flag s.jeb.epochDone), (1, flag s.jeb.epochReject), (8, s.jeb.moved.length)]
  | .jebTimeNow => BitVec.ofNat 64 s.jeb.tim.ns
  | .jebPoolHost => s.jeb.poolHost
  | .jebPoolMirror => s.jeb.poolMirror
  | .jebPoolSize => s.jeb.poolSize.setWidth 64
  | .jebCtx n => Tab.get 0 s.jeb.ctxs n
  | .jebInvBase => s.jeb.invBase
  | .jebInvSize => s.jeb.invSize.setWidth 64
  | .jebInvTail => s.jeb.invTail.setWidth 64
  | .jebInvHead => s.jeb.invHead.setWidth 64
  | .jebGenDone => s.jeb.genDone.setWidth 64
  | .jebGen => packW 64 [(0, flag s.jeb.genErr), (1, s.jeb.genCode.toNat)]
  | .jebFltBase => s.jeb.fltBase
  | .jebFltSize => s.jeb.fltSize.setWidth 64
  | .jebFltTail => s.jeb.fltTail.setWidth 64
  | .jebFltHead => s.jeb.fltHead.setWidth 64
  | .jebSig n => (Tab.get 0 s.jeb.sig n).setWidth 64
  | .jebSendSrc n => (s.desc n).src
  | .jebSendCtl n => (s.desc n).ctl
  | .jebSendAux n => (s.desc n).aux
  | .jebSendGo n => packW 64 [(8, (s.desc n).queued.toNat)]
  | .jebBay => packW 64 [(0, s.jeb.tag.toNat), (16, flag s.jeb.tagged), (17, s.jeb.rack.toNat)]
  | .jebKeyStatus => packW 64 [(0, slotBits s.jeb.keys), (4, s.jeb.activeKey.toNat)]
  | .jebTdisp => packW 64 [(0, s.jeb.tdisp.toNat), (2, flag s.jeb.ideOk)]
  | .jebZeroize => packW 64 [(0, flag s.jeb.zPending), (1, flag s.jeb.zDone)]
  | .jebErr0 => s.jeb.err0
  | .jebErr1 => s.jeb.err1
  | .jebOrdErr => s.jeb.ordErr
  | _ => 0

/-- The fields of a register's current value: each block gives its own and 0 for the others'. -/
def State.rawVal (s : State) (r : Reg) : W64 :=
  s.sofVal r ||| s.purVal r ||| s.eavVal r ||| s.trsVal r ||| s.gutVal r ||| s.secVal r ||| s.jebVal r

/-- The current value of a register: its reserved bits read 0 (R6, R7). -/
def State.regVal (s : State) (r : Reg) : W64 := s.rawVal r &&& r.fields

/-- Whether an in-band read of a register returns 0 (R288, R317, R334): what has operator scope, and another bay's records. -/
def State.hiddenInBand (s : State) (r : Reg) : Bool :=
  match r with
  | .pwrInput | .pwrThermCfg | .gutHealth _ | .gutHealthSum => true
  | .gutSrcCfg n | .gutSrcCount n | .gutSrcState n => bitAt (Tab.get Src.zero s.gut.srcs n).cfg 24
  | .gutCapInfo j | .gutCapTime j => bitAt ((s.gut.caps[j]?).getD Capture.reset).info 7
  | .gutFirstAddr | .gutFirstInfo | .gutFirstTime => bitAt s.gut.first.info 7
  | .gutFatal | .gutFatalTime => !s.gut.fatalOfBay
  | .gauRec r _ => !s.ownRecord (s.gau.mirror r)
  | _ => false

end Sys2Proof.Machine
end

