-- ==== Sys2Proof/Machine/Ring.lean ====
section
/-! DEFINITION. The Jalem block's invalidation ring (R137 to R140, R159) and its route epochs (R92 to R94, R148). -/

namespace Sys2Proof.Machine

open Sys2Proof

/-! ### Ring entries (R137) -/

def hostWord (r : HostRead) (i : Nat) : W64 := r.words.getD i 0

/-- A host read that the block may use (R140, R159). -/
def Jeb.hostOk (j : Jeb) (r : HostRead) : Bool := !r.failed && (decide (j.tdisp ≠ 2) || r.ide)

/-- A host read as the block takes it: accepted or not by the state in which it was made (R159). -/
def Jeb.judged (j : Jeb) (r : HostRead) : HostRead := { r with failed := !j.hostOk r }

def ringCmd (r : HostRead) : Nat := fld (hostWord r 0) 0 8
def ringCtx (r : HostRead) : BitVec 6 := BitVec.ofNat 6 (fld (hostWord r 0) 16 6)
def ringArg (r : HostRead) : Nat := fld (hostWord r 0) 32 32
def ringUnit (r : HostRead) : Nat := fld (hostWord r 1) 0 20
def ringGranule (r : HostRead) : Nat := fld (hostWord r 1) 16 41
def ringGranules (r : HostRead) : Nat := fld (hostWord r 2) 0 32
def ringDrain (r : HostRead) : Bool := bitAt (hostWord r 3) 0

/-- The bits that a command's entry may set in words 0 to 3; all others are reserved. -/
def ringMask (cmd : Nat) : Option (List W64) :=
  match cmd with
  | 1 => some [0xFFFFFFFF000000FF, 0xFFFFF, 0, 0]
  | 2 => some [0x3F00FF, 0x01FFFFFFFFFF0000, 0xFFFFFFFF, 0]
  | 3 => some [0x3F00FF, 0, 0, 0]
  | 4 => some [0xFF, 0, 0, 0]
  | 5 => some [0xFFFFFFFF000000FF, 0, 0, 1]
  | _ => none

/-- A reserved command or a nonzero reserved bit (R140 code 1). -/
def ringReserved (r : HostRead) : Bool :=
  match ringMask (ringCmd r) with
  | none => true
  | some m => !((List.range 8).all fun i => decide (hostWord r i &&& ~~~ (m.getD i 0) = 0))

/-- The code of R140 that an entry meets before it starts; `none` where it may start. A COPY of no granule or of more than 65,536, and an INVAL_VA of
no granule, have no code and are carried out as they read (DESIGN CHOICE, log entry 115). -/
def Jeb.ringFault (j : Jeb) (r : HostRead) : Option (BitVec 3) :=
  if r.failed then some 3
  else if ringReserved r then some 1
  else if ringCmd r = 1 ∧ j.poolSize.toNat < ringUnit r + ringArg r then some 2
  else if ringCmd r = 5 ∧ BitVec.ofNat 32 (ringArg r) ≠ j.genDone + 1 then some 4
  else none

/-- The next entry is looked at: an entry that cannot start stops the ring (R140). -/
def Jeb.ringLook (j : Jeb) : Jeb :=
  if j.genErr ∨ j.genWait.isSome then j
  else match j.fetched.head? with
    | none => j
    | some r => match j.ringFault r with
      | some c => { j with genErr := true, genCode := c }
      | none => j

/-- The ring moves to its next entry (R137). -/
def Jeb.ringNext (j : Jeb) : Jeb :=
  { j with invHead := BitVec.ofNat 16 ((j.invHead.toNat + 1) % ringSize j.invSize), fetched := j.fetched.drop 1, genWait := none }.ringLook

/-- The entry in turn, if the ring runs, no GEN waits and it is command `cmd`. -/
def Jeb.ringTurn (j : Jeb) (cmd : Nat) : Option HostRead :=
  if j.genErr ∨ j.genWait.isSome then none
  else match j.fetched.head? with
    | some r => if ringCmd r = cmd then some r else none
    | none => none

/-- Host reads are issued with T = 1 while STATE is RUN (R159). -/
def Jeb.trusted (j : Jeb) : Bool := decide (j.tdisp = 2)

/-- The ring entries, by number, that a new tail lets the block read. -/
def Jeb.newEntries (j : Jeb) (tail : W16) : List Nat :=
  let n := ringSize j.invSize
  let wanted := (tail.toNat + n - j.invHead.toNat % n) % n
  (upFrom j.fetched.length (wanted - j.fetched.length)).map fun k => (j.invHead.toNat + k) % n

/-- JEB_INV_TAIL written: the entries up to the new tail are read from the host, each judged as it is read (R159). -/
def Jeb.writeInvTail (j : Jeb) (value : W32) (entries : List HostRead) : Jeb :=
  let t : W16 := BitVec.ofNat 16 (fld value 0 16)
  { j with invTail := t, fetched := j.fetched ++ (entries.take (j.newEntries t).length).map j.judged }.ringLook

/-- The reads of those entries go to the host (R137, R159). -/
def State.readEntries (s : State) (value : W32) : State :=
  (s.jeb.newEntries (BitVec.ofNat 16 (fld value 0 16))).foldl
    (fun s i => s.emit (.hostRead (s.jeb.invBase + BitVec.ofNat 64 (64 * i)) 64 s.jeb.trusted)) s

/-- JEB_INV_TAIL (R137, R159). -/
def execJebInvTail (value : W32) (entries : List HostRead) (s : State) : Host.Outcome State Fault Refusal :=
  .next ((s.readEntries value).updJeb fun j => j.writeInvTail value entries)

/-- The four words of shingle `k` of a copied range. -/
def copyShingle (data : HostRead) (k : Nat) : Shingle :=
  encodeShingle (BitVec.ofNat 256 ((List.range 4).foldl (fun acc i => acc + (hostWord data (4 * k + i)).toNat * 2 ^ (64 * i)) 0))

/-- COPY (R138, R140, R159): `data` is what the reads of the host copy returned. -/
def execCopy (data : HostRead) (s : State) : Host.Outcome State Fault Refusal :=
  .next (match s.jeb.ringTurn 1 with
  | none => s
  | some r =>
    let s := s.emit (.hostRead (s.jeb.poolHost + BitVec.ofNat 64 (4096 * ringUnit r)) (4096 * ringArg r) s.jeb.trusted)
    if !s.jeb.hostOk data then s.updJeb fun j => { j with genErr := true, genCode := 3 }
    else s.updJeb fun j =>
      let first := (j.poolMirror.toNat / 4096 * 4096 + 4096 * ringUnit r) / 32
      { j with mem := ((List.range (128 * ringArg r)).foldl (fun m k => storeShingle m (first + k) (copyShingle data k) false) j.store).mem }.ringNext)

/-- A descriptor disarmed by an invalidation (R154). -/
def SendDesc.stale (d : SendDesc) : SendDesc := { d with ctl := setBit (setBit d.ctl 46 false) 47 true, queued := 0, pins := [] }

/-- An invalidation: cached translations and pinned descriptors of the contexts and granules that `hit` names (R138, R154). -/
def Jeb.invalidate (j : Jeb) (hit : BitVec 6 → Nat → Nat → Bool) : Jeb :=
  { j with
    cache := j.cache.filter fun c => !hit c.ctx (c.page * (leafBytes c.level / 65536)) (leafBytes c.level / 65536)
    sends := Tab.mapAll SendDesc.reset (fun d =>
      if bitAt d.ctl 46 && d.pins.any fun p => hit (BitVec.ofNat 6 (fld d.ctl 39 6)) p.1 1 then d.stale else d) j.sends }

/-- Whether granules [g, g + n) meet [a, a + m). -/
def granulesMeet (g n a m : Nat) : Bool := decide (g < a + m ∧ a < g + n)

/-- INVAL_VA (R138). -/
def execInvalVa (s : State) : Host.Outcome State Fault Refusal :=
  .next (match s.jeb.ringTurn 2 with
  | none => s
  | some r => s.updJeb fun j =>
      (j.invalidate fun c g n => decide (c = ringCtx r) && granulesMeet g n (ringGranule r) (ringGranules r)).ringNext)

/-- INVAL_CTX (R138). -/
def execInvalCtx (s : State) : Host.Outcome State Fault Refusal :=
  .next (match s.jeb.ringTurn 3 with
  | none => s
  | some r => s.updJeb fun j => (j.invalidate fun c _ _ => decide (c = ringCtx r)).ringNext)

/-- INVAL_ALL (R138). -/
def execInvalAll (s : State) : Host.Outcome State Fault Refusal :=
  .next (match s.jeb.ringTurn 4 with
  | none => s
  | some _ => s.updJeb fun j => (j.invalidate fun _ _ _ => true).ringNext)

/-- The numbers of items whose page check has begun and not ended, by being issued or faulted (R138). -/
def openCheck : QItem → Option Nat
  | .xfer x => if x.toIssue = [] then none else some x.id
  | .parked id _ b _ => if b then some id else none
  | .fence _ _ _ => none

/-- Open page checks of every engine. -/
def Jeb.openChecks (j : Jeb) : List Nat := j.engines.flatMap fun p => p.2.queue.filterMap openCheck

/-- GEN (R138): the wait starts. -/
def execGen (s : State) : Host.Outcome State Fault Refusal :=
  .next (match s.jeb.ringTurn 5 with
  | none => s
  | some r => s.updJeb fun j =>
      { j with genWait := some { gen := BitVec.ofNat 32 (ringArg r), drain := ringDrain r, xfers := j.openChecks,
                                 tags := if ringDrain r then j.reqs.map fun q => (q.hdr.srcEngine, q.hdr.tag) else []
                                 descs := (j.fltWait.reverse.dropWhile fun p => decide (p.2.cls ≠ 7)).length } })

/-- Whether nothing that a GEN waits for is left (R138). Under DRAIN the requests of a check that it waited for must have been answered too, so
that no request of the old mapping remains (R139); one whose response is held back counts on (DESIGN CHOICE, log entry 139). -/
def Jeb.genReady (j : Jeb) (w : GenWait) : Bool :=
  (w.xfers.all fun i => decide (i ∉ j.openChecks)) && decide (w.tags = []) && decide (w.descs = 0) &&
    (!w.drain || j.reqs.all fun r => decide (r.xfer ∉ w.xfers))

/-- GEN_COMPLETE (R138): once nothing that the GEN waits for is left. -/
def execGenComplete (s : State) : Host.Outcome State Fault Refusal :=
  .next (match s.jeb.genWait with
  | none => s
  | some w =>
    if s.jeb.genReady w then
      s.updJeb fun j => { j with genDone := w.gen }.ringNext
    else s)

/-- JEB_GEN.ERR written 1: execution resumes at the next entry. -/
def State.clearGenErr (s : State) : State := if s.jeb.genErr then s.updJeb fun j => { j with genErr := false }.ringNext else s

/-- JEB_GEN_ERR (R140). -/
def execJebGenErr (s : State) : Host.Outcome State Fault Refusal := .next s.clearGenErr

/-! ### Route epochs (R92 to R94, R148) -/

/-- JEB_EPOCH_AT written from the fabric side (R94, R148). -/
def State.writeJebEpoch (s : State) (value : W64) : State :=
  s.updJeb fun j =>
    let b : BitVec 54 := BitVec.ofNat 54 (fld value 0 54)
    if j.epochArm ∨ (bitAt value 63 ∧ (b.toNat ≤ j.tim.beat ∨ !j.tim.sync)) then { j with epochReject := true }
    else { j with epochBeat := b, epochArm := bitAt value 63 }

/-- JEB_EPOCH_AT (R148): local-side writes are ignored. -/
def execJebEpochAt (who : Requester) (value : W64) (s : State) : Host.Outcome State Fault Refusal :=
  .next (match who with
    | .fabricSide _ => s.writeJebEpoch value
    | _ => s)

/-- The buckets whose entry differs between two maps (R92). -/
def movedBuckets (a b : BitVec 256) : List (BitVec 6) :=
  ((List.range 64).filter fun h => decide (mapEntry a h ≠ mapEntry b h)).map fun h => BitVec.ofNat 6 h

/-- The swap (R92, R148). -/
def Jeb.swap (j : Jeb) : Jeb :=
  let m := movedBuckets j.spreadMap j.shadowMap
  let j := { j with spreadMap := j.shadowMap, spreadSeed := j.shadowSeed, epochArm := false, epochAt := j.tim.beat, epochs := j.epochs + 1,
                    moved := j.moved ++ m.filter fun b => decide (b ∉ j.moved) }
  { j with moved := j.undrained, epochDone := j.epochDone || decide (j.undrained = []) }

/-- JEB_ROUTE_EPOCH (R148). -/
def execJebRouteEpoch (beat : W64) (s : State) : Host.Outcome State Fault Refusal :=
  let s := s.toBeat beat.toNat
  .next (if s.jeb.epochArm ∧ s.jeb.epochBeat.toNat ≤ s.jeb.tim.beat then s.updJeb Jeb.swap else s)

/-- The event of a moved bucket, in the name of the block's node (log entry 21). -/
def State.bucketEvent (s : State) : Event := { eventOf 9 with node := BitVec.ofNat 8 s.jeb.node.toNat }

/-- MOVED_BUCKET_UNDRAINED (R93): at 1,024 beats after the epoch, one event for each bucket left. -/
def execMovedBucketUndrained (beat : W64) (s : State) : Host.Outcome State Fault Refusal :=
  let s := s.toBeat beat.toNat
  .next (if beat.toNat = s.jeb.epochAt + 1024 ∧ s.jeb.moved ≠ [] then s.count { s.bucketEvent with count := s.jeb.moved.length } else s)

/-- MOVED_BUCKET_FATAL (R93): at 16,384 beats after the epoch. -/
def execMovedBucketFatal (beat : W64) (s : State) : Host.Outcome State Fault Refusal :=
  let s := s.toBeat beat.toNat
  .next (if beat.toNat = s.jeb.epochAt + 16384 ∧ s.jeb.moved ≠ [] then s.fatal 8 .nothing s.bucketEvent else s)

end Sys2Proof.Machine
end

