-- ==== Sys2Proof/Machine/Registers.lean ====
section
/-! DEFINITION. Register accesses of every requester (R6 to R8, R161, R284, R317, R339 to R344): who may write which register, the
effect of a write and of a read on the fields, the latches of accesses in halves, and the window tables (R122, R149, R194). -/

namespace Sys2Proof.Machine

open Sys2Proof

/-! ### Who may write (R158, R161, R283, R284, R322, R341, R344) -/

/-- Registers that only the rack controller's interface writes (R341). -/
def Reg.rackOnly : Reg → Bool
  | .pwrCap | .pwrSlew | .pwrBrake | .pwrThermCfg => true
  | _ => false

/-- The registers of SEC. -/
def Reg.isSec : Reg → Bool
  | .secBayCtl | .secBayStatus | .secAdmitShape | .secAdmitTag | .secKeyStatus | .secKeyErrPort | .secSession | .secWeight _ | .secZeroize => true
  | .secZeroizeTime => true
  | _ => false

/-- The registers that Thatch forwards to Sarking from the management interfaces (R283, R284). -/
def Reg.forwarded : Reg → Bool
  | .secBayCtl | .secAdmitShape | .secAdmitTag => true
  | _ => false

/-- The tables that the management interfaces only read (R341). -/
def Reg.managerOnly : Reg → Bool
  | .win .module _ _ | .durBase _ | .durLimit _ | .durCtl _ | .durMark _ | .durDigest _ _ | .durExpect _ _ => true
  | .trsCommCtl _ | .trsCommMembers _ _ | .trsCommBlock _ | .trsCommLand _ | .trsCommScratch _ | .trsCommStride _ | .trsCommState _ => true
  | _ => false

/-- The registers that the bay's fabric manager writes whole (R344). -/
def Reg.manager : Reg → Bool
  | .secWeight _ | .trsProgDir _ | .trsProgWord _ | .purEpochAt | .purEpochStatus | .purLrtShadow _ | .purNodeLostSet | .gutSrcCfg _ => true
  | r => r.managerOnly

/-- The registers of a Jalem block whose fields are written from the fabric side (R149, R161). -/
def Reg.fabric : Reg → Bool
  | .win _ _ _ | .jebSpreadShadow _ | .jebSpreadSeed | .jebEpochAt | .jebEpochStatus => true
  | _ => false

/-- The registers that the TDISP state locks (R158). -/
def Reg.locked : Reg → Bool
  | .jebMemSize | .jebPoolHost | .jebPoolMirror | .jebPoolSize | .jebCtx _ | .jebInvBase | .jebInvSize | .jebFltBase | .jebFltSize => true
  | _ => false

/-- The registers of bay scope of which the fabric manager clears the RC and W1C fields (R344); no PWR register is written in band
(R322). -/
def State.clearsInBand (s : State) (r : Reg) : Bool :=
  (decide (r.rc ≠ 0) || decide (r.w1c ≠ 0)) && !r.isSec && !s.hiddenInBand r &&
    (match r with
     | .gutFencePort _ | .sofLogStatus | .pwrStatus => false
     | _ => true)

/-- Whether a requester's write of a register of a device is performed. JEB_EPOCH_STATUS is cleared from either side. -/
def State.mayWrite (s : State) (who : Requester) (d : Dev) (r : Reg) : Bool :=
  match d, who with
  | .jalem, .localSide => !r.fabric || decide (r = .jebEpochStatus)
  | .jalem, .fabricSide _ => r.fabric
  | .jalem, _ => false
  | .module, .inBand => s.sof.thatchRun && (r.manager || s.clearsInBand r)
  | .module, .thatch => !r.isSec && !r.rackOnly
  | .module, .ethernet => s.mgmt who && (if r.isSec then r.forwarded else !r.managerOnly && !r.rackOnly)
  | .module, .rackController => s.mgmt who && (if r.isSec then r.forwarded else !r.managerOnly)
  | .module, _ => false

/-- Whether a requester reaches a device's registers at all. -/
def State.reachesDev (s : State) (who : Requester) (d : Dev) : Bool :=
  match d with
  | .module => s.reaches who
  | .jalem => match who with
    | .localSide | .fabricSide _ => true
    | _ => false

/-! ### Setting the fields of a register -/

def State.setSofReg (s : State) (r : Reg) (v : W64) : State :=
  match r with
  | .sofLogStatus => s.setSof fun x => { x with logHoldup := bitAt v 17 }
  | .timStatus => { s with tim := { s.tim with slip := bitAt v 3, ofsFault := bitAt v 5 } }
  | .timEpochLoad => { s with tim := { s.tim with epochNum := BitVec.ofNat 34 (fld v 0 34), arm := bitAt v 63 } }
  | .timSlipCount => { s with tim := { s.tim with slips := v.truncate 16 } }
  | .tstGen n => s.updSpar (Fin.ofNat 144 n) fun x => { x with gen := v }
  | .tstGenCount n => s.updSpar (Fin.ofNat 144 n) fun x => { x with genCount := v }
  | .tstChk n => s.updSpar (Fin.ofNat 144 n) fun x => { x with chk := v }
  | .tstLat n => s.updSpar (Fin.ofNat 144 n) fun x => { x with lat := v }
  | .tstLane n l => s.updSpar (Fin.ofNat 144 n) fun x => { x with lanes := Tab.put 0 x.lanes l (v.truncate 32) }
  | _ => s

def State.setPurReg (s : State) (r : Reg) (v : W64) : State :=
  match r with
  | .purCells => { s with pur := { s.pur with cells := { s.pur.cells with low := fld v 32 21 } } }
  | .purDesc => { s with pur := { s.pur with descs := { s.pur.descs with low := fld v 32 22 } } }
  | .purShareCfg => { s with pur := { s.pur with shareCfg := v.truncate 32 } }
  | .purEpochStatus => { s with pur := { s.pur with epochDone := bitAt v 0, epochReject := bitAt v 1 } }
  | .purPairSeed => { s with pur := { s.pur with pairSeed := v.truncate 6 } }
  | .purBundleCtrl => { s with pur := { s.pur with bundleCtrl := v.truncate 32 } }
  | .purBundleCount => { s with pur := { s.pur with bundleCount := v } }
  | .prtCtrl p => s.updPort p fun x =>
      { x with cfg := { x.cfg with featMask := BitVec.ofNat 8 (fld v 8 8), latCap := BitVec.ofNat 8 (fld v 16 8) } }
  | .prtQuantum p => s.updPort p fun x => { x with cfg := { x.cfg with quantum := v } }
  | .prtFecCorr p => s.updPort p fun x => { x with err := { x.err with fecCorr := v.truncate 48 } }
  | .prtLathErr p => s.updPort p fun x => { x with err := { x.err with lathErr := v.truncate 32 } }
  | .prtRetry p => s.updPort p fun x => { x with err := { x.err with retry := v.truncate 32 } }
  | .prtFlashErr p => s.updPort p fun x => { x with err := { x.err with flashErr := v.truncate 24 } }
  | _ => s

/-- The eaves that are ready scrub exactly while EN is 1 (R198), but for one that is zeroizing (R207). -/
def State.setScrubCfg (s : State) (v : W32) : State :=
  { s with eav := { s.eav with
    scrubCfg := v, eaves := Tab.mapAll Eave.reset (fun e => { e with scrubRun := e.ready && bitAt v 0 && !e.zeroizing }) s.eav.eaves } }

def State.setEavReg (s : State) (r : Reg) (v : W64) : State :=
  match r with
  | .eavErr n => s.setEave n { s.eave n with err := v }
  | .eavErrFirst n => s.setEave n { s.eave n with errFirst := v }
  | .eavScrubPos n => s.setEave n { s.eave n with scrubPos := v.truncate 32 }
  | .eavLinePeak n => s.setEave n { s.eave n with linePeak := v.truncate 32 }
  | .eavHashCfg => { s with eav := { s.eav with hashCfg := v.truncate 32 } }
  | .eavScrubCfg => s.setScrubCfg (v.truncate 32)
  | .eavRetain => { s with eav := { s.eav with lost := bitAt v 1 } }
  | .durBase k => s.setDur k { s.dur k with base := v }
  | .durLimit k => s.setDur k { s.dur k with limit := v }
  | .durCtl k => s.setDur k { s.dur k with err := bitAt v 11 }
  | .durExpect k w => s.setDur k { s.dur k with expect := setFld (s.dur k).expect (64 * w) 64 v.toNat }
  | .gabSkewCfg => { s with gab := { s.gab with skewCfg := v.truncate 32 } }
  | .gabErr => { s with gab := { s.gab with err := v } }
  | .gabStallFirst => { s with gab := { s.gab with stallFirst := v } }
  | .gabRefuseFirst => { s with gab := { s.gab with refuseFirst := v } }
  | _ => s

def State.setComm (s : State) (n : Nat) (f : Comm → Comm) : State :=
  s.setTrs fun t => { t with comms := Tab.upd Comm.reset t.comms n f }

def State.setTrsReg (s : State) (r : Reg) (v : W64) : State :=
  match r with
  | .trsErr => s.setTrs fun t => { t with err := v }
  | .trsErrFirst => s.setTrs fun t => { t with errFirst := v }
  | .trsCommMembers n w => s.setComm n fun c => if w = 0 then { c with mem0 := v } else { c with mem1 := v }
  | .trsCommBlock n => s.setComm n fun c => { c with block := v.truncate 32 }
  | .trsCommLand n => s.setComm n fun c => { c with land := v }
  | .trsCommScratch n => s.setComm n fun c => { c with scratch := v }
  | .trsCommStride n => s.setComm n fun c => { c with stride := v }
  | _ => s

/-- A Gutter source changed. -/
def State.setSrc (s : State) (n : Nat) (f : Src → Src) : State := s.setGut fun g => { g with srcs := Tab.upd Src.zero g.srcs n f }

def State.setGutReg (s : State) (r : Reg) (v : W64) : State :=
  match r with
  | .gutCtrl => s.setGut fun g => { g with ctrl := v.truncate 32 }
  | .gutFirstInfo => s.setGut fun g => { g with first := { g.first with info := v } }
  | .gutCapStatus => s.setGut fun g => { g with dropped := BitVec.ofNat 16 (fld v 16 16) }
  | .gutTdStatus => s.setGut fun g => { g with tdErr := bitAt v 4 }
  | .gutSrcCfg n => s.setSrc n fun c => { c with cfg := v.truncate 32 }
  | .gutSrcCount n => s.setSrc n fun c => { c with total := v.truncate 32 }
  | .gutSrcState n => s.setSrc n fun c => { c with severe := bitAt v 0 }
  | .gutHealthSum => s.setGut fun g => { g with common := bitAt v 16 }
  | _ => s

def State.setSecReg (s : State) (r : Reg) (v : W64) : State :=
  match r with
  | .secAdmitShape => s.setSec fun x => { x with admitShape := v.truncate 18 }
  | .secAdmitTag => s.setSec fun x => { x with admitTag := v.truncate 16 }
  | .secZeroize => s.setSec fun x => { x with cold := bitAt v 1, done := bitAt v 2 }
  | .pwrStatus => s.setPwr fun p => { p with downLag := bitAt v 4, vinRange := bitAt v 6 }
  | .pwrSlew => s.setPwr fun p => { p with slew := v.truncate 32 }
  | .pwrPower => s.setPwr fun p => { p with peak := BitVec.ofNat 16 (fld v 32 16) }
  | .pwrBrake => s.setPwr fun p => { p with brakeFloor := v.truncate 16, brakeCount := BitVec.ofNat 16 (fld v 16 16) }
  | .pwrLag => s.setPwr fun p => { p with episodes := v.truncate 16, lagBeats := BitVec.ofNat 16 (fld v 16 16), lagFrom := s.tim.upBeat }
  | .pwrInput => s.setPwr fun p => { p with vinMin := BitVec.ofNat 16 (fld v 16 16) }
  | .pwrThermal => s.setPwr fun p => { p with tjPeak := BitVec.ofNat 8 (fld v 32 8) }
  | .pwrThermCfg => s.setPwr fun p => { p with thermCfg := v.truncate 32 }
  | _ => s

def State.setJebReg (s : State) (r : Reg) (v : W64) : State :=
  match r with
  | .jebMemSize => s.updJeb fun j => { j with memSize := v }
  | .jebCtrl => s.updJeb fun j => { j with lineCap := v.truncate 7 }
  | .jebStatus => s.updJeb fun j => { j with tim := { j.tim with slip := bitAt v 5 } }
  | .jebSpreadShadow k => s.updJeb fun j => { j with shadowMap := setFld j.shadowMap (64 * k) 64 v.toNat }
  | .jebSpreadSeed => s.updJeb fun j => { j with shadowSeed := BitVec.ofNat 6 (fld v 8 6) }
  | .jebEpochStatus => s.updJeb fun j => { j with epochDone := bitAt v 0, epochReject := bitAt v 1 }
  | .jebPoolHost => s.updJeb fun j => { j with poolHost := v }
  | .jebPoolMirror => s.updJeb fun j => { j with poolMirror := v }
  | .jebPoolSize => s.updJeb fun j => { j with poolSize := v.truncate 21 }
  | .jebCtx n => s.updJeb fun j => { j with ctxs := Tab.put 0 j.ctxs n v }
  | .jebInvBase => s.updJeb fun j => { j with invBase := v }
  | .jebInvSize => s.updJeb fun j => { j with invSize := v.truncate 5 }
  | .jebFltBase => s.updJeb fun j => { j with fltBase := v }
  | .jebFltSize => s.updJeb fun j => { j with fltSize := v.truncate 5 }
  | .jebSig n => (s.updJeb fun j => { j with sig := Tab.put 0 j.sig n (v.truncate 32) }).endWaits
  | .jebSendSrc n => s.setDesc n { s.desc n with src := v }
  | .jebSendAux n => s.setDesc n { s.desc n with aux := v }
  | .jebZeroize => s.updJeb fun j => { j with zDone := bitAt v 1 }
  | .jebErr0 => s.updJeb fun j => { j with err0 := v }
  | .jebErr1 => s.updJeb fun j => { j with err1 := v }
  | .jebOrdErr => s.updJeb fun j => { j with ordErr := v }
  | _ => s

/-- The stored fields of a register set to those of a whole value; fields that the machine drives are left. -/
def State.setReg (s : State) (r : Reg) (v : W64) : State :=
  ((((((s.setSofReg r v).setPurReg r v).setEavReg r v).setTrsReg r v).setGutReg r v).setSecReg r v).setJebReg r v

/-! ### Reads (R6) -/

/-- The value of RC fields once read: 0, and the present value or the identity for those that hold a minimum (log entry 30). -/
def State.cleared (s : State) (r : Reg) (old : W64) : W64 :=
  match r with
  | .tstLat _ => if fld old 0 32 = 0 then 0xFFFFFFFF else old
  | .purCells => setFld old 32 21 (s.pur.cells.sharedFree cellTotal)
  | .purDesc => setFld old 32 22 (s.pur.descs.sharedFree descTotal)
  | _ => old

/-- A lane's checker that runs counts on after a read has cleared its count: by the next read it has counted a free number of errors (R356; log
entry 5). -/
def State.countOn (s : State) (r : Reg) : State :=
  match r with
  | .tstLane n l =>
    if fld (s.mport n).spar.ctl 0 2 = 0 then s
    else (s.updSpar (Fin.ofNat 144 n) fun x => { x with lanes := Tab.put 0 x.lanes l (satAdd 0 s.freeNat) }).spend 1
  | _ => s

/-- The RC fields of a register within a mask cleared by a read. PUR_AUDIT_FIRST read as zero may be loaded again (R101). -/
def State.clearRead (s : State) (r : Reg) (mask : W64) : State :=
  if r = .purAuditFirst then (if s.pur.auditFirst = 0 ∧ bitAt mask 0 then { s with pur := { s.pur with auditArmed := true } } else s)
  else if r.rc &&& mask = 0 then s else (s.setReg r (s.cleared r (s.regVal r &&& ~~~ (r.rc &&& mask)))).countOn r

/-- The registers of SEC that hold no status: Thatch does not read them (R283). -/
def Reg.secConfig : Reg → Bool
  | .secAdmitShape | .secAdmitTag | .secWeight _ => true
  | _ => false

/-- What a requester reads of a register. -/
def State.readValue (s : State) (who : Requester) (r : Reg) : W64 :=
  if (who = .inBand ∧ s.hiddenInBand r) ∨ (who = .thatch ∧ r.secConfig) then 0 else s.regVal r

/-- A Thatch access to Sarking's state that the domain firewall refuses: one event of source 21, and a log entry (R351). -/
def State.firewall (s : State) : State := (s.count (eventOf 21)).logEvent 4 []

/-- The effect of a requester's read on RC fields within a mask. -/
def State.readEffect (s : State) (who : Requester) (r : Reg) (mask : W64) : State :=
  if who = .thatch ∧ r.secConfig then s.firewall
  else if who = .inBand ∧ s.hiddenInBand r then s else s.clearRead r mask

/-! ### Writes -/

/-- A write by the access codes alone: RW fields set, W1C bits cleared. A requester that only clears sets no RW field. -/
def State.plainWrite (s : State) (r : Reg) (rw : W64) (v : W64) : State := s.setReg r (accessWrite rw r.w1c (s.regVal r) v)

/-- The fields of one window register set from a value (R122, R149). -/
def Window.setReg (w : Window) (d : Dev) (n k : Nat) (v : W64) : Window :=
  let x := v &&& (Reg.win d n k).rw
  match k with
  | 0 => { w with base := x }
  | 1 => { w with limit := x }
  | 2 => { w with src := x.truncate 32 }
  | 3 => { w with attr := x.truncate 32 }
  | _ => { w with loc := x }

/-- A window that may not be valid: LIMIT below BASE; at a module also a home extent past module memory, and a ledger window over a
durable region that is not EMPTY (R122, R194). -/
def State.windowBad (s : State) (d : Dev) (w : Window) : Bool :=
  decide (fld w.limit 16 32 < fld w.base 16 32) ||
    (match d with
     | .jalem => false
     | .module =>
       decide (moduleBytes ≤ (homeExtent w).2) ||
         (w.ledger && s.eav.durs.any fun p => decide (p.2.state ≠ .empty) && rangesMeet (homeExtent w).1 (homeExtent w).2 p.2.lo p.2.hi))

/-- A window entry stored. -/
def State.setWindow (s : State) (d : Dev) (n : Nat) (w : Window) : State :=
  match d with
  | .module => { s with eav := { s.eav with wins := Tab.put Window.reset s.eav.wins n w } }
  | .jalem => s.updJeb fun j => { j with wins := Tab.put Window.reset j.wins n w }

/-- A write of a window register: at a module only while a bay is admitted. An entry that may not be valid is taken with VALID 0,
and counted as a configuration error at a module (R122, R149, R194), by whichever field a write makes it so (DESIGN CHOICE, log entry 134). -/
def State.writeWindow (s : State) (d : Dev) (n k : Nat) (v : W64) : State :=
  if d = .module ∧ !s.admitted then s
  else
    let w := (s.winOf d n).setReg d n k v
    if bitAt w.base 0 && s.windowBad d w then
      let t := s.setWindow d n { w with base := setBit w.base 0 false }
      if d = .module then t.configError else t
    else s.setWindow d n w

/-- A durable table register written: only while a bay is admitted (R341); outside EMPTY it is ignored and sets ERR (R203). -/
def State.writeDur (s : State) (r : Reg) (k : Nat) (v : W64) : State :=
  if !s.admitted then s else if (s.dur k).state = .empty then s.plainWrite r r.rw v else s.durErr k

/-- EAV_DUR_CTL_k written: ERR cleared by a 1, then CMD. -/
def State.writeDurCtl (s : State) (k : Nat) (v : W64) : State :=
  if s.admitted then (s.plainWrite (.durCtl k) 0 v).durCommand k (fld v 0 3) else s

/-- TST_CTL_n written (R356, R357): CHK_EN and a stop of the generator take effect at once; MODE and GEN_EN start what they name. -/
def State.writeTstCtl (s : State) (n : Fin 144) (v : W64) : State :=
  let s := s.updSpar n fun x =>
    { x with ctl := setBit (if bitAt v 2 then x.ctl else setBit x.ctl 2 false) 3 (bitAt v 3) }
  let s := match fld v 0 2 with
    | 0 => s.patternOff n
    | 3 => s
    | m => if fld (s.mport n.val).spar.ctl 0 2 = m then s else s.setPattern n m
  if bitAt v 2 ∧ !bitAt (s.mport n.val).spar.ctl 2 then s.genEn n else s

/-- PRT_CTRL written: the RW fields, then RESTART (R46, R68). -/
def State.writePrtCtrl (s : State) (p : PortRef) (v : W64) : State :=
  let s := s.plainWrite (.prtCtrl p) (Reg.prtCtrl p).rw v
  if bitAt v 0 then s.restartPort p else s

/-- GUT_TD_CTL written (R294, R299, R300): STOP, RESTART and UNHOLD, in this order. -/
def State.writeTdCtl (s : State) (v : W64) : State :=
  let s := if bitAt v 0 then s.stopBay 12 none (eventOf 22) else s
  let s := if bitAt v 1 then s.restartBay else s
  if bitAt v 2 then s.unhold else s

/-- SOF_FW_CTL written from the Thatch domain (R353). -/
def State.writeFwCtl (s : State) (v : W64) : State := if bitAt v 0 then s.commit (bitAt v 1) else s

/-- Writes to module registers that do more than set fields; `none` for the others. -/
def State.moduleWrite (s : State) (who : Requester) (r : Reg) (v : W64) : Option State :=
  let mgmt : Bool := decide (who = .ethernet) || decide (who = .rackController)
  match r with
  | .sofFwCtl => some (if who = .thatch then s.writeFwCtl v else s)
  | .tstCtl n => some (s.writeTstCtl (Fin.ofNat 144 n) v)
  | .purEpochAt => some (s.writeEpoch v)
  | .purNodeLostSet => some (s.writeNodeLost (v.truncate 32))
  | .purLrtShadow n => some (s.writeShadow n (v.truncate 32))
  | .purAuditFirst =>
    some (if fld v 0 22 = 0 then { s with pur := { s.pur with auditFirst := 0 } } else s)
  | .prtCtrl p => some (s.writePrtCtrl p v)
  | .eavHashCfg | .purPairSeed | .gabSkewCfg => some (if s.admitted then s else s.plainWrite r r.rw v)
  | .win d n k => some (s.writeWindow d n k v)
  | .durBase k | .durLimit k => some (s.writeDur r k v)
  | .durExpect k _ => some (s.writeDur r k v)
  | .durCtl k => some (s.writeDurCtl k v)
  | .trsProgDir n => some (s.writeProgDir n v)
  | .trsProgWord i => some (s.writeProgWord i v)
  | .trsCommCtl n => some (s.writeCommCtl n v)
  | .trsCommMembers _ _ | .trsCommBlock _ | .trsCommLand _ | .trsCommScratch _ | .trsCommStride _ =>
    some (if s.admitted then s.plainWrite r r.rw v else s)
  | .gutCapStatus => some (if bitAt v 15 ∧ who ≠ .inBand then s.clearCaptures else s)
  | .gutFatal => some (if bitAt v 63 then s.clearFatal else s)
  | .gutTdCtl => some (if mgmt then s.writeTdCtl v else s)
  | .gutFencePort w => some (if mgmt then s.clearFences w v else s)
  | .secBayCtl => some (s.bayCommand (fld v 0 3))
  | .secWeight k => some (if who = .inBand then s.writeWeight k v else s)
  | .pwrCap => some (s.writeCap (v.truncate 32))
  | _ => none

/-- Writes to Jalem registers that do more than set fields; `none` for the others. -/
def State.jebWrite (s : State) (r : Reg) (v : W64) : Option State :=
  match r with
  | .win d n k => some (s.writeWindow d n k v)
  | .prtCtrl p => some (s.writePrtCtrl p v)
  | .jebEpochAt => some (s.writeJebEpoch v)
  | .jebInvTail => some ((s.readEntries (v.truncate 32)).updJeb fun j => j.writeInvTail (v.truncate 32) [])
  -- R94, R148: while ARM is 1 the shadows take no write
  | .jebSpreadShadow _ | .jebSpreadSeed => if s.jeb.epochArm then some (s.updJeb fun j => { j with epochReject := true }) else none
  | .jebGen => some (if bitAt v 0 then s.clearGenErr else s)
  | .jebFltHead => some (s.writeFltHead (v.truncate 32))
  | .jebFltResume => some (s.resumeTask (v.truncate 16))
  | .jebSendCtl n => some (s.writeSendCtl n v)
  | .jebSendGo n => some (if bitAt v 0 then s.go n else s)
  | _ => none

/-- A whole register written by a requester that may write it. -/
def State.writeReg (s : State) (who : Requester) (d : Dev) (r : Reg) (v : W64) : State :=
  match (match d with | .module => s.moduleWrite who r v | .jalem => s.jebWrite r v) with
  | some t => t
  | none =>
    let rw := if (who = .inBand ∧ !r.manager) ∨ (who = .localSide ∧ r.fabric) then 0 else r.rw
    s.plainWrite r rw v

/-- The upper half of a register written alone (R8): it sets upper fields only. The three registers named here act on a write of their lower
half, which an upper half alone is not: PUR_AUDIT_FIRST is not cleared, and no program or communicator is checked. -/
def State.writeUpper (s : State) (who : Requester) (d : Dev) (r : Reg) (v : W64) : State :=
  match r with
  | .purAuditFirst => s
  | .trsProgDir _ => if s.trs.lock then s.configError else s
  | .trsCommCtl n =>
    if s.admitted then s.setComm n fun c => { c with ctl := accessWrite (commCtlMask &&& 0xFFFFFFFF00000000) 0 c.ctl v } else s
  | _ => s.writeReg who d r v

/-- A register access that a requester may or may not make: ignored where R341, R344 or R161 gives it no access, refused at the firewall where Thatch
writes what Sarking holds (R351), and reported where the TDISP state locks the register (R158). -/
def State.guard (s : State) (who : Requester) (d : Dev) (addr : W32) (r : Reg) (t : State) : State :=
  if !s.mayWrite who d r then (if who = .thatch ∧ d = .module ∧ r.isSec then s.firewall else s)
  else if d = .jalem ∧ r.locked ∧ (s.jeb.tdisp = 1 ∨ s.jeb.tdisp = 2) then s.emit (.tdispError addr)
  else t

/-- A whole register written by any requester. -/
def State.write (s : State) (who : Requester) (d : Dev) (addr : W32) (r : Reg) (v : W64) : State :=
  s.guard who d addr r (s.inAccess who d addr.toNat fun s => s.writeReg who d r v)

/-! ### Words and halves (R7, R8) -/

/-- The half that a requester's latch holds for a register, by the address at which the register begins. -/
def State.latched (s : State) (who : Requester) (d : Dev) (addr : W32) (wr : Bool) : Option W32 :=
  (s.latches.find? fun l => decide (l.who = who ∧ l.dev = d ∧ l.addr = addr ∧ l.write = wr)).map fun l => l.value

/-- A latch emptied. -/
def State.unlatch (s : State) (who : Requester) (d : Dev) (addr : W32) (wr : Bool) : State :=
  { s with latches := s.latches.filter fun l => !decide (l.who = who ∧ l.dev = d ∧ l.addr = addr ∧ l.write = wr) }

/-- A latch filled, whatever it held before. -/
def State.latch (s : State) (who : Requester) (d : Dev) (addr : W32) (wr : Bool) (v : W32) : State :=
  let t := s.unlatch who d addr wr
  { t with latches := t.latches ++ [{ who := who, dev := d, addr := addr, write := wr, value := v }] }

/-- The 32-bit word at an aligned address written: a register of 32 bits, or a half of one of 64 bits. -/
def State.writeWord (s : State) (who : Requester) (d : Dev) (a : W32) (v : W32) : State :=
  match wordAt d a.toNat with
  | none => s
  | some (r, false) => if r.wide then s.latch who d a true v else s.write who d a r (v.setWidth 64)
  | some (r, true) =>
    -- an empty latch leaves the lower half: its RW fields are written again, and a 0 clears no W1C bit (R8)
    match s.latched who d (a - 4) true with
    | some lower => (s.unlatch who d (a - 4) true).write who d (a - 4) r (joinHalves v lower)
    | none =>
      s.guard who d (a - 4) r (s.inAccess who d (a - 4).toNat fun s => s.writeUpper who d r (joinHalves v (lowHalf (s.regVal r &&& r.rw))))

/-- The 32-bit word at an aligned address read, and the state after the read. -/
def State.readWord (s : State) (who : Requester) (d : Dev) (a : W32) : W32 × State :=
  match wordAt d a.toNat with
  | none => (0, s)
  | some (r, false) =>
    let v := s.readValue who r
    if r.wide then (lowHalf v, (s.latch who d a false (highHalf v)).readEffect who r (BitVec.allOnes 64))
    else (lowHalf v, s.readEffect who r (BitVec.allOnes 64))
  | some (r, true) =>
    match s.latched who d (a - 4) false with
    | some v => (v, s.unlatch who d (a - 4) false)
    | none => (highHalf (s.readValue who r), s.readEffect who r 0xFFFFFFFF00000000)

/-- A 64-bit access written: a register of 64 bits whole; at one of 32 bits that register alone. The requester's latches of the register
stay as they are: R8 says nothing of them here (log entry 76). -/
def State.writeWide (s : State) (who : Requester) (d : Dev) (a : W32) (v : W64) : State :=
  match regAt d a.toNat with
  | none => s
  | some r => s.write who d a r (if r.wide then v else v &&& 0xFFFFFFFF)

/-- A 64-bit access read. The requester's latches stay as they are (log entry 76). -/
def State.readWide (s : State) (who : Requester) (d : Dev) (a : W32) : W64 × State :=
  match regAt d a.toNat with
  | none => (0, s)
  | some r => (s.readValue who r, s.readEffect who r (BitVec.allOnes 64))

/-- A read answered to its requester. -/
def State.answerRead (r : W64 × State) (who : Requester) (d : Dev) (a : W32) : State := r.2.emit (.regValue who d a r.1)

/-! ### The commands -/

/-- REGISTER_WRITE (R6, R7, R341, R344): a 32-bit or a 64-bit access. -/
def execRegisterWrite (who : Requester) (d : Dev) (a : W32) (wide : Bool) (v : W64) (s : State) : Host.Outcome State Fault Refusal :=
  .next (if !s.reachesDev who d then s else if wide then s.writeWide who d a v else s.writeWord who d a (v.truncate 32))

/-- RC_READ (R6): a read, which clears the RC fields it returns. -/
def execRcRead (who : Requester) (d : Dev) (a : W32) (wide : Bool) (s : State) : Host.Outcome State Fault Refusal :=
  .next (if !s.reachesDev who d then s
    else if wide then State.answerRead (s.readWide who d a) who d a
    else State.answerRead (((s.readWord who d a).1.setWidth 64), (s.readWord who d a).2) who d a)

/-- LOWER_HALF_WRITE (R8). -/
def execLowerHalfWrite (who : Requester) (d : Dev) (a : W32) (v : W32) (s : State) : Host.Outcome State Fault Refusal :=
  .next (if s.reachesDev who d then s.writeWord who d a v else s)

/-- UPPER_HALF_WRITE (R8): `a` is the address of the upper half. -/
def execUpperHalfWrite (who : Requester) (d : Dev) (a : W32) (v : W32) (s : State) : Host.Outcome State Fault Refusal :=
  .next (if s.reachesDev who d then s.writeWord who d a v else s)

/-- LOWER_HALF_READ (R8). -/
def execLowerHalfRead (who : Requester) (d : Dev) (a : W32) (s : State) : Host.Outcome State Fault Refusal :=
  .next (if s.reachesDev who d then State.answerRead (((s.readWord who d a).1.setWidth 64), (s.readWord who d a).2) who d a else s)

/-- UPPER_HALF_READ (R8): `a` is the address of the upper half. -/
def execUpperHalfRead (who : Requester) (d : Dev) (a : W32) (s : State) : Host.Outcome State Fault Refusal :=
  .next (if s.reachesDev who d then State.answerRead (((s.readWord who d a).1.setWidth 64), (s.readWord who d a).2) who d a else s)

/-- WINDOW_TABLE_WRITE (R121, R122, R149): register `reg` of entry `n` written whole. -/
def execWindowTableWrite (d : Dev) (who : Requester) (n : Byte) (reg : BitVec 3) (v : W64) (s : State) : Host.Outcome State Fault Refusal :=
  .next (if s.reachesDev who d ∧ s.mayWrite who d (.win d n.toNat reg.toNat) ∧ reg.toNat ≤ 4 then
    s.inAccess who d (0x480000 + 0x20 * n.toNat + [0, 8, 0x10, 0x14, 0x18].getD reg.toNat 0) fun s => s.writeWindow d n.toNat reg.toNat v else s)

end Sys2Proof.Machine
end

