-- ==== Sys2Proof/Machine/Inband.lean ====
section
/-! DEFINITION. In-band register access: CTRL_WR and CTRL_RD at a module and at a Jalem block (R342, R344), the relay of R343, and the
error report of a Jalem block (R293). -/

namespace Sys2Proof.Machine

open Sys2Proof

/-! ### The words of an access (R342) -/

/-- Number of 32-bit words that a control frame names. -/
def ctrlCount (h : Header) : Nat := fld h.aux 0 4 + 1

/-- The addresses of its words. -/
def ctrlAddrs (h : Header) : List Nat := (List.range (ctrlCount h)).map fun i => fpaOffset h.fpa + 4 * i

/-- Alignment and extent: the words stay in the 1 MiB block that holds OFFSET. -/
def ctrlExtent (h : Header) : Option Byte :=
  let o := fpaOffset h.fpa
  if o % 4 ≠ 0 then some stMisaligned else if 0x100000 < o % 0x100000 + 4 * ctrlCount h then some stBadRequest else none

/-- The register word at an offset of 48 bits: none past the 32-bit address space. -/
def ctrlWordAt (d : Dev) (a : Nat) : Option (Reg × Bool) := if a < 2 ^ 32 then wordAt d a else none

/-- The words written in order, so that both halves of a register commit together. -/
def State.writeWords (s : State) (who : Requester) (d : Dev) (l : List (Nat × W32)) : State :=
  l.foldl (fun s p => if p.1 < 2 ^ 32 then s.writeWord who d (BitVec.ofNat 32 p.1) p.2 else s) s

/-- The words read in order. -/
def State.readWords (s : State) (who : Requester) (d : Dev) (l : List Nat) : List W32 × State :=
  l.foldl (fun r a =>
    if a < 2 ^ 32 then ((r.1 ++ [(r.2.readWord who d (BitVec.ofNat 32 a)).1]), (r.2.readWord who d (BitVec.ofNat 32 a)).2)
    else (r.1 ++ [0], r.2)) ([], s)

/-- CTRL_DATA with the words read. -/
def ctrlDataFrame (h : Header) (ws : List W32) : Frame :=
  let data := packWords ws
  { hdr := respHdr h opCtrlData stOk data.length 0 0, data := data }

/-- The answer to a control access that its checks have passed, and the state after it: `may` says which registers may be written. -/
def State.ctrlPerform (s : State) (who : Requester) (d : Dev) (f : Frame) (may : Reg → Bool) : Frame × State :=
  let h := f.hdr
  match ctrlExtent h with
  | some c => (errorFrame h c, s)
  | none =>
    if h.opcode = opCtrlRd then
      match s.readWords who d (ctrlAddrs h) with
      | (ws, t) => (ctrlDataFrame h ws, t)
    else if h.len = 0 then (ackFrame h, s)
    else if (ctrlAddrs h).any fun a => (ctrlWordAt d a).any fun r => !may r.1 then (errorFrame h stNoRight, s)
    else match controlData f with
      | .error c => (errorFrame h c, s)
      | .ok data =>
        let act := fun (s : State) => s.writeWords who d ((ctrlAddrs h).zip (ctrlWords data))
        (ackFrame h, if d = .module then s.inRequest h act else act s)

/-! ### The relay (R343) -/

/-- Relay requests that Soffit holds outstanding. -/
def relayLimit : Nat := 64

/-- A relay request that cannot be issued, and its answer. -/
def State.relayRefusal (s : State) (h : Header) : Option Byte :=
  let node := fpaNode h.fpa
  let e := Tab.get 0 s.pur.lrt node
  let n := fld e 0 8
  if !s.sof.thatchRun ∨ relayLimit ≤ s.sof.relays.length then some stHomeFault
  else if !bitAt e 9 then some stUnroutable
  else if s.nodeLost node ∨ !s.isActive n then some stTargetLost
  else none

/-- The request that Soffit issues in its own name. -/
def State.relayed (s : State) (f : Frame) : Frame :=
  { f with hdr := { f.hdr with srcNode := BitVec.ofNat 8 s.node, srcRack := s.sec.rack, srcEngine := 0xFB, tag := s.sof.sofTag }, err := 0 }

/-- A relay request recorded and issued on the rafter port of its node. -/
def State.issueRelay (s : State) (f : Frame) : State :=
  let n := Fin.ofNat 144 (fld (Tab.get 0 s.pur.lrt (fpaNode f.hdr.fpa)) 0 8)
  let g := s.relayed f
  let s := s.setSof fun x =>
    { x with relays := x.relays ++ [{ tag := x.sofTag, port := n, hdr := f.hdr }], sofTag := x.sofTag + 1 }
  s.sendOn agSoffit (.module n) g

/-- A relay request taken by Soffit: answered, or issued. -/
def State.startRelay (s : State) (f : Frame) : State :=
  match s.relayRefusal f.hdr with
  | some c => s.respond (agentSource agSoffit) (errorFrame f.hdr c)
  | none => s.issueRelay f

/-! ### At a module (R293, R344) -/

/-- A report of a Jalem block acted on: the answer, and the state after it. -/
def State.takeReport (s : State) (f : Frame) : Frame × State :=
  let h := f.hdr
  if h.len = 0 then (ackFrame h, s)
  else match controlData f with
    | .error c => (errorFrame h c, s)
    | .ok data =>
      if ctrlCount h = 1 ∧ (ctrlWords data).head? = some 1 then
        (ackFrame h, s.fatal 11 (.node (h.srcNode.truncate 7)) (requestEvent 16 h))
      else (errorFrame h stBadRequest, s)

/-- A CTRL_WR or CTRL_RD that Soffit takes: HOME_FAULT without Thatch, then by its source (R344). -/
def State.soffitAccess (s : State) (f : Frame) : Frame × State :=
  let h := f.hdr
  if !s.sof.thatchRun then (errorFrame h stHomeFault, s)
  else if s.fromManager h then s.ctrlPerform .inBand .module f fun r => s.mayWrite .inBand .module r
  else if h.srcNode.toNat < 0x80 ∧ s.isReport h then s.takeReport f
  else (errorFrame h stNoRight, s)

/-- A control frame that reaches port `n` of the module, answered on that port. -/
def State.moduleCtrl (s : State) (n : Fin 144) (f : Frame) : State :=
  match s.agentTake agSoffit n f with
  | .error s => s
  | .ok s =>
    if s.isRelay f.hdr then s.startRelay f
    else match s.soffitAccess f with
      | (r, s) => s.answer n r

/-! ### At a Jalem block (R150, R161, R342) -/

/-- A control frame at the block: from a module only; local-side registers ignore its writes (log entry 31). -/
def State.jebCtrl (s : State) (p : PortRef) (f : Frame) : State :=
  let s := s.jebTake p f
  match s.jebForm p f.hdr with
  | some c => s.jebRefuse p f.hdr c
  | none =>
    if f.hdr.srcNode.toNat < 0x80 ∨ 0x8F < f.hdr.srcNode.toNat then s.jebRefuse p f.hdr stBadRequest
    else match s.ctrlPerform (.fabricSide (f.hdr.srcNode.truncate 4)) .jalem f fun _ => true with
      | (r, s) => if r.hdr.status = stOk then s.jebSend p r else s.jebRefuse p f.hdr r.hdr.status

/-- A control frame at either device, for one opcode. -/
def State.ctrl (s : State) (d : Dev) (p : PortRef) (op : Byte) (f : Frame) : State :=
  if f.hdr.opcode ≠ op ∨ portDev p ≠ d then s
  else match p with
    | .module n => s.moduleCtrl n f
    | p => s.jebCtrl p f

/-- CTRL_WR (R342, R344). -/
def execCtrlWr (d : Dev) (p : PortRef) (f : Frame) (s : State) : Host.Outcome State Fault Refusal := .next (s.ctrl d p opCtrlWr f)

/-- CTRL_RD (R342, R344). -/
def execCtrlRd (d : Dev) (p : PortRef) (f : Frame) (s : State) : Host.Outcome State Fault Refusal := .next (s.ctrl d p opCtrlRd f)

/-! ### Frames that wait in Soffit's queue (R293, R343) -/

/-- The entry at the head of Soffit's course-4 queue, where it meets a test, taken out of it (R76). -/
def State.soffitFirst (s : State) (test : Entry → Bool) : Option (Entry × State) :=
  (s.dequeue (agentQueue agSoffit 4)).filter fun p => test p.1

/-- GUT_JEB_REPORT (R293): the report at the front of those that wait for Soffit. -/
def execGutJebReport (s : State) : Host.Outcome State Fault Refusal :=
  .next (match s.soffitFirst fun e => s.isReport e.frame.hdr && decide (e.frame.hdr.srcNode.toNat < 0x80) && !isResponse e.frame.hdr with
  | none => s
  | some (e, s) =>
    match s.soffitAccess e.frame with
    | (r, s) => s.respond (agentSource agSoffit) r)

/-- RELAY_REQUEST (R343): the relay request at the front of those that wait for Soffit. -/
def execRelayRequest (s : State) : Host.Outcome State Fault Refusal :=
  .next (match s.soffitFirst fun e => !isResponse e.frame.hdr && s.isRelay e.frame.hdr with
  | none => s
  | some (e, s) => s.startRelay e.frame)

/-- The relay that a response answers. -/
def State.relayOf (s : State) (h : Header) : Option RelaySt :=
  if isResponse h ∧ h.srcEngine = 0xFB then s.sof.relays.find? fun r => decide (r.tag = h.tag) else none

/-- A response with the recorded fields of the request restored, its STATUS unchanged. -/
def restored (f : Frame) (h : Header) : Frame :=
  { f with hdr := { f.hdr with srcNode := h.srcNode, srcRack := h.srcRack, srcEngine := h.srcEngine, tag := h.tag }, err := 0 }

/-- RELAY_RESPONSE (R343): the answer to a relay at the front of those that wait for Soffit, returned to the fabric manager. Soffit makes
nothing of a CTRL_DATA frame that answers no relay. -/
def execRelayResponse (s : State) : Host.Outcome State Fault Refusal :=
  .next (match s.soffitFirst fun e => (s.relayOf e.frame.hdr).isSome || decide (e.frame.hdr.opcode = opCtrlData) with
  | none => s
  | some (e, t) =>
    match s.relayOf e.frame.hdr with
    | none => t
    | some r =>
      (t.setSof fun x => { x with relays := x.relays.filter fun q => decide (q.tag ≠ r.tag) }).respond (agentSource agSoffit)
        (restored e.frame r.hdr))

end Sys2Proof.Machine
end

