-- ==== Sys2Proof/Machine/Dispatch.lean ====
section
/-! DEFINITION. One arm per command: each calls its meaning. -/

namespace Sys2Proof.Machine

open Sys2Proof

def exec (i : Instr) (s : State) : Host.Outcome State Fault Refusal :=
  match i with
  | .registerWrite who dev addr wide value => Sys2Proof.Machine.execRegisterWrite who dev addr wide value s
  | .rcRead who dev addr wide => Sys2Proof.Machine.execRcRead who dev addr wide s
  | .lowerHalfWrite who dev addr value => Sys2Proof.Machine.execLowerHalfWrite who dev addr value s
  | .upperHalfWrite who dev addr value => Sys2Proof.Machine.execUpperHalfWrite who dev addr value s
  | .lowerHalfRead who dev addr => Sys2Proof.Machine.execLowerHalfRead who dev addr s
  | .upperHalfRead who dev addr => Sys2Proof.Machine.execUpperHalfRead who dev addr s
  | .epochMark dev cycles => Sys2Proof.Machine.execEpochMark dev cycles s
  | .refclkLost dev => Sys2Proof.Machine.execRefclkLost dev s
  | .refclkReturn dev => Sys2Proof.Machine.execRefclkReturn dev s
  | .freeRun dev cycles => Sys2Proof.Machine.execFreeRun dev cycles s
  | .stampExchange k beat => Sys2Proof.Machine.execStampExchange k beat s
  | .stampReq p t1 replayed sealFailed => Sys2Proof.Machine.execStampReq p t1 replayed sealFailed s
  | .stampRsp p t2 t1 t3 replayed sealFailed => Sys2Proof.Machine.execStampRsp p t2 t1 t3 replayed sealFailed s
  | .lathReceive p bytes => Sys2Proof.Machine.execLathReceive p bytes s
  | .nak p ack => Sys2Proof.Machine.execNak p ack s
  | .arbitration p => Sys2Proof.Machine.execArbitration p s
  | .credit p counts => Sys2Proof.Machine.execCredit p counts s
  | .retrain p cause => Sys2Proof.Machine.execRetrain p cause s
  | .retrainRelock p ident => Sys2Proof.Machine.execRetrainRelock p ident s
  | .retrainTimeout p => Sys2Proof.Machine.execRetrainTimeout p s
  | .partnerDetected p => Sys2Proof.Machine.execPartnerDetected p s
  | .equaliseDone p => Sys2Proof.Machine.execEqualiseDone p s
  | .equaliseTimeout p => Sys2Proof.Machine.execEqualiseTimeout p s
  | .lockDone p => Sys2Proof.Machine.execLockDone p s
  | .lockTimeout p => Sys2Proof.Machine.execLockTimeout p s
  | .identityRecord p ident => Sys2Proof.Machine.execIdentityRecord p ident s
  | .negotiate p rev feats => Sys2Proof.Machine.execNegotiate p rev feats s
  | .initialCreditGrant p grants => Sys2Proof.Machine.execInitialCreditGrant p grants s
  | .partnerIdle p => Sys2Proof.Machine.execPartnerIdle p s
  | .prtCtrlRestart p => Sys2Proof.Machine.execPrtCtrlRestart p s
  | .frameRouting p raw => Sys2Proof.Machine.execFrameRouting p raw s
  | .bundleResponse => Sys2Proof.Machine.execBundleResponse s
  | .valleyAudit beat => Sys2Proof.Machine.execValleyAudit beat s
  | .purLrtShadow who n value => Sys2Proof.Machine.execPurLrtShadow who n value s
  | .purEpochAt who value => Sys2Proof.Machine.execPurEpochAt who value s
  | .routeEpoch beat => Sys2Proof.Machine.execRouteEpoch beat s
  | .purNodeLostSet who value => Sys2Proof.Machine.execPurNodeLostSet who value s
  | .load h => Sys2Proof.Machine.execLoad h s
  | .store h => Sys2Proof.Machine.execStore h s
  | .atomic h => Sys2Proof.Machine.execAtomic h s
  | .fadd h => Sys2Proof.Machine.execFadd h s
  | .faddLedger n idx => Sys2Proof.Machine.execFaddLedger n idx s
  | .widenLoad h => Sys2Proof.Machine.execWidenLoad h s
  | .put h => Sys2Proof.Machine.execPut h s
  | .get h => Sys2Proof.Machine.execGet h s
  | .batten h => Sys2Proof.Machine.execBatten h s
  | .battenAccept g => Sys2Proof.Machine.execBattenAccept g s
  | .battenCont h => Sys2Proof.Machine.execBattenCont h s
  | .listIncomplete l beat => Sys2Proof.Machine.execListIncomplete l beat s
  | .stackTrainingLost n => Sys2Proof.Machine.execStackTrainingLost n s
  | .homeQueueStopped n beat => Sys2Proof.Machine.execHomeQueueStopped n beat s
  | .patrolScrub n err stackCorr => Sys2Proof.Machine.execPatrolScrub n err stackCorr s
  | .define k => Sys2Proof.Machine.execDefine k s
  | .sealRegion k => Sys2Proof.Machine.execSealRegion k s
  | .reopen k => Sys2Proof.Machine.execReopen k s
  | .silver k => Sys2Proof.Machine.execSilver k s
  | .advance k => Sys2Proof.Machine.execAdvance k s
  | .declareLost k => Sys2Proof.Machine.execDeclareLost k s
  | .dissolve k => Sys2Proof.Machine.execDissolve k s
  | .digestDone k => Sys2Proof.Machine.execDigestDone k s
  | .transfer t => Sys2Proof.Machine.execTransfer t s
  | .fence f => Sys2Proof.Machine.execFence f s
  | .transferIssue engine => Sys2Proof.Machine.execTransferIssue engine s
  | .responseArrival q f => Sys2Proof.Machine.execResponseArrival q f s
  | .jebInvTail value entries => Sys2Proof.Machine.execJebInvTail value entries s
  | .copy data => Sys2Proof.Machine.execCopy data s
  | .invalVa => Sys2Proof.Machine.execInvalVa s
  | .invalCtx => Sys2Proof.Machine.execInvalCtx s
  | .invalAll => Sys2Proof.Machine.execInvalAll s
  | .gen => Sys2Proof.Machine.execGen s
  | .genComplete => Sys2Proof.Machine.execGenComplete s
  | .jebGenErr => Sys2Proof.Machine.execJebGenErr s
  | .jebFltResume task => Sys2Proof.Machine.execJebFltResume task s
  | .jebFltHead value => Sys2Proof.Machine.execJebFltHead value s
  | .jebEpochAt who value => Sys2Proof.Machine.execJebEpochAt who value s
  | .jebRouteEpoch beat => Sys2Proof.Machine.execJebRouteEpoch beat s
  | .movedBucketUndrained beat => Sys2Proof.Machine.execMovedBucketUndrained beat s
  | .movedBucketFatal beat => Sys2Proof.Machine.execMovedBucketFatal beat s
  | .seg p f => Sys2Proof.Machine.execSeg p f s
  | .signal p f => Sys2Proof.Machine.execSignal p f s
  | .sendArm n value => Sys2Proof.Machine.execSendArm n value s
  | .sendGo n => Sys2Proof.Machine.execSendGo n s
  | .send n => Sys2Proof.Machine.execSend n s
  | .tdispError => Sys2Proof.Machine.execTdispError s
  | .jebReset => Sys2Proof.Machine.execJebReset s
  | .jebTeardown p f => Sys2Proof.Machine.execJebTeardown p f s
  | .teardownResume p f => Sys2Proof.Machine.execTeardownResume p f s
  | .keyInstall p f => Sys2Proof.Machine.execKeyInstall p f s
  | .keyActivate p f => Sys2Proof.Machine.execKeyActivate p f s
  | .keyRetire p f => Sys2Proof.Machine.execKeyRetire p f s
  | .keyDestroy p f => Sys2Proof.Machine.execKeyDestroy p f s
  | .keyAck p f => Sys2Proof.Machine.execKeyAck p f s
  | .keyAckTimeout => Sys2Proof.Machine.execKeyAckTimeout s
  | .activateRetry slot => Sys2Proof.Machine.execActivateRetry slot s
  | .ctrlWr h p f => Sys2Proof.Machine.execCtrlWr h p f s
  | .ctrlRd h p f => Sys2Proof.Machine.execCtrlRd h p f s
  | .relayRequest => Sys2Proof.Machine.execRelayRequest s
  | .relayResponse => Sys2Proof.Machine.execRelayResponse s
  | .gutJebReport => Sys2Proof.Machine.execGutJebReport s
  | .test p f => Sys2Proof.Machine.execTest p f s
  | .testEcho p f => Sys2Proof.Machine.execTestEcho p f s
  | .admitBay => Sys2Proof.Machine.execAdmitBay s
  | .hipAdmissionCheck expired => Sys2Proof.Machine.execHipAdmissionCheck expired s
  | .measure => Sys2Proof.Machine.execMeasure s
  | .release => Sys2Proof.Machine.execRelease s
  | .destroyTimeout n => Sys2Proof.Machine.execDestroyTimeout n s
  | .zeroizationComplete => Sys2Proof.Machine.execZeroizationComplete s
  | .secWeight k value => Sys2Proof.Machine.execSecWeight k value s
  | .bayKeys requester r => Sys2Proof.Machine.execBayKeys requester r s
  | .rotate requester r => Sys2Proof.Machine.execRotate requester r s
  | .weightKey requester slot zero key => Sys2Proof.Machine.execWeightKey requester slot zero key s
  | .weightDestroy requester slot => Sys2Proof.Machine.execWeightDestroy requester slot s
  | .signedMeasurements nonce indices => Sys2Proof.Machine.execSignedMeasurements nonce indices s
  | .sourceWindowClose n beat => Sys2Proof.Machine.execSourceWindowClose n beat s
  | .gutTdCtlStop who => Sys2Proof.Machine.execGutTdCtlStop who s
  | .teardownStop n f => Sys2Proof.Machine.execTeardownStop n f s
  | .stopAckTimeout n => Sys2Proof.Machine.execStopAckTimeout n s
  | .quiescent => Sys2Proof.Machine.execQuiescent s
  | .gutTdCtlRestart who => Sys2Proof.Machine.execGutTdCtlRestart who s
  | .resumeAcknowledged => Sys2Proof.Machine.execResumeAcknowledged s
  | .gutTdCtlUnhold who => Sys2Proof.Machine.execGutTdCtlUnhold who s
  | .gutFencePort who w value => Sys2Proof.Machine.execGutFencePort who w value s
  | .gutFatalValid who => Sys2Proof.Machine.execGutFatalValid who s
  | .gutCapStatusClear who => Sys2Proof.Machine.execGutCapStatusClear who s
  | .jalemPoll beat order => Sys2Proof.Machine.execJalemPoll beat order s
  | .marginMeasurement o m beat => Sys2Proof.Machine.execMarginMeasurement o m beat s
  | .contrib => Sys2Proof.Machine.execContrib s
  | .stalled slot chunk lo hi => Sys2Proof.Machine.execStalled slot chunk lo hi s
  | .gableAbandon slot beat => Sys2Proof.Machine.execGableAbandon slot beat s
  | .slotFree => Sys2Proof.Machine.execSlotFree s
  | .start => Sys2Proof.Machine.execStart s
  | .runStart comm beat => Sys2Proof.Machine.execRunStart comm beat s
  | .stepInstr ctx beat => Sys2Proof.Machine.execStepInstr ctx beat s
  | .segment ctx => Sys2Proof.Machine.execSegment ctx s
  | .slotGrant slot => Sys2Proof.Machine.execSlotGrant slot s
  | .signalInstruction ctx => Sys2Proof.Machine.execSignalInstruction ctx s
  | .reduce ctx => Sys2Proof.Machine.execReduce ctx s
  | .sendInstruction ctx => Sys2Proof.Machine.execSendInstruction ctx s
  | .wait ctx => Sys2Proof.Machine.execWait ctx s
  | .raise => Sys2Proof.Machine.execRaise s
  | .relay => Sys2Proof.Machine.execRelay s
  | .ready => Sys2Proof.Machine.execReady s
  | .trsProgDirValid who n value => Sys2Proof.Machine.execTrsProgDirValid who n value s
  | .trsCommCtlValid who n value => Sys2Proof.Machine.execTrsCommCtlValid who n value s
  | .windowTableWrite dev who n reg value => Sys2Proof.Machine.execWindowTableWrite dev who n reg value s
  | .gaugeBeatItem beat meas => Sys2Proof.Machine.execGaugeBeatItem beat meas s
  | .channelLost beat meas => Sys2Proof.Machine.execChannelLost beat meas s
  | .interval beat elapsed ownClock => Sys2Proof.Machine.execInterval beat elapsed ownClock s
  | .powerLoss => Sys2Proof.Machine.execPowerLoss s
  | .powerUp beat => Sys2Proof.Machine.execPowerUp beat s
  | .tamper => Sys2Proof.Machine.execTamper s
  | .logRead first count => Sys2Proof.Machine.execLogRead first count s
  | .certRead => Sys2Proof.Machine.execCertRead s
  | .governorInterval beat meas => Sys2Proof.Machine.execGovernorInterval beat meas s
  | .pwrCap who value => Sys2Proof.Machine.execPwrCap who value s
  | .rcLost beat => Sys2Proof.Machine.execRcLost beat s
  | .brakeAssert lastBeatPower => Sys2Proof.Machine.execBrakeAssert lastBeatPower s
  | .brakeRelease beat => Sys2Proof.Machine.execBrakeRelease beat s
  | .vinRange vin => Sys2Proof.Machine.execVinRange vin s
  | .inputLoss vin => Sys2Proof.Machine.execInputLoss vin s
  | .inletHigh m => Sys2Proof.Machine.execInletHigh m s
  | .throttle m => Sys2Proof.Machine.execThrottle m s
  | .pumpLost m => Sys2Proof.Machine.execPumpLost m s
  | .orderlyShutdown m pumpTenSeconds => Sys2Proof.Machine.execOrderlyShutdown m pumpTenSeconds s
  | .pwrEnHigh => Sys2Proof.Machine.execPwrEnHigh s
  | .pwrEnLow => Sys2Proof.Machine.execPwrEnLow s
  | .resetNLow us => Sys2Proof.Machine.execResetNLow us s
  | .moduleStart coolTj flow slotId stageOk => Sys2Proof.Machine.execModuleStart coolTj flow slotId stageOk s
  | .watchdog beat => Sys2Proof.Machine.execWatchdog beat s
  | .trialTimeout => Sys2Proof.Machine.execTrialTimeout s
  | .sofFwCtlCommit who => Sys2Proof.Machine.execSofFwCtlCommit who s
  | .sofFwCtlAdvance who => Sys2Proof.Machine.execSofFwCtlAdvance who s
  | .firmwareUpdate img step => Sys2Proof.Machine.execFirmwareUpdate img step s
  | .configurationUpdate img step => Sys2Proof.Machine.execConfigurationUpdate img step s
  | .prbs31 n => Sys2Proof.Machine.execPrbs31 n s
  | .prbs13q n => Sys2Proof.Machine.execPrbs13q n s
  | .patternOff n => Sys2Proof.Machine.execPatternOff n s
  | .genEn n => Sys2Proof.Machine.execGenEn n s
  | .tdispStateChange st ideBound => Sys2Proof.Machine.execTdispStateChange st ideBound s
  | .stackRetraining n => Sys2Proof.Machine.execStackRetraining n s
  | .stackRetrained n => Sys2Proof.Machine.execStackRetrained n s
  | .secureSessionOpen session => Sys2Proof.Machine.execSecureSessionOpen session s
  | .secureSessionEnd idx => Sys2Proof.Machine.execSecureSessionEnd idx s
  | .alertResponseAddress => Sys2Proof.Machine.execAlertResponseAddress s
  | .qspiServiceAccess access => Sys2Proof.Machine.execQspiServiceAccess access s

end Sys2Proof.Machine
end

