-- ==== Sys2Proof/Machine/Step.lean ====
section
/-! DEFINITION. One step: the command at the front of the queue, or a tick of REFCLK where none waits. -/

namespace Sys2Proof.Machine

open Sys2Proof

/-- One REFCLK cycle of both devices (R27), which an empty queue lets pass (log entry 8). A wait that was met when it was placed ends (R153). -/
def State.tick (s : State) : State :=
  ({ s with tim := s.tim.run 1, jeb := { s.jeb with tim := s.jeb.tim.run 1 } } : State).endWaits

/-- The command at the front of the queue performed with the queue's rest; a tick where none waits. -/
def step (s : State) : Host.Outcome State Fault Refusal :=
  match s.pending with
  | [] => .next s.tick
  | c :: rest => exec c { s with pending := rest }

/-- The state with the command that a word spells at the front of its queue; unchanged where it spells none. -/
def State.withFetchWord (s : State) (nbits w : Nat) : State :=
  match decodeTableWord nbits w with
  | some c => { s with pending := c :: s.pending }
  | none => s

end Sys2Proof.Machine
end

