-- ==== Sys2Proof/Safety.lean ====
section
/-! DEFINITION. The terms in which claims speak: the canonical form of the memories, a command that completes, and what a set of
registers has in common. -/

namespace Sys2Proof.Machine

open Sys2Proof

/-- Both memories are in canonical form. -/
def State.MemOk (s : State) : Prop := Memory.wf s.eav.mem = true ∧ Memory.wf s.jeb.mem = true

/-- A command performed on a state answers a next state of which `P` holds. -/
def Completes (c : Instr) (s : State) (P : State → Prop) : Prop := ∃ t, exec c s = .next t ∧ P t

/-- The frames that wait in a queue of Purlin, oldest first. -/
def State.frames (s : State) (q : Nat) : List Frame := (s.queue q).items.map fun e => e.frame

/-- The frames that wait at a port: by virtual channel in Purlin for a module's port, in the port itself for a Jalem block's. -/
def State.waiting (s : State) (p : PortRef) (v : Nat) : List Frame :=
  match p with
  | .module n => s.frames (portQueue n.val v)
  | p => (s.port p).txq.filter fun f => decide (vcOf f.hdr = v)

/-- Only one port's training has changed, and `out` has left the block. -/
def OnlyTrain (p : PortRef) (s t : State) (out : List Output) : Prop :=
  (∀ q, q ≠ p → t.port q = s.port q) ∧ t.port p = { s.port p with train := (t.port p).train } ∧
  t = { s with ports := t.ports, jeb := { s.jeb with ports := t.jeb.ports }, outputs := s.outputs ++ out }

/-- A lath without a SEQ of its own as port `p` puts it on `width` lanes: the last SEQ sent, the last good SEQ, and idle slots (R39, R43). -/
def State.bareLath (s : State) (p : PortRef) (width : BitVec 2) (ltype : BitVec 3) : Output :=
  .lath p (lathLanes width (lathBytes
    { seq := (s.port p).retry.txSeq - 1, ack := (s.port p).retry.rxLast, ltype := ltype, replayed := false, keyId := 0 }
    (List.replicate 16 0)))

/-- A stored byte outside `n` shingles from shingle `i` on reads as before, and a shingle outside them is marked as before. -/
def MemKept (m m' : Mem) (i n : Nat) : Prop :=
  (∀ a, a < 36 * i ∨ 36 * (i + n) ≤ a → Tab.get 0 m'.cells a = Tab.get 0 m.cells a) ∧
    ∀ k, k < i ∨ i + n ≤ k → Tab.get false m'.marked k = Tab.get false m.marked k

/-- Transfer `id` has completed with a code, before anything else was reported, and has advanced the counter that it names as COMP (R147). -/
def Ended (s t : State) (x : Transfer) (id : Nat) (code : Byte) : Prop :=
  (s.outputs ++ [.done x.engine id code 0]) <+: t.outputs ∧
    ∀ c, x.comp = some c → Tab.get 0 t.jeb.sig c.toNat = Tab.get 0 s.jeb.sig c.toNat + 1

/-- A source of Gutter has counted `k` events. -/
def Counted (s t : State) (src k : Nat) : Prop :=
  (Tab.get Src.zero t.gut.srcs src).total = satAdd (Tab.get Src.zero s.gut.srcs src).total k

/-- A fatal fault of a code has begun a teardown of the bay (R291, R295). -/
def TornDown (t : State) (code : Nat) : Prop :=
  fld t.gut.fatal 0 8 = code ∧ bitAt t.gut.fatal 63 = true ∧ t.gut.phase = .stopping ∧ t.sec.state = .teardown

/-- A run stands in its context as `r`, or, with nothing of it left, has ended (R243). -/
def RunIs (t : State) (r : Run) : Prop := t.trs.runAt r.ctx = if r.ended (t.trs.runWords r).length then none else some r

end Sys2Proof.Machine
end

