-- ==== Sys2Proof/Certificates/Slice0/Obligations.lean ====
section
/-! DEFINITION. The statements for the provers. A beat, a measurement or a random choice that a command carries is an operand of the command,
for every value of it (log entries 8 and 10); what leaves the block is listed in `outputs` (log entry 2). -/

namespace Sys2Proof.Machine

open Sys2Proof

/-- Registers of the module space whose fields are all RW or reserved, and which a write only stores (R6). -/
def plainRegs : List Reg :=
  [.tstGen 0, .tstGenCount 143, .purShareCfg, .purBundleCtrl, .prtQuantum (.module 0), .gutCtrl, .secAdmitShape, .secAdmitTag,
    .pwrSlew, .pwrThermCfg]

/-- Registers whose RC fields are all their fields. -/
def clearRegs : List Reg := [.tstChk 0, .purBundleCount, .gabErr, .trsErr, .eavErr 31]

/-- The words of a window entry with a value put into word `k`, by the fields of R122; FMODE is reserved at a Jalem block (R149). -/
def windowWord (d : Dev) (w : Window) (k : Nat) (v : W64) : Window :=
  match k with
  | 0 => { w with base := v &&& 0x0000FFFFFFFF0001 }
  | 1 => { w with limit := v &&& 0x0000FFFFFFFF0000 }
  | 2 => { w with src := v.truncate 32 }
  | 3 => { w with attr := v.truncate 32 &&& (if d = .module then 0xF else 0x7) }
  | _ => { w with loc := v &&& 0x000001FFFFFF0000 }

/-- The frames that wait at a port, and the slots of a frame not yet whole, after the slots of one more lath. -/
def delivered (p : PortRef) (r : List RawFrame × List Shingle) (slots : List Shingle) : List RawFrame × List Shingle :=
  match arrivals (decide (portDev p = .jalem)) (r.2 ++ slots) with
  | (fs, _, rest) => (r.1 ++ fs, rest)

/-- The action on its eave's memory of a request in a home queue, with the frame as the weight key has it (R275). -/
def eaveResult (s : State) (e : Entry) (f : Frame) : HomeRes :=
  homePerform f.hdr f.data s.eav.store (shingleIndex s.eav.hashCfg e.ma) (e.ma % 32) e.ledger (fun k => Config.freeKey (s.fresh + k))

/-- The commands that perform a request at an eave, with the opcode and the mode of the request that each performs. -/
def eaveCommands (n : Fin 32) (i : Nat) : List (Instr × Byte × Bool) :=
  [(.load (.eave n i), opLoad, false), (.store (.eave n i), opStore, false), (.atomic (.eave n i), opAtomic, false),
    (.fadd (.eave n i), opFadd, false), (.faddLedger n i, opFadd, true), (.widenLoad (.eave n i), opWidenLoad, false),
    (.put (.eave n i), opPut, false), (.get (.eave n i), opGet, false)]

/-- The commands that perform a request at a Jalem home, with its opcode. -/
def jebCommands (p : PortRef) (f : Frame) : List (Instr × Byte) :=
  [(.load (.jalem p f), opLoad), (.store (.jalem p f), opStore), (.atomic (.jalem p f), opAtomic), (.fadd (.jalem p f), opFadd),
    (.widenLoad (.jalem p f), opWidenLoad), (.put (.jalem p f), opPut), (.get (.jalem p f), opGet)]

/-- An engine of the Jalem block with nothing queued and nothing outstanding. -/
def State.idleEngine (s : State) (e : Byte) : Prop := (s.engine e).queue = [] ∧ ∀ r ∈ s.jeb.reqs, r.hdr.srcEngine ≠ e

/-- The ring of `u` has moved on from the entry at the head of the ring of `j` (R137), and has looked at the next one, which stops it where it may
not start (R140). -/
def RingMoved (j u : Jeb) : Prop :=
  u.invHead.toNat = (j.invHead.toNat + 1) % ringSize j.invSize % 65536 ∧ u.fetched = j.fetched.drop 1 ∧ u.genWait = none ∧
  (u.genErr, u.genCode) = (match (j.fetched.drop 1).head?.bind u.ringFault with
    | some c => (true, c)
    | none => (false, j.genCode))

/-- The commands that are what Gauge's own island does, or what happens to it. -/
def gaugeCommand : Instr → Bool
  | .gaugeBeatItem _ _ | .channelLost _ _ | .interval _ _ _ | .powerLoss | .powerUp _ | .tamper => true
  | _ => false

/-- The commands that may change the module's memory: what an eave performs, its patrol scrub, and the end of a zeroization. -/
def memoryCommand : Instr → Bool
  | .load (.eave _ _) | .store (.eave _ _) | .atomic (.eave _ _) | .fadd (.eave _ _) | .faddLedger _ _ | .widenLoad (.eave _ _)
  | .put (.eave _ _) | .get (.eave _ _) | .patrolScrub _ _ _ | .zeroizationComplete => true
  | _ => false

end Sys2Proof.Machine

open Sys2Proof Sys2Proof.Machine

/-- The step takes the command at the front of the queue and performs it with the queue's rest. An empty queue lets one REFCLK cycle pass:
rack time of each device advances by 32 units of 0.2 ns where its REFCLK is present, the waits whose counters have ended them are over and
told (R153), and nothing else changes. The tick is the model's own (log entries 8 and 89). -/
def Obligations.StepRunsFront : Prop :=
  (∀ (c : Instr) (rest : List Instr) (s : State), step { s with pending := c :: rest } = exec c { s with pending := rest }) ∧
  (∀ s : State, s.pending = [] → ∃ t, step s = .next t ∧
    t = { s with tim := { s.tim with fifths := t.tim.fifths }
                 jeb := { s.jeb with tim := { s.jeb.tim with fifths := t.jeb.tim.fifths }, waits := t.jeb.waits }
                 outputs := t.outputs } ∧
    t.jeb.waits = s.jeb.waits.filter (fun w => !waitOver (Tab.get 0 s.jeb.sig w.1) w.2) ∧
    t.outputs = s.outputs ++ (s.jeb.waits.filter fun w => waitOver (Tab.get 0 s.jeb.sig w.1) w.2).map (fun w => .waitOver w.1 w.2) ∧
    t.tim.fifths = (if s.tim.refclkOk then s.tim.fifths + 32 else s.tim.fifths) ∧
    t.jeb.tim.fifths = (if s.jeb.tim.refclkOk then s.jeb.tim.fifths + 32 else s.jeb.tim.fifths))

/-- No command is refused, and the only one that stops is RESET_N_LOW for a low of 2 µs to below 10 µs, whose results R366 and R11 leave
unspecified: the fault there is the model's choice (log entry 70). No command touches the commands that wait: the queue is a plain first in,
first out queue, which only the step takes from. The queue of commands is the model's own (log entry 8). -/
def Obligations.EveryCommandAnswers : Prop :=
  (∀ (c : Instr) (s : State),
    (∃ t, exec c s = .next t) ∨ (∃ us, c = .resetNLow us ∧ 2 ≤ us ∧ us < 10 ∧ exec c s = .fault .resetPulseUnspecified)) ∧
  (∀ (c : Instr) (s t : State), exec c s = .next t → t.pending = s.pending)

/-- The memories of the module and of the Jalem block (log entry 7): every step keeps both memories in canonical form, from every state that
has it. -/
def Obligations.StepKeepsMemories : Prop :=
   ∀ s t : State, s.MemOk → step s = .next t → t.MemOk

/-- The state after reset: the values that the spec gives for the registers named. Some are the model's choice (log entries 3 and 7):
PWR_SLEW 0x10000, which the spec leaves to the image, SEC_BAY_STATUS 0, which R277 derives from the state before, and the memories that
nothing has written. Memory after reset lists nothing, so both memories are in canonical form. -/
def Obligations.ResetState : Prop :=
  ((∀ p, State.reset.regVal (.prtCtrl p) = 0x40FF00 ∧ State.reset.regVal (.prtQuantum p) = 0x0024048090090024) ∧
  State.reset.regVal .purShareCfg = 0x553334 ∧ State.reset.regVal .purBundleCtrl = 3 ∧
  State.reset.regVal .eavHashCfg = 0x100 ∧ State.reset.regVal .eavScrubCfg = 0x1A01 ∧ State.reset.regVal .gabSkewCfg = 0x40001F40 ∧
  (∀ n, State.reset.regVal (.trsCommCtl n) = 0x10000100 ∧ State.reset.regVal (.trsCommState n) = 0xFFFFF) ∧
  State.reset.regVal .gutCtrl = 0x00400101 ∧ State.reset.regVal .pwrSlew = 0x10000 ∧
  State.reset.regVal .pwrThermCfg = 0x0A1E6E5F ∧ State.reset.regVal .jebCtrl = 0x40 ∧
  (∀ k, k < 4 → State.reset.regVal (.jebSpreadMap k) = 0xFEDCBA9876543210) ∧
  State.reset.regVal .timNow = 0 ∧ State.reset.regVal .secBayStatus = 0 ∧ State.reset.pending = []) ∧
  (State.reset.MemOk)

/-- R308, R309, R317: no command of the module, register write, firmware update, configuration image or reset changes anything that Gauge
holds: only the beat items of its channel, its own intervals, its power and its seal do. -/
def Obligations.GaugeIsolated : Prop :=
   ∀ (c : Instr) (s t : State), gaugeCommand c = false → exec c s = .next t → t.gau = s.gau

/-- R107, R198, R199, R207, R309: the module's memory is changed only at an eave: by a request that is performed there, by the patrol scrub,
and by the zeroization. No register access, reset, firmware update, collective or Jalem command reaches it. -/
def Obligations.MemoryIsTheEaves : Prop :=
  ∀ (c : Instr) (s t : State), memoryCommand c = false → exec c s = .next t → t.eav.mem = s.eav.mem

/-- R55, R59: a header that is put into its slot is read back from it with every field at every value. -/
def Obligations.HeaderRoundTrip : Prop :=
   ∀ h : Header, headerDecode (headerSlot h) = some h

/-- R38 to R42: a lath on the wire has 612 bytes and is read back, with no symbol corrected: its control word, and its slots filled with
zero slots up to sixteen. The bit order of the scrambler and the recovery of SEQ are the model's (log entry 13). -/
def Obligations.LathRoundTrip : Prop :=
  ∀ (c : LathCtl) (slots : List Shingle), (lathBytes c slots).length = 612 ∧
    lathOfBytes c.seq (lathBytes c slots) = some (c, (slots ++ List.replicate 16 0).take 16, 0)

/-- R54, R55: the encoder leaves the data bits as they are and gives a codeword. R56: whichever one of the 36 symbols of a codeword is bad,
and however, detecting mode reports it and correcting mode restores the codeword. It is about one bad symbol only. -/
def Obligations.CodewordsAndCorrection : Prop :=
  (∀ d : BitVec 256, Shingle.dataBits (encodeShingle d) = d ∧ syndromes (encodeShingle d) = (0, 0, 0, 0) ∧ decodeShingle (encodeShingle d) = .clean (encodeShingle d)) ∧
  (∀ (d : BitVec 256) (i : Nat) (e : Byte), i < 36 → e ≠ 0 →
    flashBad (fixSymbol (encodeShingle d) i e) = true ∧ decodeShingle (fixSymbol (encodeShingle d) i e) = .corrected (encodeShingle d))

/-- R6, RW: the rack controller's write of one of the registers of `plainRegs` puts the written bits into the RW fields, and the register's
other bits read as before. R6, W1C: of SLIP and OFS_FAULT of TIM_STATUS and of DONE and REJECT of PUR_EPOCH_STATUS, a written 1 clears the
bit and a written 0 leaves it; nothing else changes. R6, RC: a whole read of one of the registers of `clearRegs` returns the current value
to the requester and then clears the register, as one action; Soffit, Gutter, SEC and the Jalem block are as before. -/
def Obligations.RegisterAccessCodes : Prop :=
  (∀ (s : State) (a : W32) (r : Reg) (v : W64), r ∈ plainRegs → s.mgmt .rackController = true → regAt .module a.toNat = some r →
    Completes (.registerWrite .rackController .module a r.wide v) s fun t => t.regVal r = (s.regVal r &&& ~~~ r.rw) ||| (v &&& r.rw)) ∧
  (∀ (s : State) (v : W64), s.mgmt .ethernet = true →
    Completes (.registerWrite .ethernet .module 0x00B00000 false v) s (fun t =>
      t.tim.slip = (s.tim.slip && !bitAt v 3) ∧ t.tim.ofsFault = (s.tim.ofsFault && !bitAt v 5) ∧
      t = { s with tim := { s.tim with slip := t.tim.slip, ofsFault := t.tim.ofsFault } }) ∧
    Completes (.registerWrite .ethernet .module 0x0010_0108 false v) s (fun t =>
      t.pur.epochDone = (s.pur.epochDone && !bitAt v 0) ∧ t.pur.epochReject = (s.pur.epochReject && !bitAt v 1) ∧
      t = { s with pur := { s.pur with epochDone := t.pur.epochDone, epochReject := t.pur.epochReject } })) ∧
  (∀ (s : State) (a : W32) (r : Reg), r ∈ clearRegs → s.mgmt .ethernet = true → regAt .module a.toNat = some r →
    Completes (.rcRead .ethernet .module a true) s fun t =>
      t.regVal r = 0 ∧ t.outputs = s.outputs ++ [.regValue .ethernet .module a (s.regVal r)] ∧ t.jeb = s.jeb ∧ t.sec = s.sec ∧
      t.gut = s.gut ∧ t.sof = s.sof)

/-- R8: a lower-half write goes into the requester's write latch and changes nothing else; the upper-half write then gives the state that
one 64-bit write of both halves gives with the latch empty. R8: a lower-half read of a register that its requester may read (R283, R288)
returns the lower half and latches the upper half; the same requester's next upper-half read returns the latched value, whatever the
register then holds, and empties the latch. R8: with the requester's write latch empty an upper-half write sets the upper half only, and the
lower half keeps its value: of the registers that only store, and of those that act on a write of their lower half, PUR_AUDIT_FIRST,
TRS_PROG_DIR and TRS_COMM_CTL. -/
def Obligations.HalvesOfRegisters : Prop :=
  (∀ (s : State) (who : Requester) (d : Dev) (a : W32) (r : Reg) (lo hi : W32), s.reachesDev who d = true →
    wordAt d a.toNat = some (r, false) → r.wide = true → wordAt d (a + 4).toNat = some (r, true) → regAt d a.toNat = some r →
    ∃ t, exec (.lowerHalfWrite who d a lo) s = .next t ∧ t = { s with latches := t.latches } ∧ (∀ q, t.regVal q = s.regVal q) ∧
      ∃ u, exec (.upperHalfWrite who d (a + 4) hi) t = .next u ∧
        exec (.registerWrite who d a true (joinHalves hi lo)) (s.unlatch who d a true) = .next u) ∧
  (∀ (s : State) (who : Requester) (d : Dev) (a : W32) (r : Reg), s.reachesDev who d = true → wordAt d a.toNat = some (r, false) →
    r.wide = true → wordAt d (a + 4).toNat = some (r, true) → s.hiddenInBand r = false → (who = .thatch → r.secConfig = false) →
    Completes (.lowerHalfRead who d a) s fun t =>
      t.outputs = s.outputs ++ [.regValue who d a ((lowHalf (s.regVal r)).setWidth 64)] ∧
      t.latched who d a false = some (highHalf (s.regVal r)) ∧
      Completes (.upperHalfRead who d (a + 4)) t fun u =>
        u.outputs = t.outputs ++ [.regValue who d (a + 4) ((highHalf (s.regVal r)).setWidth 64)] ∧
        u.latched who d a false = none ∧ u = { t with latches := u.latches, outputs := u.outputs }) ∧
  (∀ (s : State) (who : Requester) (a hi : W32) (r : Reg), s.reachesDev who .module = true → s.latched who .module a true = none →
    wordAt .module (a + 4).toNat = some (r, true) →
    (r = .purAuditFirst ∨ (∃ n, r = .trsProgDir n) ∨ (∃ n, r = .trsCommCtl n) → Completes (.upperHalfWrite who .module (a + 4) hi) s fun t =>
      lowHalf (t.regVal r) = lowHalf (s.regVal r)) ∧
    (r ∈ plainRegs → who = .rackController → Completes (.upperHalfWrite who .module (a + 4) hi) s fun t =>
      t.regVal r = joinHalves ((highHalf (s.regVal r) &&& ~~~ highHalf r.rw) ||| (hi &&& highHalf r.rw)) (lowHalf (s.regVal r))))

/-- R122, R149, R341: the window table of the module is written by the bay's fabric manager while a bay is admitted: BASE, LIMIT, SRC, ATTR
and LOCAL are taken into their entry, which nothing refuses while it is not valid, and nothing else changes; an entry with BASE above LIMIT
is taken with VALID 0. A write of BASE through the Ethernet interface is ignored. A Jalem block takes the same words from the fabric side,
FMODE reserved, and an entry with BASE above LIMIT with VALID 0. -/
def Obligations.WindowTableWrites : Prop :=
  ∀ (s : State) (n : Byte) (k : BitVec 3) (v : W64), k.toNat ≤ 4 →
    (s.admitted = true → s.sof.thatchRun = true →
      Completes (.windowTableWrite .module .inBand n k v) s fun t =>
        let w := windowWord .module (s.winOf .module n.toNat) k.toNat v
        (∀ m, m ≠ n.toNat → t.winOf .module m = s.winOf .module m) ∧
        (bitAt w.base 0 = false ∨ s.windowBad .module w = false →
          t.winOf .module n.toNat = w ∧ t = { s with eav := { s.eav with wins := t.eav.wins } }) ∧
        (fld w.limit 16 32 < fld w.base 16 32 → t.winOf .module n.toNat = { w with base := setBit w.base 0 false })) ∧
    exec (.windowTableWrite .module .ethernet n 0 v) s = .next s ∧
    (∀ who, Completes (.windowTableWrite .jalem (.fabricSide who) n k v) s fun t =>
      let w := windowWord .jalem (s.winOf .jalem n.toNat) k.toNat v
      (∀ m, m ≠ n.toNat → t.winOf .jalem m = s.winOf .jalem m) ∧
      t.winOf .jalem n.toNat = (if fld w.limit 16 32 < fld w.base 16 32 then { w with base := setBit w.base 0 false } else w) ∧
      t = { s with jeb := { s.jeb with wins := t.jeb.wins } })

/-- R161: at a Jalem block JEB_EPOCH_AT, the words of JEB_SPREAD_SHADOW, JEB_SPREAD_SHADOW_SEED and every window register ignore local-side
writes. R158: while the TDISP state is CONFIG_LOCKED or RUN, a local-side write to a locked register is ignored, and reported: a 64-bit
access to one of 64 or of 32 bits, a 32-bit access to one of 32 bits, and an upper-half write, which empties its write latch, to one of 64
bits. -/
def Obligations.JalemSides : Prop :=
  (∀ (s : State) (n : Byte) (k : BitVec 3) (v : W64),
    exec (.windowTableWrite .jalem .localSide n k v) s = .next s ∧ exec (.jebEpochAt .localSide v) s = .next s ∧
    (∀ j : Fin 4, exec (.registerWrite .localSide .jalem (BitVec.ofNat 32 (0x1020 + 8 * j.val)) true v) s = .next s) ∧
    exec (.registerWrite .localSide .jalem 0x1048 true v) s = .next s ∧ exec (.registerWrite .localSide .jalem 0x1040 false v) s = .next s) ∧
  (∀ (s : State) (a : W32) (r : Reg) (v : W64), regAt .jalem a.toNat = some r → r.locked = true → s.jeb.tdisp = 1 ∨ s.jeb.tdisp = 2 →
    exec (.registerWrite .localSide .jalem a true v) s = .next { s with outputs := s.outputs ++ [.tdispError a] } ∧
    (wordAt .jalem a.toNat = some (r, false) → r.wide = false →
      exec (.registerWrite .localSide .jalem a false v) s = .next { s with outputs := s.outputs ++ [.tdispError a] }) ∧
    (wordAt .jalem (a + 4).toNat = some (r, true) → Completes (.registerWrite .localSide .jalem (a + 4) false v) s fun t =>
      t = { s with outputs := s.outputs ++ [.tdispError a], latches := t.latches } ∧ t.latched .localSide .jalem a true = none))

/-- R28: at a mark with ARM set the module sets rack time to EPOCH_NUM × 2^30 ns, clears ARM and sets SYNC; a Jalem block that holds a
STAMP_RSP takes rack time from it at the mark (R132). Nothing outside rack time changes. R30: a slip while SYNC is set and a bay is
admitted. The first keeps rack time, sets SLIP and counts a severe fault in Gutter; a second at the next mark is fatal with code 2, where no
teardown runs. With no bay rack time moves to the nearest multiple of 2^30 ns. -/
def Obligations.MarksAndSlips : Prop :=
  ((∀ (s : State) (n : W32), s.tim.refclkOk = true → s.tim.arm = true →
    Completes (.epochMark .module n) s fun t =>
      t.ns = s.tim.epochNum.toNat * 2 ^ 30 ∧ t.tim.arm = false ∧ t.tim.sync = true ∧ t.tim.freeRun = false ∧ t = { s with tim := t.tim }) ∧
  (∀ (s : State) (n : W32) (t3 since : Nat), s.jeb.tim.refclkOk = true → s.jeb.tim.stamped = some (t3, since) → s.jeb.tim.sync = false →
    Completes (.epochMark .jalem n) s fun t =>
      t.jeb.tim.sync = true ∧ t.jeb.tim.fifths = nearestEpoch (t3 + (s.jeb.tim.fifths + 32 * n.toNat - since)) ∧
      t = { s with jeb := { s.jeb with tim := t.jeb.tim } })) ∧
  (∀ (s : State), s.tim.refclkOk = true → s.tim.arm = false → s.tim.sync = true → 32 < epochError s.tim.fifths → s.tim.moveNext = false →
    (s.admitted = false → Completes (.epochMark .module 0) s fun t => t.tim.fifths = nearestEpoch s.tim.fifths ∧ t.tim.slip = true) ∧
    (s.admitted = true → s.tim.slipRun = 0 → Completes (.epochMark .module 0) s fun t =>
      t.tim.fifths = s.tim.fifths ∧ t.tim.slip = true ∧ (Tab.get Src.zero t.gut.srcs 7).severe = true ∧ t.gut.phase = s.gut.phase) ∧
    (s.admitted = true → s.tim.slipRun ≠ 0 → s.gut.phase = .none → Completes (.epochMark .module 0) s fun t =>
      t.tim.fifths = s.tim.fifths ∧ fld t.gut.fatal 0 8 = 2 ∧ bitAt t.gut.fatal 63 = true ∧ t.gut.phase = .stopping ∧ t.sec.state = .teardown))

/-- R31: the loss of REFCLK clears REFCLK_OK and SYNC, holds rack time, and is fatal with code 1 for an admitted bay where no teardown runs;
its return sets REFCLK_OK and leaves rack time at the held value, and at a Jalem block the ports that it has built leave DISABLED (R366);
without a mark for 2^30 + 2^20 ns FREE_RUN is set, which a module counts as one event of source 7 while rack time counts on. R33, R67: at a
beat that is a multiple of 256 a module queues a STAMP_REQ on an active hip link; one that arrives, and one that its lath has left at the
port, is answered with t2, the time at which its lath came, and the echoed t1; and the answer to the open request adds a pair to the port's
offsets. The sixteenth pair, and each one after it, gives a report on the last sixteen: valid, with their mean as its offset, a warning
above 50 ns, and above 200 ns OFS_FAULT and a severe fault of source 7; nothing else of the state is touched by a pair, nor by a report up
to 200 ns. On a hip port held in electrical idle (R23) either frame only counts as a fence violation. That the mean is cut toward the lower
value and limited to the field is the model's reading (log entry 17). -/
def Obligations.ReferenceClockAndStamps : Prop :=
  ((∀ s : State, s.tim.refclkOk = true → Completes (.refclkLost .module) s fun t =>
    t.tim = { s.tim with refclkOk := false, sync := false } ∧
    (s.admitted = true → s.gut.phase = .none → fld t.gut.fatal 0 8 = 1 ∧ t.gut.phase = .stopping) ∧ (s.admitted = false → t.gut = s.gut)) ∧
  (∀ s : State, Completes (.refclkLost .jalem) s fun t =>
    t = { s with jeb := { s.jeb with tim := { s.jeb.tim with refclkOk := false, sync := false } } }) ∧
  (∀ s : State, Completes (.refclkReturn .module) s fun t =>
    t.tim.refclkOk = true ∧ t.tim.fifths = s.tim.fifths ∧ t.tim.sync = s.tim.sync ∧ t.gut = s.gut ∧ t.jeb = s.jeb) ∧
  (∀ s : State, Completes (.refclkReturn .jalem) s fun t =>
    t.jeb.tim.refclkOk = true ∧ t.jeb.tim.fifths = s.jeb.tim.fifths ∧
    (∀ i ∈ builtPorts, (Tab.get Port.reset s.jeb.ports i).train.state = .disabled → (Tab.get Port.reset t.jeb.ports i).train.state = .detect) ∧
    (∀ i, i ∉ builtPorts ∨ (Tab.get Port.reset s.jeb.ports i).train.state ≠ .disabled →
      Tab.get Port.reset t.jeb.ports i = Tab.get Port.reset s.jeb.ports i) ∧
    t = { s with jeb := { s.jeb with tim := t.jeb.tim, ports := t.jeb.ports } }) ∧
  (∀ (s : State) (n : W32), s.tim.refclkOk = true → s.tim.freeRun = false →
    s.tim.lastMark + (2 ^ 30 + 2 ^ 20) * 5 < s.tim.fifths + 32 * n.toNat → Completes (.freeRun .module n) s fun t =>
      t.tim.freeRun = true ∧ t.tim.fifths = s.tim.fifths + 32 * n.toNat ∧ t.sec = s.sec ∧
      Counted s t 7 1) ∧
  (∀ (s : State) (n : W32), s.jeb.tim.refclkOk = true → s.jeb.tim.freeRun = false →
    s.jeb.tim.lastMark + (2 ^ 30 + 2 ^ 20) * 5 < s.jeb.tim.fifths + 32 * n.toNat → Completes (.freeRun .jalem n) s fun t =>
      t = { s with jeb := { s.jeb with tim := { s.jeb.tim with freeRun := true, fifths := s.jeb.tim.fifths + 32 * n.toNat } } })) ∧
  ((∀ (s : State) (k : Fin 12) (b : W64), b.toNat % 256 = 0 → (s.port (hipPortOf k)).train.state = .active →
    (s.port (hipPortOf k)).laneIdle = false → Completes (.stampExchange k b) s fun t =>
      let x := s.port (hipPortOf k)
      t.port (hipPortOf k) = { x with arb := { x.arb with linkLocal := x.arb.linkLocal ++ [.req] } } ∧
      t = { s with ports := t.ports, tim := t.tim, jeb := { s.jeb with tim := t.jeb.tim } }) ∧
  (∀ (s : State) (p : PortRef) (t1 : W64), (s.port p).train.state = .active → s.fencedLane p = false →
    Completes (.stampReq p t1 false false) s fun t =>
      let x := s.port p
      let here := decide (x.retry.rx.head? = some (linkLocalFrame opStampReq (t1.toNat * 2 ^ 160)))
      let t2 := stampUnits (if here then x.retry.reqAt else (s.portTime p).fifths) x.fine
      t.port p = { x with retry := { x.retry with rx := if here then x.retry.rx.drop 1 else x.retry.rx }
                          arb := { x.arb with linkLocal := x.arb.linkLocal ++ [.rsp t2 t1] } } ∧
      t = { s with ports := t.ports, jeb := { s.jeb with ports := t.jeb.ports } }) ∧
  (∀ (s : State) (n : Fin 144) (t1 t2 t3 : W64), (s.mport n.val).train.state = .active → s.fencedLane (.module n) = false →
    (s.mport n.val).stamp.openT1 = some t1 → (s.mport n.val).stamp.last16.length ≤ 16 → Completes (.stampRsp (.module n) t2 t1 t3 false false) s fun t =>
      let x := s.mport n.val
      let raw := linkLocalFrame opStampRsp (t2.toNat * 2 ^ 32 + t1.toNat * 2 ^ 96 + t3.toNat * 2 ^ 160)
      let t4 := stampUnits (if x.retry.rx.head? = some raw then x.retry.rspAt else s.tim.fifths) x.fine
      let twice : Int := (if x.fine then 1 else 16) * (((t2.toNat : Int) - t1.toNat) - ((t4.toNat : Int) - t3.toNat))
      let pairs := (x.stamp.last16 ++ [twice]).drop (x.stamp.last16.length + 1 - 16)
      let mean := max (-(2 ^ 19)) (min (2 ^ 19 - 1) (pairs.sum / 32))
      (t.mport n.val).stamp.openT1 = none ∧ (t.mport n.val).stamp.last16 = pairs ∧
      (pairs.length ≤ 15 → (t.mport n.val).stamp = { x.stamp with openT1 := none, last16 := pairs } ∧ t = { s with ports := t.ports }) ∧
      (pairs.length = 16 →
        (t.mport n.val).stamp.valid = true ∧ (t.mport n.val).stamp.offset = BitVec.ofInt 20 mean ∧
        (t.mport n.val).stamp.warn = decide (800 < mean.natAbs) ∧
        (mean.natAbs ≤ 3200 → t = { s with ports := t.ports }) ∧
        (3200 < mean.natAbs → t.tim.ofsFault = true ∧ (Tab.get Src.zero t.gut.srcs 7).severe = true))) ∧
  (∀ (s : State) (n : Fin 144) (t1 t2 t3 : W64) (a b : Bool), s.fencedLane (.module n) = true →
    ∀ c ∈ [Instr.stampReq (.module n) t1 a b, .stampRsp (.module n) t2 t1 t3 a b], Completes c s fun t =>
      Counted s t 6 1 ∧ (t.mport n.val).arb = (s.mport n.val).arb ∧ (t.mport n.val).stamp = (s.mport n.val).stamp ∧
      (∀ q, q ≠ .module n → t.port q = s.port q) ∧ t.tim = s.tim ∧ t.jeb = s.jeb))

/-- R46, R47, R48: the state machine of a port up to NEGOTIATE, one row for each condition of the table. In LOCK the port sends a training
lath (LTYPE 3) at the width that EQUALISE reached, in IDENTIFY its identity record; a port that goes back to DETECT sends nothing. Nothing
but the port's training state changes, the third failure in a row of EQUALISE apart, which takes the port DOWN. That one training lath
stands for all of LOCK's, and repeats the last SEQ sent, is the model's choice (log entries 81 and 84). -/
def Obligations.TrainingMoves : Prop :=
  ∀ (s : State) (p : PortRef),
    (s.pstate p = .detect → Completes (.partnerDetected p) s fun t => t.pstate p = .equalise ∧ OnlyTrain p s t []) ∧
    (s.pstate p = .equalise → Completes (.equaliseDone p) s fun t =>
      t.pstate p = .lock ∧ (t.port p).train.width = (s.port p).train.tryWidth ∧ (t.port p).train.eqFails = 0 ∧
      OnlyTrain p s t [s.bareLath p (s.port p).train.tryWidth 3]) ∧
    (s.pstate p = .equalise → (s.port p).train.eqFails < 2 → Completes (.equaliseTimeout p) s fun t =>
      t.pstate p = .detect ∧ (t.port p).train.eqFails = (s.port p).train.eqFails + 1 ∧ (t.port p).train.width = 0 ∧ OnlyTrain p s t []) ∧
    (s.pstate p = .equalise → 2 ≤ (s.port p).train.eqFails → (portDev p = .module ∨ s.jeb.stopped = false) →
      Completes (.equaliseTimeout p) s fun t => t.pstate p = .down ∧ (t.port p).train.fail = 4) ∧
    (s.pstate p = .lock → Completes (.lockDone p) s fun t =>
      t.pstate p = .identify ∧ OnlyTrain p s t [.identity p (s.ownIdentity p)]) ∧
    (s.pstate p = .lock → Completes (.lockTimeout p) s fun t =>
      t.pstate p = .equalise ∧ (t.port p).train.width = 0 ∧ OnlyTrain p s t []) ∧
    (s.pstate p ∈ [.lock, .identify, .negotiate, .credit] → Completes (.partnerIdle p) s fun t =>
      t.pstate p = .detect ∧ (t.port p).train.width = 0 ∧ (t.port p).train.tryWidth = (s.port p).train.limit ∧ OnlyTrain p s t [])

/-- R14, R18, R46, R48, R50: an identity record that passes moves the port to NEGOTIATE, where it sends revision 2.3 and its FEAT_MASK, and
is stored; one that fails takes the port to HELD with FAIL 1 and counts as a cabling fault of source 5, and no frame moves. That the offer
is FEAT_MASK, and that a Jalem port's cabling fault counts in the module's source 5, are the model's choices (log entries 102 and 33). R47,
R50, R51, R53, R63: NEGOTIATE gives the intersection of the partner's mask, the revision's features and FEAT_MASK, and sends the port's
grants; a link narrower than ×8 without NARROW in it goes back to DETECT (that it fails like EQUALISE is the model's reading, log entry 83),
and no common revision ends in HELD with FAIL 2. CREDIT leads to ACTIVE exactly if every virtual channel is granted at least 9 slots on both
sides, and else to HELD with FAIL 3; that neither HELD raises an event is the model's choice (log entry 105). -/
def Obligations.IdentityToActive : Prop :=
  (∀ (s : State) (p : PortRef) (i : Identity), s.pstate p = .identify →
    (s.partnerOk p i = true → Completes (.identityRecord p i) s fun t =>
      t.pstate p = .negotiate ∧ (t.port p).train.partner = some i ∧
      OnlyTrain p s t [.offer p 3 ((s.port p).cfg.featMask.setWidth 16)]) ∧
    (s.partnerOk p i = false → Completes (.identityRecord p i) s fun t =>
      t.pstate p = .held ∧ (t.port p).train.fail = 1 ∧ Counted s t 5 1 ∧ t.pur = s.pur)) ∧
  (∀ (s : State) (p : PortRef),
    (s.pstate p = .negotiate → ∀ (r : BitVec 2) (m : W16),
      let feats := m.truncate 8 &&& revFeatures r &&& (s.port p).cfg.featMask
      ((s.port p).train.width = 3 ∨ bitAt feats featNarrow = true → Completes (.negotiate p (some r) m) s fun t =>
        t.pstate p = .credit ∧ (t.port p).train.rev = r ∧ (t.port p).train.features = feats ∧
        t = { s with ports := t.ports, jeb := { s.jeb with ports := t.jeb.ports }
                     outputs := s.outputs ++ [.grants p (s.port p).cfg.grants] }) ∧
      ((s.port p).train.width ≠ 3 → bitAt feats featNarrow = false → Completes (.negotiate p (some r) m) s fun t =>
        t.pstate p = .detect ∧ (t.port p).train.narrowOff = true ∧ OnlyTrain p s t [])) ∧
    (s.pstate p = .negotiate → ∀ m, Completes (.negotiate p none m) s fun t =>
      t.pstate p = .held ∧ (t.port p).train.fail = 2 ∧ t = { s with ports := t.ports, jeb := { s.jeb with ports := t.jeb.ports } }) ∧
    (s.pstate p = .credit → ∀ g : List W16, g.length = 12 →
      ((∀ x ∈ g, 9 ≤ x.toNat) → (∀ x ∈ (s.port p).cfg.grants, 9 ≤ x) → Completes (.initialCreditGrant p g) s fun t =>
        t.pstate p = .active ∧ (t.port p).cred.txGrant = g.map BitVec.toNat) ∧
      ((∃ x ∈ g, x.toNat < 9) ∨ (∃ x ∈ (s.port p).cfg.grants, x < 9) → Completes (.initialCreditGrant p g) s fun t =>
        t.pstate p = .held ∧ (t.port p).train.fail = 3 ∧ t = { s with ports := t.ports, jeb := { s.jeb with ports := t.jeb.ports } })))

/-- R44, R45, R46: a port enters RETRAIN, which LATH_ERR and, at a module, source 3 count, and sends a training lath, encrypted on a sealed
link (R61); it returns to ACTIVE with the stored partner; a changed partner takes it to HELD and counts as DOWN; after 20 µs it is DOWN and
its replay buffer is empty. RESTART leads a used port of either kind back to DETECT, but not a fenced one, nor one whose lanes R23 holds
idle. The model's choices: one training lath that repeats the last SEQ and has free slots on a sealed link, no LTYPE 2 lath, and what
RESTART does to a fenced port (log entries 33, 81, 82 and 84). -/
def Obligations.RetrainOutcomes : Prop :=
  ∀ (s : State) (p : PortRef),
    (s.pstate p = .active → ∀ c, Completes (.retrain p c) s fun t =>
      t.pstate p = .retrain ∧ (t.port p).err.lathErr = satFld (s.port p).err.lathErr 16 8 1 ∧ t.pur = s.pur ∧ t.sec = s.sec ∧
      (s.txKey p = none → t.outputs = s.outputs ++ [s.bareLath p (s.port p).train.width 3]) ∧
      (s.txKey p ≠ none → ∃ slots, slots.length = 16 ∧ t.outputs = s.outputs ++ [.lath p (lathLanes (s.port p).train.width (lathBytes
        { seq := (s.port p).retry.txSeq - 1, ack := (s.port p).retry.rxLast, ltype := 3, replayed := false
          keyId := (s.port p).sealing.active } slots))]) ∧
      (portDev p = .module → Counted s t 3 1)) ∧
    (s.pstate p = .retrain → ∀ i j, (s.port p).train.partner = some j → samePartner i j = true → Completes (.retrainRelock p i) s fun t =>
      t.pstate p = .active ∧
      t = { s with ports := t.ports, jeb := { s.jeb with ports := t.jeb.ports }, outputs := s.outputs ++ [.identity p (s.ownIdentity p)] }) ∧
    (s.pstate p = .retrain → (portDev p = .module ∨ s.jeb.stopped = false) → ∀ i j, (s.port p).train.partner = some j →
      samePartner i j = false → Completes (.retrainRelock p i) s fun t =>
      t.pstate p = .held ∧ (t.port p).train.asDown = true) ∧
    (s.pstate p = .retrain → (portDev p = .module ∨ s.jeb.stopped = false) → Completes (.retrainTimeout p) s fun t =>
      t.pstate p = .down ∧ (t.port p).retry.replay = []) ∧
    (s.pstate p = .down ∨ s.pstate p = .held → (∀ n, p = .module n → s.fenced n.val = false) → (s.port p).train.role ≠ .unused →
      (s.port p).laneIdle = false → (portDev p = .module → s.served = true) → Completes (.prtCtrlRestart p) s fun t =>
        t.pstate p = .detect ∧ t = { s with ports := t.ports, jeb := { s.jeb with ports := t.jeb.ports } }) ∧
    (∀ n, p = .module n → s.fenced n.val = true → exec (.prtCtrlRestart p) s = .next s) ∧
    ((s.port p).laneIdle = true → exec (.prtCtrlRestart p) s = .next s)

/-- R40, R43: a NAK frees the laths up to its ACK, and every lath after it goes out again on the port's lanes, in order, with REPLAYED set
and each counted. (Without SELRETRY; no lath has been resent four times, and this is the first NAK of its beat.) R63: a CREDIT frame's
twelve cumulative counts replace those held, and the frame leaves the port where its lath had left it there; nothing else changes. A port
that carries no frames, an unused one among them (R16), refuses it, and a hip port held in electrical idle (R23) counts it as a fence
violation; neither takes its counts. -/
def Obligations.NakAndCredit : Prop :=
  (∀ (s : State) (p : PortRef) (ack : BitVec 12), s.pstate p = .active → bitAt (s.port p).train.features featSelRetry = false →
    (∀ k ∈ (s.port p).retry.replay, k.tries < 4) → (s.port p).retry.nakBeat ≠ (s.portTime p).beat →
    Completes (.nak p ack) s fun t =>
      let left := freeAcked (s.port p).retry.replay ack
      t.outputs = s.outputs ++ left.map (fun k => Output.lath p (lathLanes (s.port p).train.width (lathBytes
        { seq := k.seq, ack := (s.port p).retry.rxLast, ltype := 0, replayed := true, keyId := k.keyId } k.slots))) ∧
      ((t.port p).retry.replay.map fun k => (k.seq, k.slots)) = (left.map fun k => (k.seq, k.slots)) ∧
      (t.port p).err.retry = satFld (s.port p).err.retry 16 16 left.length ∧ t.pstate p = .active ∧ t.gut = s.gut ∧ t.pur = s.pur) ∧
  ((∀ (s : State) (p : PortRef) (c : List W16), c.length = 12 → (s.port p).train.state = .active → s.fencedLane p = false →
    Completes (.credit p c) s fun t =>
    let x := s.port p
    let rx := if x.retry.rx.head? = some (creditFrame c) then x.retry.rx.drop 1 else x.retry.rx
    t.port p = { x with retry := { x.retry with rx := rx }, cred := { x.cred with txFreed := c } } ∧ (∀ q, q ≠ p → t.port q = s.port q) ∧
    t = { s with ports := t.ports, jeb := { s.jeb with ports := t.jeb.ports } }) ∧
  (∀ (s : State) (p : PortRef) (c : List W16), (s.port p).train.state ∉ [.active, .retrain] → s.fencedLane p = false →
    exec (.credit p c) s = .next s) ∧
  (∀ (s : State) (n : Fin 144) (c : List W16), s.fencedLane (.module n) = true → Completes (.credit (.module n) c) s fun t =>
    Counted s t 6 1 ∧ (t.mport n.val).cred = (s.mport n.val).cred ∧ (∀ q, q ≠ .module n → t.port q = s.port q) ∧ t.jeb = s.jeb))

/-- R39, R42, R43: a data lath in turn, of an unsealed group, is taken: its SEQ is the last good one, FEC_CORR counts the corrected symbols,
and its slots go to the frames of the port. One that the FEC cannot correct is counted, at a module to source 2 too, and answered by a NAK,
on a link that is not sealed (with fewer than 64 NAKs in the beat, above which R44 retrains); that the NAK repeats the last SEQ sent is the
model's choice (log entry 84). R61, R272: a data lath in turn of a sealed group is held until the group's last, with nothing of it used. At
the last one a tag that verifies under the key of the group's KEY_ID opens the slots of all eight, in order; a tag that does not (once the
link has been sealed since it started, and with fewer than 64 NAKs in the beat) discards the group, counts it, at source 4 too, and asks for
it again with a NAK, and the second such failure is fatal with code 6. Keystream upon keystream gives the plain slots. That a KEY_ID without
a key fails like a tag that does not verify is the model's reading (R61). The model's choices: the tag is the low 16 bytes of its slot (log
entry 106), and a lath of a sealed group that is not verified yet already is the last good one (log entry 86). -/
def Obligations.LathsReceived : Prop :=
  (∀ (s : State) (p : PortRef) (bytes : List Byte), s.pstate p = .active →
    (∀ ctl slots n, lathOfBytes ((s.port p).retry.rxLast + 1) bytes = some (ctl, slots, n) → ctl.ltype = 0 →
      ctl.seq = (s.port p).retry.rxLast + 1 → (s.port p).retry.resume = false → (s.port p).retry.rxKept = [] →
      (s.port p).sealing.rxSealed = false → Completes (.lathReceive p bytes) s fun t =>
        (t.port p).retry.rxLast = ctl.seq ∧ (t.port p).err.fecCorr = satFld (s.port p).err.fecCorr 0 48 n ∧
        ((t.port p).retry.rx, (t.port p).retry.rxSlots) = delivered p ((s.port p).retry.rx, (s.port p).retry.rxSlots) slots ∧
        (t.port p).err.flashErr = satAdd (s.port p).err.flashErr
          (arrivals (decide (portDev p = .jalem)) ((s.port p).retry.rxSlots ++ slots)).2.1 ∧
        t.outputs = s.outputs ∧ t.pur = s.pur) ∧
    (lathOfBytes ((s.port p).retry.rxLast + 1) bytes = none → s.txKey p = none →
      ((s.port p).retry.nakBeat = (s.portTime p).beat → (s.port p).retry.nakCount < 64) → Completes (.lathReceive p bytes) s fun t =>
      (t.port p).retry.discarding = true ∧ (t.port p).retry.rx = (s.port p).retry.rx ∧ t.pur = s.pur ∧ t.pstate p = .active ∧
      (t.port p).err.lathErr = satFld (s.port p).err.lathErr 0 16 1 ∧ (portDev p = .module → Counted s t 2 1) ∧
      t.outputs = s.outputs ++ [s.bareLath p (s.port p).train.width 1])) ∧
  ((∀ (s : State) (p : PortRef) (bytes : List Byte) (ctl : LathCtl) (slots : List Shingle) (n : Nat), s.pstate p = .active →
    lathOfBytes ((s.port p).retry.rxLast + 1) bytes = some (ctl, slots, n) → ctl.ltype = 0 → ctl.seq = (s.port p).retry.rxLast + 1 →
    (s.port p).retry.resume = false → (s.port p).retry.rxKept = [] → (s.port p).sealing.rxSealed = true →
    let x := s.port p
    let group := x.sealing.rxGroup ++ [(ctl.toWord, slots)]
    let nonce := groupNonce (s.rxSalt p) x.sealing.rxCount
    let key := (s.takeAck p ctl.ack).portKey p (LathCtl.ofWord (group.headD (0, [])).1).keyId
    let good := fun (k : LinkKey) => bytesOf (((group.getLast?.map Prod.snd).getD []).getD 15 0) 16 = groupTag k.key nonce group
    (ctl.seq.toNat % 8 ≠ 7 → Completes (.lathReceive p bytes) s fun t =>
      (t.port p).sealing.rxGroup = group ∧ (t.port p).retry.rxLast = ctl.seq ∧ (t.port p).retry.rx = x.retry.rx ∧
      (t.port p).retry.rxSlots = x.retry.rxSlots ∧ t.outputs = s.outputs ∧ t.pur = s.pur ∧ t.gut = s.gut) ∧
    (ctl.seq.toNat % 8 = 7 → ∀ k, key = some k → good k → Completes (.lathReceive p bytes) s fun t =>
      ((t.port p).retry.rx, (t.port p).retry.rxSlots) =
        (group.zipIdx.map fun q => groupCrypt k.key nonce q.2 (if q.2 = 7 then q.1.2.take 15 else q.1.2)).foldl (delivered p)
          (x.retry.rx, x.retry.rxSlots) ∧
      (t.port p).sealing.rxCount = x.sealing.rxCount + 1 ∧ (t.port p).sealing.rxOn = true ∧ (t.port p).sealing.rxGroup = [] ∧
      (t.port p).retry.rxLast = ctl.seq ∧ t.outputs = s.outputs ∧ t.pur = s.pur) ∧
    (ctl.seq.toNat % 8 = 7 → (∀ k, key = some k → ¬ good k) → x.sealing.anew = false →
      (x.retry.nakBeat = (s.portTime p).beat → x.retry.nakCount < 64) →
      (x.sealing.failed ≠ some x.sealing.rxCount → Completes (.lathReceive p bytes) s fun t =>
        (t.port p).retry.rx = x.retry.rx ∧ (t.port p).retry.rxSlots = x.retry.rxSlots ∧ (t.port p).sealing.rxGroup = [] ∧
        (t.port p).sealing.rxCount = x.sealing.rxCount ∧ (t.port p).sealing.failed = some x.sealing.rxCount ∧
        (t.port p).retry.rxLast = (LathCtl.ofWord (group.headD (0, [])).1).seq - 1 ∧ (t.port p).retry.discarding = true ∧
        (t.port p).err.lathErr = satFld x.err.lathErr 24 8 1 ∧ Counted s t 4 1 ∧ t.pur = s.pur ∧
        ∃ lanes, t.outputs = s.outputs ++ [.lath p lanes]) ∧
      (x.sealing.failed = some x.sealing.rxCount → s.admitted = true → s.gut.phase = .none → Completes (.lathReceive p bytes) s fun t =>
        TornDown t 6 ∧ t.eav.mem = s.eav.mem))) ∧
  (∀ (key : BitVec 256) (nonce : List Byte) (k : Nat) (slots : List Shingle), groupCrypt key nonce k (groupCrypt key nonce k slots) = slots))

/-- R43, R56, R58, R65: at a frame boundary of an unsealed link with nothing to send the port sends an idle lath with the next SEQ and keeps
it for replay; a picked frame's header slot, as it was received, and data follow the slots that wait, and its slots count as sent on its
virtual channel. (The replay buffer has room, no teardown waits for its STOPs, and the frame is no KEY frame whose group is chosen now.)
R65, R66: a frame of course 4 whose bucket holds its slots goes before all others, and course 0 before the other four courses; of one course
a response goes before a request until a request has waited 64 laths. R61: at a frame boundary of a sealed link with nothing to send the
port sends idle slots under the keystream of its group, with the KEY_ID of its key; the eighth lath of a group carries fifteen slots and the
tag over the group, and the next group begins after it. That the tag stands in the low 16 bytes of its slot is the model's choice (log entry
106). -/
def Obligations.Arbitration : Prop :=
  (∀ (s : State) (p : PortRef), s.pstate p = .active → (s.port p).retry.replay.length < 512 → s.txKey p = none → s.gut.phase ≠ .stopping →
    (s.pick p = .nothing → (s.port p).retry.txSlots = [] → Completes (.arbitration p) s fun t =>
      t.outputs = s.outputs ++ [.lath p (lathLanes (s.port p).train.width
        (lathBytes ⟨(s.port p).retry.txSeq, (s.port p).retry.rxLast, 0, false, 0⟩ (List.replicate 16 0)))] ∧
      (t.port p).retry.txSeq = (s.port p).retry.txSeq + 1 ∧
      (t.port p).retry.replay.length = (s.port p).retry.replay.length + 1 ∧ t.pur = s.pur ∧ t.gut = s.gut) ∧
    (∀ f v a, s.pick p = .frame f v a → (s.port p).retry.txSlots.length + 1 + f.data.length < 16 → v < (s.port p).cred.txSent.length →
      (s.port p).sealing.dueFor f.hdr = none → Completes (.arbitration p) s fun t =>
        (t.port p).retry.txSlots = (s.port p).retry.txSlots ++ (headerSlot f.hdr ^^^ f.err) :: f.data ∧
        (t.port p).cred.txSent = (s.port p).cred.txSent.modify v (· + BitVec.ofNat 16 (frameSlots f)) ∧ t.outputs = s.outputs ∧
        t.gut = s.gut)) ∧
  (∀ (s : State) (p : PortRef) (f : Frame) (v : Nat), s.localPick p = none →
    (s.courseHead p 4 = some (f, v) → 400 * frameSlots f ≤ (s.port p).arb.tok4 → ∃ a, s.pick p = .frame f v a) ∧
    (s.courseHead p 4 = none → s.courseHead p 0 = some (f, v) → (s.port p).cfg.latCap ≠ 0 → 400 * frameSlots f ≤ (s.port p).arb.tok0 →
      ∃ a, s.pick p = .frame f v a) ∧
    (∀ c g h, s.mayStart p (2 * c) = some g → s.mayStart p (2 * c + 1) = some h →
      s.courseHead p c = if 64 ≤ (s.port p).arb.waited.getD c 0 then some (g, 2 * c) else some (h, 2 * c + 1))) ∧
  (∀ (s : State) (p : PortRef) (key : BitVec 256), s.pstate p = .active → (s.port p).retry.replay.length < 512 → s.txKey p = some key →
    s.gut.phase ≠ .stopping → s.pick p = .nothing → (s.port p).retry.txSlots = [] → Completes (.arbitration p) s fun t =>
      let x := s.port p
      let k := x.retry.txSeq.toNat % 8
      let nonce := groupNonce (s.txSalt p) x.sealing.txGroup
      let ctl : LathCtl := ⟨x.retry.txSeq, x.retry.rxLast, 0, false, x.sealing.active⟩
      let c := groupCrypt key nonce k (List.replicate (if k = 7 then 15 else 16) 0)
      let tag := BitVec.ofNat 288 (natOfBytes (groupTag key nonce (x.sealing.txLaths ++ [(ctl.toWord, c)])))
      t.outputs = s.outputs ++ [.lath p (lathLanes x.train.width (lathBytes ctl (if k = 7 then c ++ [tag] else c)))] ∧
      (t.port p).retry.txSeq = x.retry.txSeq + 1 ∧
      (t.port p).sealing.txGroup = (if k = 7 then x.sealing.txGroup + 1 else x.sealing.txGroup) ∧
      (t.port p).sealing.txLaths = (if k = 7 then [] else x.sealing.txLaths ++ [(ctl.toWord, c)]) ∧ t.pur = s.pur ∧ t.gut = s.gut)

/-- R77: a frame that is linked to a queue stands last there, its descriptor and its cell stamped with the queue and the tail serial, which
goes up by one; a frame that is dequeued from a queue whose serials are in order leaves the next in front and moves the head serial up by
one. -/
def Obligations.QueueSerials : Prop :=
  (∀ (s : State) (f : Frame) (q : Nat) (a : Arrive), ∃ e,
    ((s.link f q a).queue q).items = (s.queue q).items ++ [e] ∧ e.frame = f ∧ e.serial = (s.queue q).tail ∧
    Tab.get .free (s.link f q a).pur.descs.tags e.desc = .queue q (s.queue q).tail ∧
    (∀ c, e.cell = some c → Tab.get .free (s.link f q a).pur.cells.tags c = .queue q (s.queue q).tail) ∧
    ((s.link f q a).queue q).tail = (s.queue q).tail + 1 ∧ ((s.link f q a).queue q).head = (s.queue q).head) ∧
  (∀ (s u : State) (q : Nat) (e : Entry), s.dequeue q = some (e, u) →
    (∀ k x, (s.queue q).items[k]? = some x → x.serial = (s.queue q).head + BitVec.ofNat 24 k) →
    (s.queue q).tail = (s.queue q).head + BitVec.ofNat 24 (s.queue q).items.length →
    (s.queue q).items = e :: (u.queue q).items ∧ (u.queue q).head = (s.queue q).head + 1 ∧ (u.queue q).tail = (s.queue q).tail)

/-- R16, R23, R56, R59, R78, R120: a frame on a hip port held in electrical idle is counted as a fence violation and not answered; a request
that passes the checks and whose destination is another port waits last in that port's queue of its virtual channel, its header slot as it
was received; a request that a check refuses is answered with the check's code, at the port that leads to its requester, and no other frame
is queued. A header that correcting mode cannot restore is a fatal fault with code 5. (Bundled operations, control accesses and a SEG with
SIG have rules of their own.) What its laths had left at the port is taken off there. R76: an agent, the Spar engine of each port among them
(R78), takes the frames that wait for it in the order of its queue: the frame at the head of the queue leaves it, and nothing else changes
but Purlin's buffer and the credit of its port; a frame that stands behind others is not taken. R95 to R97: the response at the head of the
bundling unit's queue leaves it and ends its bundle; of two bundled ATOMIC operations the first receives the value that stood in memory, the
second that value with the first one's operand applied. -/
def Obligations.FramesAndBundles : Prop :=
  (∀ (s : State) (n : Fin 144) (raw : RawFrame),
    (portRole n.val = .hip → (s.mport n.val).laneIdle = true → Completes (.frameRouting n raw) s fun t =>
      Counted s t 6 1 ∧ t.pur = s.pur ∧ (∀ q, q ≠ .module n → t.port q = s.port q) ∧
      let x := s.mport n.val
      t.mport n.val = { x with retry := { x.retry with rx := if x.retry.rx.head? = some raw then x.retry.rx.drop 1 else x.retry.rx } }) ∧
    (s.isActive n.val = true → (portRole n.val ≠ .hip ∨ (s.mport n.val).laneIdle = false) → headerDecode raw.hdr = none →
      s.admitted = true → s.gut.phase = .none → Completes (.frameRouting n raw) s fun t =>
        fld t.gut.fatal 0 8 = 5 ∧ t.gut.phase = .stopping) ∧
    (∀ h e, s.isActive n.val = true → (portRole n.val ≠ .hip ∨ (s.mport n.val).laneIdle = false) → flashBad raw.hdr = false →
      headerDecode raw.hdr = some h → h.course.toNat < 6 → raw.data.length = h.len.toNat → badSyndromes h raw.data = 0 →
      s.ingressCheck n h = none → isResponse h = false → isCtrl h = false → s.dest h = .port e → h.opcode ≠ opAtomic →
      h.opcode ≠ opFadd → bitAt h.attr 7 = false → Completes (.frameRouting n raw) s fun t =>
        t.frames (portQueue e.val (vcOf h)) =
          s.frames (portQueue e.val (vcOf h)) ++ [{ hdr := h, data := raw.data, err := raw.hdr ^^^ headerSlot h }] ∧
        t.eav = s.eav ∧ t.sec = s.sec ∧ t.gut = s.gut) ∧
    (∀ h code e, s.isActive n.val = true → (portRole n.val ≠ .hip ∨ (s.mport n.val).laneIdle = false) → flashBad raw.hdr = false →
      headerDecode raw.hdr = some h → h.course.toNat < 6 → raw.data.length = h.len.toNat → badSyndromes h raw.data = 0 →
      s.ingressCheck n h = some code → isResponse h = false → isPosted h = false → h.opcode ≠ opBattenCont →
      s.dest (errorFrame h code).hdr = .port e → Completes (.frameRouting n raw) s fun t =>
        let q := portQueue e.val (vcOf (errorFrame h code).hdr)
        t.frames q = s.frames q ++ [errorFrame h code] ∧ (∀ k, k ≠ q → t.frames k = s.frames k) ∧
        t.eav = s.eav ∧ t.sec = s.sec ∧ t.gut = s.gut)) ∧
  (∀ (s : State) (a : Nat) (n : Fin 144) (f : Frame) (e : Entry) (rest : List Entry),
    let q := agentQueue (agentAt a n.val) f.hdr.course.toNat
    (s.queue q).items = e :: rest →
    (e.isFrame n f = true → ∃ u, s.agentTake a n f = .ok u ∧ u.frames q = rest.map (fun e => e.frame) ∧
      (∀ k, k ≠ q → u.frames k = s.frames k) ∧ u = { s with pur := u.pur, ports := u.ports }) ∧
    (e.isFrame n f = false → (∃ r ∈ rest, r.isFrame n f = true) → s.agentTake a n f = .error s)) ∧
  ((∀ (s : State) (e : Entry) (rest : List Entry) (b : Bundle), (s.queue (agentQueue agBundle 0)).items = e :: rest →
    s.pur.bundles.find? (fun b => decide (b.index = e.frame.hdr.tag.toNat)) = some b → (∀ p ∈ b.parts, p.1.srcEngine ≠ 0xFE) →
    Completes (.bundleResponse) s fun t =>
      t.pur.bundles = s.pur.bundles.filter (fun c => decide (c.index ≠ b.index)) ∧
      t.frames (agentQueue agBundle 0) = rest.map (fun e => e.frame) ∧ t.eav = s.eav) ∧
  (∀ (v : BitVec 256) (h₁ h₂ : Header) (a b : BitVec 256), h₁.opcode = opAtomic →
    splitValues v [(h₁, a), (h₂, b)] =
      [v, BitVec.ofNat 256 (atomicNew (fld h₁.attr 0 3) (if bitAt h₁.attr 3 then 64 else 32) (bitAt h₁.attr 4)
        (fld v 0 (if bitAt h₁.attr 3 then 64 else 32)) (fld a 0 (if bitAt h₁.attr 3 then 64 else 32)) 0)]))

/-- R98 to R100: a pass of the valley audit at a multiple of 2^16 beats over an otherwise empty buffer in which the bitmap marks one FREE
cell as used reports check A, takes that cell out of use, captures it in PUR_AUDIT_FIRST, and counts one event of source 8. -/
def Obligations.AuditQuarantines : Prop :=
  ∀ (s : State) (b : W64) (i : Nat), b.toNat % 65536 = 0 → s.pur.ready = true → i < 2 ^ 20 →
    s.pur.cells = { Pool.reset with free := cellTotal, used := [(i, true)] } → s.pur.descs = { Pool.reset with free := descTotal } →
    s.pur.auditFirst = 0 → s.pur.auditArmed = true → Completes (.valleyAudit b) s fun t =>
      Tab.get .free t.pur.cells.tags i = .quarantined ∧ t.pur.cells.quar = 1 ∧ t.pur.cells.free = cellTotal - 1 ∧
      t.pur.auditLast = 1 ∧ fld t.pur.auditFirst 0 22 = i ∧ fld t.pur.auditFirst 23 3 = 1 ∧
      Counted s t 8 1 ∧ t.gut.phase = s.gut.phase

/-- R79, R89 to R94: the shadow table takes writes while no epoch is armed and the entry names no port that may not be routed to; an epoch
is armed only for a later beat; at its beat the shadow table becomes the active one, ARM clears and DONE sets; what is refused sets REJECT
and nothing else. That an entry with VALID 0 is taken whatever port it names is the model's choice (log entry 80). -/
def Obligations.RouteEpochs : Prop :=
  ∀ (s : State) (who : Requester), s.reaches who = true →
    (∀ (n : Byte) (v : W32), s.pur.epochArm = false → s.badRoute (v &&& 0x3FF) = false → Completes (.purLrtShadow who n v) s fun t =>
      Tab.get 0 t.pur.shadow n.toNat = v &&& 0x3FF ∧ (∀ m, m ≠ n.toNat → Tab.get 0 t.pur.shadow m = Tab.get 0 s.pur.shadow m) ∧
      t = { s with pur := { s.pur with shadow := t.pur.shadow } }) ∧
    (∀ (n : Byte) (v : W32), s.pur.epochArm = true ∨ s.badRoute (v &&& 0x3FF) = true → exec (.purLrtShadow who n v) s = .next { s with pur := { s.pur with epochReject := true } }) ∧
    (∀ v : W64, s.pur.epochArm = false → bitAt v 63 = true → s.beat < fld v 0 54 → Completes (.purEpochAt who v) s fun t =>
      t.pur.epochArm = true ∧ t.pur.epochBeat.toNat = fld v 0 54 ∧
      t = { s with pur := { s.pur with epochArm := true, epochBeat := t.pur.epochBeat } }) ∧
    (∀ v : W64, s.pur.epochArm = true ∨ (bitAt v 63 = true ∧ fld v 0 54 ≤ s.beat) →
      exec (.purEpochAt who v) s = .next { s with pur := { s.pur with epochReject := true } }) ∧
    (∀ b : W64, s.pur.epochArm = true → s.pur.epochBeat.toNat ≤ b.toNat → s.tim.refclkOk = true → s.tim.fifths < 5120 * b.toNat →
      Completes (.routeEpoch b) s fun t =>
        t.pur.lrt = s.pur.shadow ∧ t.pur.epochArm = false ∧ t.pur.epochDone = true ∧ t.pur.shadow = s.pur.shadow ∧ t.pur.queues = s.pur.queues ∧
        t.beat = b.toNat ∧ t.gut = s.gut)

/-- R124: PUR_NODE_LOST_SET with DECLARE declares the node lost: its bit is set, and an admitted bay without a teardown in progress is torn
down with fatal fault 7, which names the node. Without DECLARE the write does nothing. -/
def Obligations.NodeDeclaredLost : Prop :=
  ∀ (s : State) (who : Requester) (v : W32), s.reaches who = true →
    (bitAt v 7 = false → exec (.purNodeLostSet who v) s = .next s) ∧
    (bitAt v 7 = true → s.nodeLost (fld v 0 7) = false → Completes (.purNodeLostSet who v) s fun t =>
      t.nodeLost (fld v 0 7) = true ∧ (s.admitted = true → s.gut.phase = .none → fld t.gut.fatal 0 8 = 7 ∧ t.gut.phase = .stopping ∧
        fld t.gut.fatal 8 2 = 2 ∧ fld t.gut.fatal 10 8 = fld v 0 7) ∧ t.eav = s.eav ∧ t.gau = s.gau)

/-- R107 to R114, R123, R187, R275: a request whose turn at its line has come is performed as one action at its eave. Memory becomes what
the operation makes of it, the request leaves the home queue, and its answer waits last at the port that leads to its requester (before any
answer that the freed room brings about). A write into a weight region whose key the module does not hold leaves memory as it is. -/
def Obligations.EavePerforms : Prop :=
  ∀ (s : State) (n : Fin 32) (i : Nat) (c : Instr × Byte × Bool) (e : Entry), c ∈ eaveCommands n i →
    s.homeTurn n i c.2.1 c.2.2 = some e →
    (∀ f met, s.weighed e.frame e.ma = some (f, met) → Completes c.1 s fun t =>
      t.eav.mem = (eaveResult s e f).store.mem ∧ (s.eave n.val).homeQ.eraseIdx i <+: (t.eave n.val).homeQ ∧
      (∀ m, s.dest (eaveResult s e f).frame.hdr = .port m →
        (s.frames (portQueue m.val (vcOf (eaveResult s e f).frame.hdr)) ++ [(eaveResult s e f).frame]) <+:
          t.frames (portQueue m.val (vcOf (eaveResult s e f).frame.hdr))) ∧
      t.jeb = s.jeb ∧ t.sec = s.sec ∧ t.eav.wins = s.eav.wins ∧ t.eav.durs = s.eav.durs) ∧
    (s.weighed e.frame e.ma = none → Completes c.1 s fun t =>
      t.eav.mem = s.eav.mem ∧ (s.eave n.val).homeQ.eraseIdx i <+: (t.eave n.val).homeQ ∧ t.jeb = s.jeb ∧ t.sec = s.sec)

/-- R120, R149: a request that arrives at the Jalem block and passes form, bay tag and window is performed on accelerator memory and
answered on its own link; one on another course than 6 that fails is answered with the code of its check, counted, and changes no memory.
Outside the block only its syndromes are counted (R56). -/
def Obligations.JalemHome : Prop :=
  ∀ (s : State) (p : PortRef) (f : Frame) (c : Instr × Byte), c ∈ jebCommands p f → portDev p = .jalem → f.hdr.opcode = c.2 →
    (∀ a, s.jebForm p f.hdr = none → s.jebHome f.hdr (fpaOffset f.hdr.fpa) (accessBytes f.hdr) = .ok a → Completes c.1 s fun t =>
      let r := homePerform f.hdr f.data s.jeb.store (a / 32) (a % 32) false (fun k => Config.freeKey k)
      t.jeb.mem = r.store.mem ∧ (t.port p).txq = (s.port p).txq ++ [r.frame] ∧
      t = { s.countFlash p (frameSyndromes f) with jeb := t.jeb }) ∧
    (∀ code, f.hdr.course ≠ 6 → s.jebForm p f.hdr = some code ∨
        (s.jebForm p f.hdr = none ∧ s.jebHome f.hdr (fpaOffset f.hdr.fpa) (accessBytes f.hdr) = .error code) → Completes c.1 s fun t =>
      t.jeb.mem = s.jeb.mem ∧ (t.port p).txq = (s.port p).txq ++ [errorFrame f.hdr code] ∧ t.jeb.err1 = satFld s.jeb.err1 16 16 1 ∧
      t = { s.countFlash p (frameSyndromes f) with jeb := t.jeb })

/-- R107, R113, R114, R182, R193: reading operations leave memory as it is, and the others leave every byte, and every mark, outside the
shingles that they address: those of their data for STORE and PUT (twelve for each in a ledger window), one for ATOMIC and arrival-mode
FADD, the twelve of a ledger line for FADD in ledger mode. -/
def Obligations.HomeMemoryFrame : Prop :=
  ∀ (h : Header) (data : List Shingle) (m : Store) (i b : Nat) (led : Bool) (free : Nat → BitVec 256),
    let r := homePerform h data m i b led free
    r.store.cipher = m.cipher ∧
    (h.opcode ∈ [opLoad, opGet, opWidenLoad] → r.store = m) ∧
    (h.opcode ∈ [opStore, opPut] → led = false → MemKept m.mem r.store.mem i data.length) ∧
    (h.opcode ∈ [opStore, opPut] → led = true → MemKept m.mem r.store.mem i (12 * data.length)) ∧
    (h.opcode = opAtomic → MemKept m.mem r.store.mem i 1) ∧ (h.opcode = opFadd → led = false → MemKept m.mem r.store.mem i 1) ∧
    (h.opcode = opFadd → led = true → MemKept m.mem r.store.mem i 12)

/-- R107, R182, R183, R197: what a STORE or PUT writes, a LOAD or GET returns, shingle for shingle and with its poison, whatever check
symbols it carries, unless an unpoisoned word is one that reads as marked: in memory that is encrypted under any eave key, where what is
stored is the ciphertext of each word, with its marker where it is poisoned, as in memory that is not. What a weight key has decrypted
(R275) reads back in the same way. R108, R119: an ATOMIC on readable operands answers the old value and stores the new one beside the rest
of the shingle; with a poisoned operand or target it answers POISONED, and memory stays. An uncorrectable operand has no value (R57); the
Config values that stand for what the manual leaves open are free (log entry 5). -/
def Obligations.LoadReturnsStore : Prop :=
  ((∀ (h g : Header) (data : List Shingle) (m : Store) (i b : Nat) (free : Nat → BitVec 256),
    h.opcode ∈ [opStore, opPut] → g.opcode ∈ [opLoad, opGet] → accessBytes g = 32 * data.length →
    (∀ k w, data[k]? = some w → poisoned h k = false → isMarked w = false) → data.length ≤ 8 → h.poison.toNat < 2 ^ data.length →
    let r := homePerform g [] (homePerform h data m i b false free).store i b false free
    r.frame.data = data ∧ r.frame.hdr.poison = h.poison ∧ r.frame.hdr.status = stOk) ∧
  (∀ (h : Header) (data : List Shingle) (m : Store) (i b k : Nat) (w : Shingle) (free : Nat → BitVec 256), h.opcode ∈ [opStore, opPut] →
    data[k]? = some w →
    readCells (homePerform h data m i b false free).store.mem.cells (i + k) =
      m.protect (i + k) (if poisoned h k then flipMarker w else w)) ∧
  (∀ (s : State) (f x : Frame) (g : Header) (ma i b : Nat) (met : List (Mark × Nat)) (free : Nat → BitVec 256),
    s.weighed f ma = some (x, met) → (s.weightAt ma).isSome = true → f.hdr.opcode ∈ [opStore, opPut] → g.opcode ∈ [opLoad, opGet] →
    accessBytes g = 32 * f.data.length → f.data.length ≤ 8 → (∀ k, k < f.data.length → poisoned f.hdr k = false) →
    (∀ w ∈ f.data, (decodeShingle w).data.isSome = true) →
    let r := homePerform g [] (homePerform x.hdr x.data s.eav.store i b false free).store i b false free
    r.frame.data = x.data ∧ r.frame.hdr.poison = 0 ∧ r.frame.hdr.status = stOk ∧ x.data.length = f.data.length ∧
    ∀ w ∈ x.data, ∃ v, w = encodeShingle v)) ∧
  (∀ (h : Header) (data : List Shingle) (m : Store) (i b : Nat) (led : Bool) (free : Nat → BitVec 256), h.opcode = opAtomic →
    let r := homePerform h data m i b led free
    let n := if bitAt h.attr 3 then 64 else 32
    (∀ w t, (decodeOperand h data 0 i).1 = some w → (decodeAt m i).1 = some t →
      r.store = storeShingle m i (encodeShingle (setFld t (8 * b) n
        (atomicNew (fld h.attr 0 3) n (bitAt h.attr 4) (fld t (8 * b) n) (fld w 0 n) (fld w 64 n)))) false ∧
      r.frame = dataFrame h opAtomicData [encodeShingle (BitVec.ofNat 256 (fld t (8 * b) n))] 0) ∧
    ((decodeOperand h data 0 i).1 = none ∨ (decodeAt m i).1 = none → r.store = m ∧ r.frame = errorFrame h stPoisoned))

/-- R116, R117, R196: a BATTEN at the head of its group's queue takes a free list and waits for its continuations, which add their shingles
within 16 beats; at 16 beats after its acceptance a list that is not whole is answered LIST_INCOMPLETE. (No other list of the group is whole
and waits for its turn.) A BATTEN at a Jalem home waits for its continuations in the same way. R116: the answer of a whole list is a series
of GET_DATA frames of up to eight shingles, numbered from 0, the last one marked, which carries the pages' shingles in order. -/
def Obligations.BattenLists : Prop :=
  ((∀ (s : State) (g : Fin 4), (∀ b ∈ (s.group g.val).lists, b.whole = false) →
    (∀ c ∈ [Instr.batten (.group g), .battenAccept g], ∀ e, s.battenHead g = some e → e.frame.hdr.opcode = opBatten →
      (s.group g.val).lists.length < 64 → e.frame.data.length < listShingles (battenCount e.frame.hdr) → Completes c s fun t =>
        (t.group g.val).lists = (s.group g.val).lists ++
          [{ hdr := e.frame.hdr, got := e.frame.data, start := s.beat, port := e.ingress, order := e.order }] ∧ t.eav.mem = s.eav.mem) ∧
    (∀ e b, s.battenHead g = some e → e.frame.hdr.opcode = opBattenCont → (s.group g.val).lists.find? (continues e.frame.hdr) = some b →
      s.beat ≤ b.start + 16 → b.got.length + e.frame.data.length < listShingles (battenCount b.hdr) →
      Completes (.battenCont (.group g)) s fun t =>
        (t.group g.val).lists = (s.group g.val).lists.map (fun c => if c = b then b.extend e.frame else c) ∧ t.eav.mem = s.eav.mem) ∧
    (∀ (i : Nat) (b : BList) (beat : W64), (s.group g.val).lists[i]? = some b → s.tim.refclkOk = true → s.tim.fifths ≤ 5120 * beat.toNat →
      b.start + 16 ≤ beat.toNat → Completes (.listIncomplete (.group g i) beat) s fun t =>
        (t.group g.val).lists = (s.group g.val).lists.erase b ∧ t.eav.mem = s.eav.mem ∧
        ∀ m, s.dest (errorFrame b.hdr stListIncomplete).hdr = .port m →
          (s.frames (portQueue m.val (vcOf (errorFrame b.hdr stListIncomplete).hdr)) ++ [errorFrame b.hdr stListIncomplete]) <+:
            t.frames (portQueue m.val (vcOf (errorFrame b.hdr stListIncomplete).hdr)))) ∧
  (∀ (s : State) (p : PortRef) (f : Frame), portDev p = .jalem → f.hdr.opcode = opBatten →
    s.jebForm p f.hdr = none → f.data.length < listShingles (battenCount f.hdr) → Completes (.batten (.jalem p f)) s fun t =>
      t.jeb.battens = s.jeb.battens ++ [(p, { hdr := f.hdr, got := f.data, start := s.jeb.tim.beat, port := none, order := 0 })] ∧
      t.jeb.mem = s.jeb.mem ∧ (t.port p).txq = (s.port p).txq)) ∧
  (∀ (h : Header) (l : List (Shingle × Bool)), l.length ≤ 524288 →
    (battenFrames h l).flatMap (fun f => f.data) = l.map Prod.fst ∧ (∀ f ∈ battenFrames h l, 1 ≤ f.data.length ∧ f.data.length ≤ 8) ∧
    (∀ k f, (battenFrames h l)[k]? = some f →
      fld f.hdr.aux 0 16 = k ∧ bitAt f.hdr.aux 63 = decide (k + 1 = (battenFrames h l).length) ∧ f.hdr.opcode = opGetData))

/-- R189: while its stack retrains an eave performs nothing, and a gather one of whose pages it serves waits; once retrained it goes on; a
stack that is not recovered, or a home queue that has stopped, takes the eave out of service: nothing waits in its home queue any more,
memory stays, and an admitted bay without a teardown in progress is torn down with fatal fault 14. R182, R198: the patrol scrub visits the
shingle in turn and moves on. A word within two symbols of a codeword is written back corrected and counted in SCRUB_CORR and at source 13;
no other byte of memory changes, and no mark. With the scrub disabled only what the stack's own code has corrected is counted, in
STACK_CORR: that it counts at the visit is the model's choice (log entry 93). -/
def Obligations.StacksAndScrub : Prop :=
  (∀ (s : State) (n : Fin 32), (s.eave n.val).failed = false →
    (Completes (.stackRetraining n) s fun t => (∀ i op led, t.homeTurn n i op led = none) ∧
      t = { s with eav := { s.eav with eaves := t.eav.eaves } } ∧ ∀ m, m ≠ n.val → t.eave m = s.eave m) ∧
    (Completes (.stackRetrained n) s fun t => (t.eave n.val).retraining = false ∧ (t.eave n.val).homeQ = (s.eave n.val).homeQ ∧
      t.eav.mem = s.eav.mem ∧ ((∀ g, g < 4 → ∀ b ∈ (s.group g).lists, b.whole = false) → t = { s with eav := { s.eav with eaves := t.eav.eaves } })) ∧
    (∀ (g : Fin 4) (b : BList) (m : Nat) (w : Window) (off k : Nat) (es : List Nat) (ps : List (Window × Nat)),
      b.entries (b.hdr.poison ≠ 0) = .ok es → collectPages (s.pageCheck b.hdr) es = .ok ps → (w, off) ∈ ps → k < pageBytes b.hdr / 256 →
      m = (eaveOf s.eav.hashCfg (w.moduleAddr (off + 256 * k))).1 → (s.eave m).retraining = true →
      s.tryList g b = s) ∧
    ((s.eave n.val).retraining = true → Completes (.stackTrainingLost n) s fun t =>
      (t.eave n.val).failed = true ∧ (t.eave n.val).ready = false ∧ (t.eave n.val).homeQ = [] ∧ t.eav.mem = s.eav.mem ∧
      (s.admitted = true → s.gut.phase = .none → TornDown t 14)) ∧
    (∀ b : W64, (s.eave n.val).homeQ ≠ [] → s.tim.refclkOk = true → s.tim.fifths ≤ 5120 * b.toNat →
      (s.eave n.val).lastDone + 1024 ≤ b.toNat → Completes (.homeQueueStopped n b) s fun t =>
        (t.eave n.val).failed = true ∧ (t.eave n.val).homeQ = [] ∧ t.eav.mem = s.eav.mem ∧ (s.admitted = true → s.gut.phase = .none → TornDown t 14))) ∧
  (∀ (s : State) (n : Fin 32),
    (∀ err v : Shingle, bitAt s.eav.scrubCfg 0 = true → (s.eave n.val).failed = false → (s.eave n.val).zeroizing = false →
      let i := n.val * eaveShingles + (s.eave n.val).scrubShingle
      let m := s.eav.store.disturb i err
      markedAt m i = false → decodeShingle (readShingle m i) = .corrected v → Completes (.patrolScrub n err 0) s fun t =>
        t.eav.mem = (storeShingle m i v false).mem ∧ MemKept s.eav.mem t.eav.mem i 1 ∧
        (t.eave n.val).err = satFld (s.eave n.val).err 16 16 1 ∧
        (t.eave n.val).scrubShingle = ((s.eave n.val).scrubShingle + 1) % eaveShingles ∧ Counted s t 13 1 ∧ t.pur = s.pur) ∧
    (∀ (err : Shingle) (k : W16), bitAt s.eav.scrubCfg 0 = false → k ≠ 0 → Completes (.patrolScrub n err k) s fun t =>
      (t.eave n.val).err = satFld (s.eave n.val).err 0 16 k.toNat ∧ (t.eave n.val).scrubShingle = (s.eave n.val).scrubShingle ∧
      t.eav.mem = s.eav.mem ∧ t.pur = s.pur))

/-- R203: each command of a durable region from the states that its row of the table gives, with the effect of that row; nothing but the
entry changes. The command goes to Thatch, which has to run (R208, R354). R203: a command that its row does not list for the current state
is ignored and sets ERR. R203: a command is the code that EAV_DUR_CTL_k.CMD takes; a write to BASE, LIMIT or EXPECT outside EMPTY is ignored
and sets ERR. The digest of a SEALING region ends in SEALED with DIGEST, or in LOADING with ERR; of a VERIFYING one in SEALED where it is
EXPECT, else in SILVERING with MARK 0 and ERR. A reset returns a SEALING entry to LOADING and a VERIFYING one to SILVERING, and leaves all
else of the table. -/
def Obligations.DurableCommands : Prop :=
  (∀ (s : State) (k : Fin 16),
    let d := s.dur k.val
    let only := fun (t : State) => t = { s with eav := { s.eav with durs := t.eav.durs } } ∧ ∀ j, j ≠ k.val → t.dur j = s.dur j
    (s.served = true →
    (d.state = .empty → s.regionOk k.val d = true → Completes (.define k) s fun t => t.dur k.val = { d with state := .loading, mark := 0 } ∧ only t) ∧
    (d.state = .loading → Completes (.sealRegion k) s fun t => t.dur k.val = { d with state := .sealing } ∧ only t) ∧
    (d.state = .sealed → Completes (.reopen k) s fun t => t.dur k.val = { d with state := .loading, digest := 0 } ∧ only t) ∧
    (d.state = .empty → s.regionOk k.val d = true → Completes (.silver k) s fun t => t.dur k.val = { d with state := .silvering, mark := 0 } ∧ only t) ∧
    (d.state = .silvering → Completes (.advance k) s fun t => (t.dur k.val).mark = d.mark + 1 ∧ only t ∧
      (t.dur k.val).state = if (d.mark + 1).toNat = d.chunks then .verifying else .silvering) ∧
    (d.state ≠ .empty → Completes (.declareLost k) s fun t => t.dur k.val = { d with state := .lost } ∧ only t) ∧
    (Completes (.dissolve k) s fun t => t.dur k.val = { d with state := .empty, mark := 0 } ∧ only t))) ∧
  (∀ (s : State) (k : Fin 16), s.served = true →
    let d := s.dur k.val
    let refused := fun (c : Instr) => Completes c s fun t =>
      t.dur k.val = { d with err := true } ∧ t = { s with eav := { s.eav with durs := t.eav.durs } }
    (d.state ≠ .empty ∨ s.regionOk k.val d = false → refused (.define k) ∧ refused (.silver k)) ∧
    (d.state ≠ .loading → refused (.sealRegion k)) ∧ (d.state ≠ .sealed → refused (.reopen k)) ∧
    (d.state ≠ .silvering → refused (.advance k)) ∧ (d.state = .empty → refused (.declareLost k))) ∧
  ((∀ (s : State) (k : Fin 16), s.admitted = true → s.sof.thatchRun = true → s.served = true →
    let only := fun (t : State) => t = { s with eav := { s.eav with durs := t.eav.durs }, latches := t.latches }
    let cmds : List (Nat × Instr) :=
      [(1, .define k), (2, .sealRegion k), (3, .reopen k), (4, .silver k), (5, .advance k), (6, .declareLost k), (7, .dissolve k)]
    (∀ p ∈ cmds, ∃ u, exec p.2 s = .next u ∧
      Completes (.registerWrite .inBand .module (BitVec.ofNat 32 (0x4A0010 + 0x100 * k.val)) false (BitVec.ofNat 64 p.1)) s fun t =>
        (∀ j, t.dur j = u.dur j) ∧ only t) ∧
    ((s.dur k.val).state ≠ .empty → ∀ (a : W32) (w : Fin 6) (v : W64) (r : Reg), regAt .module a.toNat = some r →
      r = .durBase k.val ∨ r = .durLimit k.val ∨ r = .durExpect k.val w.val → Completes (.registerWrite .inBand .module a true v) s fun t =>
        t.dur k.val = { s.dur k.val with err := true } ∧ (∀ j, j ≠ k.val → t.dur j = s.dur j) ∧ only t)) ∧
  (∀ (s : State) (k : Fin 16),
    let d := s.dur k.val
    let r := s.regionDigest d
    (d.state = .sealing → Completes (.digestDone k) s fun t =>
      (∀ v, r = some v → t.dur k.val = { d with state := .sealed, digest := v }) ∧
      (r = none → t.dur k.val = { d with state := .loading, err := true })) ∧
    (d.state = .verifying → Completes (.digestDone k) s fun t =>
      (r = some d.expect → t.dur k.val = { d with state := .sealed, digest := d.expect }) ∧
      (r ≠ some d.expect → t.dur k.val = { d with state := .silvering, mark := 0, err := true }))) ∧
  (∀ (s : State) (us : Nat), 10 ≤ us → Completes (.resetNLow us) s fun t => ∀ j,
    t.dur j = if (s.dur j).state = .sealing then { s.dur j with state := .loading }
      else if (s.dur j).state = .verifying then { s.dur j with state := .silvering } else s.dur j))

/-- R202, R203: the end of a digest. A region that was SEALING becomes SEALED with its digest, or returns to LOADING with ERR where a
shingle is lost; one that was VERIFYING becomes SEALED where the digest is EXPECT, and else SILVERING with MARK 0 and ERR. R201: what the
state of a durable region refuses: reads while it is SILVERING or VERIFYING answer HOME_FAULT, every operation on a LOST one does; writes to
a sealing, sealed or verifying one and atomics on any but an EMPTY one answer NO_RIGHT. R208, R351, R354: Thatch forwards the commands of
the durable table, so in Sarking-only operation none has an effect. -/
def Obligations.DurableStates : Prop :=
  (∀ (s : State) (k : Fin 16),
    let d := s.dur k.val
    (d.state = .sealing → ∀ v, s.regionDigest d = some v → Completes (.digestDone k) s fun t =>
      t.dur k.val = { d with state := .sealed, digest := v } ∧ t.eav.mem = s.eav.mem) ∧
    (d.state = .sealing → s.regionDigest d = none → Completes (.digestDone k) s fun t =>
      t.dur k.val = { d with state := .loading, err := true } ∧ t.eav.mem = s.eav.mem) ∧
    (d.state = .verifying → ∀ v, s.regionDigest d = some v → Completes (.digestDone k) s fun t =>
      (t.dur k.val).state = (if v = d.expect then .sealed else .silvering) ∧
      (v ≠ d.expect → (t.dur k.val).mark = 0 ∧ (t.dur k.val).err = true) ∧ t.eav.mem = s.eav.mem)) ∧
  (∀ op : Byte,
    (∀ st, rightOf op = 0 → durCheck st op = if st ∈ [DurState.silvering, .verifying, .lost] then some stHomeFault else none) ∧
    (∀ st, rightOf op = 1 → durCheck st op = if st = .lost then some stHomeFault
      else if st ∈ [DurState.sealing, .sealed, .verifying] then some stNoRight else none) ∧
    (∀ st, rightOf op = 2 → durCheck st op = if st = .lost then some stHomeFault else if st = .empty then none else some stNoRight)) ∧
  (∀ (s : State) (k : Fin 16), s.served = false →
    ∀ c ∈ [Instr.define k, .sealRegion k, .reopen k, .silver k, .advance k, .declareLost k, .dissolve k], exec c s = .next s)

/-- R142 to R145, R147, R156, R164: what becomes of a transfer at its check, handed over by an engine that is idle. A stopped block
completes it TEARDOWN; a combination of ORD that is not permitted 0x54; a check that ends in a code with that code, and each of these
advances COMP. A page fault writes a fault record, holds the task and completes the transfer FAULT (while no fence holds an arrived
response, whose data might land in the ring's place), or waits while the fault ring is full; a transfer that passes waits for issue with its
parts, and one whose task is held waits unchecked. -/
def Obligations.TransfersChecked : Prop :=
  ∀ (s : State) (x : Transfer), x.engine.toNat < 0xFE → s.idleEngine x.engine →
    let id := s.jeb.nextXfer
    let boundary := decide (x.ord = 2 ∨ x.ord = 3) && (s.engine x.engine).writeFailed
    (s.jeb.stopped = true → Completes (.transfer x) s fun t =>
      Ended s t x id stTeardown ∧
      t = { s with outputs := t.outputs, jeb := { s.jeb with nextXfer := id + 1, sig := t.jeb.sig, waits := t.jeb.waits } }) ∧
    (s.jeb.stopped = false → ordOk x = false → Completes (.transfer x) s fun t =>
      Ended s t x id 0x54 ∧
      t = { s with outputs := t.outputs
                   jeb := { s.jeb with nextXfer := id + 1, ordErr := satFld s.jeb.ordErr 32 16 1, sig := t.jeb.sig, waits := t.jeb.waits } }) ∧
    (s.jeb.stopped = false → ordOk x = true → x.task ∈ s.jeb.faulted → Completes (.transfer x) s fun t =>
      (t.engine x.engine).queue = [.parked id x false boundary] ∧ t.outputs = s.outputs ∧ t.jeb.mem = s.jeb.mem) ∧
    (s.jeb.stopped = false → ordOk x = true → x.task ∉ s.jeb.faulted →
      (∀ c, (s.jeb.check s.freeNat x).1 = .code c → Completes (.transfer x) s fun t =>
        Ended s t x id c ∧ (t.engine x.engine).queue = [] ∧ t.jeb.mem = s.jeb.mem) ∧
      (∀ f, (s.jeb.check s.freeNat x).1 = .fault f → s.jeb.fltFull = false → (∀ r ∈ s.jeb.reqs, r.held = []) → Completes (.transfer x) s fun t =>
        (s.outputs ++ [.done x.engine id 0x50 0]) <+: t.outputs ∧ x.task ∈ t.jeb.faulted ∧ (t.engine x.engine).queue = [] ∧
        t.jeb.event = true ∧ t.jeb.fltSeq = s.jeb.fltSeq + 1 ∧
        t.jeb.fltTail.toNat = (s.jeb.fltTail.toNat + 1) % ringSize s.jeb.fltSize % 65536 ∧
        readShingle t.jeb.store (s.jeb.fltBase.toNat / 32 + s.jeb.fltTail.toNat % ringSize s.jeb.fltSize) =
          encodeShingle (faultRecord f
            { task := x.task, ctx := x.ctx, engine := x.engine, cls := opClass x.op, gen := s.jeb.genDone, ns := s.jeb.tim.ns }
            s.jeb.genDone s.jeb.fltSeq s.jeb.tim.ns)) ∧
      (∀ f, (s.jeb.check s.freeNat x).1 = .fault f → s.jeb.fltFull = true → Completes (.transfer x) s fun t =>
        (t.engine x.engine).queue = [.parked id x true boundary] ∧ t.outputs = s.outputs ∧ t.jeb.mem = s.jeb.mem) ∧
      (∀ specs fmode lmap, (s.jeb.check s.freeNat x).1 = .pass specs fmode lmap → Completes (.transfer x) s fun t =>
        (t.engine x.engine).queue = [.xfer ⟨id, x, fmode, specs, lmap, none, false, false, boundary, 0, none⟩] ∧
        t.outputs = s.outputs ∧ t.jeb.mem = s.jeb.mem ∧ t.jeb.reqs = s.jeb.reqs))

/-- R138, R141, R144, R145, R147, R164, R173: a FENCE of an idle engine completes at once; one of an unknown kind, or with ORD, completes
0x54, and on a stopped block TEARDOWN; the counter that it names as COMP advances whatever its code. While nothing waits for it,
JEB_FLT_RESUME only ends the hold of its task, and JEB_FLT_HEAD moves the head, and ends the event output where it empties the ring; a
record that waited for space is written once the head has moved, with the generation and the time of its check. The model's choices: the
event output stays set exactly until the ring is empty (log entry 42, DEDUCED: R145 only raises it), and a FENCE on a stopped block
completes TEARDOWN (log entry 45). -/
def Obligations.FencesAndFaultRing : Prop :=
  (∀ (s : State) (f : FenceReq), f.engine.toNat < 0xFE → s.idleEngine f.engine → Completes (.fence f) s fun t =>
    let told : Output :=
      .done f.engine s.jeb.nextXfer (if s.jeb.stopped then stTeardown else if 3 ≤ f.kind.toNat ∨ f.ord ≠ 0 then 0x54 else 0) 0
    (s.outputs ++ [told]) <+: t.outputs ∧ (f.comp = none → t.outputs = s.outputs ++ [told] ∧ t.jeb.sig = s.jeb.sig) ∧
    (∀ c, f.comp = some c → ∀ k, Tab.get 0 t.jeb.sig k = Tab.get 0 s.jeb.sig k + (if k = c.toNat then 1 else 0)) ∧
    (t.engine f.engine).queue = [] ∧ t.jeb.mem = s.jeb.mem ∧ t.jeb.reqs = s.jeb.reqs) ∧
  (∀ (s : State), (∀ k, ∀ i ∈ (s.engine k).queue, ∀ id x b c, i ≠ .parked id x b c) →
    (s.jeb.fltWait = [] → ∀ task, exec (.jebFltResume task) s =
      .next { s with jeb := { s.jeb with faulted := s.jeb.faulted.filter fun t => decide (t ≠ task) } }) ∧
    (s.jeb.fltWait = [] → ∀ v, Completes (.jebFltHead v) s fun t =>
      t.jeb.fltHead.toNat = fld v 0 16 ∧ t = { s with jeb := { s.jeb with fltHead := t.jeb.fltHead, event := t.jeb.event } } ∧
      (t.jeb.event = true ↔ s.jeb.event = true ∧ fld v 0 16 % ringSize s.jeb.fltSize ≠ s.jeb.fltTail.toNat % ringSize s.jeb.fltSize)) ∧
    (∀ f b v, s.jeb.fltWait = [(f, b)] → (s.jeb.fltTail.toNat + 1) % ringSize s.jeb.fltSize ≠ fld v 0 16 % ringSize s.jeb.fltSize →
      Completes (.jebFltHead v) s fun t => t.jeb.fltWait = [] ∧ t.jeb.event = true ∧ t.jeb.fltSeq = s.jeb.fltSeq + 1 ∧
        readShingle t.jeb.store (s.jeb.fltBase.toNat / 32 + s.jeb.fltTail.toNat % ringSize s.jeb.fltSize) =
          encodeShingle (faultRecord f b b.gen s.jeb.fltSeq b.ns)))

/-- R146, R171, R173: the first part of an engine that may be issued goes out on its link as the frames of its request, which stands on the
tracker from then on; memory and every other port stay, but for what a fence that is now met sets free. A broken release is not issued, and
completes 0x53. -/
def Obligations.RequestsIssued : Prop :=
  ∀ (s : State) (e : Byte), s.jeb.stopped = false →
    (∀ x p path q, s.nextIssue e = some (x, some (p, path)) → path.link = some q →
      (x.t.op = .batten → x.serial.isSome = true ∨ bitAt (s.rport q).train.features featBatten = true) →
      let tag := (x.serial.map Prod.fst).getD (s.jeb.freeTag e)
      let frames := (s.jeb.framesOf x p path.course (bitAt (s.rport q).train.features featWiden) tag).1
      frames ≠ [] → ∃ u : State, exec (.transferIssue e) s = .next (u.settleAll e) ∧
        (u.rport q).txq = (s.rport q).txq ++ frames ∧
        (∃ r, u.jeb.reqs = s.jeb.reqs ++ [r] ∧ some r.hdr = frames.head?.map (fun f => f.hdr) ∧ r.link = some q ∧ r.spec = p ∧ r.xfer = x.id) ∧
        u.jeb.mem = s.jeb.mem ∧ u = { s with jeb := u.jeb } ∧ (∀ l, l ≠ .rafter q → u.port l = s.port l) ∧
        ((∀ i ∈ (s.engine e).queue, ∀ id f b, i ≠ .fence id f b) → (∀ r ∈ s.jeb.reqs, r.held = []) → s.wholeXfer e = none → u.settleAll e = u)) ∧
    (∀ x, s.nextIssue e = some (x, none) → Completes (.transferIssue e) s fun t =>
      (s.outputs ++ [.done e x.id 0x53 x.value]) <+: t.outputs ∧ t.jeb.reqs.length ≤ s.jeb.reqs.length ∧ t.eav = s.eav ∧ t.ports = s.ports)

/-- R118, R119, R147, R150, R166: the response to the only request of a transfer that is wholly issued ends the transfer. Its code is the
response's status, POISONED where data that came with OK cannot be restored, else OK; a read's data lands in accelerator memory, and an
ATOMIC's value goes to the engine. A response that matches no request is discarded and counted in UNMATCHED. Outside the block only its
syndromes are counted (R56). -/
def Obligations.ResponsesComplete : Prop :=
  ∀ (s : State) (q : Fin 18) (f : Frame), isResponse f.hdr = true →
    f.hdr.course ≠ 6 → formOk f.hdr (s.rport q).train.features true = true → s.jeb.tagged = true → f.hdr.bayTag = s.jeb.tag →
    (s.matchReq f.hdr = none → s.jeb.reports = [] → Completes (.responseArrival (.rafter q) f) s fun t =>
      t.jeb.err0 = satFld s.jeb.err0 0 16 1 ∧ t.jeb.mem = s.jeb.mem ∧ t.jeb.engines = s.jeb.engines ∧
      t = { s.countFlash (.rafter q) (frameSyndromes f) with jeb := t.jeb }) ∧
    (∀ (r : Req) (x : Xfer), s.jeb.reqs = [r] → r.hdr.srcEngine = f.hdr.srcEngine → r.hdr.tag = f.hdr.tag → r.link.isSome = true →
      r.held = [] → (s.engine r.hdr.srcEngine).queue = [.xfer x] → x.id = r.xfer → x.toIssue = [] → x.issued = true → x.failed = none →
      x.t.comp = none → endsRequest f = true → s.jeb.stopped = false → Completes (.responseArrival (.rafter q) f) s fun t =>
        t.jeb.reqs = [] ∧ (t.engine r.hdr.srcEngine).queue = [] ∧
        t = { s.countFlash (.rafter q) (frameSyndromes f) with jeb := t.jeb, outputs := t.outputs } ∧
        (f.hdr.status ≠ stOk → t.jeb.mem = s.jeb.mem ∧ t.outputs = s.outputs ++ [.done r.hdr.srcEngine x.id f.hdr.status x.value]) ∧
        (f.hdr.status = stOk → x.t.op ∈ [.store, .put, .fadd] → t.jeb.mem = s.jeb.mem ∧
          t.outputs = s.outputs ++ [.done r.hdr.srcEngine x.id stOk x.value]) ∧
        (∀ w, f.hdr.status = stOk → x.t.op = .atomic → (decodeData f).headD none = some w → t.jeb.mem = s.jeb.mem ∧
          t.outputs = s.outputs ++ [.done r.hdr.srcEngine x.id stOk (BitVec.ofNat 64 (fld w 0 64))]) ∧
        (f.hdr.status = stOk → remoteRead x.t.op = true → f.hdr.opcode ≠ opGetData → r.widen = none →
          let land := landData s.jeb.store x.lmap r.spec.lva (f.data.zipIdx.map fun p => (p.1, poisoned f.hdr p.2))
          t.jeb.mem = land.1.mem ∧
          t.outputs = s.outputs ++ [.done r.hdr.srcEngine x.id (if land.2 then stPoisoned else stOk) x.value]))

/-- R137 to R140, R154, R159: the invalidation ring performs the entry at its head, and looks at the next. A new tail, and a COPY, read the
host, with T = 1 while the state is RUN; whether an entry may be used is judged when it is read. COPY fills pool pages from the host copy;
the invalidations drop the cached translations that they name, and of the send descriptors disarm, with STALE set, exactly those that are
armed and pinned to what they name; GEN waits for the page checks, with DRAIN also for the requests, that began before it, and ends with
GEN_DONE; a read of the host that failed stops the ring with code 3 until JEB_GEN.ERR is cleared. Nothing else changes, these host reads
apart, and an entry that is not in turn is not performed. The model's choices: an invalidation's disarm drops the descriptor's queued sends
too (log entry 44, DEDUCED: R154 says only that it disarms and sets STALE), and a COPY or INVAL_VA outside the range of R137 is carried out
as it reads (log entry 115). -/
def Obligations.InvalidationRing : Prop :=
  (∀ (s : State) (v : W32) (l : List HostRead), Completes (.jebInvTail v l) s fun t =>
    let reads := s.jeb.newEntries (BitVec.ofNat 16 (fld v 0 16))
    t.jeb.invTail.toNat = fld v 0 16 ∧ t.jeb.fetched = s.jeb.fetched ++ (l.take reads.length).map s.jeb.judged ∧
    (t.jeb.genErr, t.jeb.genCode) = (match t.jeb.fetched.head?.bind s.jeb.ringFault with
      | some c => if s.jeb.genErr = false ∧ s.jeb.genWait = none then (true, c) else (s.jeb.genErr, s.jeb.genCode)
      | none => (s.jeb.genErr, s.jeb.genCode)) ∧
    t.outputs = s.outputs ++ (reads.map fun i => .hostRead (s.jeb.invBase + BitVec.ofNat 64 (64 * i)) 64 (decide (s.jeb.tdisp = 2))) ∧
    t = { s with jeb := { s.jeb with invTail := t.jeb.invTail, fetched := t.jeb.fetched, genErr := t.jeb.genErr, genCode := t.jeb.genCode }
                 outputs := t.outputs }) ∧
  (∀ (s : State) (r data : HostRead), s.jeb.ringTurn 1 = some r → Completes (.copy data) s fun t =>
    t.outputs = s.outputs ++
      [.hostRead (s.jeb.poolHost + BitVec.ofNat 64 (4096 * ringUnit r)) (4096 * ringArg r) (decide (s.jeb.tdisp = 2))] ∧
    (s.jeb.hostOk data = false → t = { s with jeb := { s.jeb with genErr := true, genCode := 3 }, outputs := t.outputs }) ∧
    (s.jeb.hostOk data = true →
      let first := (s.jeb.poolMirror.toNat / 4096 * 4096 + 4096 * ringUnit r) / 32
      (∀ k, k < 128 * ringArg r → readShingle t.jeb.store (first + k) = copyShingle data k) ∧
      MemKept s.jeb.mem t.jeb.mem first (128 * ringArg r) ∧ RingMoved s.jeb t.jeb ∧
      t = { s with jeb := { s.jeb with mem := t.jeb.mem, invHead := t.jeb.invHead, fetched := t.jeb.fetched, genErr := t.jeb.genErr
                                       genCode := t.jeb.genCode }
                   outputs := t.outputs })) ∧
  (∀ (s : State) (c : Instr × Nat) (r : HostRead), c ∈ [(Instr.invalVa, 2), (.invalCtx, 3), (.invalAll, 4)] →
    s.jeb.ringTurn c.2 = some r → Completes c.1 s fun t =>
      let named := fun (ctx : BitVec 6) (g n : Nat) => decide (c.2 = 4 ∨ (ctx = ringCtx r ∧
        (c.2 = 3 ∨ granulesMeet g n (ringGranule r) (ringGranules r) = true)))
      t.jeb.cache = s.jeb.cache.filter (fun e => !named e.ctx (e.page * (leafBytes e.level / 65536)) (leafBytes e.level / 65536)) ∧
      (∀ n, t.desc n =
        let d := s.desc n
        if d.armed = true ∧ (∃ p ∈ d.pins, named (BitVec.ofNat 6 (fld d.ctl 39 6)) p.1 1 = true) then
          { d with ctl := setBit (setBit d.ctl 46 false) 47 true, queued := 0, pins := [] }
        else d) ∧ RingMoved s.jeb t.jeb ∧
      t = { s with jeb := { s.jeb with cache := t.jeb.cache, sends := t.jeb.sends, invHead := t.jeb.invHead, fetched := t.jeb.fetched
                                       genErr := t.jeb.genErr, genCode := t.jeb.genCode } }) ∧
  (∀ (s : State) (r : HostRead), s.jeb.ringTurn 5 = some r → Completes .gen s fun t =>
    t = { s with jeb := { s.jeb with genWait := t.jeb.genWait } } ∧
    ∃ w, t.jeb.genWait = some w ∧ w.gen.toNat = ringArg r ∧ w.drain = ringDrain r ∧ w.xfers = s.jeb.openChecks ∧
      w.tags = (if ringDrain r then s.jeb.reqs.map fun q => (q.hdr.srcEngine, q.hdr.tag) else []) ∧
      (w.descs = 0 ↔ ∀ p ∈ s.jeb.fltWait, p.2.cls ≠ 7)) ∧
  (∀ (s : State) (w : GenWait), s.jeb.genWait = some w → (∀ i ∈ w.xfers, i ∉ s.jeb.openChecks) → w.tags = [] → w.descs = 0 →
    (w.drain = true → ∀ r ∈ s.jeb.reqs, r.xfer ∉ w.xfers) → s.jeb.genErr = false → Completes .genComplete s fun t =>
      t.jeb.genDone = w.gen ∧ RingMoved s.jeb t.jeb ∧
      t = { s with jeb := { s.jeb with genDone := w.gen, genWait := none, invHead := t.jeb.invHead, fetched := t.jeb.fetched
                                       genErr := t.jeb.genErr, genCode := t.jeb.genCode } }) ∧
  (∀ s : State, s.jeb.genErr = true → Completes .jebGenErr s fun t =>
    RingMoved s.jeb t.jeb ∧
    t = { s with jeb := { s.jeb with genWait := none, invHead := t.jeb.invHead, fetched := t.jeb.fetched, genErr := t.jeb.genErr
                                     genCode := t.jeb.genCode } }) ∧
  (∀ (s : State) (c : Instr × Nat), (∃ data, c = (.copy data, 1)) ∨ c ∈ [(Instr.invalVa, 2), (.invalCtx, 3), (.invalAll, 4), (.gen, 5)] →
    s.jeb.ringTurn c.2 = none → exec c.1 s = .next s)

/-- R92 to R94, R148: JEB_EPOCH_AT arms a later beat while SYNC is set, and refuses the rest with REJECT; local-side writes are ignored. At
the beat the shadow map and seed become the active ones; a bucket that moved while a request issued before has not had its response stays
closed, and counts at source 9 after 1,024 beats and is fatal with code 8 after 16,384. That its moved-bucket events reach the model's
module is a choice (log entry 21). -/
def Obligations.JalemEpochs : Prop :=
  (∀ (s : State) (v : W64) (m : BitVec 4), exec (.jebEpochAt .localSide v) s = .next s ∧
    (s.jeb.epochArm = false → s.jeb.tim.sync = true → s.jeb.tim.beat < fld v 0 54 → Completes (.jebEpochAt (.fabricSide m) v) s fun t =>
      t.jeb.epochBeat.toNat = fld v 0 54 ∧ t.jeb.epochArm = bitAt v 63 ∧
      t = { s with jeb := { s.jeb with epochBeat := t.jeb.epochBeat, epochArm := t.jeb.epochArm } }) ∧
    (s.jeb.epochArm = true ∨ (bitAt v 63 = true ∧ (fld v 0 54 ≤ s.jeb.tim.beat ∨ s.jeb.tim.sync = false)) →
      exec (.jebEpochAt (.fabricSide m) v) s = .next { s with jeb := { s.jeb with epochReject := true } })) ∧
  (∀ (s : State) (b : W64), s.jeb.epochArm = true → s.jeb.epochBeat.toNat ≤ b.toNat → s.jeb.tim.refclkOk = true →
    s.jeb.tim.fifths < 5120 * b.toNat → s.jeb.moved = [] → (∀ r ∈ s.jeb.reqs, r.epoch ≤ s.jeb.epochs) →
    Completes (.jebRouteEpoch b) s fun t =>
      t.jeb.spreadMap = s.jeb.shadowMap ∧ t.jeb.spreadSeed = s.jeb.shadowSeed ∧ t.jeb.epochArm = false ∧ t.jeb.epochAt = b.toNat ∧
      (∀ h : BitVec 6, h ∈ t.jeb.moved ↔ mapEntry s.jeb.spreadMap h.toNat ≠ mapEntry s.jeb.shadowMap h.toNat ∧
        ∃ r ∈ s.jeb.reqs, r.bucket = some h ∧ ∀ f ∈ r.held, endsRequest f = false) ∧
      (t.jeb.moved = [] → t.jeb.epochDone = true) ∧ t.jeb.reqs = s.jeb.reqs ∧ t.gut = s.gut) ∧
  (∀ (s : State) (b : W64), s.jeb.moved ≠ [] →
    (b.toNat = s.jeb.epochAt + 1024 → Completes (.movedBucketUndrained b) s fun t =>
      Counted s t 9 s.jeb.moved.length ∧ t.jeb.moved = s.jeb.moved ∧ t.sec = s.sec) ∧
    (b.toNat = s.jeb.epochAt + 16384 → s.admitted = true → s.gut.phase = .none → Completes (.movedBucketFatal b) s fun t =>
      TornDown t 8 ∧ t.jeb.moved = s.jeb.moved ∧ t.eav = s.eav))

/-- R151, R152, R372: a SEG or SIGNAL on another course than 6 that passes the block's checks lands its shingles (a SIGNAL none) and
advances its counter, and only that one (SEG only with SIG); one that fails a check is discarded and counted in POSTED_REFUSED. Neither is
answered, and nothing outside the block changes but that waits on the counter may end, and that its syndromes are counted (R56). -/
def Obligations.PostedFrames : Prop :=
  ∀ (s : State) (p : PortRef) (f : Frame), portDev p = .jalem → f.hdr.course ≠ 6 →
    let c := counterOf f.hdr
    (f.hdr.opcode = opSeg → Completes (.seg p f) s fun t =>
      (s.postedAt p f.hdr (fpaOffset f.hdr.fpa) (accessBytes f.hdr) = none →
        t.jeb.mem = s.jeb.mem ∧ t.jeb.sig = s.jeb.sig ∧ t.jeb.err0 = satFld s.jeb.err0 16 16 1) ∧
      (∀ a, s.postedAt p f.hdr (fpaOffset f.hdr.fpa) (accessBytes f.hdr) = some a →
        t.jeb.mem = (landSeg s.jeb.store a f).mem ∧ MemKept s.jeb.mem t.jeb.mem (a / 32) f.data.length ∧
        ∀ k, Tab.get 0 t.jeb.sig k = Tab.get 0 s.jeb.sig k + (if k = c ∧ bitAt f.hdr.attr 7 = true then 1 else 0)) ∧
      (t.port p).txq = (s.port p).txq ∧ t = { s.countFlash p (frameSyndromes f) with jeb := t.jeb, outputs := t.outputs }) ∧
    (f.hdr.opcode = opSignal → Completes (.signal p f) s fun t =>
      (s.postedAt p f.hdr (fpaOffset f.hdr.fpa / 32 * 32) 32 = none → t.jeb.sig = s.jeb.sig ∧ t.jeb.err0 = satFld s.jeb.err0 16 16 1) ∧
      (∀ a, s.postedAt p f.hdr (fpaOffset f.hdr.fpa / 32 * 32) 32 = some a →
        ∀ k, Tab.get 0 t.jeb.sig k = Tab.get 0 s.jeb.sig k + (if k = c then 1 else 0)) ∧
      t.jeb.mem = s.jeb.mem ∧ (t.port p).txq = (s.port p).txq ∧ t = { s.countFlash p (frameSyndromes f) with jeb := t.jeb, outputs := t.outputs })

/-- R154, R178, R235: a write with ARMED = 1 whose tile passes its check arms the descriptor with its pages pinned, a page fault leaves it
disarmed with a fault record, and ARMED = 0 disarms (that a disarm drops the sends that were queued is the model's choice, log entry 44,
DEDUCED: R154 does not say); a GO queues a send, counts an overrun at 255, or is a fault of a descriptor that is not armed; a send puts the
tile's SEG frames on its link, and leaves the descriptor armed only with REPEAT. Other descriptors stay. -/
def Obligations.SendDescriptors : Prop :=
  ∀ (s : State) (n : BitVec 10),
    let d := s.desc n.toNat
    (∀ v : W64,
      let d' : SendDesc := { d with ctl := accessWrite sendCtlMask 0 d.ctl v }
      (bitAt v 46 = false → Completes (.sendArm n v) s fun t =>
        t.desc n.toNat = disarm d' ∧ (∀ m, m ≠ n.toNat → t.desc m = s.desc m) ∧ t = { s with jeb := { s.jeb with sends := t.jeb.sends } }) ∧
      (bitAt v 46 = true → d'.port ≠ none → 0 < d'.shingles → d'.shingles ≤ 8192 →
        (∀ pins, (s.jeb.checkTile s.freeNat d').1 = .ok pins → Completes (.sendArm n v) s fun t =>
          (t.desc n.toNat).armed = true ∧ (t.desc n.toNat).pins = pins ∧ bitAt (t.desc n.toNat).ctl 47 = false ∧
          (∀ m, m ≠ n.toNat → t.desc m = s.desc m) ∧ t.jeb.mem = s.jeb.mem) ∧
        (∀ f, (s.jeb.checkTile s.freeNat d').1 = .error f → s.jeb.fltFull = false → s.jeb.fltWait = [] → Completes (.sendArm n v) s fun t =>
          (t.desc n.toNat).armed = false ∧ t.jeb.event = true ∧ t.jeb.fltSeq = s.jeb.fltSeq + 1 ∧
          (∀ m, m ≠ n.toNat → t.desc m = s.desc m)))) ∧
    (d.armed = true → d.queued ≠ 255 → Completes (.sendGo n) s fun t =>
      t.desc n.toNat = { d with queued := d.queued + 1 } ∧ (∀ m, m ≠ n.toNat → t.desc m = s.desc m) ∧
      t = { s with jeb := { s.jeb with sends := t.jeb.sends } }) ∧
    (d.armed = true → d.queued = 255 → exec (.sendGo n) s = .next { s with jeb := { s.jeb with err0 := satFld s.jeb.err0 32 16 1 } }) ∧
    (d.armed = false → s.jeb.fltFull = false → s.jeb.fltWait = [] → Completes (.sendGo n) s fun t =>
      t.jeb.event = true ∧ t.jeb.fltSeq = s.jeb.fltSeq + 1 ∧ t.jeb.sends = s.jeb.sends ∧
      fld (Shingle.dataBits (readShingle t.jeb.store (s.jeb.fltBase.toNat / 32 + s.jeb.fltTail.toNat % ringSize s.jeb.fltSize))) 94 4 =
        (if bitAt d.ctl 47 then causeStaleDesc else causeDescNotArmed)) ∧
    (∀ p, d.port = some p → d.armed = true → d.queued ≠ 0 → s.jeb.stopped = false → s.linkReady p = true →
      bitAt (s.port p).train.features featTileSig = true → Completes (.send n) s fun t =>
        (t.port p).txq = (s.port p).txq ++ s.tileFrames p d ∧ t.desc n.toNat = d.after ∧ (∀ m, m ≠ n.toNat → t.desc m = s.desc m) ∧
        (∀ k, Tab.get 0 t.jeb.sig k = Tab.get 0 s.jeb.sig k + (if k = d.comp ∧ d.compEn = true then 1 else 0)) ∧
        t.jeb.mem = s.jeb.mem ∧ t.eav = s.eav)

/-- R156, R158, R160, R295, R299: a STOP from the module ends the block's issue: a transfer that waits completes TEARDOWN, descriptors are
disarmed, ARM clears, and the STOP is acknowledged once no request is outstanding; RESUME on the last ACTIVE rafter link is acknowledged at
once and ends STOPPED. TDISP in ERROR stops the block too, and sends the report on the lowest ACTIVE rafter link, once no request is
outstanding. -/
def Obligations.JalemStops : Prop :=
  (∀ (s : State) (q : Fin 18) (f : Frame), f.hdr.opcode = opTeardown → teardownAction f.hdr = 0 →
    s.jebControl (.rafter q) f.hdr = none → s.jeb.stopped = false →
    (∀ e, (s.engine e).queue = []) → (∀ r ∈ s.jeb.reqs, r.held = []) → s.jeb.reportDue = false → Completes (.jebTeardown (.rafter q) f) s fun t =>
      t.jeb.stopped = true ∧ t.jeb.epochArm = false ∧ t.jeb.shadowMap = s.jeb.spreadMap ∧ t.jeb.mem = s.jeb.mem ∧ t.jeb.reqs = s.jeb.reqs ∧
      (∀ n, (t.desc n).armed = false) ∧ t.eav = s.eav ∧ t.gut = (s.countFlash (.rafter q) (frameSyndromes f)).gut ∧
      (s.jeb.reqs ≠ [] → (t.rport q).txq = (s.rport q).txq ∧ t.jeb.stopDone = false) ∧
      (s.jeb.reqs = [] → s.jeb.stopAcks = [] → (t.rport q).txq = (s.rport q).txq ++ [ackFrame f.hdr] ∧ t.jeb.stopDone = true)) ∧
  (∀ (s : State) (q : Fin 18) (f : Frame) (e : Byte) (id bound : Nat) (x : Transfer), f.hdr.opcode = opTeardown → teardownAction f.hdr = 0 →
    s.jebControl (.rafter q) f.hdr = none → s.jeb.stopped = false → s.jeb.reqs = [] →
    s.jeb.engines = [(e.toNat, ⟨[.parked id x false false], false, bound⟩)] → Completes (.jebTeardown (.rafter q) f) s fun t =>
      (s.outputs ++ [.done e id stTeardown 0]) <+: t.outputs ∧ (t.engine e).queue = []) ∧
  (∀ (s : State) (q : Fin 18) (f : Frame), f.hdr.opcode = opTeardown → teardownAction f.hdr = 1 →
    s.jebControl (.rafter q) f.hdr = none → s.jeb.stopped = true → s.jeb.stopDone = true →
    (∀ l, (s.rport l).train.state = .active → l = q ∨ l ∈ s.jeb.resumed) → Completes (.teardownResume (.rafter q) f) s fun t =>
      t.jeb.stopped = false ∧ t.jeb.stopDone = false ∧ (t.rport q).txq = (s.rport q).txq ++ [ackFrame f.hdr] ∧
      t.jeb.mem = s.jeb.mem ∧ t = { s.countFlash (.rafter q) (frameSyndromes f) with jeb := t.jeb }) ∧
  (∀ s : State, s.jeb.tdisp ≠ 3 → s.jeb.stopped = false → (∀ r ∈ s.jeb.reqs, r.held = []) → Completes .tdispError s fun t =>
    t.jeb.tdisp = 3 ∧ t.jeb.stopped = true ∧ t.eav = s.eav ∧ t.gut = s.gut ∧ (s.jeb.reqs ≠ [] → t.jeb.reportDue = true) ∧
    ∀ q, s.jeb.reqs = [] → ((List.finRange 18).find? fun q => decide ((s.rport q).train.state = .active)) = some q →
      ∃ g, g ∈ (t.rport q).txq ∧ g.hdr.opcode = opCtrlWr ∧ fpaOffset g.hdr.fpa = 0x00700600 ∧ g.data = [encodeShingle 1]) ∧
  (∀ (s : State) (st : BitVec 2) (b : Bool), st ≠ 3 → exec (.tdispStateChange st b) s =
    .next { s with jeb := { s.jeb with tdisp := st, ideOk := b } })

/-- R155, R157, R265 to R273: keys at the Jalem block, by any of its links. A KEY frame on another course than 6 that fails its checks is
refused with the code of its check. INSTALL stores the unwrapped key and takes tag and rack; ACTIVATE is acknowledged by a frame that is to
announce the block's own G′ as it goes, and expects the sender's groups from G; RETIRE is acknowledged; DESTROY clears what the bay left,
but for accelerator memory; an ACTIVATE on the tray that was not answered is sent again; the block's reset clears all but accelerator
memory. A module accepts no INSTALL or DESTROY, and ACTIVATE and RETIRE from a hip partner only. That PENDING of JEB_ZEROIZE stands after
DESTROY until the next command, that a reset ends it with DONE, and how the counts of a link restart, are the model's reading (log entries
45 and 35). The model's choices: JEB_KEY_STATUS.ACTIVE names the slot from the acceptance of ACTIVATE on (log entry 116), and a wait of a
matrix engine outlives the block's reset (log entry 89). -/
def Obligations.KeysAtJalem : Prop :=
  (∀ (s : State) (p : PortRef) (f : Frame), portDev p = .jalem → f.hdr.opcode = opKey →
    (∀ (a : Nat) (i : Instr) (c : Byte), (a, i) ∈ [(1, Instr.keyInstall p f), (2, .keyActivate p f), (3, .keyRetire p f), (4, .keyDestroy p f)] →
      keyAction f.hdr = a → f.hdr.course ≠ 6 → s.jebKeyCheck p f.hdr = some c → Completes i s fun t =>
        (t.port p).txq = (s.port p).txq ++ [errorFrame f.hdr c] ∧ t.jeb.keys = s.jeb.keys ∧ t.jeb.tagged = s.jeb.tagged ∧
        t.jeb.err1 = satFld s.jeb.err1 16 16 1 ∧ t = { s.countFlash p (frameSyndromes f) with jeb := t.jeb }) ∧
    (s.jebKeyCheck p f.hdr = none →
      (∀ data key, keyAction f.hdr = 1 → (s.jeb.tagged = true → keyTagOf f.hdr = s.jeb.tag ∧ keyRack f.hdr = s.jeb.rack) →
        controlData f = .ok data → installKey s.jeb.transport data = some key → Completes (.keyInstall p f) s fun t =>
          Tab.get none t.jeb.keys (keySlot f.hdr).toNat = some { key := key, gen := keyGen f.hdr } ∧
          t.jeb.tagged = true ∧ t.jeb.tag = keyTagOf f.hdr ∧ t.jeb.rack = keyRack f.hdr ∧
          (t.port p).txq = (s.port p).txq ++ [ackFrame f.hdr] ∧ t.jeb.mem = s.jeb.mem ∧ t.sec = s.sec) ∧
      (∀ data k, keyAction f.hdr = 2 → s.portKey p (keySlot f.hdr) = some k → controlData f = .ok data → Completes (.keyActivate p f) s fun t =>
        (t.port p).txq = (s.port p).txq ++ [ackFrame f.hdr] ∧
        (t.port p).sealing.due = (s.port p).sealing.due ++ [⟨keySlot f.hdr, true, f.hdr.srcEngine, f.hdr.tag⟩] ∧
        ((s.port p).sealing.rxOn = false → (s.port p).sealing.rxFirst = none →
          (t.port p).sealing.rxFirst = some (BitVec.ofNat 64 (fld (data.headD 0) 0 64))) ∧
        t.jeb.activeKey = keySlot f.hdr ∧ t.jeb.keys = s.jeb.keys ∧ t.jeb.mem = s.jeb.mem) ∧
      (keyAction f.hdr = 3 → Completes (.keyRetire p f) s fun t =>
        (t.port p).txq = (s.port p).txq ++ [ackFrame f.hdr] ∧ t.jeb.mem = s.jeb.mem ∧ t.jeb.tag = s.jeb.tag ∧ t.sec = s.sec) ∧
      (keyAction f.hdr = 4 → Completes (.keyDestroy p f) s fun t =>
        (t.port p).txq = (s.port p).txq ++ [ackFrame f.hdr] ∧ t.jeb.keys = [] ∧ t.jeb.tagged = false ∧ t.jeb.sig = [] ∧ t.jeb.wins = [] ∧
        t.jeb.sends = [] ∧ t.jeb.cache = [] ∧ (t.port p).sealing.txOn = false ∧ (t.port p).sealing.rxOn = false ∧
        t.jeb.zPending = true ∧ t.jeb.zDone = false ∧ t.jeb.mem = s.jeb.mem ∧ t.sec = s.sec))) ∧
  (∀ (s u : State) (n : Fin 144) (f : Frame) (a : Nat) (i : Instr), f.hdr.opcode = opKey → s.agentTake agSoffit n f = .ok u →
    (a, i) ∈ [(1, Instr.keyInstall (.module n) f), (2, .keyActivate (.module n) f), (3, .keyRetire (.module n) f), (4, .keyDestroy (.module n) f)] →
      keyAction f.hdr = a → (a = 2 ∨ a = 3 → u.hipPartner n f.hdr = false) → exec i s = .next (u.answer n (errorFrame f.hdr stNoRight))) ∧
  (∀ (s : State) (slot : BitVec 2), s.jeb.retryAct = some slot → (s.port (.tray 0)).train.state = .active →
    Completes (.activateRetry slot) s fun t =>
      ∃ g, (t.port (.tray 0)).txq = (s.port (.tray 0)).txq ++ [g] ∧ g.hdr.opcode = opKey ∧ keyAction g.hdr = 2 ∧ keySlot g.hdr = slot ∧
        t.jeb.mem = s.jeb.mem ∧ t.sec = s.sec) ∧
  (∀ s : State, Completes .jebReset s fun t =>
    t.jeb.mem = s.jeb.mem ∧ t.jeb.keys = [] ∧ t.jeb.tagged = false ∧ t.jeb.reqs = [] ∧ t.jeb.engines = [] ∧ t.jeb.wins = [] ∧
    t.jeb.sends = [] ∧ t.jeb.zDone = s.jeb.zPending ∧ t.jeb.zPending = false ∧ t.jeb.ports = [] ∧
    t.jeb.waits = s.jeb.waits.filter (fun w => !waitOver 0 w.2) ∧ t.ports = s.ports ∧ t.sec = s.sec ∧ t.eav = s.eav)

/-- R150, R161, R342: a CTRL_WR or CTRL_RD of a module to a Jalem block performs its words in ascending order and is answered on its own
link; one on another course than 6 that fails a check of form or extent is refused with its code and performs none. That a CTRL_WR to a
register of the local side is acknowledged and ignored is the model's reading (log entry 31). R120, R342, R344: a control access that Soffit
takes in its turn is answered on the port it came by: HOME_FAULT while Thatch does not run, NO_RIGHT to a requester that is not the fabric
manager (a report of a Jalem block apart) or that names a register it may not write, else with what the words read, or an ACK once the words
are written, under the request's own name in what they report (R289). One that the ingress checks or the frames before it keep from Soffit
is not performed: that such a command routes its frame first, and takes it only at the head of Soffit's queue, is the model's reading (log
entry 43). -/
def Obligations.ControlAccesses : Prop :=
  (∀ (s : State) (p : PortRef) (f : Frame), portDev p = .jalem →
    ∀ i ∈ [Instr.ctrlWr .jalem p f, .ctrlRd .jalem p f], (i = .ctrlWr .jalem p f → f.hdr.opcode = opCtrlWr) →
      (i = .ctrlRd .jalem p f → f.hdr.opcode = opCtrlRd) →
      let u := s.jebTake p f
      let who : Requester := .fabricSide (f.hdr.srcNode.truncate 4)
      (∀ c, f.hdr.course ≠ 6 → (s.jebForm p f.hdr = some c ∨
          (s.jebForm p f.hdr = none ∧ 0x80 ≤ f.hdr.srcNode.toNat ∧ f.hdr.srcNode.toNat ≤ 0x8F ∧ ctrlExtent f.hdr = some c ∧ c ≠ stOk)) →
        Completes i s fun t => (t.port p).txq = (s.port p).txq ++ [errorFrame f.hdr c] ∧ t.jeb.err1 = satFld s.jeb.err1 16 16 1 ∧
          t.jeb.mem = s.jeb.mem ∧ t = { s.countFlash p (frameSyndromes f) with jeb := t.jeb }) ∧
      (s.jebForm p f.hdr = none → 0x80 ≤ f.hdr.srcNode.toNat → f.hdr.srcNode.toNat ≤ 0x8F → ctrlExtent f.hdr = none →
        (i = .ctrlRd .jalem p f → exec i s = .next ((u.readWords who .jalem (ctrlAddrs f.hdr)).2.jebSend p
          (ctrlDataFrame f.hdr (u.readWords who .jalem (ctrlAddrs f.hdr)).1))) ∧
        (∀ data, i = .ctrlWr .jalem p f → f.hdr.len ≠ 0 → controlData f = .ok data →
          exec i s = .next ((u.writeWords who .jalem ((ctrlAddrs f.hdr).zip (ctrlWords data))).jebSend p (ackFrame f.hdr))))) ∧
  (∀ (s : State) (n : Fin 144) (f : Frame),
    ∀ i ∈ [Instr.ctrlWr .module (.module n) f, .ctrlRd .module (.module n) f], (i = .ctrlWr .module (.module n) f → f.hdr.opcode = opCtrlWr) →
      (i = .ctrlRd .module (.module n) f → f.hdr.opcode = opCtrlRd) →
      (∀ u, s.agentTake agSoffit n f = .error u → exec i s = .next u) ∧
      (∀ u, s.agentTake agSoffit n f = .ok u → u.isRelay f.hdr = false →
        (u.sof.thatchRun = false → exec i s = .next (u.answer n (errorFrame f.hdr stHomeFault))) ∧
        (u.sof.thatchRun = true → u.fromManager f.hdr = false → (0x80 ≤ f.hdr.srcNode.toNat ∨ u.isReport f.hdr = false) →
          exec i s = .next (u.answer n (errorFrame f.hdr stNoRight))) ∧
        (u.sof.thatchRun = true → u.fromManager f.hdr = true → ctrlExtent f.hdr = none →
          (i = .ctrlRd .module (.module n) f → exec i s = .next ((u.readWords .inBand .module (ctrlAddrs f.hdr)).2.answer n
            (ctrlDataFrame f.hdr (u.readWords .inBand .module (ctrlAddrs f.hdr)).1))) ∧
          (∀ data, i = .ctrlWr .module (.module n) f → f.hdr.len ≠ 0 → controlData f = .ok data →
            ((∃ a ∈ ctrlAddrs f.hdr, ∃ r, ctrlWordAt .module a = some r ∧ u.mayWrite .inBand .module r.1 = false) →
              exec i s = .next (u.answer n (errorFrame f.hdr stNoRight))) ∧
            ((∀ a ∈ ctrlAddrs f.hdr, ∀ r, ctrlWordAt .module a = some r → u.mayWrite .inBand .module r.1 = true) →
              exec i s = .next ((u.inRequest f.hdr fun v => v.writeWords .inBand .module ((ctrlAddrs f.hdr).zip (ctrlWords data))).answer n
                (ackFrame f.hdr)))))))

/-- R160, R291, R293, R343: a Jalem block's report that waits for Soffit tears the bay down with fatal fault 11, which names its node. A
request of the fabric manager to a Jalem block is issued again in Soffit's name on the port of its node, and its response goes back with the
request's own requester and tag. -/
def Obligations.ReportsAndRelays : Prop :=
  ∀ (s : State) (e : Entry), (s.queue (agentQueue agSoffit 4)).items = [e] →
    (∀ data, s.isReport e.frame.hdr = true → e.frame.hdr.srcNode.toNat < 0x80 → isResponse e.frame.hdr = false → s.sof.thatchRun = true →
      s.fromManager e.frame.hdr = false → e.frame.hdr.len ≠ 0 → controlData e.frame = .ok data → ctrlCount e.frame.hdr = 1 →
      (ctrlWords data).head? = some 1 → s.admitted = true → s.gut.phase = .none → Completes .gutJebReport s fun t =>
        TornDown t 11 ∧ fld t.gut.fatal 8 2 = 2 ∧ fld t.gut.fatal 10 8 = e.frame.hdr.srcNode.toNat ∧ t.eav = s.eav ∧ t.jeb = s.jeb) ∧
    (isResponse e.frame.hdr = false → s.isRelay e.frame.hdr = true → s.relayRefusal e.frame.hdr = none → Completes .relayRequest s fun t =>
      let n := fld (Tab.get 0 s.pur.lrt (fpaNode e.frame.hdr.fpa)) 0 8 % 144
      t.sof.relays = s.sof.relays ++ [{ tag := s.sof.sofTag, port := Fin.ofNat 144 n, hdr := e.frame.hdr }] ∧
      t.frames (portQueue n (vcOf e.frame.hdr)) = s.frames (portQueue n (vcOf e.frame.hdr)) ++ [s.relayed e.frame] ∧
      t.frames (agentQueue agSoffit 4) = [] ∧ t.gut = s.gut ∧ t.eav = s.eav ∧ t.jeb = s.jeb) ∧
    (∀ r, s.relayOf e.frame.hdr = some r → (restored e.frame r.hdr).hdr.status ≠ stPoisoned → Completes .relayResponse s fun t =>
      t.sof.relays = s.sof.relays.filter (fun q => decide (q.tag ≠ r.tag)) ∧ t.eav = s.eav ∧ t.jeb = s.jeb ∧
      ∀ m, s.dest (restored e.frame r.hdr).hdr = .port m → t.gut = s.gut ∧
        t.frames (portQueue m.val (vcOf e.frame.hdr)) = s.frames (portQueue m.val (vcOf e.frame.hdr)) ++ [restored e.frame r.hdr])

/-- R346, R356, R357: while the module serves more than Sarking alone does, a pattern starts only on a port in DISABLED, DOWN or HELD that
is no port of an admitted bay, and ends in DISABLED, or HELD where the port is fenced (the model's reading, log entry 67: R356 says
DISABLED). The generator sends its first frame where it may, and nothing while GEN_EN is 0. A TEST frame that the port's Spar engine takes
in its turn comes to the checker, and where it is not posted it is echoed with its data on the port it came by; an echo comes to the checker
and gives a round trip, while the checker is enabled, and nothing else. The Jalem block echoes a TEST frame that passes its checks in the
same way. -/
def Obligations.SparEngines : Prop :=
  ∀ (s : State) (n : Fin 144),
    (∀ (c : Instr) (m : Nat), (c, m) ∈ [(Instr.prbs31 n, 1), (.prbs13q n, 2)] →
      (s.mayPattern n = false → exec c s = .next s) ∧
      (s.mayPattern n = true → Completes c s fun t =>
        fld (t.mport n.val).spar.ctl 0 2 = m ∧ fld (t.mport n.val).spar.ctl 8 8 = 0xFF ∧
        t.port (.module n) = { s.port (.module n) with spar := (t.port (.module n)).spar } ∧ (∀ q, q ≠ .module n → t.port q = s.port q) ∧
        t = { s with ports := t.ports, fresh := t.fresh })) ∧
    (fld (s.mport n.val).spar.ctl 0 2 ≠ 0 → s.served = true → Completes (.patternOff n) s fun t =>
      fld (t.mport n.val).spar.ctl 0 2 = 0 ∧ (t.mport n.val).train.state = (if s.fenced n.val then .held else .disabled) ∧
      (∀ q, q ≠ .module n → t.port q = s.port q) ∧ t = { s with ports := t.ports }) ∧
    (s.mayGenerate n = true → s.served = true → bitAt (s.mport n.val).spar.ctl 2 = false → Completes (.genEn n) s fun t =>
      ∃ g, t.frames (portQueue n.val (vcOf g.hdr)) = s.frames (portQueue n.val (vcOf g.hdr)) ++ [g] ∧
        g.hdr.opcode.toNat = fld (s.mport n.val).spar.gen 0 8 ∧ g.hdr.course.toNat = fld (s.mport n.val).spar.gen 8 3 ∧
        fld g.hdr.aux 0 32 = 0 ∧ g.data.length = min (fld (s.mport n.val).spar.gen 11 4) 8 ∧ (t.mport n.val).spar.txNum = 1 ∧
        t.eav = s.eav ∧ t.gut = s.gut ∧ t.jeb = s.jeb) ∧
    (s.served = false → bitAt (s.mport n.val).spar.ctl 2 = false → exec (.genEn n) s = .next s) ∧
    (∀ f u, f.hdr.opcode = opTest → s.agentTake agSpar n f = .ok u →
      exec (.test (.module n) f) s = .next (if isPosted f.hdr then u.check n f else (u.check n f).answer n (echoFrame f))) ∧
    (∀ f u, f.hdr.opcode = opTestEcho → s.agentTake agSpar n f = .ok u → u.isActive n.val = true → bitAt (u.mport n.val).spar.ctl 3 = true →
      Completes (.testEcho (.module n) f) s fun t =>
        (t.mport n.val).spar = ((u.mport n.val).spar.take f).roundTrip (BitVec.ofNat 32 (fld f.hdr.aux 0 32)) u.ns ∧
        (∀ q, q ≠ .module n → t.port q = u.port q) ∧ t = { u with ports := t.ports }) ∧
    (∀ f u, f.hdr.opcode = opTestEcho → s.agentTake agSpar n f = .ok u → (u.isActive n.val = false ∨ bitAt (u.mport n.val).spar.ctl 3 = false) →
      exec (.testEcho (.module n) f) s = .next u) ∧
    (∀ (p : PortRef) (f : Frame), portDev p = .jalem → f.hdr.opcode = opTest → s.jebForm p f.hdr = none →
      Completes (.test p f) s fun t =>
        (t.port p).txq = (s.port p).txq ++ (if isPosted f.hdr then [] else [echoFrame f]) ∧ t.jeb.mem = s.jeb.mem ∧
        t = { s.countFlash p (frameSyndromes f) with jeb := t.jeb })

/-- R257 to R261: ADMIT outside FREE is refused with code 1; a failing check ends it with that check's code, the bay not admitted; with no
hip port inside the shape the bay is admitted at once, with its tag, shape and rack index; else the hip ports' lanes are released and the
bay waits in CHECKING until they are ready, and is then admitted with the shape and the tag that were checked (R284), or until 100 ms have
passed; a module that has lost SYNC by then ends it with code 2. MEASURE records the bay descriptor and locks the program store. Thatch
carries ADMIT and MEASURE, so in Sarking-only operation neither acts (R351, R354). The model's choices: an accepted command keeps ERR (log
entry 74, DEDUCED), and code 2 for a SYNC lost during the check of the hip ports (log entry 117, DEDUCED). -/
def Obligations.Admission : Prop :=
  (∀ s : State, s.served = false → exec .admitBay s = .next s ∧ exec .measure s = .next s) ∧
  (∀ s : State, s.served = true → s.sec.state ≠ .free → exec .admitBay s = .next { s with sec := { s.sec with err := 1 } }) ∧
  (∀ (s : State) (c : BitVec 4), s.served = true → s.sec.state = .free → s.admitErr = some c → s.sec.lifted = [] → Completes .admitBay s fun t =>
    t.sec = { s.sec with err := c, busy := false } ∧ t = { s with sec := t.sec, sof := t.sof, fresh := t.fresh }) ∧
  (∀ s : State, s.served = true → s.sec.state = .free → s.admitErr = none → s.admitHips = [] → Completes .admitBay s fun t =>
    t.sec.state = .forming ∧ t.sec.tag = s.sec.admitTag ∧ t.sec.shape = s.sec.admitShape ∧ t.sec.err = s.sec.err ∧ t.sec.busy = false ∧
    t.sec.rack.toNat = (shapeIndexOf s.admitShape s.sof.torus s.coord).getD 0 % 256 ∧ fld t.bayShapeWord 0 18 = s.sec.admitShape.toNat ∧
    bitAt t.bayShapeWord 18 = true ∧ t.gab.work = 0 ∧ t.ports = s.ports ∧
    t.eav = s.eav ∧ t.jeb = s.jeb) ∧
  (∀ s : State, s.served = true → s.sec.state = .free → s.admitErr = none → s.admitHips ≠ [] → Completes .admitBay s fun t =>
    t.sec.state = .checking ∧ t.sec.busy = true ∧ t.sec.lifted = s.admitHips ∧ t.sec.tag = s.sec.tag ∧
    t.sec.askedShape = s.sec.admitShape ∧ t.sec.askedTag = s.sec.admitTag ∧
    (∀ n, (t.mport n.val).laneIdle = (if n ∈ s.admitHips then false else (s.mport n.val).laneIdle)) ∧ t.eav = s.eav ∧ t.jeb = s.jeb) ∧
  (∀ s : State, s.sec.state = .checking → s.tim.sync = false → ∀ x, Completes (.hipAdmissionCheck x) s fun t =>
    t.sec.state = .free ∧ t.sec.err = 2 ∧ t.sec.tag = s.sec.tag ∧ t.eav = s.eav ∧ t.jeb = s.jeb ∧
    (∀ n ∈ s.sec.lifted, (t.mport n.val).laneIdle = true ∧ (t.mport n.val).train.state ∈ [PState.disabled, .held])) ∧
  (∀ s : State, s.sec.state = .checking → s.tim.sync = true →
    ((∀ n ∈ s.sec.lifted, s.hipReady n = true) → ∀ x, Completes (.hipAdmissionCheck x) s fun t =>
      t.sec.state = .forming ∧ t.sec.tag = s.sec.askedTag ∧ t.sec.shape = s.sec.askedShape ∧ t.sec.lifted = [] ∧
      t.sec.rack.toNat = (shapeIndexOf (shapeUnpack s.sec.askedShape) s.sof.torus s.coord).getD 0 % 256 ∧
      fld t.bayShapeWord 0 18 = s.sec.askedShape.toNat ∧
      bitAt t.bayShapeWord 18 = true ∧ t.ports = s.ports) ∧
    ((∃ n ∈ s.sec.lifted, s.hipReady n = false) → exec (.hipAdmissionCheck false) s = .next s ∧
      Completes (.hipAdmissionCheck true) s fun t => t.sec.state = .free ∧ t.sec.err = 7 ∧ t.sec.tag = s.sec.tag ∧
        (∀ n ∈ s.sec.lifted, (t.mport n.val).laneIdle = true ∧ (t.mport n.val).train.state ∈ [PState.disabled, .held]) ∧ t.eav = s.eav)) ∧
  (∀ s : State, s.served = true → (s.sec.state ≠ .forming → exec .measure s = .next { s with sec := { s.sec with err := 1 } }) ∧
    (s.sec.state = .forming → (∃ p ∈ s.trs.dirs, p.2.refused = true) → exec .measure s = .next { s with sec := { s.sec with err := 8 } }) ∧
    (s.sec.state = .forming → (∀ p ∈ s.trs.dirs, p.2.refused = false) → Completes .measure s fun t =>
      t.sec.state = .measured ∧ t.trs.lock = true ∧ t.sec.meas5 = t.bayDescriptor ∧ t.sec.err = s.sec.err ∧ t.sec.tag = s.sec.tag ∧
      t = { s with sec := t.sec, trs := { s.trs with lock := true }, sof := t.sof, fresh := t.fresh }))

/-- R207, R278 to R281: RELEASE zeroizes the bay. It is refused in FREE and ZEROIZING and waits for BAY_KEYS; else PENDING sets, and once no
DESTROY is awaited every key of the module is gone, the eaves begin to write zeros, Gable's slots are ZEROIZING and every queue of Purlin
and the truss sequencer are empty. The port of a node that does not acknowledge its DESTROY is held, the DESTROY stays owed, and source 20
counts it, a total that the zeroization which follows the last DESTROY clears where it is of bay scope. When every part has finished, memory
is zero and the bay FREE; an eave that cannot serve keeps ZEROIZING and what stands in it, the others and Gable (R226) are zero, and the
module stays in ZEROIZING with a severe fault for each. Thatch carries RELEASE (R351, R354). The model's choices: RELEASE drops a rotation
under way at once (log entry 47), and ends the phase of a teardown, clears PUR_NODE_LOST and sets DONE only where PENDING stands (log entry
48). -/
def Obligations.ReleaseZeroizes : Prop :=
  (∀ s : State, s.served = false → exec .release s = .next s) ∧
  (∀ s : State, s.served = true → s.sec.state = .free ∨ s.sec.state = .zeroizing → exec .release s = .next { s with sec := { s.sec with err := 1 } }) ∧
  (∀ (s : State) (i : Install), s.served = true → s.sec.state ≠ .free → s.sec.state ≠ .zeroizing → s.sec.install = some i → i.rotation = false →
    exec .release s = .next { s with sec := { s.sec with releaseDue := true } }) ∧
  (∀ s : State, s.served = true → s.sec.state ≠ .free → s.sec.state ≠ .zeroizing → (∀ i, s.sec.install = some i → i.rotation = true) →
    Completes .release s fun t => t.sec.state = .zeroizing ∧ t.sec.pending = true ∧ t.gut.phase = .none ∧ t.jeb = s.jeb ∧
      t.eav.mem = s.eav.mem ∧ t.gau = s.gau ∧
      (t.sec.destroyWait = [] → t.keysGone = true ∧ (∀ n, n < 256 → (t.gab.slot n).state = .zeroizing) ∧ t.gab.ready = false ∧ t.trs.runs = [] ∧ t.trs.insts = [] ∧ t.trs.comms = [] ∧ t.pur.nodeLost = 0 ∧
        (∀ n, n < 32 → (t.eave n).zeroizing = true ∧ (t.eave n).homeQ = []) ∧ (∀ q, (t.queue q).items = []))) ∧
  (∀ (s : State) (n : Fin 144) (tag : W16), (n, tag) ∈ s.sec.destroyWait → Completes (.destroyTimeout n) s fun t =>
    (∀ w ∈ t.sec.destroyWait, w.1 ≠ n) ∧ (t.mport n.val).train.state = .held ∧ (t.mport n.val).train.destroyDue = true ∧
    (bitAt (Tab.get Src.zero s.gut.srcs 20).cfg 24 = true ∨ t.sec.destroyWait ≠ [] → Counted s t 20 1) ∧ t.eav.mem = s.eav.mem ∧ t.jeb = s.jeb) ∧
  (∀ s : State, s.sec.state = .zeroizing → s.keysGone = true →
    ((∀ p ∈ s.eav.eaves, p.2.failed = false) → Completes .zeroizationComplete s fun t =>
      t.sec.state = .free ∧ t.eav.mem = Mem.empty ∧ t.eav.durs = [] ∧ t.sec.tag = 0 ∧ t.sec.shape = 0 ∧ t.sec.pending = false ∧
      t.sec.done = (s.sec.done || s.sec.pending) ∧ t.gab.slots = [] ∧
      (∀ n : Fin 144, portRole n.val = .hip → (t.mport n.val).laneIdle = true) ∧ t.jeb = s.jeb) ∧
    ((∃ p ∈ s.eav.eaves, p.2.failed = true) → Completes .zeroizationComplete s fun t =>
      t.gab = { s.gab with ready := s.sof.started && !s.pwr.off, zeroizing := false, slots := [], released := [] } ∧ t.sec = s.sec ∧ t.jeb = s.jeb ∧ t.eav.durs = [] ∧
      (∀ n, (t.eave n).zeroizing = ((s.eave n).zeroizing && (s.eave n).failed)) ∧
      (∀ a, Tab.get 0 t.eav.mem.cells a = if (s.eave (a / 36 / eaveShingles)).failed then Tab.get 0 s.eav.mem.cells a else 0) ∧
      (∀ i, Tab.get false t.eav.mem.marked i = ((s.eave (i / eaveShingles)).failed && Tab.get false s.eav.mem.marked i)) ∧ Counted s t 20 (s.eav.eaves.filter fun p => p.2.failed).length ∧ (Tab.get Src.zero t.gut.srcs 20).severe = true))

/-- R262 to R267, R272 to R276, R278: SPDM key requests are taken only within a session, and a refused one is answered with its status and
changes no key. BAY_KEYS and ROTATE put the link key into its slot and start an installation; it ends with the last acknowledgement, the bay
RUNNING, at once where the bay has no node and no port to wait for, or fails with status 4, the key destroyed, on a refusal or after 1 ms.
Weight keys are set and destroyed in their slots, by the bay's requester in RUNNING alone, a slot above 3 or a nonzero field refused. R262
to R264, R275: a session opens in SPDM 1.2 or 1.3 only, under its requester, the certificate chain going out with it, and ends; a signed
report holds the nonce, each measurement asked for under its index, and the signature over both; a weight key's place is set only while its
durable entry is EMPTY, and in Sarking-only operation by none (R354). A module stopped in mask ROM opens no session and reports nothing
(R346). Nothing else changes. The model's choices: the layout of a report, a nonce and then 49 bytes for each measurement (log entry 28),
byte 0 of a nonce or a digest in its low bits (log entry 14), and that mutual authentication names the requester whose session opens (log
entry 47). -/
def Obligations.KeysAndReports : Prop :=
  ((∀ (s : State) (q : Nat) (r : KeyReq), s.sec.inSession q = true →
    (∀ (i : Instr) (c : BitVec 4), (i, c) ∈ [(Instr.bayKeys q r, s.bayKeysStatus q r), (.rotate q r, s.rotateStatus q r)] → c ≠ 0 →
      exec i s = .next { s with sec := { s.sec with keyErr := c }, outputs := s.outputs ++ [.spdm (c.setWidth 8) 0] }) ∧
    (∀ (i : Instr) (c : BitVec 4), (i, c) ∈ [(Instr.bayKeys q r, s.bayKeysStatus q r), (.rotate q r, s.rotateStatus q r)] → c = 0 →
      s.keyNodes ≠ [] ∨ s.activateHips ≠ [] → Completes i s fun t =>
        (∀ k, Tab.get none t.sec.linkKeys k = if k = r.slot.toNat % 4 then some { key := r.key, gen := r.gen } else Tab.get none s.sec.linkKeys k) ∧
        t.sec.lastGen = some r.gen ∧ (∃ j, t.sec.install = some j ∧ j.slot = BitVec.ofNat 2 r.slot.toNat ∧ j.retiring = false) ∧
        t.sec.state = s.sec.state ∧ (i = .bayKeys q r → t.eav.key.isSome = true ∧ t.eav.cryptOn = true ∧ t.sec.requester = some q) ∧
        t.eav.mem = s.eav.mem ∧ t.jeb = s.jeb) ∧
    (s.bayKeysStatus q r = 0 → s.keyNodes = [] → s.activateHips = [] → s.sec.releaseDue = false → Completes (.bayKeys q r) s fun t =>
      t.sec.state = .running ∧ t.sec.installed = true ∧ t.sec.install = none ∧ t.sec.requester = some q ∧ t.eav.key.isSome = true ∧
      t.sec.active = BitVec.ofNat 2 r.slot.toNat ∧ t.outputs = s.outputs ++ [.spdm 0 0] ∧ t.eav.mem = s.eav.mem ∧ t.jeb = s.jeb)) ∧
  (∀ (s : State) (q : Nat) (r : KeyReq), s.sec.inSession q = false → exec (.bayKeys q r) s = .next s ∧ exec (.rotate q r) s = .next s) ∧
  (∀ (s u : State) (i : Install) (w : KeyWait) (f : Frame), f.hdr.opcode = opAck → f.hdr.course = 4 → f.hdr.tag = w.tag →
    s.agentTake agSoffit w.port f = .ok u → u.sec.install = some i → i.waits = [w] → i.retiring = false → i.rotation = false →
    u.sec.releaseDue = false → u.sec.state = .measured →
    (f.hdr.status = stOk → Completes (.keyAck (.module w.port) f) s fun t =>
      t.sec.state = .running ∧ t.sec.installed = true ∧ t.sec.install = none ∧ t.sec.active = i.slot ∧ t.sec.linkKeys = u.sec.linkKeys ∧
      t.outputs = u.outputs ++ [.spdm 0 0] ∧ t.eav = u.eav ∧ t.jeb = u.jeb) ∧
    (f.hdr.status ≠ stOk → Completes (.keyAck (.module w.port) f) s fun t =>
      Tab.get none t.sec.linkKeys i.slot.toNat = none ∧ t.sec.install = none ∧ t.sec.keyErr = 4 ∧ t.sec.state = .measured ∧
      t.outputs = u.outputs ++ [.spdm 4 (BitVec.ofNat 8 w.port.val)] ∧ (i.newEaveKey = true → t.eav.key = none) ∧ t.jeb = u.jeb)) ∧
  (∀ (s : State) (i : Install) (w : KeyWait), s.sec.install = some i → i.waits = [w] → i.retiring = false → i.rotation = false →
    s.sec.releaseDue = false → s.sec.state = .measured → Completes .keyAckTimeout s fun t =>
      Tab.get none t.sec.linkKeys i.slot.toNat = none ∧ t.sec.install = none ∧ t.sec.keyErr = 4 ∧ t.sec.state = .measured ∧
      t.outputs = s.outputs ++ [.spdm 4 (BitVec.ofNat 8 (min 143 w.port.val))] ∧ (i.newEaveKey = true → t.eav.key = none) ∧ t.jeb = s.jeb) ∧
  (∀ (s : State) (q : Nat) (slot : Byte) (key : BitVec 256), s.sec.inSession q = true →
    (s.sec.state = .running → s.sec.requester = some q → slot.toNat ≤ 3 →
      (Completes (.weightKey q slot 0 key) s fun t =>
        (∀ k, Tab.get none t.sec.weightKeys k = if k = slot.toNat then some key else Tab.get none s.sec.weightKeys k) ∧
        t = { s with sec := { s.sec with weightKeys := t.sec.weightKeys }, outputs := s.outputs ++ [.spdm 0 0] }) ∧
      (Completes (.weightDestroy q slot) s fun t =>
        (∀ k, Tab.get none t.sec.weightKeys k = if k = slot.toNat then none else Tab.get none s.sec.weightKeys k) ∧
        t = { s with sec := { s.sec with weightKeys := t.sec.weightKeys }, outputs := s.outputs ++ [.spdm 0 0] })) ∧
    (s.sec.state ≠ .running ∨ s.sec.requester ≠ some q → ∀ i ∈ [Instr.weightKey q slot 0 key, .weightDestroy q slot],
      exec i s = .next { s with sec := { s.sec with keyErr := 1 }, outputs := s.outputs ++ [.spdm 1 0] }) ∧
    (s.sec.state = .running → s.sec.requester = some q →
      (3 < slot.toNat → ∀ i ∈ [Instr.weightKey q slot 0 key, .weightDestroy q slot],
        exec i s = .next { s with sec := { s.sec with keyErr := 3 }, outputs := s.outputs ++ [.spdm 3 0] }) ∧
      ∀ z : BitVec 24, z ≠ 0 → exec (.weightKey q slot z key) s =
        .next { s with sec := { s.sec with keyErr := 3 }, outputs := s.outputs ++ [.spdm 3 0] })) ∧
  (∀ (s : State) (q : Nat) (slot : Byte) (z : BitVec 24) (key : BitVec 256), s.sec.inSession q = false →
    exec (.weightKey q slot z key) s = .next s ∧ exec (.weightDestroy q slot) s = .next s)) ∧
  (∀ s : State,
    (∀ (q : Nat) (v : Byte), exec (.secureSessionOpen (q, v)) s = if s.sof.halted = false ∧ (v = 0x12 ∨ v = 0x13) then
      .next { s with sec := { s.sec with sessions := s.sec.sessions ++ [(q, v)] }, outputs := s.outputs ++ [.certificates s.certChain] }
      else .next s) ∧
    (∀ i, exec (.secureSessionEnd i) s = .next { s with sec := { s.sec with sessions := s.sec.sessions.eraseIdx i } }) ∧
    (∀ (nonce : BitVec 256) (l : List Nat), s.sof.halted = true → exec (.signedMeasurements nonce l) s = .next s) ∧
    (∀ (nonce : BitVec 256) (l : List Nat), s.sof.halted = false → Completes (.signedMeasurements nonce l) s fun t =>
      ∃ body, t = { s with outputs := s.outputs ++ [.report (body ++ s.aliasSign body)] } ∧ body.take 32 = bytesOf nonce 32 ∧
        body.length = 32 + 49 * l.length ∧
        ∀ k i, l[k]? = some i → ((body.drop (32 + 49 * k)).take 49) = BitVec.ofNat 8 i :: bytesOf (s.measurement i) 48) ∧
    (∀ (k : Fin 16) (v : W64), (s.served = false ∨ (Tab.get Dur.reset s.eav.durs k.val).state ≠ .empty → exec (.secWeight k v) s = .next s) ∧
      (s.served = true → (Tab.get Dur.reset s.eav.durs k.val).state = .empty → Completes (.secWeight k v) s fun t =>
        (∀ j, Tab.get 0 t.sec.weights j = if j = k.val then v &&& 0xFFFFFFFF00000007 else Tab.get 0 s.sec.weights j) ∧
        t = { s with sec := { s.sec with weights := t.sec.weights } })))

/-- R290: while the first-error record stands, an event takes the next free entry of the capture log with its source, severity, master,
access type and rack time; a full log of 16 counts it as dropped, but a fatal one replaces entry 15; CLEAR empties the log. R286, R290,
R291, R297, R300: a source's window closes 2^WIN beats after its first event, and its total stays; VALID of GUT_FATAL clears, but not while
the phase is STOPPING, DRAINING or HELD; CLEAR empties the capture log; the operator clears fences only while QUIESCENT or with no bay;
UNHOLD ends HELD in TEARDOWN with the restarts forgotten. Nothing outside Gutter changes but rack time and the bay's state. R292, R304,
R305: at a poll beat a CTRL_RD of the counters' six words is queued for every node of the module's share whose port is ACTIVE, and its
answer is awaited; the answer's counters are added to source 16 and what else the module holds stays; a margin measurement gives an object
its score with lane and measure, the fourth in a row below the level makes it DEGRADED and counts at source 19, and the fourth at or above
ends it. -/
def Obligations.GutterControls : Prop :=
  ((∀ (s : State) (e : Event) (sev code : Nat), e.src < 23 → sev ≤ 2 → e.access < 16 → code < 256 → bitAt s.gut.first.info 63 = true →
    let t := s.note e sev code
    let hit := ((Tab.get Src.zero s.gut.srcs e.src).take s.beat e.count).2
    ∃ r : Capture, fld r.info 0 5 = e.src ∧ fld r.info 5 2 = max sev hit.toNat ∧ fld r.info 8 8 = e.node.toNat ∧
      fld r.info 16 8 = e.engine.toNat ∧ fld r.info 24 4 = e.access ∧ r.ns = BitVec.ofNat 64 s.ns ∧ t.gut.first = s.gut.first ∧
      (s.gut.caps.length < 16 → t.gut.caps = s.gut.caps ++ [r] ∧ t.gut.dropped = s.gut.dropped) ∧
      (s.gut.caps.length = 16 → max sev hit.toNat ≠ 2 → t.gut.caps = s.gut.caps ∧ t.gut.dropped = satAdd s.gut.dropped 1) ∧
      (s.gut.caps.length = 16 → max sev hit.toNat = 2 → t.gut.caps = s.gut.caps.take 15 ++ [r] ∧ t.gut.dropped = s.gut.dropped)) ∧
  (∀ s : State, s.mgmt .ethernet = true →
    exec (.gutCapStatusClear .ethernet) s = .next { s with gut := { s.gut with caps := [] } })) ∧
  ((∀ (s : State) (n : Fin 23) (b : W64), s.tim.refclkOk = true → s.tim.fifths ≤ 5120 * b.toNat → Completes (.sourceWindowClose n b) s fun t =>
    (∀ o, (Tab.get Src.zero s.gut.srcs n.val).openAt = some o →
      Tab.get Src.zero t.gut.srcs n.val = if o + winBeats (Tab.get Src.zero s.gut.srcs n.val) ≤ b.toNat
        then { Tab.get Src.zero s.gut.srcs n.val with openAt := none, inWin := 0 } else Tab.get Src.zero s.gut.srcs n.val) ∧
    (∀ m, m ≠ n.val → Tab.get Src.zero t.gut.srcs m = Tab.get Src.zero s.gut.srcs m) ∧
    t = { s with tim := t.tim, jeb := { s.jeb with tim := t.jeb.tim }, gut := { s.gut with srcs := t.gut.srcs } }) ∧
  (∀ (s : State) (who : Requester), s.reaches who = true →
    exec (.gutFatalValid who) s = .next (if s.gut.phase ∈ [Phase.stopping, .draining, .held] then s
      else { s with gut := { s.gut with fatal := setBit s.gut.fatal 63 false } }) ∧
    exec (.gutCapStatusClear who) s = .next (if who = .inBand then s else { s with gut := { s.gut with caps := [] } })) ∧
  (∀ (s : State) (who : Requester) (w : Fin 3) (v : W64), s.mgmt who = true →
    (s.gut.phase ≠ .quiescent → s.admitted = true → exec (.gutFencePort who w v) s = .next s) ∧
    (s.gut.phase = .quiescent ∨ s.admitted = false → Completes (.gutFencePort who w v) s fun t =>
      (∀ i, i < 144 → bitAt t.gut.fencePorts i =
        (bitAt s.gut.fencePorts i && !(decide (64 * w.val ≤ i) && decide (i < 64 * w.val + 64) && bitAt v (i - 64 * w.val)))) ∧
      t = { s with gut := { s.gut with fencePorts := t.gut.fencePorts } })) ∧
  (∀ (s : State) (who : Requester), s.mgmt who = true → (s.gut.phase ≠ .held → exec (.gutTdCtlUnhold who) s = .next s) ∧
    (s.gut.phase = .held → Completes (.gutTdCtlUnhold who) s fun t =>
      t.gut = { s.gut with history := [], endHeld := false, phase := .quiescent } ∧ t.sec = { s.sec with state := .teardown } ∧
      t = { s with gut := t.gut, sec := t.sec, sof := t.sof, fresh := t.fresh })) ∧
  (∀ (s : State) (who : Requester), s.mgmt who = false → ∀ w v, exec (.gutFencePort who w v) s = .next s ∧
    exec (.gutTdCtlUnhold who) s = .next s ∧ exec (.gutTdCtlStop who) s = .next s ∧ exec (.gutTdCtlRestart who) s = .next s)) ∧
  ((∀ (s : State) (b : W64) (o : List (Fin 144)), b.toNat % 65536 = 0 → bitAt s.gut.ctrl 8 = true → s.admitted = true →
    Completes (.jalemPoll b o) s fun t =>
    (∀ n ∈ s.pollNodes, ∃ f tag, t.frames (portQueue n.val 8) = s.frames (portQueue n.val 8) ++ [f] ∧ (n, tag) ∈ t.gut.polls ∧
      f.hdr.opcode = opCtrlRd ∧ f.hdr.tag = tag ∧ f.hdr.srcEngine = 0xFB ∧ fpaOffset f.hdr.fpa = 0xA0000 ∧ f.data = []) ∧
    (∀ q, (∀ n ∈ s.pollNodes, q ≠ portQueue n.val 8) → t.frames q = s.frames q) ∧
    t.sec = s.sec ∧ t.eav = s.eav ∧ t.gut = { s.gut with polls := t.gut.polls } ∧ t.gau = s.gau) ∧
  (∀ (s : State) (b : W64) (o : List (Fin 144)), b.toNat % 65536 ≠ 0 ∨ bitAt s.gut.ctrl 8 = false ∨ s.admitted = false →
    Completes (.jalemPoll b o) s fun t =>
    t = { s with tim := t.tim, jeb := { s.jeb with tim := t.jeb.tim } }) ∧
  (∀ (s : State) (n : Fin 144) (f : Frame), f.hdr.course = 4 → f.hdr.srcEngine = 0xFB → (n, f.hdr.tag) ∈ s.gut.polls →
    ∃ t, s.pollAnswer n f = some t ∧ Counted s t 16 (pollTotal f) ∧ t.gut.polls = s.gut.polls.erase (n, f.hdr.tag) ∧ t.pur = s.pur ∧
      t.sec = s.sec ∧ t.eav = s.eav ∧ t.ports = s.ports ∧ t.gut.phase = s.gut.phase) ∧
  (∀ (s : State) (o : MarginObj) (m : MarginMeas) (b : W64), Completes (.marginMeasurement o m b) s fun t =>
    let old := Tab.get Health.reset s.gut.health (healthKey o)
    let new := Tab.get Health.reset t.gut.health (healthKey o)
    new = old.take (fld s.gut.ctrl 16 8) (marginScore o m) ∧
    (old.degraded = false → 3 ≤ old.below → (marginScore o m).1 < fld s.gut.ctrl 16 8 → new.degraded = true ∧ Counted s t 19 1) ∧
    (old.degraded = true → 3 ≤ old.above → fld s.gut.ctrl 16 8 ≤ (marginScore o m).1 → new.degraded = false ∧ t.gut.srcs = s.gut.srcs) ∧
    (∀ k, k ≠ healthKey o → Tab.get Health.reset t.gut.health k = Tab.get Health.reset s.gut.health k) ∧
    t.ports = s.ports ∧ t.eav = s.eav ∧ t.sec = s.sec) ∧
  (∀ (f n v : Nat), f < n → score f n v ≤ 255 ∧ (v ≤ f → score f n v = 0) ∧ (n ≤ v → score f n v = 255)))

/-- R294 to R300, R344: STOP by the operator or from a neighbour module tears the bay down with fatal fault 12 or 13, a neighbour's STOP
being acknowledged and anyone else's but the fabric manager's answered NO_RIGHT; a STOP not acknowledged takes its port DOWN; once nothing
is outstanding the phase is QUIESCENT with the fences in force, or HELD after three restarts. RESTART sends RESUME on the rafter and service
ports of the bay, or is refused with ERR; with RESUME acknowledged the bay is again in the state in which the teardown began. -/
def Obligations.TeardownCourse : Prop :=
  (∀ (s : State) (who : Requester), s.mgmt who = true → (s.tornDown = true → exec (.gutTdCtlStop who) s = .next s) ∧
    (s.tornDown = false → s.admitted = true → s.gut.phase = .none → Completes (.gutTdCtlStop who) s fun t =>
      TornDown t 12 ∧ Counted s t 22 1 ∧ t.sec.resumeTo = s.sec.state ∧ t.trs.runs = [] ∧ t.eav = s.eav ∧ t.jeb = s.jeb)) ∧
  (∀ (s u : State) (n : Fin 144) (f : Frame), f.hdr.opcode = opTeardown → s.agentTake agSoffit n f = .ok u →
    (u.hipPartner n f.hdr = true → teardownAction f.hdr = 0 → f.hdr.aux &&& ~~~ 0xFFFF03 = 0 → u.tornDown = false → u.admitted = true →
      u.gut.phase = .none → Completes (.teardownStop n f) s fun t =>
      TornDown t 13 ∧ t.frames (portQueue n.val (vcOf (ackFrame f.hdr).hdr)) =
        u.frames (portQueue n.val (vcOf (ackFrame f.hdr).hdr)) ++ [ackFrame f.hdr] ∧ t.eav = u.eav ∧ t.jeb = u.jeb) ∧
    (u.hipPartner n f.hdr = false → u.fromManager f.hdr = true → teardownAction f.hdr = 0 → f.hdr.aux &&& ~~~ 0xFFFF03 = 0 →
      u.tornDown = false → u.admitted = true → u.gut.phase = .none → Completes (.teardownStop n f) s fun t =>
      TornDown t 12 ∧ t.eav = u.eav ∧ t.jeb = u.jeb) ∧
    (u.hipPartner n f.hdr = false → u.fromManager f.hdr = false → Completes (.teardownStop n f) s fun t =>
      t.frames (portQueue n.val (vcOf (errorFrame f.hdr stNoRight).hdr)) =
        u.frames (portQueue n.val (vcOf (errorFrame f.hdr stNoRight).hdr)) ++ [errorFrame f.hdr stNoRight] ∧
      t.gut = u.gut ∧ t.sec = u.sec ∧ t.eav = u.eav ∧ t.jeb = u.jeb)) ∧
  (∀ (s : State) (n : Fin 144) (tag : W16), (n, tag) ∈ s.gut.stopWait → s.gut.phase = .stopping → Completes (.stopAckTimeout n) s fun t =>
    (∀ w ∈ t.gut.stopWait, w.1 ≠ n) ∧ (s.isActive n.val = true ∨ (s.mport n.val).train.state = .retrain → (t.mport n.val).train.state = .down) ∧ t.eav = s.eav ∧ t.jeb = s.jeb) ∧
  (∀ s : State, s.gut.phase = .stopping ∨ s.gut.phase = .draining → (∀ p ∈ s.ports, p.2.pendLog = []) →
    (∀ p ∈ s.pur.queues, p.2.items = []) → s.pur.bundles = [] → (∀ p ∈ s.eav.eaves, p.2.homeQ = []) → s.gab.slots = [] →
    (s.gut.stopWait ≠ [] → Completes .quiescent s fun t =>
      t.gut.phase = .draining ∧ t.gut.stopWait = s.gut.stopWait ∧ t.sec = s.sec ∧ t.eav = s.eav) ∧
    (s.gut.stopWait = [] → Completes .quiescent s fun t =>
      t.gut.phase = (if s.gut.endHeld then .held else .quiescent) ∧ t.gut.toFence = [] ∧ t.pur.nodeLost = 0 ∧
      (∀ n : Fin 144, FaultObj.port n ∈ s.gut.toFence → t.fenced n.val = true ∧ (t.mport n.val).train.state = .held) ∧
      (FaultObj.module ∈ s.gut.toFence → t.gut.needService = true) ∧
      t.sec.state = (if s.gut.endHeld then .held else s.sec.state) ∧ t.eav = s.eav ∧ t.jeb = s.jeb)) ∧
  (∀ (s : State) (who : Requester), s.mgmt who = true →
    (s.restartOk = false → exec (.gutTdCtlRestart who) s = .next { s with gut := { s.gut with tdErr := true } }) ∧
    (s.restartOk = true → Completes (.gutTdCtlRestart who) s fun t =>
      t.gut.phase = .resuming ∧ t.gut.history = (BitVec.ofNat 54 s.beat :: s.gut.history).take 3 ∧
      (∀ n : Fin 144, (∃ tag, (n, tag) ∈ t.gut.resumeWait) ↔ s.bayPort n = true ∧ portRole n.val ≠ .hip) ∧
      t.sec = s.sec ∧ t.eav = s.eav ∧ t.jeb = s.jeb)) ∧
  (∀ s : State, s.gut.phase = .resuming → (∀ w ∈ s.gut.resumeWait, s.resumeDue w = false) → Completes .resumeAcknowledged s fun t =>
    t.gut = { s.gut with phase := .none, resumeWait := [] } ∧ t.sec = { s.sec with state := s.sec.resumeTo } ∧
    t = { s with gut := t.gut, sec := t.sec, sof := t.sof, fresh := t.fresh })

/-- R213, R221 to R226, R287: a CONTRIB frame that a check refuses is counted in GAB_ERR and reported, and changes no slot; one that passes
is stored in its slot, and the next chunk is handed over once its root is complete. A node whose second child has not come LIMIT ns after
the first, and not less than 1,024 ns, stalls its slot; a slot that stays STALLED for ABANDON beats is fatal fault 10; a slot that was
released is FREE once it has been zeroed. -/
def Obligations.GableSlots : Prop :=
  (∀ (s : State) (e : Entry) (rest : List Entry), (s.queue (agentQueue agGable 1)).items = e :: rest →
    let h := e.frame.hdr
    let rank := fld h.aux 48 8
    let off := fld h.fpa 0 18
    let slot := s.gab.slotOf (BitVec.ofNat 32 (fld h.aux 0 32)) (fld h.aux 32 16)
    (s.gut.phase ≠ .none → Completes .contrib s fun t => t.gab = s.gab ∧ t.frames (agentQueue agGable 1) = rest.map fun e => e.frame) ∧
    (s.gut.phase = .none → gabReason (slot.map s.gab.slot) e.frame rank off ≠ 0 → Completes .contrib s fun t =>
      t.gab.err = satFld s.gab.err 0 16 1 ∧ t.gab.slots = s.gab.slots ∧ t.gab.work = s.gab.work ∧
      t.frames (agentQueue agGable 1) = rest.map (fun e => e.frame) ∧ Counted s t 11 1 ∧ t.eav = s.eav) ∧
    (∀ n, s.gut.phase = .none → slot = some n → gabReason (some (s.gab.slot n)) e.frame rank off = 0 →
      let x := ((s.gab.slot n).store e.frame rank off s.tim.fifths).unstall
      (∀ i w v, e.frame.data[i]? = some w → poisoned h i = false → (decodeShingle w).data = some v → x.shingle rank (off / 32 + i) = some (v, false)) ∧
      (x.nodeDone x.next 0 x.leaves = false → Completes .contrib s fun t =>
        t.gab.slot n = x ∧ (∀ m, m ≠ n → t.gab.slot m = s.gab.slot m) ∧
        t.gab.work = s.gab.work + BitVec.ofNat 64 e.frame.data.length ∧ t.eav = s.eav) ∧
      (x.state = .active → x.next + 1 < x.chunks → x.nodeDone x.next 0 x.leaves = true → x.nodeDone (x.next + 1) 0 x.leaves = false →
        Completes .contrib s fun t => t.gab.slot n = { x with next := x.next + 1 } ∧ (∀ m, m ≠ n → t.gab.slot m = s.gab.slot m)))) ∧
  (∀ (s : State) (n : Byte) (c : BitVec 10) (lo hi : Byte), (s.gab.slot n.toNat).state = .active →
    isNode lo.toNat hi.toNat 9 0 (s.gab.slot n.toNat).leaves = true → c.toNat < (s.gab.slot n.toNat).chunks →
    (s.gab.slot n.toNat).oneChild c.toNat lo.toNat hi.toNat = true → Completes (.stalled n c lo hi) s fun t =>
      let late := s.toTime ((s.gab.slot n.toNat).firstDone c.toNat lo.toNat hi.toNat + 5 * max 1024 (fld s.gab.skewCfg 0 16))
      t.tim = late.tim ∧ (t.gab.slot n.toNat).stallAt = late.tim.fifths ∧
      (t.gab.slot n.toNat).state = .stalled ∧ (t.gab.slot n.toNat).stalls = [{ chunk := c.toNat, lo := lo.toNat, hi := hi.toNat }] ∧
      (t.gab.slot n.toNat).got = (s.gab.slot n.toNat).got ∧ t.gab.err = satFld s.gab.err 16 16 1 ∧ Counted s t 10 1 ∧
      (∀ m, m ≠ n.toNat → t.gab.slot m = s.gab.slot m) ∧ t.trs = s.trs) ∧
  (∀ (s : State) (n : Byte) (b : W64), s.tim.refclkOk = true → s.tim.fifths ≤ 5120 * b.toNat → (s.gab.slot n.toNat).state = .stalled →
    (s.gab.slot n.toNat).stallAt + 5120 * s.gab.abandonBeats ≤ 5120 * b.toNat → s.admitted = true → s.gut.phase = .none →
    Completes (.gableAbandon n b) s fun t => TornDown t 10 ∧ t.eav = s.eav) ∧
  (∀ (s : State) (n : Nat) (l : List Nat), s.gab.released = n :: l → Completes .slotFree s fun t =>
    t.gab.slot n = Slot.reset ∧ (∀ m, m ≠ n → t.gab.slot m = s.gab.slot m) ∧ t.gab.released = l ∧ t = { s with gab := t.gab })

/-- R231 to R233, R241, R242, R246: a START of a registered communicator that passes its checks begins an instance; one that fails is
counted and begins none. VALID of the program directory checks the program, and of TRS_COMM_CTL the registration, which is refused where
R231 says; a run of the instance that comes first by the key takes a context. -/
def Obligations.TrussStarts : Prop :=
  (∀ (s : State) (e : Entry) (rest : List Entry), (s.queue (agentQueue agTruss 1)).items = e :: rest → e.frame.hdr.opcode = opSignal →
    kindOf e.frame.hdr = 4 → s.gut.phase = .none →
    (∀ n, s.startCode e.frame.hdr = none → s.trs.commOf (fld e.frame.hdr.aux 20 12) = some n → Completes .start s fun t =>
      t.trs.insts = s.trs.insts ++ [⟨BitVec.ofNat 32 (fld e.frame.hdr.aux 0 32), n, fld e.frame.hdr.aux 32 16, fld e.frame.hdr.aux 48 8,
        fld e.frame.hdr.aux 56 8, 0, 0⟩] ∧
      (t.trs.comm n).lastSeq.toNat = fld e.frame.hdr.aux 0 20 ∧ (t.trs.comm n).outstanding = (s.trs.comm n).outstanding + 1 ∧
      (∀ m, m ≠ n → t.trs.comm m = s.trs.comm m) ∧ t.trs.runs = s.trs.runs ∧ t.gab = s.gab ∧ t.gut = s.gut) ∧
    (∀ c, s.startCode e.frame.hdr = some c → Completes .start s fun t =>
      t.trs.insts = s.trs.insts ∧ t.trs.runs = s.trs.runs ∧ t.trs.comms = s.trs.comms ∧ t.trs.err = satFld s.trs.err 0 16 1 ∧
      Counted s t 11 1 ∧ t.gab = s.gab)) ∧
  (∀ (s : State) (who : Requester) (n : BitVec 4) (v : W64), s.reaches who = true →
    (s.trs.lock = true → Completes (.trsProgDirValid who n v) s fun t => t.trs = s.trs ∧ Counted s t 15 1) ∧
    (s.trs.lock = false → bitAt v 0 = true → Completes (.trsProgDirValid who n v) s fun t =>
      let d := t.trs.dir n.toNat
      let head := s.trs.word (fld v 8 13)
      let code := progCode (fld v 8 13) head (s.trs.words { d with first := BitVec.ofNat 13 (fld v 8 13), length := BitVec.ofNat 10 (fld head 16 10) })
      d.valid = decide (code = 0) ∧ d.refused = decide (code ≠ 0) ∧ d.code = BitVec.ofNat 3 code ∧
      (∀ m, m ≠ n.toNat → t.trs.dir m = s.trs.dir m) ∧ t.trs.prog = s.trs.prog ∧ t = { s with trs := t.trs }) ∧
    (s.trs.lock = false → bitAt v 0 = false → Completes (.trsProgDirValid who n v) s fun t =>
      (t.trs.dir n.toNat).valid = false ∧ (∀ m, m ≠ n.toNat → t.trs.dir m = s.trs.dir m) ∧ t = { s with trs := { s.trs with dirs := t.trs.dirs } })) ∧
  (∀ (s : State) (n : BitVec 6) (v : W64), (∀ who, who ≠ .inBand → who ≠ .thatch → exec (.trsCommCtlValid who n v) s = .next s) ∧
    (s.reaches .inBand = true →
      let c : Comm := { s.trs.comm n.toNat with ctl := accessWrite commCtlMask 0 (s.trs.comm n.toNat).ctl v }
      (s.admitted = false → exec (.trsCommCtlValid .inBand n v) s = .next s) ∧
      (s.admitted = true → bitAt v 0 = true → s.commBad n.toNat c = false → Completes (.trsCommCtlValid .inBand n v) s fun t =>
        t.trs.comm n.toNat = { c with ctl := setBit c.ctl 15 false } ∧ (t.trs.comm n.toNat).valid = true ∧
        (∀ m, m ≠ n.toNat → t.trs.comm m = s.trs.comm m) ∧ t = { s with trs := { s.trs with comms := t.trs.comms } }) ∧
      (s.admitted = true → bitAt v 0 = true → s.commBad n.toNat c = true → Completes (.trsCommCtlValid .inBand n v) s fun t =>
        (t.trs.comm n.toNat).valid = false ∧ bitAt (t.trs.comm n.toNat).ctl 15 = true ∧ Counted s t 15 1 ∧ t.trs.insts = s.trs.insts) ∧
      (s.admitted = true → bitAt v 0 = false → (s.trs.comm n.toNat).valid = true → (s.trs.comm n.toNat).outstanding ≠ 0 →
        Completes (.trsCommCtlValid .inBand n v) s fun t => t.trs = s.trs ∧ Counted s t 15 1))) ∧
  (∀ (s : State) (n : BitVec 6) (b : W64), (s.trs.nextStart n.toNat = none → Completes (.runStart n b) s fun t => t.trs = s.trs) ∧
    (∀ i ctx, s.trs.nextStart n.toNat = some i → s.trs.contextFor n.toNat i = some ctx → Completes (.runStart n b) s fun t =>
      (∃ r, t.trs.runAt ctx = some r ∧ t.trs.runs = s.trs.runs ++ [r] ∧ r.bundle = i.bundle ∧ r.k = i.nextRun ∧ r.pc = 0 ∧ r.since = t.tim.fifths) ∧
      t.trs.comms = s.trs.comms ∧ t.gab = s.gab ∧ t.eav = s.eav))

/-- R240, R243 to R246, R249, R371, R372: what each instruction makes of a run that has come to it. It goes on to the next instruction:
after a STEP at its beat, a SIGNAL at once, a WAIT once its condition holds, a SEGMENT once its slot is granted (at once at a module that is
not the host), a REDUCE with its destination, a SEND with its bytes to come. -/
def Obligations.TrussInstructions : Prop :=
  (∀ (s : State) (ctx : BitVec 9) (r : Run) (w : W64) (b : W64), s.atIns ctx 1 = some (r, w) → s.tim.refclkOk = true →
    s.tim.fifths ≤ 5120 * b.toNat → b.toNat % 2 ^ insIfmt w = 0 → r.since < 5120 * b.toNat → Completes (.stepInstr ctx b) s fun t =>
      RunIs t { r with pc := r.pc + 1, since := 5120 * b.toNat } ∧ t.gab = s.gab ∧ t.eav = s.eav ∧ t.pur = s.pur) ∧
  (∀ (s : State) (ctx : BitVec 9) (r : Run) (w : W64),
    let c := s.trs.comm r.comm
    let next : Run := { r with pc := r.pc + 1, since := s.tim.fifths }
    (s.atIns ctx 2 = some (r, w) → (s.waitMet r w = false → exec (.wait ctx) s = .next s) ∧
      (s.waitMet r w = true → Completes (.wait ctx) s fun t => RunIs t next ∧ t = { s with trs := t.trs })) ∧
    (s.atIns ctx 3 = some (r, w) →
      (s.isHost c r.k (insStage w) = false → Completes (.segment ctx) s fun t => RunIs t next ∧ t = { s with trs := t.trs }) ∧
      (s.isHost c r.k (insStage w) = true → r.holds = false → Completes (.segment ctx) s fun t =>
        t.trs.runAt r.ctx = some { r with waitSlot := some (insStage w), handles := r.handles.set (insHandle w) (some (insStage w)) } ∧
        t = { s with trs := t.trs })) ∧
    (s.atIns ctx 4 = some (r, w) → (insMode w = 1 → ∀ f ∈ s.trs.relays, relayFor r (insStage w) f = false) →
      let relay := decide (insMode w = 1)
      let bytes := s.sendBytes r relay (insStage w)
      Completes (.sendInstruction ctx) s fun t =>
        (bytes = 0 → RunIs t { next with closed := r.closed ++ [(insStage w, relay)] }) ∧
        (bytes ≠ 0 → t.trs.runAt r.ctx = some { next with sends := r.sends ++ [{ stage := insStage w, relay := relay, left := bytes }] }) ∧
        t = { s with trs := t.trs }) ∧
    (s.atIns ctx 5 = some (r, w) → s.trs.findRun r.bundle r.k = some r → ∀ st, r.handles.getD (insHandle w) none = some st →
      (∀ h ∈ r.handed, h.stage ≠ st) → Completes (.reduce ctx) s fun t =>
        (s.isHost c r.k (insStage w) = false → RunIs t next) ∧
        (s.isHost c r.k (insStage w) = true → RunIs t { next with
          dests := { stage := st, dest := insMode w, counter := BitVec.ofNat 12 (s.insCounter c w) } :: r.dests.filter fun e => decide (e.stage ≠ st) }) ∧
        t = { s with trs := t.trs }) ∧
    (s.atIns ctx 6 = some (r, w) → Completes (.signalInstruction ctx) s fun t =>
      RunIs t next ∧ t.eav = s.eav ∧ t.sec = s.sec ∧ t.gab = s.gab ∧
      (insMode w = 1 →
        let f := s.trsFrame opSignal 32 (fpaOf 0xFF (s.carrier c r.k) (c.area false (bundleSeq r.bundle)))
          (trsAux r.bundle (4 * r.k) (s.insCounter c w)) []
        ∀ m, s.dest f.hdr = .port m → t.frames (portQueue m.val (vcOf f.hdr)) = s.frames (portQueue m.val (vcOf f.hdr)) ++ [f])) ∧
    (∀ (n : Byte) (i : Instance) (st : Nat), s.gab.ready = true → s.pwr.brake = false → (s.gab.slot n.toNat).state = .free →
      s.grantTo n.toNat = some (r, i, st) → Completes (.slotGrant n) s fun t =>
        (t.gab.slot n.toNat).state = .active ∧ (t.gab.slot n.toNat).bundle = r.bundle ∧ (t.gab.slot n.toNat).leaves = c.leaves st ∧
        (t.gab.slot n.toNat).got = [] ∧ (∀ m, m ≠ n.toNat → t.gab.slot m = s.gab.slot m) ∧
        RunIs t { next with waitSlot := none, admitted := r.admitted ++ [st] } ∧ t = { s with trs := t.trs, gab := t.gab }))

/-- R236, R240, R249, R371: the collective frames at the head of the sequencer's queue. A READY is noted; a RAISE of a segment that is not
open, or from another source, is refused and reported, and one at the rack stage goes to Gable as CONTRIB; a RELAY frame waits for its SEND,
or is taken by it. The model's choice: a frame whose run has not started, or whose SEND is not open, waits with the sequencer (log entry 57,
DEDUCED). -/
def Obligations.CollectiveFrames : Prop :=
  ∀ (s : State) (e : Entry) (rest : List Entry), (s.queue (agentQueue agTruss 1)).items = e :: rest → s.gut.phase = .none →
    let h := e.frame.hdr
    let b : W32 := BitVec.ofNat 32 (fld h.aux 0 32)
    (h.opcode = opSignal → kindOf h = 5 → Completes .ready s fun t =>
      t.trs = { s.trs with readied := s.trs.readied ++ [(b, BitVec.ofNat 16 (fld h.aux 32 16))] } ∧ t.gab = s.gab ∧ t.gut = s.gut) ∧
    (h.opcode = opSignal → kindOf h = 0 → Completes .raise s fun t => t.trs = s.trs ∧ t.gab = s.gab ∧ t.gut = s.gut ∧
      t.frames (agentQueue agTruss 1) = rest.map fun e => e.frame) ∧
    (∀ c, h.opcode = opSeg → kindOf h = 0 → s.raiseCode h = some c → Completes .raise s fun t =>
      t.trs.runs = s.trs.runs ∧ t.trs.err = satFld s.trs.err 16 16 1 ∧ t.gab = s.gab ∧ Counted s t 11 1) ∧
    (∀ r, h.opcode = opSeg → kindOf h = 0 → s.raiseCode h = none → fld h.aux 32 2 = 0 → s.trs.findRun b (fld h.aux 34 14) = some r →
      Completes .raise s fun t => ∃ g, t.frames (agentQueue agGable 1) = s.frames (agentQueue agGable 1) ++ [g] ∧ g.data = e.frame.data ∧
        g.hdr.opcode = opSeg ∧ kindOf g.hdr = 1 ∧ fld g.hdr.aux 0 48 = fld h.aux 0 48 ∧
        fld g.hdr.aux 48 8 = ((s.trs.comm r.comm).members.findIdx? fun m => decide (m = h.srcNode.toNat)).getD 0 ∧ t.gab = s.gab ∧ t.eav = s.eav) ∧
    (h.opcode = opSeg → kindOf h = 3 → s.trs.relayWaits h = false →
      (s.trs.findRun b (fld h.aux 34 14) = none → Completes .relay s fun t =>
        t.trs = { s.trs with relays := s.trs.relays ++ [e.frame] } ∧ t.gab = s.gab ∧ t.gut = s.gut) ∧
      (∀ r, s.trs.findRun b (fld h.aux 34 14) = some r → (∃ o ∈ r.sends, o.stage = fld h.aux 32 2 ∧ o.relay = true) →
        Completes .relay s fun t => RunIs t (r.took (fld h.aux 32 2) true (32 * e.frame.data.length)) ∧ t.trs.relays.length ≤ s.trs.relays.length ∧
          t.gab = s.gab ∧ t.eav = s.eav))

/-- R309 to R315: while an item comes at each beat its counters and Gauge's own measurements are added to the running period, and the
module's counters start again, whether Gauge has power or not; a beat without one marks the period and is measured on, and what it would
have carried is in no other. A move between a bay and no bay, and each interval, closes the period with a signed record: under the next SEQ,
chained by its hash, the next period opening at its end; a move at an interval boundary leaves the closing to the INTERVAL record (that the
record may come before the item or after it is the model's reading, log entry 98). R313, R316, R317: the loss of power closes the period and
stops Gauge; its return opens the next one. Tamper writes one record and destroys the key, and no record follows. The seal-status output is
high only while Gauge has power or its hold-up of at least 2 s runs (by the module's clock, the model's choice, log entry 98), the seal is
intact and the key exists. A read returns up to 16 records by SEQ, while they are not overwritten, or the certificate, and changes nothing. -/
def Obligations.GaugeRecords : Prop :=
  ((∀ (s : State) (b : W64) (m : GaugeMeas), s.tim.refclkOk = true → s.tim.fifths ≤ 5120 * b.toNat → s.gau.powered = true → s.gau.next = none →
    let i := s.gaugeItem
    (billed s.gau.bayState = billed i.bayState → Completes (.gaugeBeatItem b m) s fun t =>
      t.gau.period.energy = s.gau.period.energy + m.energy ∧ t.gau.period.gable = s.gau.period.gable + i.work ∧
      t.gau.period.occRest = s.gau.period.occRest + i.occupied ∧ t.gau.period.start = s.gau.period.start ∧
      t.gau.period.bytes = List.zipWith (fun a b => a + BitVec.ofNat 64 b) s.gau.period.bytes i.bytes ∧
      t.gau.nextSeq = s.gau.nextSeq ∧ t.gau.records = s.gau.records ∧ t.gau.bayState = i.bayState ∧ t.gau.channelOk = true ∧
      t.pur = { s.pur with bytesIn := [0, 0, 0, 0, 0, 0] } ∧ t.gab = { s.gab with told := s.gab.work } ∧ t.eav = s.eav) ∧
    (billed s.gau.bayState ≠ billed i.bayState → ¬ (i.sync = true ∧ boundary b = true) → s.gau.keyOk = true → Completes (.gaugeBeatItem b m) s fun t =>
      t.gau.nextSeq = s.gau.nextSeq + 1 ∧ t.gau.bayState = i.bayState ∧ t.gau.period.start = b ∧ t.gau.period.energy = 0 ∧
      t.gau.lastHash = digestOf (Tab.get [] t.gau.records (s.gau.nextSeq % gaugeRing)) ∧
      t.gau.admission = s.gau.admission + (if billed s.gau.bayState = false ∧ i.bayState = 3 then 1 else 0)) ∧
    (billed s.gau.bayState ≠ billed i.bayState → i.sync = true → boundary b = true → Completes (.gaugeBeatItem b m) s fun t =>
      t.gau.nextSeq = s.gau.nextSeq ∧ t.gau.records = s.gau.records ∧
      (s.gau.period.start ≠ b → t.gau.next = some (i.bayState, i.tag, i.shape) ∧ t.gau.bayState = s.gau.bayState) ∧
      (s.gau.period.start = b → t.gau.next = none ∧ t.gau.bayState = i.bayState))) ∧
  (∀ (s : State) (b : W64) (m : GaugeMeas), s.tim.refclkOk = true → s.tim.fifths ≤ 5120 * b.toNat → s.gau.powered = false →
    Completes (.gaugeBeatItem b m) s fun t => t.gau = s.gau ∧ t.pur = { s.pur with bytesIn := [0, 0, 0, 0, 0, 0] } ∧
      t.gab = { s.gab with told := s.gab.work } ∧ t.eav = s.eav) ∧
  (∀ (s : State) (b : W64) (m : GaugeMeas), s.gau.powered = true → s.gau.next = none → Completes (.channelLost b m) s fun t =>
    t.gau.channelOk = false ∧ t.gau.period.lost = true ∧ t.gau.period.energy = s.gau.period.energy + m.energy ∧
    t.gau.nextSeq = s.gau.nextSeq ∧ t.pur = { s.pur with bytesIn := [0, 0, 0, 0, 0, 0] } ∧
    t.gab = { s.gab with told := s.gab.work } ∧ t = { s with gau := t.gau, pur := t.pur, gab := t.gab, fresh := t.fresh }) ∧
  (∀ (s : State) (b elapsed : W64) (own : Bool), s.gau.powered = true → own ≠ s.gau.sync → (own = true ∨ (boundary b = true ∧ s.gau.period.start ≠ b)) →
    s.gau.keyOk = true → s.gau.next = none → Completes (.interval b elapsed own) s fun t =>
      let r := signRecord (s.gau.recordBody recInterval ((suspect elapsed).toNat + 2 * own.toNat) b s.freeNat)
      (∀ k, Tab.get [] t.gau.records k = if k = s.gau.nextSeq % gaugeRing then r else Tab.get [] s.gau.records k) ∧
      t.gau.nextSeq = s.gau.nextSeq + 1 ∧ t.gau.lastHash = digestOf r ∧
      t.gau.period = { Period.reset with start := b, occRest := s.gau.period.occRest % 10 ^ 9 } ∧
      t = { s with gau := t.gau, fresh := t.fresh })) ∧
  ((∀ s : State, s.gau.powered = true → s.gau.next = none → Completes .powerLoss s fun t =>
    t.gau.powered = false ∧ t.gaugeSeal = (s.gau.sealOk && s.gau.keyOk) ∧ t.gau.nextSeq = s.gau.nextSeq + s.gau.keyOk.toNat ∧
    10 ^ 10 ≤ t.pins.sealUntil - s.tim.up ∧ t = { s with gau := t.gau, pins := { s.pins with sealUntil := t.pins.sealUntil }, fresh := t.fresh }) ∧
  (∀ s : State, s.gaugeSeal = true → s.gau.sealOk = true ∧ s.gau.keyOk = true ∧ (s.gau.powered = true ∨ s.tim.up < s.pins.sealUntil)) ∧
  (∀ (s : State) (b : W64), s.gau.powered = false → Completes (.powerUp b) s fun t =>
    t.gau.powered = true ∧ t.gaugeSeal = (s.gau.sealOk && s.gau.keyOk) ∧ t.gau.nextSeq = s.gau.nextSeq + s.gau.keyOk.toNat ∧ (s.gau.keyOk = true → t.gau.period.start = b) ∧
    t = { s with gau := t.gau, fresh := t.fresh }) ∧
  (∀ s : State, s.gau.sealOk = true → Completes .tamper s fun t =>
    t.gau.sealOk = false ∧ t.gau.keyOk = false ∧ t.gaugeSeal = false ∧ t.gau.nextSeq = s.gau.nextSeq + s.gau.keyOk.toNat ∧
    t = { s with gau := t.gau, fresh := t.fresh }) ∧
  (∀ (s : State) (b e : W64) (own : Bool), s.gau.keyOk = false → Completes (.interval b e own) s fun t =>
    t.gau.records = s.gau.records ∧ t.gau.nextSeq = s.gau.nextSeq) ∧
  (∀ (s : State) (first : W64) (n : Byte), Completes (.logRead first n) s fun t =>
    ∃ l, t = { s with outputs := s.outputs ++ [.gauge l] } ∧ l.length ≤ 16 ∧
      ∀ seq, first.toNat ≤ seq → seq < first.toNat + min n.toNat 16 → seq < s.gau.nextSeq → s.gau.nextSeq ≤ seq + gaugeRing →
        Tab.get [] s.gau.records (seq % gaugeRing) ∈ l) ∧
  (∀ s : State, exec .certRead s = .next { s with outputs := s.outputs ++ [.cert Config.gauCert] }))

/-- R322 to R324, R327, R332, R366: at each interval boundary the ceiling moves toward the cap, by at most a step above the last interval's
power or below it, both as the registers give them then (R322), CAP_LAG stands while it is above the cap or is not met, and ingress is paced
while the demand exceeds it (the model's choices, log entry 61: a ceiling is not met where the power stands more than 30 W above the one it
was held to, and CAP_LAG that is set then stays while it stands so above the new one; every ingress port paces). Only the rack controller
writes the cap; 2^22 beats without a write set RC_LOST. BRAKE_N sets the ceiling at once to the brake's target and paces every port; its
release ends both. R320, R328 to R330: VIN in the outer ranges is reported; outside them the hold-up sequence tears the bay down with fatal
fault 15 and turns ports and rails off; a module that does not run, or stands in reset, only loses its rails and retention, and VIN that
comes within 300 V to 420 V behind PWR_EN starts conversion (R366). Coolant readings set INLET_HIGH and FLOW_LOW, THROTTLE begins at
THROTTLE_T, and under it the thermal ceiling falls by a step at each interval until Tj stands 5 °C below, then rises until it limits no
longer (log entry 61); PUMP_LOST begins below FLOW_LOST; at SHUTDOWN_T the orderly shutdown begins with fatal fault 15: the ceiling goes
down to idle by steps, and the module is OFF once its ports and eaves are off (how many go off in an interval is the model's choice, log
entry 99). -/
def Obligations.PowerAndCooling : Prop :=
  ((∀ (s : State) (b : W64) (m : PwrMeas), s.tim.refclkOk = true → s.tim.fifths ≤ 5120 * b.toNat → b.toNat % 64 = 0 →
    s.pwr.inputLost = false → s.pwr.off = false → s.pins.brakeN = true → s.pwr.brake = false → s.pwr.ramp = false → s.pwr.started = true →
    s.pwr.thermalCeiling = none → s.pwr.throttle = false → s.pwr.pumpLost = false → Completes (.governorInterval b m) s fun t =>
      let prev := watt * m.power.toNat
      let cap := s.pwr.latch.capNow
      t.pwr.ceiling = (if s.pwr.ceiling ≤ cap then min cap (prev + s.pwr.latch.step) else max cap (min s.pwr.ceiling prev - s.pwr.latch.step)) ∧
      t.pwr.capHeld = s.pwr.cap ∧ t.pwr.slewHeld = s.pwr.slew ∧ t.pwr.braked = false ∧
      t.pwr.now = m.power ∧ t.pwr.paced = decide (t.pwr.ceiling < watt * m.demand.toNat) ∧ t.pwr.off = false ∧
      (∀ n : Fin 144, (t.mport n.val).cred.paced = t.pwr.paced ∧
        t.mport n.val = { s.mport n.val with cred := { (s.mport n.val).cred with paced := t.pwr.paced } }) ∧
      t.pwr.capLag = (decide (cap < t.pwr.ceiling) || s.pwr.unmet m.power.toNat || (s.pwr.capLag && t.pwr.unmet m.power.toNat)) ∧ t.eav = s.eav ∧ t.pur = s.pur ∧ t.sec = s.sec) ∧
  (∀ (s : State) (who : Requester) (v : W32), (¬ (who = .rackController ∧ s.mgmt who = true) → exec (.pwrCap who v) s = .next s) ∧
    (who = .rackController → s.mgmt who = true → exec (.pwrCap who v) s =
      .next { s with pwr := { s.pwr with cap := v.truncate 16, lastCap := s.beat, rcLost := false } })) ∧
  (∀ (s : State) (b : W64), s.tim.refclkOk = true → s.tim.fifths ≤ 5120 * b.toNat → s.pwr.rcLost = false →
    (s.pwr.lastCap + 2 ^ 22 ≤ b.toNat → Completes (.rcLost b) s fun t => t.pwr = { s.pwr with rcLost := true } ∧ Counted s t 17 1 ∧ t.sec = s.sec) ∧
    (b.toNat < s.pwr.lastCap + 2 ^ 22 → Completes (.rcLost b) s fun t => t.pwr = s.pwr ∧ t.gut = s.gut)) ∧
  (∀ (s : State) (w : W16), (s.pins.resetN = false → exec (.brakeAssert w) s = .next { s with pins := { s.pins with brakeN := false } }) ∧
    (s.pins.resetN = true → s.pwr.brake = false → s.pwr.ramp = false → Completes (.brakeAssert w) s fun t =>
      t.pwr.brake = true ∧ t.pwr.brakeTarget = max (450000 * w.toNat) (watt * max 800 s.pwr.brakeFloor.toNat) ∧
      t.pwr.ceiling = s.pwr.underThermal t.pwr.brakeTarget ∧ t.pwr.ballast = s.pwr.ballast ∧ t.pwr.braked = true ∧ t.pwr.brakeCount = satAdd s.pwr.brakeCount 1 ∧
      (∀ n : Fin 144, (t.mport n.val).cred.paced = true) ∧ t.pins.brakeN = false ∧ t.eav = s.eav ∧ t.pur = s.pur ∧ t.sec = s.sec) ∧
    (s.pwr.brake = true → exec (.brakeAssert w) s = .next { s with pins := { s.pins with brakeN := false } })) ∧
  (∀ (s : State) (b : W64), s.pwr.brake = true → Completes (.brakeRelease b) s fun t =>
    t.pwr = { s.pwr with brake := false } ∧ t.pins = { s.pins with brakeN := true } ∧
    (∀ n : Fin 144, (t.mport n.val).cred.paced = s.pwr.paced) ∧ t.eav = s.eav ∧ t.gut = s.gut)) ∧
  ((∀ (s : State) (v : W16), (2700 ≤ v.toNat ∧ v.toNat < 3000) ∨ (4200 < v.toNat ∧ v.toNat ≤ 4300) → Completes (.vinRange v) s fun t =>
    t.pwr.vinRange = true ∧ t.pwr.vin = v ∧ t.pins = { s.pins with vin := v } ∧ Counted s t 17 1 ∧ t.pwr.inputLost = s.pwr.inputLost ∧ t.sec = s.sec ∧ t.ports = s.ports) ∧
  (∀ (s : State) (v : W16), 2700 ≤ v.toNat → v.toNat ≤ 4300 →
    s.pins.rails = true ∨ s.pins.pwrEn = false ∨ s.pins.mated = false ∨ v.toNat < 3000 ∨ 4200 < v.toNat → Completes (.inputLoss v) s fun t =>
    t.pwr.vin = v ∧ t.pwr.inputLost = s.pwr.inputLost ∧ t = { s with pwr := t.pwr, pins := { s.pins with vin := v } }) ∧
  (∀ (s : State) (v : W16), s.pins.rails = false → s.pins.pwrEn = true → s.pins.mated = true → 3000 ≤ v.toNat → v.toNat ≤ 4200 →
    ∀ i ∈ [Instr.vinRange v, .inputLoss v], Completes i s fun t => t.pins = { s.pins with vin := v, rails := true, sealUntil := s.pins.sealUntil - s.tim.up } ∧ t.pwr.vin = v ∧
      t.pwr.off = s.pwr.off ∧ t.ports = [] ∧ t.sof.started = false ∧ t.eav.mem = s.eav.mem ∧ t.gau = s.gau ∧ t.jeb = s.jeb) ∧
  (∀ (s : State) (v : W16), v.toNat < 2700 ∨ 4300 < v.toNat → s.sof.started = false ∨ s.pins.resetN = false →
    Completes (.inputLoss v) s fun t => t.pins = { s.pins with rails := false, retain := false, vin := v } ∧ t.pwr.inputLost = s.pwr.inputLost ∧
      t = { s with pwr := t.pwr, pins := t.pins }) ∧
  (∀ (s : State) (v : W16), v.toNat < 2700 ∨ 4300 < v.toNat → s.sof.started = true → s.pins.resetN = true → s.pwr.inputLost = false →
    Completes (.inputLoss v) s fun t =>
    t.pwr.inputLost = true ∧ t.pins = { s.pins with rails := false, retain := false, vin := v } ∧
    (∀ n : Fin 144, (t.mport n.val).train.state = .disabled ∧ (t.mport n.val).laneIdle = true) ∧
    (s.admitted = true → s.gut.phase = .none → fld t.gut.fatal 0 8 = 15 ∧ bitAt t.gut.fatal 63 = true ∧
      t.gut.phase ∈ [Phase.stopping, .draining] ∧ t.sec.state = .teardown) ∧ t.eav = s.eav ∧ t.gau = s.gau) ∧
  (∀ (s : State) (m : CoolMeas), Completes (.inletHigh m) s fun t =>
    t.pwr.cool = m ∧ t.pwr.inletHigh = decide (40 < m.inlet.toNat) ∧ t.pwr.flowLow = decide (m.flow.toNat < s.pwr.flowMin) ∧
    Counted s t 18 ((t.pwr.inletHigh && !s.pwr.inletHigh).toNat + (t.pwr.flowLow && !s.pwr.flowLow).toNat) ∧
    t.pwr.throttle = s.pwr.throttle ∧ t.pwr.ceiling = s.pwr.ceiling ∧ t.sec = s.sec ∧ t.ports = s.ports) ∧
  (∀ (s : State) (m : CoolMeas),
    (s.pwr.throttle = false → Completes (.throttle m) s fun t =>
      t.pwr.throttle = decide (s.pwr.throttleT ≤ m.tj.toNat) ∧ (t.pwr.throttle = true → t.pwr.thermalFall = true) ∧ t.pwr.ramp = s.pwr.ramp ∧ t.sec = s.sec ∧ t.ports = s.ports) ∧
    (s.pwr.pumpLost = false → Completes (.pumpLost m) s fun t =>
      t.pwr.pumpLost = decide (m.flow.toNat < s.pwr.flowLost) ∧ t.pwr.ramp = s.pwr.ramp ∧ t.sec = s.sec ∧ t.ports = s.ports) ∧
    (s.pwr.ramp = false → s.pwr.off = false → s.pwr.shutdownT ≤ m.tj.toNat → ∀ x, Completes (.orderlyShutdown m x) s fun t =>
      t.pwr.ramp = true ∧ (s.admitted = true → s.gut.phase = .none → TornDown t 15) ∧ t.eav = s.eav ∧ t.gau = s.gau) ∧
    (m.tj.toNat < s.pwr.shutdownT → Completes (.orderlyShutdown m false) s fun t => t.pwr.ramp = s.pwr.ramp ∧ t.sec = s.sec)) ∧
  (∀ (s : State) (b : W64) (m : PwrMeas), s.tim.refclkOk = true → s.tim.fifths ≤ 5120 * b.toNat → b.toNat % 64 = 0 →
    s.pwr.inputLost = false → s.pwr.off = false → s.pins.brakeN = true → s.pwr.brake = false → s.pwr.started = true →
    (∀ c, s.pwr.ramp = false → s.pwr.throttle = true → s.pwr.pumpLost = false → s.pwr.thermalCeiling = some c →
      Completes (.governorInterval b m) s fun t =>
        (s.pwr.thermalFall = true → s.pwr.throttleT - 5 ≤ s.pwr.cool.tj.toNat →
          t.pwr.thermalCeiling = some (c - s.pwr.latch.step) ∧ t.pwr.throttle = true ∧ t.pwr.thermalFall = true) ∧
        (s.pwr.thermalFall = true → s.pwr.cool.tj.toNat < s.pwr.throttleT - 5 → t.pwr.thermalFall = false) ∧
        (s.pwr.thermalFall = false ∨ s.pwr.cool.tj.toNat < s.pwr.throttleT - 5 →
          (c + s.pwr.latch.step < s.pwr.latch.capNow → t.pwr.thermalCeiling = some (c + s.pwr.latch.step) ∧ t.pwr.throttle = true) ∧
          (s.pwr.latch.capNow ≤ c + s.pwr.latch.step → t.pwr.thermalCeiling = none ∧ t.pwr.throttle = false)) ∧ t.eav = s.eav ∧ t.sec = s.sec) ∧
    (s.pwr.ramp = true → Completes (.governorInterval b m) s fun t =>
      t.pwr.ceiling = max (Config.idlePower * watt) (min s.pwr.ceiling (watt * m.power.toNat) - s.pwr.latch.step) ∧ t.eav.mem = s.eav.mem ∧
      (Config.idlePower * watt < t.pwr.ceiling → t.pwr.off = false ∧ t.eav = s.eav ∧ t.pur = s.pur) ∧
      (t.pwr.ceiling ≤ Config.idlePower * watt → s.pwr.offPorts = 144 → s.pwr.offEaves = 32 →
        t.pwr.off = true ∧ t.pwr.ramp = false ∧ t.pur = { s.pur with ready := false } ∧ t.gab.ready = false ∧ t.trs.ready = false ∧
        t.eav = s.eav))))

/-- R11, R199, R277, R303, R345, R346, R366: RESET_N low for 10 µs resets the module and leaves memory, the retained records, Gauge and the
Jalem block; a shorter one below 2 µs does nothing, and one between has no effect that the manual gives: that it stops the model is the
model's choice (log entry 70). The rails come up with PWR_EN, as a reset of the module (log entry 62), only while VIN is in range and the
connector is fully mated. The module starts once RESET_N is high, from OFF only after RESET_N was low and cool, with coolant flowing, else
RESTART_BLOCKED is set: from a COMMITTED slot with Thatch, with none in Sarking-only operation; with retention in the state of R277, without
it to zeroize the whole module (what else a failed retention clears, and what Sarking alone leaves unloaded, is log entry 63); a READY slot
runs as TRIAL where no bay is retained (R352); with a stage that does not match its digest it halts. -/
def Obligations.ResetAndStart : Prop :=
  (∀ (s : State) (us : Nat), (us < 2 → exec (.resetNLow us) s = .next s) ∧
    (2 ≤ us → us < 10 → exec (.resetNLow us) s = .fault .resetPulseUnspecified) ∧
    (10 ≤ us → Completes (.resetNLow us) s fun t =>
      t.pins.resetN = false ∧ t.pwr.off = s.pwr.off ∧ t.pwr.offLow = s.pwr.off ∧ t.ports = [] ∧ t.tim = Tim.reset ∧ t.pur = Pur.reset ∧ t.trs = Trs.reset ∧ t.eav.mem = s.eav.mem ∧
      t.eav.key = s.eav.key ∧ t.eav.wins = [] ∧ t.sec.state = s.sec.state ∧ t.sec.tag = s.sec.tag ∧ t.sec.linkKeys = [] ∧
      t.gut.fatal = s.gut.fatal ∧ t.gut.history = s.gut.history ∧ t.gut.fencePorts = s.gut.fencePorts ∧ t.gut.caps = [] ∧
      t.sof.slots = s.sof.slots ∧ t.sof.copies = s.sof.copies ∧ t.sof.otp = s.sof.otp ∧ t.sof.started = false ∧ t.gau = s.gau ∧ t.jeb = s.jeb)) ∧
  (∀ s : State, s.pins.rails = true ∨ s.pins.mated = false ∨ s.pins.vin.toNat < 3000 ∨ 4200 < s.pins.vin.toNat →
    exec .pwrEnHigh s = .next { s with pins := { s.pins with pwrEn := true } }) ∧
  (∀ s : State, s.pins.rails = false → s.pins.mated = true → 3000 ≤ s.pins.vin.toNat → s.pins.vin.toNat ≤ 4200 → Completes .pwrEnHigh s fun t =>
    t.pins = { s.pins with pwrEn := true, rails := true, sealUntil := s.pins.sealUntil - s.tim.up } ∧ t.ports = [] ∧ t.pwr.off = s.pwr.off ∧ t.sof.started = false ∧ t.eav.mem = s.eav.mem ∧
    t.gau = s.gau ∧ t.jeb = s.jeb) ∧
  (∀ s : State, s.sof.started = false ∨ s.pins.resetN = false →
    exec .pwrEnLow s = .next { s with pins := { s.pins with pwrEn := false, rails := false, retain := false } }) ∧
  (∀ s : State, s.sof.started = true → s.pins.resetN = true → s.pwr.inputLost = false → Completes .pwrEnLow s fun t =>
    t.pins = { s.pins with pwrEn := false, rails := false, retain := false } ∧ t.pwr.inputLost = true ∧
    (∀ n : Fin 144, (t.mport n.val).train.state = .disabled) ∧ t.eav = s.eav ∧ t.gau = s.gau) ∧
  (∀ (s : State) (tj flow : Byte) (slot : BitVec 4) (ok : Bool), s.sof.started = true ∨ s.sof.halted = true ∨ (s.pwr.off = true ∧ s.pwr.offLow = false) →
    exec (.moduleStart tj flow slot ok) s = .next s) ∧
  (∀ (s : State) (tj flow : Byte) (slot : BitVec 4) (ok : Bool), s.sof.started = false → s.sof.halted = false → s.pwr.off = true → s.pwr.offLow = true →
    s.pins.rails = true → 80 ≤ tj.toNat ∨ flow.toNat < s.pwr.flowMin → exec (.moduleStart tj flow slot ok) s =
      .next { s with pins := { s.pins with resetN := true, external := false }, pwr := { s.pwr with restartBlocked := true, offLow := false } }) ∧
  (∀ (s : State) (tj flow : Byte) (slot : BitVec 4), s.sof.started = false → s.sof.halted = false →
    s.pwr.off = false ∨ (s.pwr.offLow = true ∧ tj.toNat < 80 ∧ s.pwr.flowMin ≤ flow.toNat) →
    (s.pins.rails = false → ∀ ok, exec (.moduleStart tj flow slot ok) s = .next { s with pins := { s.pins with resetN := true, external := false } }) ∧
    (s.pins.rails = true → ∀ ok, ok = false ∨ s.sof.stage ≠ [] → Completes (.moduleStart tj flow slot ok) s fun t =>
      t.sof.halted = true ∧ (ok = false → ∃ a, a < stageBytes ∧ t.stageByte a ≠ some (Config.stageByte a)) ∧
      t = { s with pins := { s.pins with resetN := true, external := false }, sof := { s.sof with halted := true, stage := t.sof.stage },
                   fresh := t.fresh }) ∧
    (s.pins.rails = true → s.sof.stage = [] → Completes (.moduleStart tj flow slot true) s fun t =>
      t.sof.started = true ∧ t.pins.resetN = true ∧ t.pins.retain = true ∧ t.pwr.off = false ∧ t.jeb = s.jeb ∧ t.gau = s.gau ∧
      (s.pins.retain = true → t.sec.state = s.sec.state.kept ∧ t.eav.retained = true ∧ t.eav.mem = s.eav.mem ∧
        (s.sec.state.kept = .forming → t.eav.key = s.eav.key ∧ t.sec.tag = s.sec.tag)) ∧
      (s.pins.retain = false → t.sec.state = .zeroizing ∧ t.sec.cold = true ∧ t.eav.key = none ∧ t.eav.durs = [] ∧ t.sec.tag = 0) ∧
      (s.sof.slotIn .ready = none → s.sof.slotIn .committed = none → t.sof.noThatch = true ∧ t.sof.thatchRun = false ∧
        t.pur.ready = s.pur.ready ∧ t.gab.ready = decide (t.sec.state ≠ .zeroizing) ∧ t.gab.zeroizing = decide (t.sec.state = .zeroizing)) ∧
      (∀ i, s.sof.slotIn .ready = none → s.sof.slotIn .committed = some i → t.sof.thatchRun = true ∧ t.sof.thatchSlot.toNat = i ∧
        t.sof.trial = false ∧ t.pur.ready = true ∧ t.gab.ready = decide (t.sec.state ≠ .zeroizing) ∧ t.trs.ready = true ∧ ∀ n, n < 32 → (t.eave n).ready = true) ∧
      (∀ i, s.sof.slotIn .ready = some i → s.pins.retain = false ∨ s.sec.state.kept = .free → t.sof.thatchRun = true ∧
        t.sof.thatchSlot.toNat = i ∧ t.sof.trial = true ∧ (t.sof.slots.getD i FwSlot.reset).state = .trial)))

/-- R337, R347, R350 to R355, R364, R367: an update begins, with the slot or copy that is not in use left invalid, one at a time: another is
answered busy. A complete image, where it is accepted, a configuration under the owner's key, stands in it, and one that is not accepted, or
that breaks off, leaves it invalid. COMMIT makes the slot on trial COMMITTED, and the other READY, but for an EMPTY one, which holds no
valid image; without it in time, or on a watchdog expiry during the trial, Thatch runs again from the COMMITTED slot and the trial's is
EMPTY; the third expiry in 2^30 beats leaves Sarking alone. The alert pin is released by its answer, and the flash bus given out only in
reset: a programmer that has it replaces a slot, a copy or a byte of the factory data. The model's choices: an update goes to copy 0 under
CFG_DEFAULT (log entry 64), an image that is not accepted counts at source 21 (log entry 65), and each access of a programmer replaces one
slot, one copy or one factory byte whole and keeps all else (log entry 124). -/
def Obligations.FirmwareAndPins : Prop :=
  (∀ (s : State) (img : FwImage), s.sof.started = true → s.sof.slots.length = 2 →
    let y : FwSlot := { state := .ready, major := img.major, minor := img.minor, svn := img.svn, bytes := img.bytes, sigOk := img.sigOk }
    let taken := img.sigOk = true ∧ img.bytes.length ≤ 0x800000 ∧ img.major = 3 ∧ img.minor.toNat ≤ 4 ∧ s.sof.svnMin.toNat ≤ img.svn.toNat
    (s.sof.updating = none → Completes (.firmwareUpdate img .begins) s fun t =>
      (∃ z, t.sof.slots[s.sof.updateSlot]? = some z ∧ z.state = .empty) ∧
      t.sof.slots[1 - s.sof.updateSlot]? = s.sof.slots[1 - s.sof.updateSlot]? ∧
      (∃ i, t.sof.updating = some (.body i) ∧ i.val = s.sof.updateSlot) ∧
      t = { s with sof := { s.sof with slots := t.sof.slots, updating := t.sof.updating } }) ∧
    (∀ i : Fin 2, s.sof.updating = some (.body i) →
      (taken → Completes (.firmwareUpdate img .completes) s fun t =>
        t.sof.slots[i.val]? = some y ∧ t.sof.slots[1 - i.val]? = s.sof.slots[1 - i.val]? ∧ t.sof.updating = none ∧
        t.gut = s.gut ∧ t.sof.thatchRun = s.sof.thatchRun ∧ t.sof.copies = s.sof.copies ∧ t.sec = s.sec) ∧
      (∀ step, step = .breaksOff ∨ (step = .completes ∧ ¬ taken) → Completes (.firmwareUpdate img step) s fun t =>
        t.sof.slots = s.sof.slots ∧ t.sof.updating = none ∧ Counted s t 21 1 ∧ t.sof.thatchRun = s.sof.thatchRun ∧
        t.sof.copies = s.sof.copies ∧ t.sec = s.sec))) ∧
  (∀ (s : State) (img : CfgImage), s.sof.started = true → s.sof.copies.length = 2 →
    let k := if s.sof.cfgDefault then 0 else 1 - s.sof.cfgCopy.toNat
    (s.sof.updating = none → Completes (.configurationUpdate img .begins) s fun t =>
      t.sof.copies[k]? = some none ∧ t.sof.copies[1 - k]? = s.sof.copies[1 - k]? ∧
      (∃ i, t.sof.updating = some (.copy i) ∧ i.val = k) ∧
      t = { s with sof := { s.sof with copies := t.sof.copies, updating := t.sof.updating } }) ∧
    (∀ i : Fin 2, s.sof.updating = some (.copy i) →
      (imageValid s.sof.otp.owner img = true → Completes (.configurationUpdate img .completes) s fun t =>
        t.sof.copies[i.val]? = some (some img) ∧ t.sof.copies[1 - i.val]? = s.sof.copies[1 - i.val]? ∧ t.sof.updating = none ∧
        t.gut = s.gut ∧ t.sof.slots = s.sof.slots ∧ t.sof.image = s.sof.image ∧ t.pur = s.pur ∧ t.ports = s.ports) ∧
      (∀ step, step = .breaksOff ∨ (step = .completes ∧ imageValid s.sof.otp.owner img = false) →
        Completes (.configurationUpdate img step) s fun t =>
        t.sof.copies = s.sof.copies ∧ t.sof.updating = none ∧ Counted s t 21 1 ∧ t.sof.image = s.sof.image ∧ t.pur = s.pur ∧ t.ports = s.ports))) ∧
  (∀ (s : State) (p : FlashPart) (f : FwImage) (c : CfgImage), s.sof.started = true → s.sof.updating = some p →
    ∀ i ∈ [Instr.firmwareUpdate f .begins, .configurationUpdate c .begins], exec i s = .next { s with outputs := s.outputs ++ [.updateBusy] }) ∧
  (∀ s : State, s.sof.thatchRun = true → s.sof.trial = true →
    (s.sof.slots.getD s.sof.thatchSlot.toNat FwSlot.reset).state = .trial → s.sof.slots.length = 2 →
    ∀ i ∈ [Instr.sofFwCtlCommit .thatch, .sofFwCtlAdvance .thatch], Completes i s fun t =>
      (t.sof.slots.getD s.sof.thatchSlot.toNat FwSlot.reset).state = .committed ∧ t.sof.trial = false ∧
      (∀ y, s.sof.slots[1 - s.sof.thatchSlot.toNat]? = some y →
        t.sof.slots[1 - s.sof.thatchSlot.toNat]? = some (if y.state = .empty then y else { y with state := .ready })) ∧
      t.sof.svnMin.toNat = (if i = .sofFwCtlAdvance .thatch then
        max s.sof.svnMin.toNat (s.sof.slots.getD s.sof.thatchSlot.toNat FwSlot.reset).svn.toNat else s.sof.svnMin.toNat) ∧ t.sec = s.sec) ∧
  (∀ (s : State) (who : Requester), who ≠ .thatch → exec (.sofFwCtlCommit who) s = .next s ∧ exec (.sofFwCtlAdvance who) s = .next s) ∧
  (∀ (s : State) (b : W64), s.sof.thatchRun = true → s.sof.trial = true →
    ∀ i ∈ [Instr.trialTimeout, .watchdog b], Completes i s fun t =>
      (∀ y ∈ t.sof.slots, y.state ≠ .trial) ∧ t.sof.trial = false ∧ Counted s t 21 1 ∧
      (∀ k, s.sof.slotIn .committed = some k → t.sof.thatchRun = true ∧ t.sof.thatchSlot = BitVec.ofNat 1 k) ∧
      (s.sof.slotIn .committed = none → t.sof.thatchRun = false ∧ t.sof.noThatch = true)) ∧
  (∀ (s : State) (b : W64), s.sof.thatchRun = true → s.sof.trial = false → s.tim.refclkOk = true → s.tim.fifths ≤ 5120 * b.toNat →
    Completes (.watchdog b) s fun t =>
      t.sof.expiries = b.toNat :: s.sof.expiries.filter (fun e => decide (b.toNat < e + 2 ^ 30)) ∧ Counted s t 21 1 ∧
      t.sof.slots = s.sof.slots ∧ t.sof.thatchRun = decide (t.sof.expiries.length < 3) ∧
      (3 ≤ t.sof.expiries.length → t.sof.thatchFailed = true) ∧ t.sof.updating = none ∧ t.sec = s.sec ∧ t.eav = s.eav) ∧
  (∀ s : State, exec .alertResponseAddress s = .next { s with gut := { s.gut with alert := false } }) ∧
  (∀ (s : State) (low : Bool), exec (.qspiServiceAccess (.ext low)) s =
    .next { s with pins := { s.pins with qspiExtN := !low, external := low && !s.pins.resetN } }) ∧
  (∀ (s : State) (i : Fin 2) (f : FwImage) (c : Option CfgImage) (o : Fin 1048576) (b : Byte),
    (s.pins.external = false → ∀ a ∈ [QspiAccess.slot i f, .copy i c, .factory o b], exec (.qspiServiceAccess a) s = .next s) ∧
    (s.pins.external = true →
      (s.sof.slots.length = 2 → Completes (.qspiServiceAccess (.slot i f)) s fun t =>
        (∃ y, t.sof.slots[i.val]? = some y ∧ y.bytes = f.bytes ∧ y.svn = f.svn ∧ y.sigOk = f.sigOk) ∧
        t.sof.slots[1 - i.val]? = s.sof.slots[1 - i.val]? ∧ t = { s with sof := { s.sof with slots := t.sof.slots } }) ∧
      (s.sof.copies.length = 2 → Completes (.qspiServiceAccess (.copy i c)) s fun t =>
        t.sof.copies[i.val]? = some c ∧ t.sof.copies[1 - i.val]? = s.sof.copies[1 - i.val]? ∧
        t = { s with sof := { s.sof with copies := t.sof.copies } }) ∧
      (Completes (.qspiServiceAccess (.factory o b)) s fun t =>
        (∀ x, t.sof.factoryByte x = if x = o.val then b else s.sof.factoryByte x) ∧
        t = { s with sof := { s.sof with factory := t.sof.factory } })))
end

