-- ==== Sys2Proof/Laws/Tab.lean ====
section
/-! SUPPORT. Tables: reading an entry after one was put, and the canonical form that every table operation keeps. -/

namespace Sys2Proof

variable {α : Type}

theorem Tab.get_ins_same (d : α) (t : Tab α) (i : Nat) (v : α) : Tab.get d (Tab.ins t i v) i = v := by
  induction t with
  | nil => simp [Tab.ins, Tab.get]
  | cons p t ih =>
    obtain ⟨k, w⟩ := p
    simp only [Tab.ins]
    split
    · simp [Tab.get]
    · split
      · simp [Tab.get]
      · rename_i h1 h2
        simp [Tab.get, Ne.symm h2, ih]

theorem Tab.get_ins_ne (d : α) (t : Tab α) (i j : Nat) (v : α) (h : j ≠ i) : Tab.get d (Tab.ins t i v) j = Tab.get d t j := by
  induction t with
  | nil => simp [Tab.ins, Tab.get, Ne.symm h]
  | cons p t ih =>
    obtain ⟨k, w⟩ := p
    simp only [Tab.ins]
    split
    · simp [Tab.get, Ne.symm h]
    · split
      · rename_i h2
        subst h2
        simp [Tab.get, Ne.symm h]
      · simp [Tab.get, ih]

theorem Tab.get_filter_same (d : α) (t : Tab α) (i : Nat) : Tab.get d (t.filter fun p => decide (p.1 ≠ i)) i = d := by
  induction t with
  | nil => rfl
  | cons p t ih =>
    obtain ⟨k, w⟩ := p
    by_cases h : k = i <;> simp_all [List.filter, Tab.get]

theorem Tab.get_filter_ne (d : α) (t : Tab α) (i j : Nat) (h : j ≠ i) :
    Tab.get d (t.filter fun p => decide (p.1 ≠ i)) j = Tab.get d t j := by
  induction t with
  | nil => rfl
  | cons p t ih =>
    obtain ⟨k, w⟩ := p
    by_cases hk : k = i
    · subst hk
      simpa [List.filter, Tab.get, Ne.symm h] using ih
    · have hk' : (decide (k ≠ i)) = true := by simpa using hk
      simp only [List.filter, hk', Tab.get]
      split <;> simp_all

/-- The entry that was put is read back. -/
@[simp] theorem Tab.get_put_same [DecidableEq α] (d : α) (t : Tab α) (i : Nat) (v : α) : Tab.get d (Tab.put d t i v) i = v := by
  unfold Tab.put
  split
  · rename_i h
    rw [h, Tab.get_filter_same]
  · exact Tab.get_ins_same d t i v

/-- Every other entry is as before. -/
theorem Tab.get_put_ne [DecidableEq α] (d : α) (t : Tab α) (i j : Nat) (v : α) (h : j ≠ i) :
    Tab.get d (Tab.put d t i v) j = Tab.get d t j := by
  unfold Tab.put
  split
  · exact Tab.get_filter_ne d t i j h
  · exact Tab.get_ins_ne d t i j v h

/-- Both cases of a read after a write. -/
theorem Tab.get_put [DecidableEq α] (d : α) (t : Tab α) (i j : Nat) (v : α) :
    Tab.get d (Tab.put d t i v) j = if j = i then v else Tab.get d t j := by
  split
  · rename_i h
    subst h
    simp
  · rename_i h
    exact Tab.get_put_ne d t i j v h

/-! ### The canonical form -/

theorem Tab.wfFrom_mono [DecidableEq α] (d : α) (t : Tab α) (a b : Nat) (h : a ≤ b) (w : Tab.wfFrom d b t = true) :
    Tab.wfFrom d a t = true := by
  cases t with
  | nil => rfl
  | cons p t =>
    obtain ⟨k, v⟩ := p
    simp only [Tab.wfFrom, Bool.and_eq_true, decide_eq_true_eq] at w ⊢
    exact ⟨⟨Nat.le_trans h w.1.1, w.1.2⟩, w.2⟩

theorem Tab.wfFrom_filter [DecidableEq α] (d : α) (f : Nat × α → Bool) (t : Tab α) (lo : Nat) (w : Tab.wfFrom d lo t = true) :
    Tab.wfFrom d lo (t.filter f) = true := by
  induction t generalizing lo with
  | nil => rfl
  | cons p t ih =>
    obtain ⟨k, v⟩ := p
    simp only [Tab.wfFrom, Bool.and_eq_true, decide_eq_true_eq] at w
    simp only [List.filter]
    split
    · simp only [Tab.wfFrom, Bool.and_eq_true, decide_eq_true_eq]
      exact ⟨w.1, ih _ w.2⟩
    · exact Tab.wfFrom_mono d _ lo (k + 1) (by omega) (ih _ w.2)

theorem Tab.wfFrom_ins [DecidableEq α] (d : α) (t : Tab α) (lo i : Nat) (v : α) (hv : v ≠ d) (hi : lo ≤ i)
    (w : Tab.wfFrom d lo t = true) : Tab.wfFrom d lo (Tab.ins t i v) = true := by
  induction t generalizing lo with
  | nil => simp [Tab.ins, Tab.wfFrom, hv, hi]
  | cons p t ih =>
    obtain ⟨k, u⟩ := p
    simp only [Tab.wfFrom, Bool.and_eq_true, decide_eq_true_eq] at w
    simp only [Tab.ins]
    split
    · simp only [Tab.wfFrom, Bool.and_eq_true, decide_eq_true_eq]
      exact ⟨⟨hi, hv⟩, ⟨by omega, w.1.2⟩, w.2⟩
    · split
      · rename_i h2
        subst h2
        simp only [Tab.wfFrom, Bool.and_eq_true, decide_eq_true_eq]
        exact ⟨⟨hi, hv⟩, w.2⟩
      · simp only [Tab.wfFrom, Bool.and_eq_true, decide_eq_true_eq]
        exact ⟨w.1, ih _ (by omega) w.2⟩

/-- Writing one entry keeps the canonical form. -/
theorem Tab.wf_put [DecidableEq α] (d : α) (t : Tab α) (i : Nat) (v : α) (w : Tab.wf d t = true) : Tab.wf d (Tab.put d t i v) = true := by
  unfold Tab.put
  split
  · exact Tab.wfFrom_filter d _ t 0 w
  · rename_i h
    exact Tab.wfFrom_ins d t 0 i v h (Nat.zero_le _) w

/-- Dropping entries keeps the canonical form. -/
theorem Tab.wf_filter [DecidableEq α] (d : α) (f : Nat × α → Bool) (t : Tab α) (w : Tab.wf d t = true) : Tab.wf d (t.filter f) = true :=
  Tab.wfFrom_filter d f t 0 w

theorem Tab.wf_nil [DecidableEq α] (d : α) : Tab.wf d [] = true := rfl

/-- A fold of writes keeps the canonical form. -/
theorem Tab.wf_foldl [DecidableEq α] {β : Type} (d : α) (f : Tab α → β → Tab α) (h : ∀ t x, Tab.wf d t = true → Tab.wf d (f t x) = true)
    (l : List β) (t : Tab α) (w : Tab.wf d t = true) : Tab.wf d (l.foldl f t) = true := by
  induction l generalizing t with
  | nil => exact w
  | cons a l ih => exact ih _ (h _ _ w)

/-! ### Changing every entry -/

theorem Tab.get_unlisted (d : α) (t : Tab α) (i : Nat) (h : i ∉ t.map Prod.fst) : Tab.get d t i = d := by
  induction t with
  | nil => rfl
  | cons p t ih =>
    obtain ⟨k, v⟩ := p
    simp only [List.map_cons, List.mem_cons, not_or] at h
    simp only [Tab.get, if_neg (Ne.symm h.1), ih h.2]

/-- A fold that writes `g k` at each `k` of a list. -/
theorem Tab.get_foldl_put [DecidableEq α] (d : α) (g : Nat → α) (l : List Nat) (t : Tab α) (i : Nat) :
    Tab.get d (l.foldl (fun u k => Tab.put d u k (g k)) t) i = if i ∈ l then g i else Tab.get d t i := by
  induction l generalizing t with
  | nil => simp
  | cons a l ih =>
    rw [List.foldl_cons, ih, Tab.get_put]
    by_cases hl : i ∈ l
    · simp [hl]
    · by_cases ha : i = a <;> simp [hl, ha]

/-- Reading after a change of every entry. -/
theorem Tab.get_mapAll [DecidableEq α] (d : α) (f : α → α) (t : Tab α) (i : Nat) (h : f d = d) :
    Tab.get d (Tab.mapAll d f t) i = f (Tab.get d t i) := by
  unfold Tab.mapAll
  rw [Tab.get_foldl_put d (fun k => f (Tab.get d t k))]
  split
  · rfl
  · rename_i hi
    rw [Tab.get_unlisted d t i hi, h]

/-- A change of every entry keeps the canonical form. -/
theorem Tab.wf_mapAll [DecidableEq α] (d : α) (f : α → α) (t : Tab α) (w : Tab.wf d t = true) : Tab.wf d (Tab.mapAll d f t) = true :=
  Tab.wf_foldl d _ (fun _ _ h => Tab.wf_put d _ _ _ h) _ _ w

end Sys2Proof
end

