-- ==== Sys2Proof/Laws/Memory.lean ====
section
/-! SUPPORT. The shingle memories: every operation keeps the canonical form; a shingle reads as it was last written, and a write leaves
every other byte. -/

namespace Sys2Proof.Machine

open Sys2Proof

variable {m : Store} {l : List Host.Cell}

/-! ### The canonical form -/

theorem writeCells_wf (i : Nat) (w : Shingle) (h : Tab.wf 0 l = true) : Tab.wf 0 (writeCells l i w) = true :=
  Tab.wf_foldl 0 _ (fun _ _ h => Tab.wf_put 0 _ _ _ h) _ _ h

theorem storeShingle_wf (i : Nat) (w : Shingle) (bad : Bool) (h : Memory.wf m.mem = true) : Memory.wf (storeShingle m i w bad).mem = true := by
  simp only [Memory.wf, Bool.and_eq_true] at h ⊢
  exact ⟨writeCells_wf i _ h.1, Tab.wf_put _ _ _ _ h.2⟩

theorem disturb_wf (i : Nat) (err : Shingle) (h : Memory.wf m.mem = true) : Memory.wf (m.disturb i err).mem = true := by
  unfold Store.disturb
  split
  · exact h
  · simp only [Memory.wf, Bool.and_eq_true] at h ⊢
    exact ⟨writeCells_wf i _ h.1, h.2⟩

theorem scrubShingle_wf (i : Nat) (h : Memory.wf m.mem = true) : Memory.wf (scrubShingle m i).1.mem = true := by
  unfold scrubShingle
  repeat' split
  all_goals first | exact h | exact storeShingle_wf _ _ _ h

/-- The end of a zeroization keeps the form, with whatever an eave that cannot serve still holds. -/
theorem Eav.endZero_wf (e : Eav) (h : Memory.wf e.mem = true) : Memory.wf e.endZero.mem = true := by
  simp only [Memory.wf, Bool.and_eq_true] at h ⊢
  exact ⟨Tab.wf_filter _ _ _ h.1, Tab.wf_filter _ _ _ h.2⟩

/-- A zeroization in which every eave serves leaves nothing. -/
theorem Eav.endZero_mem (e : Eav) (h : ∀ i, e.dead i = false) : e.endZero.mem = Mem.empty := by
  simp [Eav.endZero, h, Mem.empty]

/-- A fold of operations that each keep the form. -/
theorem foldl_wf {β : Type} (f : Store → β → Store) (hf : ∀ t x, Memory.wf t.mem = true → Memory.wf (f t x).mem = true)
    (l : List β) (h : Memory.wf m.mem = true) : Memory.wf (l.foldl f m).mem = true := by
  induction l generalizing m with
  | nil => exact h
  | cons x l ih => exact ih (hf _ _ h)

theorem storeRun_wf (i : Nat) (hd : Header) (data : List Shingle) (h : Memory.wf m.mem = true) :
    Memory.wf (storeRun m i hd data).1.mem = true :=
  foldl_wf _ (fun _ _ => storeShingle_wf _ _ _) _ h

theorem ledgerWrite_wf (i : Nat) (l : List Accum) (h : Memory.wf m.mem = true) : Memory.wf (ledgerWrite m i l).mem = true :=
  foldl_wf _ (fun _ _ => storeShingle_wf _ _ _) _ h

theorem ledgerPoison_wf (i : Nat) (h : Memory.wf m.mem = true) : Memory.wf (ledgerPoison m i).1.mem = true :=
  foldl_wf _ (fun _ _ => storeShingle_wf _ _ _) _ h

theorem ledgerStore_wf (i : Nat) (hd : Header) (data : List Shingle) (k : Nat) (h : Memory.wf m.mem = true) :
    Memory.wf (ledgerStore m i hd data k).1.mem = true := by
  unfold ledgerStore
  split
  · exact ledgerWrite_wf _ _ h
  · exact ledgerPoison_wf _ h

theorem homeLoad_store (hd : Header) (i n : Nat) (ledger : Bool) (free : Nat → BitVec 256) : (homeLoad hd m i n ledger free).store = m := by
  unfold homeLoad
  split <;> rfl

theorem homeStore_wf (hd : Header) (data : List Shingle) (i : Nat) (ledger : Bool) (h : Memory.wf m.mem = true) :
    Memory.wf (homeStore hd data m i ledger).store.mem = true := by
  unfold homeStore
  split
  · dsimp only
    generalize List.range data.length = l
    suffices ∀ r : Store × List (Mark × Nat), Memory.wf r.1.mem = true →
        Memory.wf (l.foldl (fun r k => match ledgerStore r.1 (i + 12 * k) hd data k with | (t, ms) => (t, r.2 ++ ms)) r).1.mem = true from
      this _ h
    induction l with
    | nil => exact fun _ h => h
    | cons k l ih => exact fun r hr => ih _ (ledgerStore_wf _ _ _ _ hr)
  · exact storeRun_wf _ _ _ h

theorem homeAtomic_wf (hd : Header) (data : List Shingle) (i b : Nat) (h : Memory.wf m.mem = true) :
    Memory.wf (homeAtomic hd data m i b).store.mem = true := by
  unfold homeAtomic
  split
  · exact storeShingle_wf _ _ _ h
  · exact h

theorem homeFadd_wf (hd : Header) (data : List Shingle) (i : Nat) (h : Memory.wf m.mem = true) :
    Memory.wf (homeFadd hd data m i).store.mem = true := by
  unfold homeFadd
  split
  · exact storeShingle_wf _ _ _ h
  · exact h

theorem homeLedgerFadd_wf (hd : Header) (data : List Shingle) (i : Nat) (free : Nat → BitVec 256) (h : Memory.wf m.mem = true) :
    Memory.wf (homeLedgerFadd hd data m i free).store.mem = true := by
  unfold homeLedgerFadd
  split
  · exact ledgerWrite_wf _ _ h
  · exact h

theorem homePerform_wf (hd : Header) (data : List Shingle) (i b : Nat) (ledger : Bool) (free : Nat → BitVec 256)
    (h : Memory.wf m.mem = true) : Memory.wf (homePerform hd data m i b ledger free).store.mem = true := by
  unfold homePerform
  split
  · rwa [homeLoad_store]
  · rwa [homeLoad_store]
  · exact homeStore_wf _ _ _ _ h
  · exact homeStore_wf _ _ _ _ h
  · exact homeAtomic_wf _ _ _ _ h
  · split
    · exact homeLedgerFadd_wf _ _ _ _ h
    · exact homeFadd_wf _ _ _ h
  · exact h
  · exact h

theorem homeWiden_store (hd : Header) (i b n : Nat) : (homeWiden hd m i b n).store = m := rfl

theorem landShingle_wf (i : Nat) (w : Shingle) (bad : Bool) (h : Memory.wf m.mem = true) : Memory.wf (landShingle m i w bad).1.mem = true := by
  unfold landShingle
  repeat' split
  all_goals first | exact storeShingle_wf _ _ _ h | exact h

theorem landData_wf (lmap : List (Nat × Nat)) (lva : Nat) (d : List (Shingle × Bool)) (h : Memory.wf m.mem = true) :
    Memory.wf (landData m lmap lva d).1.mem = true := by
  unfold landData
  generalize d.zipIdx = l
  suffices ∀ r : Store × Bool, Memory.wf r.1.mem = true →
      Memory.wf (l.foldl (fun r p => match landShingle r.1 (localPhys lmap (lva + 32 * p.2) / 32) p.1.1 p.1.2 with
        | (m, b) => (m, r.2 || b)) r).1.mem = true from this _ h
  induction l with
  | nil => exact fun _ h => h
  | cons p l ih => exact fun r hr => ih _ (landShingle_wf _ _ _ hr)

/-- What works on a memory leaves its cipher. -/
@[simp] theorem storeShingle_cipher (i : Nat) (w : Shingle) (bad : Bool) : (storeShingle m i w bad).cipher = m.cipher := rfl

/-! ### Reading after writing -/

/-- A fold of byte writes from address `a` on: inside its extent the byte written, outside what was there. -/
theorem get_foldl_bytes (b : List Byte) (a k j : Nat) :
    Tab.get 0 ((b.zipIdx k).foldl (fun t p => Tab.put 0 t (a + p.2) p.1) l) j =
      if a + k ≤ j ∧ j < a + k + b.length then b.getD (j - (a + k)) 0 else Tab.get 0 l j := by
  induction b generalizing k l with
  | nil =>
    simp
  | cons x b ih =>
    rw [List.zipIdx_cons, List.foldl_cons, ih, Tab.get_put]
    simp only [List.length_cons]
    by_cases h : j = a + k
    · subst h
      have h1 : ¬ (a + (k + 1) ≤ a + k ∧ a + k < a + (k + 1) + b.length) := by omega
      have h2 : a + k ≤ a + k ∧ a + k < a + k + (b.length + 1) := by omega
      rw [if_neg h1, if_pos rfl, if_pos h2]
      simp
    · rw [if_neg h]
      by_cases h1 : a + (k + 1) ≤ j ∧ j < a + (k + 1) + b.length
      · have h2 : a + k ≤ j ∧ j < a + k + (b.length + 1) := by omega
        rw [if_pos h1, if_pos h2]
        obtain ⟨d, rfl⟩ : ∃ d, j = a + (k + 1) + d := ⟨j - (a + (k + 1)), by omega⟩
        rw [show a + (k + 1) + d - (a + (k + 1)) = d by omega, show a + (k + 1) + d - (a + k) = d + 1 by omega]
        rfl
      · have h2 : ¬ (a + k ≤ j ∧ j < a + k + (b.length + 1)) := by omega
        rw [if_neg h1, if_neg h2]

theorem bytesOf_length {n : Nat} (w : BitVec n) (k : Nat) : (bytesOf w k).length = k := by simp [bytesOf]

/-- A byte after a shingle was written: the shingle's own, or what was there. -/
theorem get_writeCells (i : Nat) (w : Shingle) (j : Nat) :
    Tab.get 0 (writeCells l i w) j =
      if 36 * i ≤ j ∧ j < 36 * i + 36 then (bytesOf w 36).getD (j - 36 * i) 0 else Tab.get 0 l j := by
  have := get_foldl_bytes (l := l) (bytesOf w 36) (36 * i) 0 j
  simpa [writeCells, bytesOf_length] using this

theorem mem_upFrom (a n j : Nat) : j ∈ upFrom a n ↔ a ≤ j ∧ j < a + n := by
  induction n generalizing a with
  | zero => simp [upFrom]
  | succ n ih =>
    simp only [upFrom, List.mem_cons, ih]
    omega

/-- Another shingle is not touched. -/
theorem readCells_writeCells_ne (i j : Nat) (w : Shingle) (h : j ≠ i) : readCells (writeCells l i w) j = readCells l j := by
  unfold readCells
  congr 2
  refine List.map_congr_left fun a ha => ?_
  rw [mem_upFrom] at ha
  rw [get_writeCells, if_neg (by omega)]

theorem readShingle_storeShingle_ne (i j : Nat) (w : Shingle) (bad : Bool) (h : j ≠ i) :
    readShingle (storeShingle m i w bad) j = readShingle m j := by
  show m.reveal j (readCells (writeCells m.mem.cells i _) j) = _
  rw [readCells_writeCells_ne i j _ h]
  rfl

theorem natOfBytes_bytesOf (k : Nat) {n : Nat} (w : BitVec n) : natOfBytes (bytesOf w k) = w.toNat % 256 ^ k := by
  induction k generalizing w with
  | zero => simp [bytesOf, natOfBytes, Nat.mod_one]
  | succ k ih =>
    have step : bytesOf w (k + 1) = w.truncate 8 :: bytesOf (w >>> 8) k := by
      simp only [bytesOf, List.range_succ_eq_map, List.map_cons, List.map_map]
      refine congrArg₂ List.cons (by simp) (List.map_congr_left fun i _ => ?_)
      simp only [Function.comp, ← BitVec.shiftRight_add]
      congr 2
      omega
    rw [step, natOfBytes, ih]
    simp only [BitVec.truncate_eq_setWidth, BitVec.toNat_setWidth, BitVec.toNat_ushiftRight, Nat.shiftRight_eq_div_pow]
    rw [show 256 ^ (k + 1) = 256 * 256 ^ k from Nat.pow_succ', Nat.mod_mul]

theorem upFrom_eq (a n : Nat) : upFrom a n = (List.range n).map fun k => a + k := by
  induction n generalizing a with
  | zero => rfl
  | succ n ih =>
    rw [upFrom, ih, List.range_succ_eq_map]
    simp only [List.map_cons, Nat.add_zero, List.map_map]
    refine congrArg _ (List.map_congr_left fun k _ => ?_)
    simp only [Function.comp]
    omega

/-- The bytes of a shingle read as they were written. -/
theorem readCells_writeCells_same (i : Nat) (w : Shingle) : readCells (writeCells l i w) i = w := by
  have : (upFrom (36 * i) 36).map (fun a => Tab.get 0 (writeCells l i w) a) = bytesOf w 36 := by
    rw [upFrom_eq, List.map_map]
    refine List.ext_getElem (by simp [bytesOf_length]) fun k h1 h2 => ?_
    simp only [List.length_map, List.length_range] at h1
    simp only [List.getElem_map, List.getElem_range, Function.comp]
    rw [get_writeCells, if_pos (by omega), Nat.add_sub_cancel_left, List.getD_eq_getElem?_getD, List.getElem?_eq_getElem h2]
    rfl
  rw [readCells, this, natOfBytes_bytesOf]
  apply BitVec.eq_of_toNat_eq
  have := w.isLt
  simp only [BitVec.toNat_ofNat]
  omega

/-- What a store leaves in the place of its shingle, as it is kept there. -/
theorem readCells_storeShingle_same (i : Nat) (w : Shingle) (bad : Bool) :
    readCells (storeShingle m i w bad).mem.cells i = m.protect i (if bad then flipMarker w else w) := readCells_writeCells_same i _

theorem readShingle_storeShingle_same (hm : m.cipher = none) (i : Nat) (w : Shingle) (bad : Bool) :
    readShingle (storeShingle m i w bad) i = if bad then flipMarker w else w := by
  show m.reveal i (readCells (storeShingle m i w bad).mem.cells i) = _
  rw [readCells_storeShingle_same]
  simp only [Store.reveal, Store.protect, hm]

/-- A store marks the shingle in the set exactly where the word is no codeword, and no other shingle. -/
theorem marked_storeShingle (i j : Nat) (w : Shingle) (bad : Bool) :
    Tab.get false (storeShingle m i w bad).mem.marked j = if j = i then bad && flashBad w else Tab.get false m.mem.marked j := Tab.get_put _ _ _ _ _

end Sys2Proof.Machine
end

