-- ==== Sys2Proof/Laws/Crypto.lean ====
section
/-! SUPPORT. AES-256 is undone by its inverse, and with it XTS (R197): what an eave encrypts it reads back. The field of AES is handled by
linearity: a map of bytes that respects sums is known from its values on single bits. -/

namespace Sys2Proof.Machine

open Sys2Proof

theorem bitAt_xor {n : Nat} (a b : BitVec n) (i : Nat) : bitAt (a ^^^ b) i = (bitAt a i ^^ bitAt b i) := by simp [bitAt]

theorem aesDouble_xor (a b : Byte) : aesDouble (a ^^^ b) = aesDouble a ^^^ aesDouble b := by
  unfold aesDouble
  rw [bitAt_xor, BitVec.shiftLeft_xor_distrib]
  cases bitAt a 7 <;> cases bitAt b 7 <;> simp <;> (try ac_rfl)
  rw [show a <<< 1 ^^^ 27#8 ^^^ (b <<< 1 ^^^ 27#8) = a <<< 1 ^^^ b <<< 1 ^^^ (27#8 ^^^ 27#8) by ac_rfl]; simp

theorem aesMulBits_xor (a a' b : Byte) (n : Nat) (c c' : Byte) :
    aesMulBits (a ^^^ a') b n (c ^^^ c') = aesMulBits a b n c ^^^ aesMulBits a' b n c' := by
  induction n generalizing c c' with
  | zero => rfl
  | succ n ih =>
    simp only [aesMulBits]
    rw [← ih, aesDouble_xor]
    cases bitAt b n <;> simp
    congr 1; ac_rfl

theorem aesMulBits_xor_right (a b b' : Byte) (n : Nat) (c c' : Byte) :
    aesMulBits a (b ^^^ b') n (c ^^^ c') = aesMulBits a b n c ^^^ aesMulBits a b' n c' := by
  induction n generalizing c c' with
  | zero => rfl
  | succ n ih =>
    simp only [aesMulBits]
    rw [← ih, aesDouble_xor, bitAt_xor]
    congr 1
    cases bitAt b n <;> cases bitAt b' n <;> simp <;> (try ac_rfl)
    rw [show aesDouble c ^^^ a ^^^ (aesDouble c' ^^^ a) = aesDouble c ^^^ aesDouble c' ^^^ (a ^^^ a) by ac_rfl]; simp

theorem aesMul_xor (a a' b : Byte) : aesMul (a ^^^ a') b = aesMul a b ^^^ aesMul a' b := by
  have := aesMulBits_xor a a' b 8 0 0
  simpa [aesMul] using this

theorem aesMul_xor_right (a b b' : Byte) : aesMul a (b ^^^ b') = aesMul a b ^^^ aesMul a b' := by
  have := aesMulBits_xor_right a b b' 8 0 0
  simpa [aesMul] using this

/-- A map of bytes that respects sums is known from its values on the eight single bits. -/
theorem byte_linear (f g : Byte → Byte) (hf : ∀ a b, f (a ^^^ b) = f a ^^^ f b) (hg : ∀ a b, g (a ^^^ b) = g a ^^^ g b)
    (h : ∀ i, i < 8 → f (BitVec.twoPow 8 i) = g (BitVec.twoPow 8 i)) (a : Byte) : f a = g a := by
  have f0 : f 0#8 = 0#8 := by have := hf 0#8 0#8; simpa using this
  have g0 : g 0#8 = 0#8 := by have := hg 0#8 0#8; simpa using this
  have part : ∀ i, i < 8 → f (a &&& BitVec.twoPow 8 i) = g (a &&& BitVec.twoPow 8 i) := by
    intro i hi
    rw [BitVec.and_twoPow]
    split
    · exact h i hi
    · rw [f0, g0]
  have split : a = (a &&& BitVec.twoPow 8 0) ^^^ (a &&& BitVec.twoPow 8 1) ^^^ (a &&& BitVec.twoPow 8 2) ^^^ (a &&& BitVec.twoPow 8 3) ^^^
      (a &&& BitVec.twoPow 8 4) ^^^ (a &&& BitVec.twoPow 8 5) ^^^ (a &&& BitVec.twoPow 8 6) ^^^ (a &&& BitVec.twoPow 8 7) := by
    apply BitVec.eq_of_getLsbD_eq
    intro j hj
    interval_cases j <;> simp
  rw [split]
  simp only [hf, hg, part 0 (by decide), part 1 (by decide), part 2 (by decide), part 3 (by decide), part 4 (by decide), part 5 (by decide),
    part 6 (by decide), part 7 (by decide)]

theorem aesMul_comm (a b : Byte) : aesMul a b = aesMul b a := by
  refine byte_linear (fun a => aesMul a b) (fun a => aesMul b a) (fun x y => aesMul_xor x y b) (fun x y => aesMul_xor_right b x y) ?_ a
  intro i hi
  refine byte_linear (fun b => aesMul (BitVec.twoPow 8 i) b) (fun b => aesMul b (BitVec.twoPow 8 i)) (fun x y => aesMul_xor_right _ x y) (fun x y => aesMul_xor x y _) ?_ b
  intro j hj
  have : ∀ i, i < 8 → ∀ j, j < 8 → aesMul (BitVec.twoPow 8 i) (BitVec.twoPow 8 j) = aesMul (BitVec.twoPow 8 j) (BitVec.twoPow 8 i) := by decide
  exact this i hi j hj

theorem aesMulBits_map (F : Byte → Byte) (hx : ∀ a b, F (a ^^^ b) = F a ^^^ F b) (hd : ∀ a, F (aesDouble a) = aesDouble (F a)) (b a : Byte) (n : Nat)
    (c : Byte) : F (aesMulBits b a n c) = aesMulBits (F b) a n (F c) := by
  induction n generalizing c with
  | zero => rfl
  | succ n ih =>
    simp only [aesMulBits]
    rw [ih, hx, hd]
    have f0 : F 0#8 = 0#8 := by have := hx 0#8 0#8; simpa using this
    cases bitAt a n <;> simp [f0]

theorem aesMul_double (a b : Byte) : aesMul (aesDouble a) b = aesDouble (aesMul a b) := by
  have d0 : aesDouble 0 = 0 := by decide
  have := aesMulBits_map aesDouble aesDouble_xor (fun _ => rfl) a b 8 0
  simp only [aesMul, d0] at this ⊢; exact this.symm

theorem aesMul_assoc (a b c : Byte) : aesMul (aesMul a b) c = aesMul a (aesMul b c) := by
  have m0 : ∀ c, aesMul 0 c = 0 := fun c => by have := aesMul_xor 0 0 c; simpa using this
  rw [aesMul_comm a b, aesMul_comm a]
  have := aesMulBits_map (fun x => aesMul x c) (fun x y => aesMul_xor x y c) (fun x => aesMul_double x c) b a 8 0
  simp only [aesMul] at this m0 ⊢
  rw [m0] at this; exact this

theorem aesMul_one (a : Byte) : aesMul 1 a = a := by
  refine byte_linear (aesMul 1) id (aesMul_xor_right 1) (fun _ _ => rfl) ?_ a
  decide

theorem aesPow_add (a : Byte) (m n : Nat) : aesPow a (m + n) = aesMul (aesPow a m) (aesPow a n) := by
  induction m with
  | zero => rw [Nat.zero_add]; exact (aesMul_one _).symm
  | succ m ih => rw [Nat.succ_add]; simp only [aesPow]; rw [ih, aesMul_assoc]

theorem aesPow_mul (a : Byte) (m n : Nat) : aesPow a (m * n) = aesPow (aesPow a m) n := by
  induction n with
  | zero => rfl
  | succ n ih => rw [Nat.mul_succ, Nat.add_comm, aesPow_add, ih]; rfl

/-- The square of a byte. -/
def aesSquare (a : Byte) : Byte := aesMul a a

theorem aesSquare_xor (a b : Byte) : aesSquare (a ^^^ b) = aesSquare a ^^^ aesSquare b := by
  unfold aesSquare
  rw [aesMul_xor, aesMul_xor_right, aesMul_xor_right, aesMul_comm b a,
    show aesMul a a ^^^ aesMul a b ^^^ (aesMul a b ^^^ aesMul b b) = aesMul a a ^^^ aesMul b b ^^^ (aesMul a b ^^^ aesMul a b) by ac_rfl]
  simp

set_option maxRecDepth 4000 in
theorem aesSquare_eight (a : Byte) :
    aesSquare (aesSquare (aesSquare (aesSquare (aesSquare (aesSquare (aesSquare (aesSquare a))))))) = a := by
  refine byte_linear (fun a => aesSquare (aesSquare (aesSquare (aesSquare (aesSquare (aesSquare (aesSquare (aesSquare a)))))))) id
    (fun x y => by simp only [aesSquare_xor]) (fun _ _ => rfl) ?_ a
  decide

theorem aesPow_two (a : Byte) (n : Nat) : aesPow a (n * 2) = aesSquare (aesPow a n) := by
  rw [aesPow_mul]; simp only [aesPow, aesSquare]; rw [aesMul_comm _ 1, aesMul_one]

theorem aesPow_one (a : Byte) : aesPow a 1 = a := by simp only [aesPow]; rw [aesMul_comm, aesMul_one]

theorem aesPow_256 (a : Byte) : aesPow a 256 = a := by
  rw [show 256 = 1 * 2 * 2 * 2 * 2 * 2 * 2 * 2 * 2 from rfl]
  simp only [aesPow_two, aesPow_one, aesSquare_eight]

theorem aesPow_inverse (a : Byte) : aesPow (aesPow a 254) 254 = a := by
  rw [← aesPow_mul, show 254 * 254 = 256 * 252 + 4 from rfl, aesPow_add, aesPow_mul, aesPow_256, ← aesPow_add]
  exact aesPow_256 a

theorem rotateLeft_xor (a b : Byte) (k : Nat) : (a ^^^ b).rotateLeft k = a.rotateLeft k ^^^ b.rotateLeft k := by
  apply BitVec.eq_of_getLsbD_eq
  intro i hi
  simp only [BitVec.getLsbD_rotateLeft, BitVec.getLsbD_xor]
  cases decide (i < k % 8) <;> cases decide (i < 8) <;> rfl

/-- The affine map of the substitution without its constant, and of the inverse one. -/
def aesAffine (b : Byte) : Byte := b ^^^ b.rotateLeft 1 ^^^ b.rotateLeft 2 ^^^ b.rotateLeft 3 ^^^ b.rotateLeft 4
def aesInvAffine (a : Byte) : Byte := a.rotateLeft 1 ^^^ a.rotateLeft 3 ^^^ a.rotateLeft 6

theorem aesAffine_xor (a b : Byte) : aesAffine (a ^^^ b) = aesAffine a ^^^ aesAffine b := by
  simp only [aesAffine, rotateLeft_xor]; ac_rfl

theorem aesInvAffine_xor (a b : Byte) : aesInvAffine (a ^^^ b) = aesInvAffine a ^^^ aesInvAffine b := by
  simp only [aesInvAffine, rotateLeft_xor]; ac_rfl

theorem aesAffine_inverse (b : Byte) : aesInvAffine (aesAffine b) = b := by
  refine byte_linear (fun b => aesInvAffine (aesAffine b)) id (fun x y => by simp only [aesAffine_xor, aesInvAffine_xor]) (fun _ _ => rfl) ?_ b
  decide

theorem aesInvSub_aesSub (a : Byte) : aesInvSub (aesSub a) = a := by
  have h : aesSub a = aesAffine (aesPow a 254) ^^^ 0x63 := rfl
  have g : ∀ x, aesInvSub x = aesPow (aesInvAffine x ^^^ 0x05) 254 := fun _ => rfl
  have c : aesInvAffine 0x63 = 0x05 := by decide
  rw [g, h, aesInvAffine_xor, aesAffine_inverse, c, BitVec.xor_assoc, BitVec.xor_self, BitVec.xor_zero, aesPow_inverse]

/-- One byte of a column that is mixed and mixed back. -/
theorem aesMix_byte (a b c d : Byte) :
    aesMul 14 (aesMul 2 a ^^^ aesMul 3 b ^^^ aesMul 1 c ^^^ aesMul 1 d) ^^^ aesMul 11 (aesMul 2 b ^^^ aesMul 3 c ^^^ aesMul 1 d ^^^ aesMul 1 a) ^^^
      aesMul 13 (aesMul 2 c ^^^ aesMul 3 d ^^^ aesMul 1 a ^^^ aesMul 1 b) ^^^ aesMul 9 (aesMul 2 d ^^^ aesMul 3 a ^^^ aesMul 1 b ^^^ aesMul 1 c) = a := by
  simp only [aesMul_xor_right, ← aesMul_assoc]
  have e : aesMul 14 2 = 28 ∧ aesMul 14 3 = 18 ∧ aesMul 14 1 = 14 ∧ aesMul 11 2 = 22 ∧ aesMul 11 3 = 29 ∧ aesMul 11 1 = 11 := by decide
  have f : aesMul 13 2 = 26 ∧ aesMul 13 3 = 23 ∧ aesMul 13 1 = 13 ∧ aesMul 9 2 = 18 ∧ aesMul 9 3 = 27 ∧ aesMul 9 1 = 9 := by decide
  rw [e.1, e.2.1, e.2.2.1, e.2.2.2.1, e.2.2.2.2.1, e.2.2.2.2.2, f.1, f.2.1, f.2.2.1, f.2.2.2.1, f.2.2.2.2.1, f.2.2.2.2.2]
  have ha : aesMul 28 a ^^^ aesMul 11 a ^^^ aesMul 13 a ^^^ aesMul 27 a = a := by
    simp only [← aesMul_xor]; exact aesMul_one a
  have z : ∀ x, aesMul 0 x = 0 := fun c => by have := aesMul_xor 0 0 c; simpa using this
  have hb : aesMul 18 b ^^^ aesMul 22 b ^^^ aesMul 13 b ^^^ aesMul 9 b = 0 := by simp only [← aesMul_xor]; exact z b
  have hc : aesMul 14 c ^^^ aesMul 29 c ^^^ aesMul 26 c ^^^ aesMul 9 c = 0 := by simp only [← aesMul_xor]; exact z c
  have hd : aesMul 14 d ^^^ aesMul 11 d ^^^ aesMul 23 d ^^^ aesMul 18 d = 0 := by simp only [← aesMul_xor]; exact z d
  calc _ = (aesMul 28 a ^^^ aesMul 11 a ^^^ aesMul 13 a ^^^ aesMul 27 a) ^^^ (aesMul 18 b ^^^ aesMul 22 b ^^^ aesMul 13 b ^^^ aesMul 9 b) ^^^
        (aesMul 14 c ^^^ aesMul 29 c ^^^ aesMul 26 c ^^^ aesMul 9 c) ^^^ (aesMul 14 d ^^^ aesMul 11 d ^^^ aesMul 23 d ^^^ aesMul 18 d) := by ac_rfl
    _ = a := by rw [ha, hb, hc, hd]; simp

theorem list16 {α : Type} (s : List α) (h : s.length = 16) : ∃ a b c d e f g i j k l m n o p q, s = [a, b, c, d, e, f, g, i, j, k, l, m, n, o, p, q] := by
  match s, h with
  | [a, b, c, d, e, f, g, i, j, k, l, m, n, o, p, q], _ => exact ⟨a, b, c, d, e, f, g, i, j, k, l, m, n, o, p, q, rfl⟩

theorem xorBytes_cancel (a k : List Byte) (h : a.length = k.length) : xorBytes (xorBytes a k) k = a := by
  induction a generalizing k with
  | nil => rfl
  | cons x a ih =>
    cases k with
    | nil => cases h
    | cons y k =>
      have := ih k (by simpa using h)
      simp only [xorBytes, List.zipWith_cons_cons] at this ⊢
      rw [this, BitVec.xor_assoc, BitVec.xor_self, BitVec.xor_zero]

theorem xorBytes_length (a k : List Byte) : (xorBytes a k).length = min a.length k.length := by simp [xorBytes]

theorem aesShiftRows_length (s : List Byte) : (aesShiftRows s).length = 16 := by simp [aesShiftRows]
theorem aesInvShiftRows_length (s : List Byte) : (aesInvShiftRows s).length = 16 := by simp [aesInvShiftRows]
theorem aesMix_length (a b c d : Byte) (s : List Byte) : (aesMix a b c d s).length = 16 := by simp [aesMix]

theorem aesInvShiftRows_aesShiftRows (s : List Byte) (h : s.length = 16) : aesInvShiftRows (aesShiftRows s) = s := by
  obtain ⟨a, b, c, d, e, f, g, i, j, k, l, m, n, o, p, q, rfl⟩ := list16 s h
  rfl

theorem map_aesSub (s : List Byte) : (s.map aesSub).map aesInvSub = s := by
  rw [List.map_map]; conv_rhs => rw [← List.map_id s]
  congr 1; funext a; exact aesInvSub_aesSub a

theorem aesMix_aesMix (s : List Byte) (h : s.length = 16) : aesMix 14 11 13 9 (aesMix 2 3 1 1 s) = s := by
  obtain ⟨a, b, c, d, e, f, g, i, j, k, l, m, n, o, p, q, rfl⟩ := list16 s h
  have key : ∀ l r : List Byte, l.length = 16 → r.length = 16 → (∀ i, i < 16 → l.getD i 0 = r.getD i 0) → l = r := by
    intro l r hl hr hx
    apply List.ext_getElem (by rw [hl, hr])
    intro i h1 h2
    have := hx i (by omega)
    rwa [List.getD_eq_getElem _ _ h1, List.getD_eq_getElem _ _ h2] at this
  have col : ∀ a b c d : Byte, aesMul 14 (aesMul 2 a ^^^ aesMul 3 b ^^^ aesMul 1 c ^^^ aesMul 1 d) ^^^
      aesMul 11 (aesMul 2 b ^^^ aesMul 3 c ^^^ aesMul 1 d ^^^ aesMul 1 a) ^^^
      aesMul 13 (aesMul 2 c ^^^ aesMul 3 d ^^^ aesMul 1 a ^^^ aesMul 1 b) ^^^
      aesMul 9 (aesMul 2 d ^^^ aesMul 3 a ^^^ aesMul 1 b ^^^ aesMul 1 c) = a := aesMix_byte
  apply key _ _ (aesMix_length ..) rfl
  intro r hr
  interval_cases r
  exacts [col a b c d, col b c d a, col c d a b, col d a b c, col e f g i, col f g i e, col g i e f, col i e f g, col j k l m, col k l m j,
    col l m j k, col m j k l, col n o p q, col o p q n, col p q n o, col q n o p]

/-- A round of AES, and the round back. -/
def aesRound (s k : List Byte) : List Byte := xorBytes (aesMix 2 3 1 1 (aesShiftRows (s.map aesSub))) k
def aesUnround (s k : List Byte) : List Byte := (aesInvShiftRows (aesMix 14 11 13 9 (xorBytes s k))).map aesInvSub

theorem aesRound_length (s k : List Byte) (hk : k.length = 16) : (aesRound s k).length = 16 := by
  simp [aesRound, xorBytes_length, aesMix_length, hk]

theorem aesUnround_aesRound (s k : List Byte) (hs : s.length = 16) (hk : k.length = 16) : aesUnround (aesRound s k) k = s := by
  unfold aesUnround aesRound
  rw [xorBytes_cancel _ _ (by rw [aesMix_length, hk]), aesMix_aesMix _ (aesShiftRows_length _),
    aesInvShiftRows_aesShiftRows _ (by simpa using hs), map_aesSub]

theorem aesRounds (ks : List (List Byte)) (hk : ∀ k ∈ ks, k.length = 16) (s : List Byte) (hs : s.length = 16) :
    ks.reverse.foldl aesUnround (ks.foldl aesRound s) = s ∧ (ks.foldl aesRound s).length = 16 := by
  induction ks generalizing s with
  | nil => exact ⟨rfl, hs⟩
  | cons k ks ih =>
    have hk' := hk k (by simp)
    have := ih (fun k h => hk k (by simp [h])) (aesRound s k) (aesRound_length s k hk')
    simp only [List.foldl_cons, List.reverse_cons, List.foldl_append, List.foldl_nil]
    exact ⟨by rw [this.1]; exact aesUnround_aesRound s k hs hk', this.2⟩

/-- AES-256 with its fifteen round keys is undone by its inverse. -/
theorem aesUnblock_aesBlock (keys : List (List Byte)) (hn : keys.length = 15) (hk : ∀ k ∈ keys, k.length = 16) (b : List Byte) (hb : b.length = 16) :
    aesUnblock keys (aesBlock keys b) = b ∧ (aesBlock keys b).length = 16 := by
  have h0 : (keys.headD []).length = 16 := by
    cases keys with
    | nil => cases hn
    | cons k l => exact hk k (by simp)
  have h14 : (keys.getD 14 []).length = 16 := by
    rw [List.getD_eq_getElem _ _ (by omega)]; exact hk _ (List.getElem_mem _)
  have hm : ∀ k ∈ (keys.drop 1).take 13, k.length = 16 := fun k h => hk k (List.mem_of_mem_drop (List.mem_of_mem_take h))
  have hs : (xorBytes b (keys.headD [])).length = 16 := by rw [xorBytes_length, hb, h0]; rfl
  have r := aesRounds _ hm _ hs
  have e : aesBlock keys b = xorBytes (aesShiftRows ((((keys.drop 1).take 13).foldl aesRound (xorBytes b (keys.headD []))).map aesSub)) (keys.getD 14 []) := rfl
  have d : ∀ c, aesUnblock keys c = xorBytes ((((keys.drop 1).take 13).reverse).foldl aesUnround
      ((aesInvShiftRows (xorBytes c (keys.getD 14 []))).map aesInvSub)) (keys.headD []) := fun _ => rfl
  refine ⟨?_, by rw [e, xorBytes_length, aesShiftRows_length, h14]; rfl⟩
  rw [d, e, xorBytes_cancel _ _ (by rw [aesShiftRows_length, h14]), aesInvShiftRows_aesShiftRows _ (by simpa using r.2), map_aesSub, r.1,
    xorBytes_cancel _ _ (by rw [hb, h0])]

theorem aesNextWord_length (i : Nat) (prev old : List Byte) (hp : prev.length = 4) (ho : old.length = 4) : (aesNextWord i prev old).length = 4 := by
  unfold aesNextWord
  simp only [xorBytes_length]
  split
  · simp [xorBytes_length, hp, ho]
  · split <;> simp [hp, ho]

theorem aesExpand_words (n i : Nat) (ws : List (List Byte)) (h8 : 8 ≤ ws.length) (h : ∀ w ∈ ws, w.length = 4) :
    (aesExpand n i ws).length = n + ws.length ∧ ∀ w ∈ aesExpand n i ws, w.length = 4 := by
  induction n generalizing i ws with
  | zero => exact ⟨by simp [aesExpand], h⟩
  | succ n ih =>
    have hp : (ws.headD []).length = 4 := by
      cases ws with
      | nil => simp at h8
      | cons w l => exact h w (by simp)
    have ho : (ws.getD 7 []).length = 4 := by
      rw [List.getD_eq_getElem _ _ (by omega)]; exact h _ (List.getElem_mem _)
    have := ih (i + 1) (aesNextWord i (ws.headD []) (ws.getD 7 []) :: ws) (by simp; omega)
      (by intro w hw; rcases List.mem_cons.1 hw with rfl | hw
          · exact aesNextWord_length i _ _ hp ho
          · exact h w hw)
    exact ⟨by rw [aesExpand, this.1]; simp; omega, this.2⟩

theorem flatten_length4 (l : List (List Byte)) (h : ∀ w ∈ l, w.length = 4) : l.flatten.length = 4 * l.length := by
  induction l with
  | nil => rfl
  | cons w l ih => simp [h w (by simp), ih fun w hw => h w (by simp [hw])]; omega

/-- The round keys of a 32-byte key are fifteen of 16 bytes. -/
theorem aesKeys_shape (key : List Byte) (h : key.length = 32) : (aesKeys key).length = 15 ∧ ∀ k ∈ aesKeys key, k.length = 16 := by
  have w := aesExpand_words 52 8 (((List.range 8).map fun i => (key.drop (4 * i)).take 4).reverse) (by simp)
    (by intro w hw; simp at hw; obtain ⟨i, hi, rfl⟩ := hw; simp; omega)
  refine ⟨by simp [aesKeys], ?_⟩
  intro k hk
  simp only [aesKeys, List.mem_map, List.mem_range] at hk
  obtain ⟨r, hr, rfl⟩ := hk
  rw [flatten_length4]
  · simp [w.1]; omega
  · intro v hv
    exact w.2 v (List.mem_reverse.1 (List.mem_of_mem_drop (List.mem_of_mem_take hv)))

/-- A block between two additions of its tweak is undone by the inverse between the same two. -/
theorem xtsBlock_inverse (keys : List (List Byte)) (hn : keys.length = 15) (hk : ∀ k ∈ keys, k.length = 16) (t : BitVec 128) (b : List Byte)
    (hb : b.length = 16) : xtsBlock (aesUnblock keys) t (xtsBlock (aesBlock keys) t b) = b ∧ (xtsBlock (aesBlock keys) t b).length = 16 := by
  have ht : (bytesOf t 16).length = 16 := bytesOf_length t 16
  have h := aesUnblock_aesBlock keys hn hk (xorBytes b (bytesOf t 16)) (by rw [xorBytes_length, hb, ht]; rfl)
  refine ⟨?_, by rw [xtsBlock, xorBytes_length, h.2, ht]; rfl⟩
  rw [xtsBlock, xtsBlock, xorBytes_cancel _ _ (by rw [h.2, ht]), h.1, xorBytes_cancel _ _ (by rw [hb, ht])]

/-- A data unit of 36 bytes is read back as it was encrypted (R197). -/
theorem xtsDecrypt_xtsEncrypt (pair : BitVec 512) (unit : Nat) (l : List Byte) (h : l.length = 36) :
    xtsDecrypt pair unit (xtsEncrypt pair unit l) = l ∧ (xtsEncrypt pair unit l).length = 36 := by
  have K := aesKeys_shape (bytesOf pair 32) (bytesOf_length pair 32)
  have F := fun t b hb => xtsBlock_inverse (xtsKey pair) K.1 K.2 t b hb
  have e : xtsEncrypt pair unit l = xtsBlock (aesBlock (xtsKey pair)) (xtsStart pair unit) (l.take 16) ++
      xtsBlock (aesBlock (xtsKey pair)) (xtsDouble (xtsDouble (xtsStart pair unit)))
        (l.drop 32 ++ (xtsBlock (aesBlock (xtsKey pair)) (xtsDouble (xtsStart pair unit)) ((l.drop 16).take 16)).drop 4) ++
      (xtsBlock (aesBlock (xtsKey pair)) (xtsDouble (xtsStart pair unit)) ((l.drop 16).take 16)).take 4 := rfl
  have d : ∀ m, xtsDecrypt pair unit m =
      let pp := xtsBlock (aesUnblock (xtsKey pair)) (xtsDouble (xtsDouble (xtsStart pair unit))) ((m.drop 16).take 16)
      xtsBlock (aesUnblock (xtsKey pair)) (xtsStart pair unit) (m.take 16) ++
        xtsBlock (aesUnblock (xtsKey pair)) (xtsDouble (xtsStart pair unit)) (m.drop 32 ++ pp.drop 4) ++ pp.take 4 := fun _ => rfl
  generalize xtsStart pair unit = t at e d
  have f0 := F t (l.take 16) (by simp; omega)
  have f1 := F (xtsDouble t) ((l.drop 16).take 16) (by simp; omega)
  generalize hx : xtsBlock (aesBlock (xtsKey pair)) t (l.take 16) = x at e f0
  generalize hc : xtsBlock (aesBlock (xtsKey pair)) (xtsDouble t) ((l.drop 16).take 16) = c at e f1
  have f2 := F (xtsDouble (xtsDouble t)) (l.drop 32 ++ c.drop 4) (by simp [f1.2]; omega)
  generalize hy : xtsBlock (aesBlock (xtsKey pair)) (xtsDouble (xtsDouble t)) (l.drop 32 ++ c.drop 4) = y at e f2
  have l32 : (l.drop 32).length = 4 := by simp; omega
  have m0 : (x ++ y ++ c.take 4).take 16 = x := by rw [List.append_assoc, List.take_append_of_le_length (by omega)]; exact List.take_of_length_le (by omega)
  have m1 : ((x ++ y ++ c.take 4).drop 16).take 16 = y := by
    rw [List.append_assoc, List.drop_append_of_le_length (by omega), List.drop_of_length_le (by omega : x.length ≤ 16), List.nil_append,
      List.take_append_of_le_length (by omega)]
    exact List.take_of_length_le (by omega)
  have m2 : (x ++ y ++ c.take 4).drop 32 = c.take 4 := by
    rw [List.drop_append_of_le_length (by simp; omega), List.drop_of_length_le (by simp; omega), List.nil_append]
  have q0 : (l.drop 32 ++ c.drop 4).drop 4 = c.drop 4 := by
    rw [List.drop_append_of_le_length (by omega), List.drop_of_length_le (by omega), List.nil_append]
  have q1 : (l.drop 32 ++ c.drop 4).take 4 = l.drop 32 := by
    rw [List.take_append_of_le_length (by omega)]; exact List.take_of_length_le (by omega)
  refine ⟨?_, by rw [e]; simp [f0.2, f1.2, f2.2]⟩
  rw [e, d, m0, m1, m2]
  simp only [f2.1, q0, q1, List.take_append_drop, f1.1, f0.1]
  rw [show l.drop 32 = (l.drop 16).drop 16 by rw [List.drop_drop], List.append_assoc, List.take_append_drop, List.take_append_drop]

theorem natOfBytes_lt (l : List Byte) : natOfBytes l < 256 ^ l.length := by
  induction l with
  | nil => simp [natOfBytes]
  | cons b l ih => simp only [natOfBytes, List.length_cons, Nat.pow_succ]; have := b.isLt; omega

theorem natOfBytes_inj (l r : List Byte) (h : l.length = r.length) (e : natOfBytes l = natOfBytes r) : l = r := by
  induction l generalizing r with
  | nil => cases r with
    | nil => rfl
    | cons _ _ => cases h
  | cons b l ih =>
    cases r with
    | nil => cases h
    | cons c r =>
      simp only [natOfBytes] at e
      have hb := b.isLt
      have hc := c.isLt
      have : b.toNat = c.toNat := by omega
      rw [BitVec.eq_of_toNat_eq this, ih r (by simpa using h) (by omega)]

theorem bytesOf_natOfBytes (l : List Byte) (k : Nat) (h : l.length = k) : bytesOf (BitVec.ofNat (8 * k) (natOfBytes l)) k = l := by
  apply natOfBytes_inj
  · rw [bytesOf_length, h]
  · have lt := natOfBytes_lt l
    rw [h] at lt
    rw [natOfBytes_bytesOf, BitVec.toNat_ofNat, Nat.pow_mul, Nat.mod_mod, Nat.mod_eq_of_lt lt]

variable {m : Store}

/-- What a store protects it reveals, encrypted or not (R197). -/
theorem Store.reveal_protect (m : Store) (i : Nat) (w : Shingle) : m.reveal i (m.protect i w) = w := by
  unfold Store.reveal Store.protect
  cases m.cipher with
  | none => rfl
  | some c =>
    have x := xtsDecrypt_xtsEncrypt c.pair (maOfIndex c.hashCfg i / 32) (bytesOf w 36) (bytesOf_length w 36)
    have b := bytesOf_natOfBytes _ 36 x.2
    simp only at b ⊢
    rw [b, x.1]
    apply BitVec.eq_of_toNat_eq
    rw [BitVec.toNat_ofNat, natOfBytes_bytesOf]
    have := w.isLt
    omega

/-- A shingle that is stored is read back, with its marker where it is poisoned, encrypted or not. -/
theorem readShingle_storeShingle (m : Store) (i : Nat) (w : Shingle) (bad : Bool) :
    readShingle (storeShingle m i w bad) i = if bad then flipMarker w else w := by
  have c : (storeShingle m i w bad).cipher = m.cipher := rfl
  have r : ∀ x, (storeShingle m i w bad).reveal i x = m.reveal i x := fun _ => rfl
  rw [readShingle, r, readCells_storeShingle_same, Store.reveal_protect]

end Sys2Proof.Machine
end

