-- ==== Sys2Proof/Laws/State.lean ====
section
/-! SUPPORT. What each update of the state leaves and what it writes: one lemma per update and field. -/

namespace Sys2Proof.Machine

open Sys2Proof

variable (s : State)

/-! ### State.toBeat -/

@[simp] theorem State.toBeat_ports (b : Nat) : (s.toBeat b).ports = s.ports := rfl
@[simp] theorem State.toBeat_pur (b : Nat) : (s.toBeat b).pur = s.pur := rfl
@[simp] theorem State.toBeat_eav (b : Nat) : (s.toBeat b).eav = s.eav := rfl
@[simp] theorem State.toBeat_gab (b : Nat) : (s.toBeat b).gab = s.gab := rfl
@[simp] theorem State.toBeat_trs (b : Nat) : (s.toBeat b).trs = s.trs := rfl
@[simp] theorem State.toBeat_sec (b : Nat) : (s.toBeat b).sec = s.sec := rfl
@[simp] theorem State.toBeat_gut (b : Nat) : (s.toBeat b).gut = s.gut := rfl
@[simp] theorem State.toBeat_gau (b : Nat) : (s.toBeat b).gau = s.gau := rfl
@[simp] theorem State.toBeat_pwr (b : Nat) : (s.toBeat b).pwr = s.pwr := rfl
@[simp] theorem State.toBeat_sof (b : Nat) : (s.toBeat b).sof = s.sof := rfl
@[simp] theorem State.toBeat_pins (b : Nat) : (s.toBeat b).pins = s.pins := rfl
@[simp] theorem State.toBeat_latches (b : Nat) : (s.toBeat b).latches = s.latches := rfl
@[simp] theorem State.toBeat_outputs (b : Nat) : (s.toBeat b).outputs = s.outputs := rfl
@[simp] theorem State.toBeat_fresh (b : Nat) : (s.toBeat b).fresh = s.fresh := rfl
@[simp] theorem State.toBeat_pending (b : Nat) : (s.toBeat b).pending = s.pending := rfl

/-! ### State.toTime -/

@[simp] theorem State.toTime_ports (b : Nat) : (s.toTime b).ports = s.ports := rfl
@[simp] theorem State.toTime_pur (b : Nat) : (s.toTime b).pur = s.pur := rfl
@[simp] theorem State.toTime_eav (b : Nat) : (s.toTime b).eav = s.eav := rfl
@[simp] theorem State.toTime_gab (b : Nat) : (s.toTime b).gab = s.gab := rfl
@[simp] theorem State.toTime_trs (b : Nat) : (s.toTime b).trs = s.trs := rfl
@[simp] theorem State.toTime_sec (b : Nat) : (s.toTime b).sec = s.sec := rfl
@[simp] theorem State.toTime_gut (b : Nat) : (s.toTime b).gut = s.gut := rfl
@[simp] theorem State.toTime_gau (b : Nat) : (s.toTime b).gau = s.gau := rfl
@[simp] theorem State.toTime_pwr (b : Nat) : (s.toTime b).pwr = s.pwr := rfl
@[simp] theorem State.toTime_sof (b : Nat) : (s.toTime b).sof = s.sof := rfl
@[simp] theorem State.toTime_pins (b : Nat) : (s.toTime b).pins = s.pins := rfl
@[simp] theorem State.toTime_latches (b : Nat) : (s.toTime b).latches = s.latches := rfl
@[simp] theorem State.toTime_outputs (b : Nat) : (s.toTime b).outputs = s.outputs := rfl
@[simp] theorem State.toTime_fresh (b : Nat) : (s.toTime b).fresh = s.fresh := rfl
@[simp] theorem State.toTime_pending (b : Nat) : (s.toTime b).pending = s.pending := rfl

/-! ### State.inRequest -/

@[simp] theorem State.inRequest_ports (h : Header) (act : State → State) :
    (s.inRequest h act).ports = (act { s with sof := { s.sof with request := some h } }).ports := rfl
@[simp] theorem State.inRequest_tim (h : Header) (act : State → State) :
    (s.inRequest h act).tim = (act { s with sof := { s.sof with request := some h } }).tim := rfl
@[simp] theorem State.inRequest_pur (h : Header) (act : State → State) :
    (s.inRequest h act).pur = (act { s with sof := { s.sof with request := some h } }).pur := rfl
@[simp] theorem State.inRequest_eav (h : Header) (act : State → State) :
    (s.inRequest h act).eav = (act { s with sof := { s.sof with request := some h } }).eav := rfl
@[simp] theorem State.inRequest_gab (h : Header) (act : State → State) :
    (s.inRequest h act).gab = (act { s with sof := { s.sof with request := some h } }).gab := rfl
@[simp] theorem State.inRequest_trs (h : Header) (act : State → State) :
    (s.inRequest h act).trs = (act { s with sof := { s.sof with request := some h } }).trs := rfl
@[simp] theorem State.inRequest_sec (h : Header) (act : State → State) :
    (s.inRequest h act).sec = (act { s with sof := { s.sof with request := some h } }).sec := rfl
@[simp] theorem State.inRequest_gut (h : Header) (act : State → State) :
    (s.inRequest h act).gut = (act { s with sof := { s.sof with request := some h } }).gut := rfl
@[simp] theorem State.inRequest_gau (h : Header) (act : State → State) :
    (s.inRequest h act).gau = (act { s with sof := { s.sof with request := some h } }).gau := rfl
@[simp] theorem State.inRequest_pwr (h : Header) (act : State → State) :
    (s.inRequest h act).pwr = (act { s with sof := { s.sof with request := some h } }).pwr := rfl
@[simp] theorem State.inRequest_pins (h : Header) (act : State → State) :
    (s.inRequest h act).pins = (act { s with sof := { s.sof with request := some h } }).pins := rfl
@[simp] theorem State.inRequest_jeb (h : Header) (act : State → State) :
    (s.inRequest h act).jeb = (act { s with sof := { s.sof with request := some h } }).jeb := rfl
@[simp] theorem State.inRequest_latches (h : Header) (act : State → State) :
    (s.inRequest h act).latches = (act { s with sof := { s.sof with request := some h } }).latches := rfl
@[simp] theorem State.inRequest_outputs (h : Header) (act : State → State) :
    (s.inRequest h act).outputs = (act { s with sof := { s.sof with request := some h } }).outputs := rfl
@[simp] theorem State.inRequest_fresh (h : Header) (act : State → State) :
    (s.inRequest h act).fresh = (act { s with sof := { s.sof with request := some h } }).fresh := rfl
@[simp] theorem State.inRequest_pending (h : Header) (act : State → State) :
    (s.inRequest h act).pending = (act { s with sof := { s.sof with request := some h } }).pending := rfl
@[simp] theorem State.inRequest_request (h : Header) (act : State → State) : (s.inRequest h act).sof.request = s.sof.request := rfl

/-! ### State.spend -/

@[simp] theorem State.spend_ports (n : Nat) : (s.spend n).ports = s.ports := rfl
@[simp] theorem State.spend_tim (n : Nat) : (s.spend n).tim = s.tim := rfl
@[simp] theorem State.spend_pur (n : Nat) : (s.spend n).pur = s.pur := rfl
@[simp] theorem State.spend_eav (n : Nat) : (s.spend n).eav = s.eav := rfl
@[simp] theorem State.spend_gab (n : Nat) : (s.spend n).gab = s.gab := rfl
@[simp] theorem State.spend_trs (n : Nat) : (s.spend n).trs = s.trs := rfl
@[simp] theorem State.spend_sec (n : Nat) : (s.spend n).sec = s.sec := rfl
@[simp] theorem State.spend_gut (n : Nat) : (s.spend n).gut = s.gut := rfl
@[simp] theorem State.spend_gau (n : Nat) : (s.spend n).gau = s.gau := rfl
@[simp] theorem State.spend_pwr (n : Nat) : (s.spend n).pwr = s.pwr := rfl
@[simp] theorem State.spend_sof (n : Nat) : (s.spend n).sof = s.sof := rfl
@[simp] theorem State.spend_pins (n : Nat) : (s.spend n).pins = s.pins := rfl
@[simp] theorem State.spend_jeb (n : Nat) : (s.spend n).jeb = s.jeb := rfl
@[simp] theorem State.spend_latches (n : Nat) : (s.spend n).latches = s.latches := rfl
@[simp] theorem State.spend_outputs (n : Nat) : (s.spend n).outputs = s.outputs := rfl
@[simp] theorem State.spend_pending (n : Nat) : (s.spend n).pending = s.pending := rfl

/-! ### State.emit -/

@[simp] theorem State.emit_ports (o : Output) : (s.emit o).ports = s.ports := rfl
@[simp] theorem State.emit_tim (o : Output) : (s.emit o).tim = s.tim := rfl
@[simp] theorem State.emit_pur (o : Output) : (s.emit o).pur = s.pur := rfl
@[simp] theorem State.emit_eav (o : Output) : (s.emit o).eav = s.eav := rfl
@[simp] theorem State.emit_gab (o : Output) : (s.emit o).gab = s.gab := rfl
@[simp] theorem State.emit_trs (o : Output) : (s.emit o).trs = s.trs := rfl
@[simp] theorem State.emit_sec (o : Output) : (s.emit o).sec = s.sec := rfl
@[simp] theorem State.emit_gut (o : Output) : (s.emit o).gut = s.gut := rfl
@[simp] theorem State.emit_gau (o : Output) : (s.emit o).gau = s.gau := rfl
@[simp] theorem State.emit_pwr (o : Output) : (s.emit o).pwr = s.pwr := rfl
@[simp] theorem State.emit_sof (o : Output) : (s.emit o).sof = s.sof := rfl
@[simp] theorem State.emit_pins (o : Output) : (s.emit o).pins = s.pins := rfl
@[simp] theorem State.emit_jeb (o : Output) : (s.emit o).jeb = s.jeb := rfl
@[simp] theorem State.emit_latches (o : Output) : (s.emit o).latches = s.latches := rfl
@[simp] theorem State.emit_fresh (o : Output) : (s.emit o).fresh = s.fresh := rfl
@[simp] theorem State.emit_pending (o : Output) : (s.emit o).pending = s.pending := rfl

/-! ### State.setQueue -/

@[simp] theorem State.setQueue_ports (q : Nat) (x : Queue) : (s.setQueue q x).ports = s.ports := rfl
@[simp] theorem State.setQueue_tim (q : Nat) (x : Queue) : (s.setQueue q x).tim = s.tim := rfl
@[simp] theorem State.setQueue_eav (q : Nat) (x : Queue) : (s.setQueue q x).eav = s.eav := rfl
@[simp] theorem State.setQueue_gab (q : Nat) (x : Queue) : (s.setQueue q x).gab = s.gab := rfl
@[simp] theorem State.setQueue_trs (q : Nat) (x : Queue) : (s.setQueue q x).trs = s.trs := rfl
@[simp] theorem State.setQueue_sec (q : Nat) (x : Queue) : (s.setQueue q x).sec = s.sec := rfl
@[simp] theorem State.setQueue_gut (q : Nat) (x : Queue) : (s.setQueue q x).gut = s.gut := rfl
@[simp] theorem State.setQueue_gau (q : Nat) (x : Queue) : (s.setQueue q x).gau = s.gau := rfl
@[simp] theorem State.setQueue_pwr (q : Nat) (x : Queue) : (s.setQueue q x).pwr = s.pwr := rfl
@[simp] theorem State.setQueue_sof (q : Nat) (x : Queue) : (s.setQueue q x).sof = s.sof := rfl
@[simp] theorem State.setQueue_pins (q : Nat) (x : Queue) : (s.setQueue q x).pins = s.pins := rfl
@[simp] theorem State.setQueue_jeb (q : Nat) (x : Queue) : (s.setQueue q x).jeb = s.jeb := rfl
@[simp] theorem State.setQueue_latches (q : Nat) (x : Queue) : (s.setQueue q x).latches = s.latches := rfl
@[simp] theorem State.setQueue_outputs (q : Nat) (x : Queue) : (s.setQueue q x).outputs = s.outputs := rfl
@[simp] theorem State.setQueue_fresh (q : Nat) (x : Queue) : (s.setQueue q x).fresh = s.fresh := rfl
@[simp] theorem State.setQueue_pending (q : Nat) (x : Queue) : (s.setQueue q x).pending = s.pending := rfl

/-! ### State.setEave -/

@[simp] theorem State.setEave_ports (n : Nat) (e : Eave) : (s.setEave n e).ports = s.ports := rfl
@[simp] theorem State.setEave_tim (n : Nat) (e : Eave) : (s.setEave n e).tim = s.tim := rfl
@[simp] theorem State.setEave_pur (n : Nat) (e : Eave) : (s.setEave n e).pur = s.pur := rfl
@[simp] theorem State.setEave_gab (n : Nat) (e : Eave) : (s.setEave n e).gab = s.gab := rfl
@[simp] theorem State.setEave_trs (n : Nat) (e : Eave) : (s.setEave n e).trs = s.trs := rfl
@[simp] theorem State.setEave_sec (n : Nat) (e : Eave) : (s.setEave n e).sec = s.sec := rfl
@[simp] theorem State.setEave_gut (n : Nat) (e : Eave) : (s.setEave n e).gut = s.gut := rfl
@[simp] theorem State.setEave_gau (n : Nat) (e : Eave) : (s.setEave n e).gau = s.gau := rfl
@[simp] theorem State.setEave_pwr (n : Nat) (e : Eave) : (s.setEave n e).pwr = s.pwr := rfl
@[simp] theorem State.setEave_sof (n : Nat) (e : Eave) : (s.setEave n e).sof = s.sof := rfl
@[simp] theorem State.setEave_pins (n : Nat) (e : Eave) : (s.setEave n e).pins = s.pins := rfl
@[simp] theorem State.setEave_jeb (n : Nat) (e : Eave) : (s.setEave n e).jeb = s.jeb := rfl
@[simp] theorem State.setEave_latches (n : Nat) (e : Eave) : (s.setEave n e).latches = s.latches := rfl
@[simp] theorem State.setEave_outputs (n : Nat) (e : Eave) : (s.setEave n e).outputs = s.outputs := rfl
@[simp] theorem State.setEave_fresh (n : Nat) (e : Eave) : (s.setEave n e).fresh = s.fresh := rfl
@[simp] theorem State.setEave_pending (n : Nat) (e : Eave) : (s.setEave n e).pending = s.pending := rfl

/-! ### State.setGroup -/

@[simp] theorem State.setGroup_ports (g : Nat) (x : Group) : (s.setGroup g x).ports = s.ports := rfl
@[simp] theorem State.setGroup_tim (g : Nat) (x : Group) : (s.setGroup g x).tim = s.tim := rfl
@[simp] theorem State.setGroup_pur (g : Nat) (x : Group) : (s.setGroup g x).pur = s.pur := rfl
@[simp] theorem State.setGroup_gab (g : Nat) (x : Group) : (s.setGroup g x).gab = s.gab := rfl
@[simp] theorem State.setGroup_trs (g : Nat) (x : Group) : (s.setGroup g x).trs = s.trs := rfl
@[simp] theorem State.setGroup_sec (g : Nat) (x : Group) : (s.setGroup g x).sec = s.sec := rfl
@[simp] theorem State.setGroup_gut (g : Nat) (x : Group) : (s.setGroup g x).gut = s.gut := rfl
@[simp] theorem State.setGroup_gau (g : Nat) (x : Group) : (s.setGroup g x).gau = s.gau := rfl
@[simp] theorem State.setGroup_pwr (g : Nat) (x : Group) : (s.setGroup g x).pwr = s.pwr := rfl
@[simp] theorem State.setGroup_sof (g : Nat) (x : Group) : (s.setGroup g x).sof = s.sof := rfl
@[simp] theorem State.setGroup_pins (g : Nat) (x : Group) : (s.setGroup g x).pins = s.pins := rfl
@[simp] theorem State.setGroup_jeb (g : Nat) (x : Group) : (s.setGroup g x).jeb = s.jeb := rfl
@[simp] theorem State.setGroup_latches (g : Nat) (x : Group) : (s.setGroup g x).latches = s.latches := rfl
@[simp] theorem State.setGroup_outputs (g : Nat) (x : Group) : (s.setGroup g x).outputs = s.outputs := rfl
@[simp] theorem State.setGroup_fresh (g : Nat) (x : Group) : (s.setGroup g x).fresh = s.fresh := rfl
@[simp] theorem State.setGroup_pending (g : Nat) (x : Group) : (s.setGroup g x).pending = s.pending := rfl

/-! ### State.setDur -/

@[simp] theorem State.setDur_ports (k : Nat) (d : Dur) : (s.setDur k d).ports = s.ports := rfl
@[simp] theorem State.setDur_tim (k : Nat) (d : Dur) : (s.setDur k d).tim = s.tim := rfl
@[simp] theorem State.setDur_pur (k : Nat) (d : Dur) : (s.setDur k d).pur = s.pur := rfl
@[simp] theorem State.setDur_gab (k : Nat) (d : Dur) : (s.setDur k d).gab = s.gab := rfl
@[simp] theorem State.setDur_trs (k : Nat) (d : Dur) : (s.setDur k d).trs = s.trs := rfl
@[simp] theorem State.setDur_sec (k : Nat) (d : Dur) : (s.setDur k d).sec = s.sec := rfl
@[simp] theorem State.setDur_gut (k : Nat) (d : Dur) : (s.setDur k d).gut = s.gut := rfl
@[simp] theorem State.setDur_gau (k : Nat) (d : Dur) : (s.setDur k d).gau = s.gau := rfl
@[simp] theorem State.setDur_pwr (k : Nat) (d : Dur) : (s.setDur k d).pwr = s.pwr := rfl
@[simp] theorem State.setDur_sof (k : Nat) (d : Dur) : (s.setDur k d).sof = s.sof := rfl
@[simp] theorem State.setDur_pins (k : Nat) (d : Dur) : (s.setDur k d).pins = s.pins := rfl
@[simp] theorem State.setDur_jeb (k : Nat) (d : Dur) : (s.setDur k d).jeb = s.jeb := rfl
@[simp] theorem State.setDur_latches (k : Nat) (d : Dur) : (s.setDur k d).latches = s.latches := rfl
@[simp] theorem State.setDur_outputs (k : Nat) (d : Dur) : (s.setDur k d).outputs = s.outputs := rfl
@[simp] theorem State.setDur_fresh (k : Nat) (d : Dur) : (s.setDur k d).fresh = s.fresh := rfl
@[simp] theorem State.setDur_pending (k : Nat) (d : Dur) : (s.setDur k d).pending = s.pending := rfl

/-! ### State.setSlot -/

@[simp] theorem State.setSlot_ports (n : Nat) (x : Slot) : (s.setSlot n x).ports = s.ports := rfl
@[simp] theorem State.setSlot_tim (n : Nat) (x : Slot) : (s.setSlot n x).tim = s.tim := rfl
@[simp] theorem State.setSlot_pur (n : Nat) (x : Slot) : (s.setSlot n x).pur = s.pur := rfl
@[simp] theorem State.setSlot_eav (n : Nat) (x : Slot) : (s.setSlot n x).eav = s.eav := rfl
@[simp] theorem State.setSlot_trs (n : Nat) (x : Slot) : (s.setSlot n x).trs = s.trs := rfl
@[simp] theorem State.setSlot_sec (n : Nat) (x : Slot) : (s.setSlot n x).sec = s.sec := rfl
@[simp] theorem State.setSlot_gut (n : Nat) (x : Slot) : (s.setSlot n x).gut = s.gut := rfl
@[simp] theorem State.setSlot_gau (n : Nat) (x : Slot) : (s.setSlot n x).gau = s.gau := rfl
@[simp] theorem State.setSlot_pwr (n : Nat) (x : Slot) : (s.setSlot n x).pwr = s.pwr := rfl
@[simp] theorem State.setSlot_sof (n : Nat) (x : Slot) : (s.setSlot n x).sof = s.sof := rfl
@[simp] theorem State.setSlot_pins (n : Nat) (x : Slot) : (s.setSlot n x).pins = s.pins := rfl
@[simp] theorem State.setSlot_jeb (n : Nat) (x : Slot) : (s.setSlot n x).jeb = s.jeb := rfl
@[simp] theorem State.setSlot_latches (n : Nat) (x : Slot) : (s.setSlot n x).latches = s.latches := rfl
@[simp] theorem State.setSlot_outputs (n : Nat) (x : Slot) : (s.setSlot n x).outputs = s.outputs := rfl
@[simp] theorem State.setSlot_fresh (n : Nat) (x : Slot) : (s.setSlot n x).fresh = s.fresh := rfl
@[simp] theorem State.setSlot_pending (n : Nat) (x : Slot) : (s.setSlot n x).pending = s.pending := rfl

/-! ### State.setComm -/

@[simp] theorem State.setComm_ports (n : Nat) (f : Comm → Comm) : (s.setComm n f).ports = s.ports := rfl
@[simp] theorem State.setComm_tim (n : Nat) (f : Comm → Comm) : (s.setComm n f).tim = s.tim := rfl
@[simp] theorem State.setComm_pur (n : Nat) (f : Comm → Comm) : (s.setComm n f).pur = s.pur := rfl
@[simp] theorem State.setComm_eav (n : Nat) (f : Comm → Comm) : (s.setComm n f).eav = s.eav := rfl
@[simp] theorem State.setComm_gab (n : Nat) (f : Comm → Comm) : (s.setComm n f).gab = s.gab := rfl
@[simp] theorem State.setComm_sec (n : Nat) (f : Comm → Comm) : (s.setComm n f).sec = s.sec := rfl
@[simp] theorem State.setComm_gut (n : Nat) (f : Comm → Comm) : (s.setComm n f).gut = s.gut := rfl
@[simp] theorem State.setComm_gau (n : Nat) (f : Comm → Comm) : (s.setComm n f).gau = s.gau := rfl
@[simp] theorem State.setComm_pwr (n : Nat) (f : Comm → Comm) : (s.setComm n f).pwr = s.pwr := rfl
@[simp] theorem State.setComm_sof (n : Nat) (f : Comm → Comm) : (s.setComm n f).sof = s.sof := rfl
@[simp] theorem State.setComm_pins (n : Nat) (f : Comm → Comm) : (s.setComm n f).pins = s.pins := rfl
@[simp] theorem State.setComm_jeb (n : Nat) (f : Comm → Comm) : (s.setComm n f).jeb = s.jeb := rfl
@[simp] theorem State.setComm_latches (n : Nat) (f : Comm → Comm) : (s.setComm n f).latches = s.latches := rfl
@[simp] theorem State.setComm_outputs (n : Nat) (f : Comm → Comm) : (s.setComm n f).outputs = s.outputs := rfl
@[simp] theorem State.setComm_fresh (n : Nat) (f : Comm → Comm) : (s.setComm n f).fresh = s.fresh := rfl
@[simp] theorem State.setComm_pending (n : Nat) (f : Comm → Comm) : (s.setComm n f).pending = s.pending := rfl

/-! ### State.setTrs -/

@[simp] theorem State.setTrs_ports (f : Trs → Trs) : (s.setTrs f).ports = s.ports := rfl
@[simp] theorem State.setTrs_tim (f : Trs → Trs) : (s.setTrs f).tim = s.tim := rfl
@[simp] theorem State.setTrs_pur (f : Trs → Trs) : (s.setTrs f).pur = s.pur := rfl
@[simp] theorem State.setTrs_eav (f : Trs → Trs) : (s.setTrs f).eav = s.eav := rfl
@[simp] theorem State.setTrs_gab (f : Trs → Trs) : (s.setTrs f).gab = s.gab := rfl
@[simp] theorem State.setTrs_sec (f : Trs → Trs) : (s.setTrs f).sec = s.sec := rfl
@[simp] theorem State.setTrs_gut (f : Trs → Trs) : (s.setTrs f).gut = s.gut := rfl
@[simp] theorem State.setTrs_gau (f : Trs → Trs) : (s.setTrs f).gau = s.gau := rfl
@[simp] theorem State.setTrs_pwr (f : Trs → Trs) : (s.setTrs f).pwr = s.pwr := rfl
@[simp] theorem State.setTrs_sof (f : Trs → Trs) : (s.setTrs f).sof = s.sof := rfl
@[simp] theorem State.setTrs_pins (f : Trs → Trs) : (s.setTrs f).pins = s.pins := rfl
@[simp] theorem State.setTrs_jeb (f : Trs → Trs) : (s.setTrs f).jeb = s.jeb := rfl
@[simp] theorem State.setTrs_latches (f : Trs → Trs) : (s.setTrs f).latches = s.latches := rfl
@[simp] theorem State.setTrs_outputs (f : Trs → Trs) : (s.setTrs f).outputs = s.outputs := rfl
@[simp] theorem State.setTrs_fresh (f : Trs → Trs) : (s.setTrs f).fresh = s.fresh := rfl
@[simp] theorem State.setTrs_pending (f : Trs → Trs) : (s.setTrs f).pending = s.pending := rfl

/-! ### State.setSec -/

@[simp] theorem State.setSec_ports (f : Sec → Sec) : (s.setSec f).ports = s.ports := rfl
@[simp] theorem State.setSec_tim (f : Sec → Sec) : (s.setSec f).tim = s.tim := rfl
@[simp] theorem State.setSec_pur (f : Sec → Sec) : (s.setSec f).pur = s.pur := rfl
@[simp] theorem State.setSec_eav (f : Sec → Sec) : (s.setSec f).eav = s.eav := rfl
@[simp] theorem State.setSec_gab (f : Sec → Sec) : (s.setSec f).gab = s.gab := rfl
@[simp] theorem State.setSec_trs (f : Sec → Sec) : (s.setSec f).trs = s.trs := rfl
@[simp] theorem State.setSec_gut (f : Sec → Sec) : (s.setSec f).gut = s.gut := rfl
@[simp] theorem State.setSec_gau (f : Sec → Sec) : (s.setSec f).gau = s.gau := rfl
@[simp] theorem State.setSec_pwr (f : Sec → Sec) : (s.setSec f).pwr = s.pwr := rfl
@[simp] theorem State.setSec_sof (f : Sec → Sec) : (s.setSec f).sof = s.sof := rfl
@[simp] theorem State.setSec_pins (f : Sec → Sec) : (s.setSec f).pins = s.pins := rfl
@[simp] theorem State.setSec_jeb (f : Sec → Sec) : (s.setSec f).jeb = s.jeb := rfl
@[simp] theorem State.setSec_latches (f : Sec → Sec) : (s.setSec f).latches = s.latches := rfl
@[simp] theorem State.setSec_outputs (f : Sec → Sec) : (s.setSec f).outputs = s.outputs := rfl
@[simp] theorem State.setSec_fresh (f : Sec → Sec) : (s.setSec f).fresh = s.fresh := rfl
@[simp] theorem State.setSec_pending (f : Sec → Sec) : (s.setSec f).pending = s.pending := rfl

/-! ### State.setGut -/

@[simp] theorem State.setGut_ports (f : Gut → Gut) : (s.setGut f).ports = s.ports := rfl
@[simp] theorem State.setGut_tim (f : Gut → Gut) : (s.setGut f).tim = s.tim := rfl
@[simp] theorem State.setGut_pur (f : Gut → Gut) : (s.setGut f).pur = s.pur := rfl
@[simp] theorem State.setGut_eav (f : Gut → Gut) : (s.setGut f).eav = s.eav := rfl
@[simp] theorem State.setGut_gab (f : Gut → Gut) : (s.setGut f).gab = s.gab := rfl
@[simp] theorem State.setGut_trs (f : Gut → Gut) : (s.setGut f).trs = s.trs := rfl
@[simp] theorem State.setGut_sec (f : Gut → Gut) : (s.setGut f).sec = s.sec := rfl
@[simp] theorem State.setGut_gau (f : Gut → Gut) : (s.setGut f).gau = s.gau := rfl
@[simp] theorem State.setGut_pwr (f : Gut → Gut) : (s.setGut f).pwr = s.pwr := rfl
@[simp] theorem State.setGut_sof (f : Gut → Gut) : (s.setGut f).sof = s.sof := rfl
@[simp] theorem State.setGut_pins (f : Gut → Gut) : (s.setGut f).pins = s.pins := rfl
@[simp] theorem State.setGut_jeb (f : Gut → Gut) : (s.setGut f).jeb = s.jeb := rfl
@[simp] theorem State.setGut_latches (f : Gut → Gut) : (s.setGut f).latches = s.latches := rfl
@[simp] theorem State.setGut_outputs (f : Gut → Gut) : (s.setGut f).outputs = s.outputs := rfl
@[simp] theorem State.setGut_fresh (f : Gut → Gut) : (s.setGut f).fresh = s.fresh := rfl
@[simp] theorem State.setGut_pending (f : Gut → Gut) : (s.setGut f).pending = s.pending := rfl

/-! ### State.setSrc -/

@[simp] theorem State.setSrc_ports (n : Nat) (f : Src → Src) : (s.setSrc n f).ports = s.ports := rfl
@[simp] theorem State.setSrc_tim (n : Nat) (f : Src → Src) : (s.setSrc n f).tim = s.tim := rfl
@[simp] theorem State.setSrc_pur (n : Nat) (f : Src → Src) : (s.setSrc n f).pur = s.pur := rfl
@[simp] theorem State.setSrc_eav (n : Nat) (f : Src → Src) : (s.setSrc n f).eav = s.eav := rfl
@[simp] theorem State.setSrc_gab (n : Nat) (f : Src → Src) : (s.setSrc n f).gab = s.gab := rfl
@[simp] theorem State.setSrc_trs (n : Nat) (f : Src → Src) : (s.setSrc n f).trs = s.trs := rfl
@[simp] theorem State.setSrc_sec (n : Nat) (f : Src → Src) : (s.setSrc n f).sec = s.sec := rfl
@[simp] theorem State.setSrc_gau (n : Nat) (f : Src → Src) : (s.setSrc n f).gau = s.gau := rfl
@[simp] theorem State.setSrc_pwr (n : Nat) (f : Src → Src) : (s.setSrc n f).pwr = s.pwr := rfl
@[simp] theorem State.setSrc_sof (n : Nat) (f : Src → Src) : (s.setSrc n f).sof = s.sof := rfl
@[simp] theorem State.setSrc_pins (n : Nat) (f : Src → Src) : (s.setSrc n f).pins = s.pins := rfl
@[simp] theorem State.setSrc_jeb (n : Nat) (f : Src → Src) : (s.setSrc n f).jeb = s.jeb := rfl
@[simp] theorem State.setSrc_latches (n : Nat) (f : Src → Src) : (s.setSrc n f).latches = s.latches := rfl
@[simp] theorem State.setSrc_outputs (n : Nat) (f : Src → Src) : (s.setSrc n f).outputs = s.outputs := rfl
@[simp] theorem State.setSrc_fresh (n : Nat) (f : Src → Src) : (s.setSrc n f).fresh = s.fresh := rfl
@[simp] theorem State.setSrc_pending (n : Nat) (f : Src → Src) : (s.setSrc n f).pending = s.pending := rfl

/-! ### State.setPwr -/

@[simp] theorem State.setPwr_ports (f : Pwr → Pwr) : (s.setPwr f).ports = s.ports := rfl
@[simp] theorem State.setPwr_tim (f : Pwr → Pwr) : (s.setPwr f).tim = s.tim := rfl
@[simp] theorem State.setPwr_pur (f : Pwr → Pwr) : (s.setPwr f).pur = s.pur := rfl
@[simp] theorem State.setPwr_eav (f : Pwr → Pwr) : (s.setPwr f).eav = s.eav := rfl
@[simp] theorem State.setPwr_gab (f : Pwr → Pwr) : (s.setPwr f).gab = s.gab := rfl
@[simp] theorem State.setPwr_trs (f : Pwr → Pwr) : (s.setPwr f).trs = s.trs := rfl
@[simp] theorem State.setPwr_sec (f : Pwr → Pwr) : (s.setPwr f).sec = s.sec := rfl
@[simp] theorem State.setPwr_gut (f : Pwr → Pwr) : (s.setPwr f).gut = s.gut := rfl
@[simp] theorem State.setPwr_gau (f : Pwr → Pwr) : (s.setPwr f).gau = s.gau := rfl
@[simp] theorem State.setPwr_sof (f : Pwr → Pwr) : (s.setPwr f).sof = s.sof := rfl
@[simp] theorem State.setPwr_pins (f : Pwr → Pwr) : (s.setPwr f).pins = s.pins := rfl
@[simp] theorem State.setPwr_jeb (f : Pwr → Pwr) : (s.setPwr f).jeb = s.jeb := rfl
@[simp] theorem State.setPwr_latches (f : Pwr → Pwr) : (s.setPwr f).latches = s.latches := rfl
@[simp] theorem State.setPwr_outputs (f : Pwr → Pwr) : (s.setPwr f).outputs = s.outputs := rfl
@[simp] theorem State.setPwr_fresh (f : Pwr → Pwr) : (s.setPwr f).fresh = s.fresh := rfl
@[simp] theorem State.setPwr_pending (f : Pwr → Pwr) : (s.setPwr f).pending = s.pending := rfl

/-! ### State.setSof -/

@[simp] theorem State.setSof_ports (f : Sof → Sof) : (s.setSof f).ports = s.ports := rfl
@[simp] theorem State.setSof_tim (f : Sof → Sof) : (s.setSof f).tim = s.tim := rfl
@[simp] theorem State.setSof_pur (f : Sof → Sof) : (s.setSof f).pur = s.pur := rfl
@[simp] theorem State.setSof_eav (f : Sof → Sof) : (s.setSof f).eav = s.eav := rfl
@[simp] theorem State.setSof_gab (f : Sof → Sof) : (s.setSof f).gab = s.gab := rfl
@[simp] theorem State.setSof_trs (f : Sof → Sof) : (s.setSof f).trs = s.trs := rfl
@[simp] theorem State.setSof_sec (f : Sof → Sof) : (s.setSof f).sec = s.sec := rfl
@[simp] theorem State.setSof_gut (f : Sof → Sof) : (s.setSof f).gut = s.gut := rfl
@[simp] theorem State.setSof_gau (f : Sof → Sof) : (s.setSof f).gau = s.gau := rfl
@[simp] theorem State.setSof_pwr (f : Sof → Sof) : (s.setSof f).pwr = s.pwr := rfl
@[simp] theorem State.setSof_pins (f : Sof → Sof) : (s.setSof f).pins = s.pins := rfl
@[simp] theorem State.setSof_jeb (f : Sof → Sof) : (s.setSof f).jeb = s.jeb := rfl
@[simp] theorem State.setSof_latches (f : Sof → Sof) : (s.setSof f).latches = s.latches := rfl
@[simp] theorem State.setSof_outputs (f : Sof → Sof) : (s.setSof f).outputs = s.outputs := rfl
@[simp] theorem State.setSof_fresh (f : Sof → Sof) : (s.setSof f).fresh = s.fresh := rfl
@[simp] theorem State.setSof_pending (f : Sof → Sof) : (s.setSof f).pending = s.pending := rfl

/-! ### State.setPins -/

@[simp] theorem State.setPins_ports (f : Pins → Pins) : (s.setPins f).ports = s.ports := rfl
@[simp] theorem State.setPins_tim (f : Pins → Pins) : (s.setPins f).tim = s.tim := rfl
@[simp] theorem State.setPins_pur (f : Pins → Pins) : (s.setPins f).pur = s.pur := rfl
@[simp] theorem State.setPins_eav (f : Pins → Pins) : (s.setPins f).eav = s.eav := rfl
@[simp] theorem State.setPins_gab (f : Pins → Pins) : (s.setPins f).gab = s.gab := rfl
@[simp] theorem State.setPins_trs (f : Pins → Pins) : (s.setPins f).trs = s.trs := rfl
@[simp] theorem State.setPins_sec (f : Pins → Pins) : (s.setPins f).sec = s.sec := rfl
@[simp] theorem State.setPins_gut (f : Pins → Pins) : (s.setPins f).gut = s.gut := rfl
@[simp] theorem State.setPins_gau (f : Pins → Pins) : (s.setPins f).gau = s.gau := rfl
@[simp] theorem State.setPins_pwr (f : Pins → Pins) : (s.setPins f).pwr = s.pwr := rfl
@[simp] theorem State.setPins_sof (f : Pins → Pins) : (s.setPins f).sof = s.sof := rfl
@[simp] theorem State.setPins_jeb (f : Pins → Pins) : (s.setPins f).jeb = s.jeb := rfl
@[simp] theorem State.setPins_latches (f : Pins → Pins) : (s.setPins f).latches = s.latches := rfl
@[simp] theorem State.setPins_outputs (f : Pins → Pins) : (s.setPins f).outputs = s.outputs := rfl
@[simp] theorem State.setPins_fresh (f : Pins → Pins) : (s.setPins f).fresh = s.fresh := rfl
@[simp] theorem State.setPins_pending (f : Pins → Pins) : (s.setPins f).pending = s.pending := rfl

/-! ### State.updJeb -/

@[simp] theorem State.updJeb_ports (f : Jeb → Jeb) : (s.updJeb f).ports = s.ports := rfl
@[simp] theorem State.updJeb_tim (f : Jeb → Jeb) : (s.updJeb f).tim = s.tim := rfl
@[simp] theorem State.updJeb_pur (f : Jeb → Jeb) : (s.updJeb f).pur = s.pur := rfl
@[simp] theorem State.updJeb_eav (f : Jeb → Jeb) : (s.updJeb f).eav = s.eav := rfl
@[simp] theorem State.updJeb_gab (f : Jeb → Jeb) : (s.updJeb f).gab = s.gab := rfl
@[simp] theorem State.updJeb_trs (f : Jeb → Jeb) : (s.updJeb f).trs = s.trs := rfl
@[simp] theorem State.updJeb_sec (f : Jeb → Jeb) : (s.updJeb f).sec = s.sec := rfl
@[simp] theorem State.updJeb_gut (f : Jeb → Jeb) : (s.updJeb f).gut = s.gut := rfl
@[simp] theorem State.updJeb_gau (f : Jeb → Jeb) : (s.updJeb f).gau = s.gau := rfl
@[simp] theorem State.updJeb_pwr (f : Jeb → Jeb) : (s.updJeb f).pwr = s.pwr := rfl
@[simp] theorem State.updJeb_sof (f : Jeb → Jeb) : (s.updJeb f).sof = s.sof := rfl
@[simp] theorem State.updJeb_pins (f : Jeb → Jeb) : (s.updJeb f).pins = s.pins := rfl
@[simp] theorem State.updJeb_latches (f : Jeb → Jeb) : (s.updJeb f).latches = s.latches := rfl
@[simp] theorem State.updJeb_outputs (f : Jeb → Jeb) : (s.updJeb f).outputs = s.outputs := rfl
@[simp] theorem State.updJeb_fresh (f : Jeb → Jeb) : (s.updJeb f).fresh = s.fresh := rfl
@[simp] theorem State.updJeb_pending (f : Jeb → Jeb) : (s.updJeb f).pending = s.pending := rfl

/-! ### State.setEngine -/

@[simp] theorem State.setEngine_ports (e : Byte) (x : Engine) : (s.setEngine e x).ports = s.ports := rfl
@[simp] theorem State.setEngine_tim (e : Byte) (x : Engine) : (s.setEngine e x).tim = s.tim := rfl
@[simp] theorem State.setEngine_pur (e : Byte) (x : Engine) : (s.setEngine e x).pur = s.pur := rfl
@[simp] theorem State.setEngine_eav (e : Byte) (x : Engine) : (s.setEngine e x).eav = s.eav := rfl
@[simp] theorem State.setEngine_gab (e : Byte) (x : Engine) : (s.setEngine e x).gab = s.gab := rfl
@[simp] theorem State.setEngine_trs (e : Byte) (x : Engine) : (s.setEngine e x).trs = s.trs := rfl
@[simp] theorem State.setEngine_sec (e : Byte) (x : Engine) : (s.setEngine e x).sec = s.sec := rfl
@[simp] theorem State.setEngine_gut (e : Byte) (x : Engine) : (s.setEngine e x).gut = s.gut := rfl
@[simp] theorem State.setEngine_gau (e : Byte) (x : Engine) : (s.setEngine e x).gau = s.gau := rfl
@[simp] theorem State.setEngine_pwr (e : Byte) (x : Engine) : (s.setEngine e x).pwr = s.pwr := rfl
@[simp] theorem State.setEngine_sof (e : Byte) (x : Engine) : (s.setEngine e x).sof = s.sof := rfl
@[simp] theorem State.setEngine_pins (e : Byte) (x : Engine) : (s.setEngine e x).pins = s.pins := rfl
@[simp] theorem State.setEngine_latches (e : Byte) (x : Engine) : (s.setEngine e x).latches = s.latches := rfl
@[simp] theorem State.setEngine_outputs (e : Byte) (x : Engine) : (s.setEngine e x).outputs = s.outputs := rfl
@[simp] theorem State.setEngine_fresh (e : Byte) (x : Engine) : (s.setEngine e x).fresh = s.fresh := rfl
@[simp] theorem State.setEngine_pending (e : Byte) (x : Engine) : (s.setEngine e x).pending = s.pending := rfl

/-! ### State.setDesc -/

@[simp] theorem State.setDesc_ports (n : Nat) (d : SendDesc) : (s.setDesc n d).ports = s.ports := rfl
@[simp] theorem State.setDesc_tim (n : Nat) (d : SendDesc) : (s.setDesc n d).tim = s.tim := rfl
@[simp] theorem State.setDesc_pur (n : Nat) (d : SendDesc) : (s.setDesc n d).pur = s.pur := rfl
@[simp] theorem State.setDesc_eav (n : Nat) (d : SendDesc) : (s.setDesc n d).eav = s.eav := rfl
@[simp] theorem State.setDesc_gab (n : Nat) (d : SendDesc) : (s.setDesc n d).gab = s.gab := rfl
@[simp] theorem State.setDesc_trs (n : Nat) (d : SendDesc) : (s.setDesc n d).trs = s.trs := rfl
@[simp] theorem State.setDesc_sec (n : Nat) (d : SendDesc) : (s.setDesc n d).sec = s.sec := rfl
@[simp] theorem State.setDesc_gut (n : Nat) (d : SendDesc) : (s.setDesc n d).gut = s.gut := rfl
@[simp] theorem State.setDesc_gau (n : Nat) (d : SendDesc) : (s.setDesc n d).gau = s.gau := rfl
@[simp] theorem State.setDesc_pwr (n : Nat) (d : SendDesc) : (s.setDesc n d).pwr = s.pwr := rfl
@[simp] theorem State.setDesc_sof (n : Nat) (d : SendDesc) : (s.setDesc n d).sof = s.sof := rfl
@[simp] theorem State.setDesc_pins (n : Nat) (d : SendDesc) : (s.setDesc n d).pins = s.pins := rfl
@[simp] theorem State.setDesc_latches (n : Nat) (d : SendDesc) : (s.setDesc n d).latches = s.latches := rfl
@[simp] theorem State.setDesc_outputs (n : Nat) (d : SendDesc) : (s.setDesc n d).outputs = s.outputs := rfl
@[simp] theorem State.setDesc_fresh (n : Nat) (d : SendDesc) : (s.setDesc n d).fresh = s.fresh := rfl
@[simp] theorem State.setDesc_pending (n : Nat) (d : SendDesc) : (s.setDesc n d).pending = s.pending := rfl

/-! ### State.setPort -/

@[simp] theorem State.setPort_tim (p : PortRef) (x : Port) : (s.setPort p x).tim = s.tim := by cases p <;> rfl
@[simp] theorem State.setPort_pur (p : PortRef) (x : Port) : (s.setPort p x).pur = s.pur := by cases p <;> rfl
@[simp] theorem State.setPort_eav (p : PortRef) (x : Port) : (s.setPort p x).eav = s.eav := by cases p <;> rfl
@[simp] theorem State.setPort_gab (p : PortRef) (x : Port) : (s.setPort p x).gab = s.gab := by cases p <;> rfl
@[simp] theorem State.setPort_trs (p : PortRef) (x : Port) : (s.setPort p x).trs = s.trs := by cases p <;> rfl
@[simp] theorem State.setPort_sec (p : PortRef) (x : Port) : (s.setPort p x).sec = s.sec := by cases p <;> rfl
@[simp] theorem State.setPort_gut (p : PortRef) (x : Port) : (s.setPort p x).gut = s.gut := by cases p <;> rfl
@[simp] theorem State.setPort_gau (p : PortRef) (x : Port) : (s.setPort p x).gau = s.gau := by cases p <;> rfl
@[simp] theorem State.setPort_pwr (p : PortRef) (x : Port) : (s.setPort p x).pwr = s.pwr := by cases p <;> rfl
@[simp] theorem State.setPort_sof (p : PortRef) (x : Port) : (s.setPort p x).sof = s.sof := by cases p <;> rfl
@[simp] theorem State.setPort_pins (p : PortRef) (x : Port) : (s.setPort p x).pins = s.pins := by cases p <;> rfl
@[simp] theorem State.setPort_latches (p : PortRef) (x : Port) : (s.setPort p x).latches = s.latches := by cases p <;> rfl
@[simp] theorem State.setPort_outputs (p : PortRef) (x : Port) : (s.setPort p x).outputs = s.outputs := by cases p <;> rfl
@[simp] theorem State.setPort_fresh (p : PortRef) (x : Port) : (s.setPort p x).fresh = s.fresh := by cases p <;> rfl
@[simp] theorem State.setPort_pending (p : PortRef) (x : Port) : (s.setPort p x).pending = s.pending := by cases p <;> rfl

/-! ### State.updPort -/

@[simp] theorem State.updPort_tim (p : PortRef) (f : Port → Port) : (s.updPort p f).tim = s.tim := by cases p <;> rfl
@[simp] theorem State.updPort_pur (p : PortRef) (f : Port → Port) : (s.updPort p f).pur = s.pur := by cases p <;> rfl
@[simp] theorem State.updPort_eav (p : PortRef) (f : Port → Port) : (s.updPort p f).eav = s.eav := by cases p <;> rfl
@[simp] theorem State.updPort_gab (p : PortRef) (f : Port → Port) : (s.updPort p f).gab = s.gab := by cases p <;> rfl
@[simp] theorem State.updPort_trs (p : PortRef) (f : Port → Port) : (s.updPort p f).trs = s.trs := by cases p <;> rfl
@[simp] theorem State.updPort_sec (p : PortRef) (f : Port → Port) : (s.updPort p f).sec = s.sec := by cases p <;> rfl
@[simp] theorem State.updPort_gut (p : PortRef) (f : Port → Port) : (s.updPort p f).gut = s.gut := by cases p <;> rfl
@[simp] theorem State.updPort_gau (p : PortRef) (f : Port → Port) : (s.updPort p f).gau = s.gau := by cases p <;> rfl
@[simp] theorem State.updPort_pwr (p : PortRef) (f : Port → Port) : (s.updPort p f).pwr = s.pwr := by cases p <;> rfl
@[simp] theorem State.updPort_sof (p : PortRef) (f : Port → Port) : (s.updPort p f).sof = s.sof := by cases p <;> rfl
@[simp] theorem State.updPort_pins (p : PortRef) (f : Port → Port) : (s.updPort p f).pins = s.pins := by cases p <;> rfl
@[simp] theorem State.updPort_latches (p : PortRef) (f : Port → Port) : (s.updPort p f).latches = s.latches := by cases p <;> rfl
@[simp] theorem State.updPort_outputs (p : PortRef) (f : Port → Port) : (s.updPort p f).outputs = s.outputs := by cases p <;> rfl
@[simp] theorem State.updPort_fresh (p : PortRef) (f : Port → Port) : (s.updPort p f).fresh = s.fresh := by cases p <;> rfl
@[simp] theorem State.updPort_pending (p : PortRef) (f : Port → Port) : (s.updPort p f).pending = s.pending := by cases p <;> rfl

/-! ### State.setPState -/

@[simp] theorem State.setPState_tim (p : PortRef) (st : PState) : (s.setPState p st).tim = s.tim := by cases p <;> rfl
@[simp] theorem State.setPState_pur (p : PortRef) (st : PState) : (s.setPState p st).pur = s.pur := by cases p <;> rfl
@[simp] theorem State.setPState_eav (p : PortRef) (st : PState) : (s.setPState p st).eav = s.eav := by cases p <;> rfl
@[simp] theorem State.setPState_gab (p : PortRef) (st : PState) : (s.setPState p st).gab = s.gab := by cases p <;> rfl
@[simp] theorem State.setPState_trs (p : PortRef) (st : PState) : (s.setPState p st).trs = s.trs := by cases p <;> rfl
@[simp] theorem State.setPState_sec (p : PortRef) (st : PState) : (s.setPState p st).sec = s.sec := by cases p <;> rfl
@[simp] theorem State.setPState_gut (p : PortRef) (st : PState) : (s.setPState p st).gut = s.gut := by cases p <;> rfl
@[simp] theorem State.setPState_gau (p : PortRef) (st : PState) : (s.setPState p st).gau = s.gau := by cases p <;> rfl
@[simp] theorem State.setPState_pwr (p : PortRef) (st : PState) : (s.setPState p st).pwr = s.pwr := by cases p <;> rfl
@[simp] theorem State.setPState_sof (p : PortRef) (st : PState) : (s.setPState p st).sof = s.sof := by cases p <;> rfl
@[simp] theorem State.setPState_pins (p : PortRef) (st : PState) : (s.setPState p st).pins = s.pins := by cases p <;> rfl
@[simp] theorem State.setPState_latches (p : PortRef) (st : PState) : (s.setPState p st).latches = s.latches := by cases p <;> rfl
@[simp] theorem State.setPState_outputs (p : PortRef) (st : PState) : (s.setPState p st).outputs = s.outputs := by cases p <;> rfl
@[simp] theorem State.setPState_fresh (p : PortRef) (st : PState) : (s.setPState p st).fresh = s.fresh := by cases p <;> rfl
@[simp] theorem State.setPState_pending (p : PortRef) (st : PState) : (s.setPState p st).pending = s.pending := by cases p <;> rfl

/-! ### State.takeRx -/

@[simp] theorem State.takeRx_tim (p : PortRef) (raw : RawFrame) : (s.takeRx p raw).tim = s.tim := s.updPort_tim p _
@[simp] theorem State.takeRx_pur (p : PortRef) (raw : RawFrame) : (s.takeRx p raw).pur = s.pur := s.updPort_pur p _
@[simp] theorem State.takeRx_eav (p : PortRef) (raw : RawFrame) : (s.takeRx p raw).eav = s.eav := s.updPort_eav p _
@[simp] theorem State.takeRx_gab (p : PortRef) (raw : RawFrame) : (s.takeRx p raw).gab = s.gab := s.updPort_gab p _
@[simp] theorem State.takeRx_trs (p : PortRef) (raw : RawFrame) : (s.takeRx p raw).trs = s.trs := s.updPort_trs p _
@[simp] theorem State.takeRx_sec (p : PortRef) (raw : RawFrame) : (s.takeRx p raw).sec = s.sec := s.updPort_sec p _
@[simp] theorem State.takeRx_gut (p : PortRef) (raw : RawFrame) : (s.takeRx p raw).gut = s.gut := s.updPort_gut p _
@[simp] theorem State.takeRx_gau (p : PortRef) (raw : RawFrame) : (s.takeRx p raw).gau = s.gau := s.updPort_gau p _
@[simp] theorem State.takeRx_pwr (p : PortRef) (raw : RawFrame) : (s.takeRx p raw).pwr = s.pwr := s.updPort_pwr p _
@[simp] theorem State.takeRx_sof (p : PortRef) (raw : RawFrame) : (s.takeRx p raw).sof = s.sof := s.updPort_sof p _
@[simp] theorem State.takeRx_pins (p : PortRef) (raw : RawFrame) : (s.takeRx p raw).pins = s.pins := s.updPort_pins p _
@[simp] theorem State.takeRx_latches (p : PortRef) (raw : RawFrame) : (s.takeRx p raw).latches = s.latches := s.updPort_latches p _
@[simp] theorem State.takeRx_outputs (p : PortRef) (raw : RawFrame) : (s.takeRx p raw).outputs = s.outputs := s.updPort_outputs p _
@[simp] theorem State.takeRx_fresh (p : PortRef) (raw : RawFrame) : (s.takeRx p raw).fresh = s.fresh := s.updPort_fresh p _
@[simp] theorem State.takeRx_pending (p : PortRef) (raw : RawFrame) : (s.takeRx p raw).pending = s.pending := s.updPort_pending p _

/-! ### What is written -/

@[simp] theorem State.setSec_sec (f : Sec → Sec) : (s.setSec f).sec = f s.sec := rfl
@[simp] theorem State.setGut_gut (f : Gut → Gut) : (s.setGut f).gut = f s.gut := rfl
@[simp] theorem State.setPwr_pwr (f : Pwr → Pwr) : (s.setPwr f).pwr = f s.pwr := rfl
@[simp] theorem State.setSof_sof (f : Sof → Sof) : (s.setSof f).sof = f s.sof := rfl
@[simp] theorem State.setPins_pins (f : Pins → Pins) : (s.setPins f).pins = f s.pins := rfl
@[simp] theorem State.setTrs_trs (f : Trs → Trs) : (s.setTrs f).trs = f s.trs := rfl
@[simp] theorem State.updJeb_jeb (f : Jeb → Jeb) : (s.updJeb f).jeb = f s.jeb := rfl
@[simp] theorem State.spend_fresh (n : Nat) : (s.spend n).fresh = s.fresh + n := rfl
@[simp] theorem State.emit_outputs (o : Output) : (s.emit o).outputs = s.outputs ++ [o] := rfl

/-- A queue is the one last stored; another queue's is not touched. -/
theorem State.queue_setQueue (q r : Nat) (x : Queue) : (s.setQueue q x).queue r = if r = q then x else s.queue r := by
  simp [State.queue, State.setQueue, Tab.get_put]

@[simp] theorem State.queue_setQueue_same (q : Nat) (x : Queue) : (s.setQueue q x).queue q = x := by simp [State.queue_setQueue]

theorem State.eave_setEave (n m : Nat) (e : Eave) : (s.setEave n e).eave m = if m = n then e else s.eave m := by
  simp [State.eave, State.setEave, Tab.get_put]

@[simp] theorem State.setEave_mem (n : Nat) (e : Eave) : (s.setEave n e).eav.mem = s.eav.mem := rfl

theorem State.engine_setEngine (e d : Byte) (x : Engine) : (s.setEngine e x).engine d = if d = e then x else s.engine d := by
  simp only [State.engine, State.setEngine, State.updJeb, Tab.get_put, BitVec.toNat_inj]

@[simp] theorem State.engine_setEngine_same (e : Byte) (x : Engine) : (s.setEngine e x).engine e = x := by simp [State.engine_setEngine]

/-- The port last stored is the one read. -/
@[simp] theorem State.port_setPort_same (p : PortRef) (x : Port) : (s.setPort p x).port p = x := by
  cases p <;> simp [State.port, State.setPort]

/-- A port read after another one was stored. -/
theorem State.port_setPort_ne (p l : PortRef) (x : Port) (h : l ≠ p) : (s.setPort p x).port l = s.port l := by
  cases p with
  | module n =>
    cases l with
    | module m =>
      have : m.val ≠ n.val := fun e => h (by rw [Fin.ext e])
      simp [State.port, State.setPort, Tab.get_put, this]
    | rafter m => rfl
    | tray m => rfl
  | rafter n =>
    cases l with
    | module m => rfl
    | rafter m =>
      have : m.val ≠ n.val := fun e => h (by rw [Fin.ext e])
      simp [State.port, State.setPort, Tab.get_put, this]
    | tray m =>
      have : 18 + m.val ≠ n.val := by omega
      simp [State.port, State.setPort, Tab.get_put, this]
  | tray n =>
    cases l with
    | module m => rfl
    | rafter m =>
      have : m.val ≠ 18 + n.val := by omega
      simp [State.port, State.setPort, Tab.get_put, this]
    | tray m =>
      have : ¬ (18 + m.val = 18 + n.val) := fun e => h (by rw [Fin.ext (by omega : m.val = n.val)])
      simp only [State.port, State.setPort, Tab.get_put, this, if_false]

@[simp] theorem State.port_updPort_same (p : PortRef) (f : Port → Port) : (s.updPort p f).port p = f (s.port p) := by
  simp [State.updPort]

theorem State.port_updPort_ne (p l : PortRef) (f : Port → Port) (h : l ≠ p) : (s.updPort p f).port l = s.port l := by
  simp [State.updPort, State.port_setPort_ne _ _ _ _ h]

/-- A module port by number is the port of that name. -/
theorem State.mport_eq (n : Fin 144) : s.mport n.val = s.port (.module n) := rfl

/-- What a port update changes: the ports, of which the others stay. -/
theorem State.setPort_eq (p : PortRef) (x : Port) :
    s.setPort p x = { s with ports := (s.setPort p x).ports, jeb := { s.jeb with ports := (s.setPort p x).jeb.ports } } := by
  cases p <;> rfl

theorem State.updPort_eq (p : PortRef) (f : Port → Port) :
    s.updPort p f = { s with ports := (s.updPort p f).ports, jeb := { s.jeb with ports := (s.updPort p f).jeb.ports } } := s.setPort_eq p _

/-- A module's port update leaves the Jalem block. -/
@[simp] theorem State.updPort_module_jeb (n : Fin 144) (f : Port → Port) : (s.updPort (.module n) f).jeb = s.jeb := rfl

/-- A Jalem block's port update leaves the module's ports, and of the block all but its ports. -/
@[simp] theorem State.updPort_rafter_ports (q : Fin 18) (f : Port → Port) : (s.updPort (.rafter q) f).ports = s.ports := rfl
@[simp] theorem State.updPort_tray_ports (t : Fin 2) (f : Port → Port) : (s.updPort (.tray t) f).ports = s.ports := rfl
@[simp] theorem State.updPort_jeb_mem (p : PortRef) (f : Port → Port) : (s.updPort p f).jeb.mem = s.jeb.mem := by cases p <;> rfl
@[simp] theorem State.updPort_jeb_reqs (p : PortRef) (f : Port → Port) : (s.updPort p f).jeb.reqs = s.jeb.reqs := by cases p <;> rfl
@[simp] theorem State.updPort_jeb_tim (p : PortRef) (f : Port → Port) : (s.updPort p f).jeb.tim = s.jeb.tim := by cases p <;> rfl

end Sys2Proof.Machine
end

