-- ==== Sys2Proof/Laws/Ops.lean ====
section
/-! SUPPORT. What the shared operations of Machine/Ops.lean leave alone: a lemma per operation and field; and what each may change,
in one equation. -/

namespace Sys2Proof.Machine

open Sys2Proof

variable (s : State)

/-- What each step of a fold keeps, the fold keeps. -/
theorem State.foldl_keeps {α β : Type} (g : State → α) (f : State → β → State) (h : ∀ s x, g (f s x) = g s) (l : List β) (s : State) :
    g (l.foldl f s) = g s := by
  induction l generalizing s with
  | nil => rfl
  | cons x l ih => rw [List.foldl_cons, ih, h]

/-- A teardown sent on several ports changes only what sending changes. -/
theorem State.sendAll_keeps (l : List (Fin 144)) (action : Nat) {α : Type} (g : State → α)
    (h : ∀ s n, g (State.sendTeardown s n action) = g s) : g (s.sendAll l action).2 = g s := by
  unfold State.sendAll
  generalize hr : (([], s) : List (Fin 144 × W16) × State) = r
  have : g s = g r.2 := by rw [← hr]
  rw [this]
  clear hr this
  induction l generalizing r with
  | nil => rfl
  | cons n l ih => rw [List.foldl_cons, ih, h]

/-! ### State.logEvent -/

@[simp] theorem State.logEvent_ports (kind : Byte) (data : List W64) (scope : Bool) : (s.logEvent kind data scope).ports = s.ports := by
  unfold State.logEvent
  split <;> rfl
@[simp] theorem State.logEvent_tim (kind : Byte) (data : List W64) (scope : Bool) : (s.logEvent kind data scope).tim = s.tim := by
  unfold State.logEvent
  split <;> rfl
@[simp] theorem State.logEvent_pur (kind : Byte) (data : List W64) (scope : Bool) : (s.logEvent kind data scope).pur = s.pur := by
  unfold State.logEvent
  split <;> rfl
@[simp] theorem State.logEvent_eav (kind : Byte) (data : List W64) (scope : Bool) : (s.logEvent kind data scope).eav = s.eav := by
  unfold State.logEvent
  split <;> rfl
@[simp] theorem State.logEvent_gab (kind : Byte) (data : List W64) (scope : Bool) : (s.logEvent kind data scope).gab = s.gab := by
  unfold State.logEvent
  split <;> rfl
@[simp] theorem State.logEvent_trs (kind : Byte) (data : List W64) (scope : Bool) : (s.logEvent kind data scope).trs = s.trs := by
  unfold State.logEvent
  split <;> rfl
@[simp] theorem State.logEvent_sec (kind : Byte) (data : List W64) (scope : Bool) : (s.logEvent kind data scope).sec = s.sec := by
  unfold State.logEvent
  split <;> rfl
@[simp] theorem State.logEvent_gut (kind : Byte) (data : List W64) (scope : Bool) : (s.logEvent kind data scope).gut = s.gut := by
  unfold State.logEvent
  split <;> rfl
@[simp] theorem State.logEvent_gau (kind : Byte) (data : List W64) (scope : Bool) : (s.logEvent kind data scope).gau = s.gau := by
  unfold State.logEvent
  split <;> rfl
@[simp] theorem State.logEvent_pwr (kind : Byte) (data : List W64) (scope : Bool) : (s.logEvent kind data scope).pwr = s.pwr := by
  unfold State.logEvent
  split <;> rfl
@[simp] theorem State.logEvent_pins (kind : Byte) (data : List W64) (scope : Bool) : (s.logEvent kind data scope).pins = s.pins := by
  unfold State.logEvent
  split <;> rfl
@[simp] theorem State.logEvent_jeb (kind : Byte) (data : List W64) (scope : Bool) : (s.logEvent kind data scope).jeb = s.jeb := by
  unfold State.logEvent
  split <;> rfl
@[simp] theorem State.logEvent_latches (kind : Byte) (data : List W64) (scope : Bool) : (s.logEvent kind data scope).latches = s.latches := by
  unfold State.logEvent
  split <;> rfl
@[simp] theorem State.logEvent_outputs (kind : Byte) (data : List W64) (scope : Bool) : (s.logEvent kind data scope).outputs = s.outputs := by
  unfold State.logEvent
  split <;> rfl
@[simp] theorem State.logEvent_pending (kind : Byte) (data : List W64) (scope : Bool) : (s.logEvent kind data scope).pending = s.pending := by
  unfold State.logEvent
  split <;> rfl
/-! ### State.note -/

@[simp] theorem State.note_ports (e : Event) (sev code : Nat) : (s.note e sev code).ports = s.ports := by
  simp only [State.note, apply_ite State.ports, State.logEvent_ports, ite_self]
@[simp] theorem State.note_tim (e : Event) (sev code : Nat) : (s.note e sev code).tim = s.tim := by
  simp only [State.note, apply_ite State.tim, State.logEvent_tim, ite_self]
@[simp] theorem State.note_pur (e : Event) (sev code : Nat) : (s.note e sev code).pur = s.pur := by
  simp only [State.note, apply_ite State.pur, State.logEvent_pur, ite_self]
@[simp] theorem State.note_eav (e : Event) (sev code : Nat) : (s.note e sev code).eav = s.eav := by
  simp only [State.note, apply_ite State.eav, State.logEvent_eav, ite_self]
@[simp] theorem State.note_gab (e : Event) (sev code : Nat) : (s.note e sev code).gab = s.gab := by
  simp only [State.note, apply_ite State.gab, State.logEvent_gab, ite_self]
@[simp] theorem State.note_trs (e : Event) (sev code : Nat) : (s.note e sev code).trs = s.trs := by
  simp only [State.note, apply_ite State.trs, State.logEvent_trs, ite_self]
@[simp] theorem State.note_sec (e : Event) (sev code : Nat) : (s.note e sev code).sec = s.sec := by
  simp only [State.note, apply_ite State.sec, State.logEvent_sec, ite_self]
@[simp] theorem State.note_gau (e : Event) (sev code : Nat) : (s.note e sev code).gau = s.gau := by
  simp only [State.note, apply_ite State.gau, State.logEvent_gau, ite_self]
@[simp] theorem State.note_pwr (e : Event) (sev code : Nat) : (s.note e sev code).pwr = s.pwr := by
  simp only [State.note, apply_ite State.pwr, State.logEvent_pwr, ite_self]
@[simp] theorem State.note_pins (e : Event) (sev code : Nat) : (s.note e sev code).pins = s.pins := by
  simp only [State.note, apply_ite State.pins, State.logEvent_pins, ite_self]
@[simp] theorem State.note_jeb (e : Event) (sev code : Nat) : (s.note e sev code).jeb = s.jeb := by
  simp only [State.note, apply_ite State.jeb, State.logEvent_jeb, ite_self]
@[simp] theorem State.note_latches (e : Event) (sev code : Nat) : (s.note e sev code).latches = s.latches := by
  simp only [State.note, apply_ite State.latches, State.logEvent_latches, ite_self]
@[simp] theorem State.note_outputs (e : Event) (sev code : Nat) : (s.note e sev code).outputs = s.outputs := by
  simp only [State.note, apply_ite State.outputs, State.logEvent_outputs, ite_self]
@[simp] theorem State.note_pending (e : Event) (sev code : Nat) : (s.note e sev code).pending = s.pending := by
  simp only [State.note, apply_ite State.pending, State.logEvent_pending, ite_self]
/-! ### State.count -/

@[simp] theorem State.count_ports (e : Event) : (s.count e).ports = s.ports := by
  unfold State.count
  split <;> simp
@[simp] theorem State.count_tim (e : Event) : (s.count e).tim = s.tim := by
  unfold State.count
  split <;> simp
@[simp] theorem State.count_pur (e : Event) : (s.count e).pur = s.pur := by
  unfold State.count
  split <;> simp
@[simp] theorem State.count_eav (e : Event) : (s.count e).eav = s.eav := by
  unfold State.count
  split <;> simp
@[simp] theorem State.count_gab (e : Event) : (s.count e).gab = s.gab := by
  unfold State.count
  split <;> simp
@[simp] theorem State.count_trs (e : Event) : (s.count e).trs = s.trs := by
  unfold State.count
  split <;> simp
@[simp] theorem State.count_sec (e : Event) : (s.count e).sec = s.sec := by
  unfold State.count
  split <;> simp
@[simp] theorem State.count_gau (e : Event) : (s.count e).gau = s.gau := by
  unfold State.count
  split <;> simp
@[simp] theorem State.count_pwr (e : Event) : (s.count e).pwr = s.pwr := by
  unfold State.count
  split <;> simp
@[simp] theorem State.count_pins (e : Event) : (s.count e).pins = s.pins := by
  unfold State.count
  split <;> simp
@[simp] theorem State.count_jeb (e : Event) : (s.count e).jeb = s.jeb := by
  unfold State.count
  split <;> simp
@[simp] theorem State.count_latches (e : Event) : (s.count e).latches = s.latches := by
  unfold State.count
  split <;> simp
@[simp] theorem State.count_outputs (e : Event) : (s.count e).outputs = s.outputs := by
  unfold State.count
  split <;> simp
@[simp] theorem State.count_pending (e : Event) : (s.count e).pending = s.pending := by
  unfold State.count
  split <;> simp
/-! ### State.severe -/

@[simp] theorem State.severe_ports (e : Event) : (s.severe e).ports = s.ports := s.note_ports e 1 0
@[simp] theorem State.severe_tim (e : Event) : (s.severe e).tim = s.tim := s.note_tim e 1 0
@[simp] theorem State.severe_pur (e : Event) : (s.severe e).pur = s.pur := s.note_pur e 1 0
@[simp] theorem State.severe_eav (e : Event) : (s.severe e).eav = s.eav := s.note_eav e 1 0
@[simp] theorem State.severe_gab (e : Event) : (s.severe e).gab = s.gab := s.note_gab e 1 0
@[simp] theorem State.severe_trs (e : Event) : (s.severe e).trs = s.trs := s.note_trs e 1 0
@[simp] theorem State.severe_sec (e : Event) : (s.severe e).sec = s.sec := s.note_sec e 1 0
@[simp] theorem State.severe_gau (e : Event) : (s.severe e).gau = s.gau := s.note_gau e 1 0
@[simp] theorem State.severe_pwr (e : Event) : (s.severe e).pwr = s.pwr := s.note_pwr e 1 0
@[simp] theorem State.severe_pins (e : Event) : (s.severe e).pins = s.pins := s.note_pins e 1 0
@[simp] theorem State.severe_jeb (e : Event) : (s.severe e).jeb = s.jeb := s.note_jeb e 1 0
@[simp] theorem State.severe_latches (e : Event) : (s.severe e).latches = s.latches := s.note_latches e 1 0
@[simp] theorem State.severe_outputs (e : Event) : (s.severe e).outputs = s.outputs := s.note_outputs e 1 0
@[simp] theorem State.severe_pending (e : Event) : (s.severe e).pending = s.pending := s.note_pending e 1 0
/-! ### State.countFlash -/

@[simp] theorem State.countFlash_tim (p : PortRef) (k : Nat) : (s.countFlash p k).tim = s.tim := by cases p <;> simp [State.countFlash]
@[simp] theorem State.countFlash_pur (p : PortRef) (k : Nat) : (s.countFlash p k).pur = s.pur := by cases p <;> simp [State.countFlash]
@[simp] theorem State.countFlash_eav (p : PortRef) (k : Nat) : (s.countFlash p k).eav = s.eav := by cases p <;> simp [State.countFlash]
@[simp] theorem State.countFlash_gab (p : PortRef) (k : Nat) : (s.countFlash p k).gab = s.gab := by cases p <;> simp [State.countFlash]
@[simp] theorem State.countFlash_trs (p : PortRef) (k : Nat) : (s.countFlash p k).trs = s.trs := by cases p <;> simp [State.countFlash]
@[simp] theorem State.countFlash_sec (p : PortRef) (k : Nat) : (s.countFlash p k).sec = s.sec := by cases p <;> simp [State.countFlash]
@[simp] theorem State.countFlash_gau (p : PortRef) (k : Nat) : (s.countFlash p k).gau = s.gau := by cases p <;> simp [State.countFlash]
@[simp] theorem State.countFlash_pwr (p : PortRef) (k : Nat) : (s.countFlash p k).pwr = s.pwr := by cases p <;> simp [State.countFlash]
@[simp] theorem State.countFlash_pins (p : PortRef) (k : Nat) : (s.countFlash p k).pins = s.pins := by cases p <;> simp [State.countFlash]
@[simp] theorem State.countFlash_latches (p : PortRef) (k : Nat) : (s.countFlash p k).latches = s.latches := by cases p <;> simp [State.countFlash]
@[simp] theorem State.countFlash_outputs (p : PortRef) (k : Nat) : (s.countFlash p k).outputs = s.outputs := by cases p <;> simp [State.countFlash]
@[simp] theorem State.countFlash_pending (p : PortRef) (k : Nat) : (s.countFlash p k).pending = s.pending := by cases p <;> simp [State.countFlash]
/-! ### State.freeSlots -/

@[simp] theorem State.freeSlots_tim (n : Fin 144) (vc k : Nat) : (s.freeSlots n vc k).tim = s.tim := rfl
@[simp] theorem State.freeSlots_pur (n : Fin 144) (vc k : Nat) : (s.freeSlots n vc k).pur = s.pur := rfl
@[simp] theorem State.freeSlots_eav (n : Fin 144) (vc k : Nat) : (s.freeSlots n vc k).eav = s.eav := rfl
@[simp] theorem State.freeSlots_gab (n : Fin 144) (vc k : Nat) : (s.freeSlots n vc k).gab = s.gab := rfl
@[simp] theorem State.freeSlots_trs (n : Fin 144) (vc k : Nat) : (s.freeSlots n vc k).trs = s.trs := rfl
@[simp] theorem State.freeSlots_sec (n : Fin 144) (vc k : Nat) : (s.freeSlots n vc k).sec = s.sec := rfl
@[simp] theorem State.freeSlots_gut (n : Fin 144) (vc k : Nat) : (s.freeSlots n vc k).gut = s.gut := rfl
@[simp] theorem State.freeSlots_gau (n : Fin 144) (vc k : Nat) : (s.freeSlots n vc k).gau = s.gau := rfl
@[simp] theorem State.freeSlots_pwr (n : Fin 144) (vc k : Nat) : (s.freeSlots n vc k).pwr = s.pwr := rfl
@[simp] theorem State.freeSlots_sof (n : Fin 144) (vc k : Nat) : (s.freeSlots n vc k).sof = s.sof := rfl
@[simp] theorem State.freeSlots_pins (n : Fin 144) (vc k : Nat) : (s.freeSlots n vc k).pins = s.pins := rfl
@[simp] theorem State.freeSlots_jeb (n : Fin 144) (vc k : Nat) : (s.freeSlots n vc k).jeb = s.jeb := rfl
@[simp] theorem State.freeSlots_latches (n : Fin 144) (vc k : Nat) : (s.freeSlots n vc k).latches = s.latches := rfl
@[simp] theorem State.freeSlots_outputs (n : Fin 144) (vc k : Nat) : (s.freeSlots n vc k).outputs = s.outputs := rfl
@[simp] theorem State.freeSlots_fresh (n : Fin 144) (vc k : Nat) : (s.freeSlots n vc k).fresh = s.fresh := rfl
@[simp] theorem State.freeSlots_pending (n : Fin 144) (vc k : Nat) : (s.freeSlots n vc k).pending = s.pending := rfl
/-! ### State.link -/

@[simp] theorem State.link_tim (f : Frame) (q : Nat) (a : Arrive) : (s.link f q a).tim = s.tim := by
  unfold State.link
  cases a.ingress <;> simp only [apply_ite State.tim] <;> simp [State.freeSlots]
@[simp] theorem State.link_eav (f : Frame) (q : Nat) (a : Arrive) : (s.link f q a).eav = s.eav := by
  unfold State.link
  cases a.ingress <;> simp only [apply_ite State.eav] <;> simp [State.freeSlots]
@[simp] theorem State.link_gab (f : Frame) (q : Nat) (a : Arrive) : (s.link f q a).gab = s.gab := by
  unfold State.link
  cases a.ingress <;> simp only [apply_ite State.gab] <;> simp [State.freeSlots]
@[simp] theorem State.link_trs (f : Frame) (q : Nat) (a : Arrive) : (s.link f q a).trs = s.trs := by
  unfold State.link
  cases a.ingress <;> simp only [apply_ite State.trs] <;> simp [State.freeSlots]
@[simp] theorem State.link_sec (f : Frame) (q : Nat) (a : Arrive) : (s.link f q a).sec = s.sec := by
  unfold State.link
  cases a.ingress <;> simp only [apply_ite State.sec] <;> simp [State.freeSlots]
@[simp] theorem State.link_gut (f : Frame) (q : Nat) (a : Arrive) : (s.link f q a).gut = s.gut := by
  unfold State.link
  cases a.ingress <;> simp only [apply_ite State.gut] <;> simp [State.freeSlots]
@[simp] theorem State.link_gau (f : Frame) (q : Nat) (a : Arrive) : (s.link f q a).gau = s.gau := by
  unfold State.link
  cases a.ingress <;> simp only [apply_ite State.gau] <;> simp [State.freeSlots]
@[simp] theorem State.link_pwr (f : Frame) (q : Nat) (a : Arrive) : (s.link f q a).pwr = s.pwr := by
  unfold State.link
  cases a.ingress <;> simp only [apply_ite State.pwr] <;> simp [State.freeSlots]
@[simp] theorem State.link_sof (f : Frame) (q : Nat) (a : Arrive) : (s.link f q a).sof = s.sof := by
  unfold State.link
  cases a.ingress <;> simp only [apply_ite State.sof] <;> simp [State.freeSlots]
@[simp] theorem State.link_pins (f : Frame) (q : Nat) (a : Arrive) : (s.link f q a).pins = s.pins := by
  unfold State.link
  cases a.ingress <;> simp only [apply_ite State.pins] <;> simp [State.freeSlots]
@[simp] theorem State.link_jeb (f : Frame) (q : Nat) (a : Arrive) : (s.link f q a).jeb = s.jeb := by
  unfold State.link
  cases a.ingress <;> simp only [apply_ite State.jeb] <;> simp [State.freeSlots]
@[simp] theorem State.link_latches (f : Frame) (q : Nat) (a : Arrive) : (s.link f q a).latches = s.latches := by
  unfold State.link
  cases a.ingress <;> simp only [apply_ite State.latches] <;> simp [State.freeSlots]
@[simp] theorem State.link_outputs (f : Frame) (q : Nat) (a : Arrive) : (s.link f q a).outputs = s.outputs := by
  unfold State.link
  cases a.ingress <;> simp only [apply_ite State.outputs] <;> simp [State.freeSlots]
@[simp] theorem State.link_pending (f : Frame) (q : Nat) (a : Arrive) : (s.link f q a).pending = s.pending := by
  unfold State.link
  cases a.ingress <;> simp only [apply_ite State.pending] <;> simp [State.freeSlots]
/-! ### State.unlink -/

@[simp] theorem State.unlink_tim (q : Nat) (e : Entry) : (s.unlink q e).tim = s.tim := by
  unfold State.unlink
  cases e.ingress <;> simp only [apply_ite State.tim]
  all_goals simp [State.freeSlots]
@[simp] theorem State.unlink_eav (q : Nat) (e : Entry) : (s.unlink q e).eav = s.eav := by
  unfold State.unlink
  cases e.ingress <;> simp only [apply_ite State.eav]
  all_goals simp [State.freeSlots]
@[simp] theorem State.unlink_gab (q : Nat) (e : Entry) : (s.unlink q e).gab = s.gab := by
  unfold State.unlink
  cases e.ingress <;> simp only [apply_ite State.gab]
  all_goals simp [State.freeSlots]
@[simp] theorem State.unlink_trs (q : Nat) (e : Entry) : (s.unlink q e).trs = s.trs := by
  unfold State.unlink
  cases e.ingress <;> simp only [apply_ite State.trs]
  all_goals simp [State.freeSlots]
@[simp] theorem State.unlink_sec (q : Nat) (e : Entry) : (s.unlink q e).sec = s.sec := by
  unfold State.unlink
  cases e.ingress <;> simp only [apply_ite State.sec]
  all_goals simp [State.freeSlots]
@[simp] theorem State.unlink_gut (q : Nat) (e : Entry) : (s.unlink q e).gut = s.gut := by
  unfold State.unlink
  cases e.ingress <;> simp only [apply_ite State.gut]
  all_goals simp [State.freeSlots]
@[simp] theorem State.unlink_gau (q : Nat) (e : Entry) : (s.unlink q e).gau = s.gau := by
  unfold State.unlink
  cases e.ingress <;> simp only [apply_ite State.gau]
  all_goals simp [State.freeSlots]
@[simp] theorem State.unlink_pwr (q : Nat) (e : Entry) : (s.unlink q e).pwr = s.pwr := by
  unfold State.unlink
  cases e.ingress <;> simp only [apply_ite State.pwr]
  all_goals simp [State.freeSlots]
@[simp] theorem State.unlink_sof (q : Nat) (e : Entry) : (s.unlink q e).sof = s.sof := by
  unfold State.unlink
  cases e.ingress <;> simp only [apply_ite State.sof]
  all_goals simp [State.freeSlots]
@[simp] theorem State.unlink_pins (q : Nat) (e : Entry) : (s.unlink q e).pins = s.pins := by
  unfold State.unlink
  cases e.ingress <;> simp only [apply_ite State.pins]
  all_goals simp [State.freeSlots]
@[simp] theorem State.unlink_jeb (q : Nat) (e : Entry) : (s.unlink q e).jeb = s.jeb := by
  unfold State.unlink
  cases e.ingress <;> simp only [apply_ite State.jeb]
  all_goals simp [State.freeSlots]
@[simp] theorem State.unlink_latches (q : Nat) (e : Entry) : (s.unlink q e).latches = s.latches := by
  unfold State.unlink
  cases e.ingress <;> simp only [apply_ite State.latches]
  all_goals simp [State.freeSlots]
@[simp] theorem State.unlink_outputs (q : Nat) (e : Entry) : (s.unlink q e).outputs = s.outputs := by
  unfold State.unlink
  cases e.ingress <;> simp only [apply_ite State.outputs]
  all_goals simp [State.freeSlots]
@[simp] theorem State.unlink_fresh (q : Nat) (e : Entry) : (s.unlink q e).fresh = s.fresh := by
  unfold State.unlink
  cases e.ingress <;> simp only [apply_ite State.fresh]
  all_goals simp [State.freeSlots]
@[simp] theorem State.unlink_pending (q : Nat) (e : Entry) : (s.unlink q e).pending = s.pending := by
  unfold State.unlink
  cases e.ingress <;> simp only [apply_ite State.pending]
  all_goals simp [State.freeSlots]
/-! ### State.sendOn -/

@[simp] theorem State.sendOn_tim (agent : Nat) (p : PortRef) (f : Frame) : (s.sendOn agent p f).tim = s.tim := by cases p <;> simp [State.sendOn]
@[simp] theorem State.sendOn_eav (agent : Nat) (p : PortRef) (f : Frame) : (s.sendOn agent p f).eav = s.eav := by cases p <;> simp [State.sendOn]
@[simp] theorem State.sendOn_gab (agent : Nat) (p : PortRef) (f : Frame) : (s.sendOn agent p f).gab = s.gab := by cases p <;> simp [State.sendOn]
@[simp] theorem State.sendOn_trs (agent : Nat) (p : PortRef) (f : Frame) : (s.sendOn agent p f).trs = s.trs := by cases p <;> simp [State.sendOn]
@[simp] theorem State.sendOn_sec (agent : Nat) (p : PortRef) (f : Frame) : (s.sendOn agent p f).sec = s.sec := by cases p <;> simp [State.sendOn]
@[simp] theorem State.sendOn_gut (agent : Nat) (p : PortRef) (f : Frame) : (s.sendOn agent p f).gut = s.gut := by cases p <;> simp [State.sendOn]
@[simp] theorem State.sendOn_gau (agent : Nat) (p : PortRef) (f : Frame) : (s.sendOn agent p f).gau = s.gau := by cases p <;> simp [State.sendOn]
@[simp] theorem State.sendOn_pwr (agent : Nat) (p : PortRef) (f : Frame) : (s.sendOn agent p f).pwr = s.pwr := by cases p <;> simp [State.sendOn]
@[simp] theorem State.sendOn_sof (agent : Nat) (p : PortRef) (f : Frame) : (s.sendOn agent p f).sof = s.sof := by cases p <;> simp [State.sendOn]
@[simp] theorem State.sendOn_pins (agent : Nat) (p : PortRef) (f : Frame) : (s.sendOn agent p f).pins = s.pins := by cases p <;> simp [State.sendOn]
@[simp] theorem State.sendOn_latches (agent : Nat) (p : PortRef) (f : Frame) : (s.sendOn agent p f).latches = s.latches := by cases p <;> simp [State.sendOn]
@[simp] theorem State.sendOn_outputs (agent : Nat) (p : PortRef) (f : Frame) : (s.sendOn agent p f).outputs = s.outputs := by cases p <;> simp [State.sendOn]
@[simp] theorem State.sendOn_pending (agent : Nat) (p : PortRef) (f : Frame) : (s.sendOn agent p f).pending = s.pending := by cases p <;> simp [State.sendOn]
/-! ### State.soffitSend -/

@[simp] theorem State.soffitSend_tim (n : Fin 144) (h : Header) (data : List Shingle) : (s.soffitSend n h data).tim = s.tim := rfl
@[simp] theorem State.soffitSend_eav (n : Fin 144) (h : Header) (data : List Shingle) : (s.soffitSend n h data).eav = s.eav := rfl
@[simp] theorem State.soffitSend_gab (n : Fin 144) (h : Header) (data : List Shingle) : (s.soffitSend n h data).gab = s.gab := rfl
@[simp] theorem State.soffitSend_trs (n : Fin 144) (h : Header) (data : List Shingle) : (s.soffitSend n h data).trs = s.trs := rfl
@[simp] theorem State.soffitSend_sec (n : Fin 144) (h : Header) (data : List Shingle) : (s.soffitSend n h data).sec = s.sec := rfl
@[simp] theorem State.soffitSend_gut (n : Fin 144) (h : Header) (data : List Shingle) : (s.soffitSend n h data).gut = s.gut := rfl
@[simp] theorem State.soffitSend_gau (n : Fin 144) (h : Header) (data : List Shingle) : (s.soffitSend n h data).gau = s.gau := rfl
@[simp] theorem State.soffitSend_pwr (n : Fin 144) (h : Header) (data : List Shingle) : (s.soffitSend n h data).pwr = s.pwr := rfl
@[simp] theorem State.soffitSend_pins (n : Fin 144) (h : Header) (data : List Shingle) : (s.soffitSend n h data).pins = s.pins := rfl
@[simp] theorem State.soffitSend_jeb (n : Fin 144) (h : Header) (data : List Shingle) : (s.soffitSend n h data).jeb = s.jeb := rfl
@[simp] theorem State.soffitSend_latches (n : Fin 144) (h : Header) (data : List Shingle) : (s.soffitSend n h data).latches = s.latches := rfl
@[simp] theorem State.soffitSend_outputs (n : Fin 144) (h : Header) (data : List Shingle) : (s.soffitSend n h data).outputs = s.outputs := rfl
@[simp] theorem State.soffitSend_pending (n : Fin 144) (h : Header) (data : List Shingle) : (s.soffitSend n h data).pending = s.pending := rfl
/-! ### State.sendTeardown -/

@[simp] theorem State.sendTeardown_tim (n : Fin 144) (action : Nat) : (s.sendTeardown n action).tim = s.tim := rfl
@[simp] theorem State.sendTeardown_eav (n : Fin 144) (action : Nat) : (s.sendTeardown n action).eav = s.eav := rfl
@[simp] theorem State.sendTeardown_gab (n : Fin 144) (action : Nat) : (s.sendTeardown n action).gab = s.gab := rfl
@[simp] theorem State.sendTeardown_trs (n : Fin 144) (action : Nat) : (s.sendTeardown n action).trs = s.trs := rfl
@[simp] theorem State.sendTeardown_sec (n : Fin 144) (action : Nat) : (s.sendTeardown n action).sec = s.sec := rfl
@[simp] theorem State.sendTeardown_gut (n : Fin 144) (action : Nat) : (s.sendTeardown n action).gut = s.gut := rfl
@[simp] theorem State.sendTeardown_gau (n : Fin 144) (action : Nat) : (s.sendTeardown n action).gau = s.gau := rfl
@[simp] theorem State.sendTeardown_pwr (n : Fin 144) (action : Nat) : (s.sendTeardown n action).pwr = s.pwr := rfl
@[simp] theorem State.sendTeardown_pins (n : Fin 144) (action : Nat) : (s.sendTeardown n action).pins = s.pins := rfl
@[simp] theorem State.sendTeardown_jeb (n : Fin 144) (action : Nat) : (s.sendTeardown n action).jeb = s.jeb := rfl
@[simp] theorem State.sendTeardown_latches (n : Fin 144) (action : Nat) : (s.sendTeardown n action).latches = s.latches := rfl
@[simp] theorem State.sendTeardown_outputs (n : Fin 144) (action : Nat) : (s.sendTeardown n action).outputs = s.outputs := rfl
@[simp] theorem State.sendTeardown_pending (n : Fin 144) (action : Nat) : (s.sendTeardown n action).pending = s.pending := rfl
/-! ### State.setBay -/

@[simp] theorem State.setBay_ports (st : BayState) : (s.setBay st).ports = s.ports := by
  unfold State.setBay
  split <;> simp
@[simp] theorem State.setBay_tim (st : BayState) : (s.setBay st).tim = s.tim := by
  unfold State.setBay
  split <;> simp
@[simp] theorem State.setBay_pur (st : BayState) : (s.setBay st).pur = s.pur := by
  unfold State.setBay
  split <;> simp
@[simp] theorem State.setBay_eav (st : BayState) : (s.setBay st).eav = s.eav := by
  unfold State.setBay
  split <;> simp
@[simp] theorem State.setBay_gab (st : BayState) : (s.setBay st).gab = s.gab := by
  unfold State.setBay
  split <;> simp
@[simp] theorem State.setBay_trs (st : BayState) : (s.setBay st).trs = s.trs := by
  unfold State.setBay
  split <;> simp
@[simp] theorem State.setBay_gut (st : BayState) : (s.setBay st).gut = s.gut := by
  unfold State.setBay
  split <;> simp
@[simp] theorem State.setBay_gau (st : BayState) : (s.setBay st).gau = s.gau := by
  unfold State.setBay
  split <;> simp
@[simp] theorem State.setBay_pwr (st : BayState) : (s.setBay st).pwr = s.pwr := by
  unfold State.setBay
  split <;> simp
@[simp] theorem State.setBay_pins (st : BayState) : (s.setBay st).pins = s.pins := by
  unfold State.setBay
  split <;> simp
@[simp] theorem State.setBay_jeb (st : BayState) : (s.setBay st).jeb = s.jeb := by
  unfold State.setBay
  split <;> simp
@[simp] theorem State.setBay_latches (st : BayState) : (s.setBay st).latches = s.latches := by
  unfold State.setBay
  split <;> simp
@[simp] theorem State.setBay_outputs (st : BayState) : (s.setBay st).outputs = s.outputs := by
  unfold State.setBay
  split <;> simp
@[simp] theorem State.setBay_pending (st : BayState) : (s.setBay st).pending = s.pending := by
  unfold State.setBay
  split <;> simp
/-! ### State.beginTeardown -/

@[simp] theorem State.beginTeardown_tim (code : Nat) (o : FaultObj) (via : Option (Fin 144)) : (s.beginTeardown code o via).tim = s.tim := by
  unfold State.beginTeardown
  dsimp only
  rw [State.sendAll_keeps _ _ _ (fun t : State => t.tim) fun s n => State.sendTeardown_tim s n 0]
  simp
@[simp] theorem State.beginTeardown_eav (code : Nat) (o : FaultObj) (via : Option (Fin 144)) : (s.beginTeardown code o via).eav = s.eav := by
  unfold State.beginTeardown
  dsimp only
  rw [State.sendAll_keeps _ _ _ (fun t : State => t.eav) fun s n => State.sendTeardown_eav s n 0]
  simp
@[simp] theorem State.beginTeardown_gau (code : Nat) (o : FaultObj) (via : Option (Fin 144)) : (s.beginTeardown code o via).gau = s.gau := by
  unfold State.beginTeardown
  dsimp only
  rw [State.sendAll_keeps _ _ _ (fun t : State => t.gau) fun s n => State.sendTeardown_gau s n 0]
  simp
@[simp] theorem State.beginTeardown_pwr (code : Nat) (o : FaultObj) (via : Option (Fin 144)) : (s.beginTeardown code o via).pwr = s.pwr := by
  unfold State.beginTeardown
  dsimp only
  rw [State.sendAll_keeps _ _ _ (fun t : State => t.pwr) fun s n => State.sendTeardown_pwr s n 0]
  simp
@[simp] theorem State.beginTeardown_pins (code : Nat) (o : FaultObj) (via : Option (Fin 144)) : (s.beginTeardown code o via).pins = s.pins := by
  unfold State.beginTeardown
  dsimp only
  rw [State.sendAll_keeps _ _ _ (fun t : State => t.pins) fun s n => State.sendTeardown_pins s n 0]
  simp
@[simp] theorem State.beginTeardown_jeb (code : Nat) (o : FaultObj) (via : Option (Fin 144)) : (s.beginTeardown code o via).jeb = s.jeb := by
  unfold State.beginTeardown
  dsimp only
  rw [State.sendAll_keeps _ _ _ (fun t : State => t.jeb) fun s n => State.sendTeardown_jeb s n 0]
  simp
@[simp] theorem State.beginTeardown_latches (code : Nat) (o : FaultObj) (via : Option (Fin 144)) : (s.beginTeardown code o via).latches = s.latches := by
  unfold State.beginTeardown
  dsimp only
  rw [State.sendAll_keeps _ _ _ (fun t : State => t.latches) fun s n => State.sendTeardown_latches s n 0]
  simp
@[simp] theorem State.beginTeardown_outputs (code : Nat) (o : FaultObj) (via : Option (Fin 144)) : (s.beginTeardown code o via).outputs = s.outputs := by
  unfold State.beginTeardown
  dsimp only
  rw [State.sendAll_keeps _ _ _ (fun t : State => t.outputs) fun s n => State.sendTeardown_outputs s n 0]
  simp
@[simp] theorem State.beginTeardown_pending (code : Nat) (o : FaultObj) (via : Option (Fin 144)) : (s.beginTeardown code o via).pending = s.pending := by
  unfold State.beginTeardown
  dsimp only
  rw [State.sendAll_keeps _ _ _ (fun t : State => t.pending) fun s n => State.sendTeardown_pending s n 0]
  simp
/-! ### State.coalesce -/

@[simp] theorem State.coalesce_ports (o : FaultObj) : (s.coalesce o).ports = s.ports := rfl
@[simp] theorem State.coalesce_tim (o : FaultObj) : (s.coalesce o).tim = s.tim := rfl
@[simp] theorem State.coalesce_pur (o : FaultObj) : (s.coalesce o).pur = s.pur := rfl
@[simp] theorem State.coalesce_eav (o : FaultObj) : (s.coalesce o).eav = s.eav := rfl
@[simp] theorem State.coalesce_gab (o : FaultObj) : (s.coalesce o).gab = s.gab := rfl
@[simp] theorem State.coalesce_trs (o : FaultObj) : (s.coalesce o).trs = s.trs := rfl
@[simp] theorem State.coalesce_sec (o : FaultObj) : (s.coalesce o).sec = s.sec := rfl
@[simp] theorem State.coalesce_gau (o : FaultObj) : (s.coalesce o).gau = s.gau := rfl
@[simp] theorem State.coalesce_pwr (o : FaultObj) : (s.coalesce o).pwr = s.pwr := rfl
@[simp] theorem State.coalesce_sof (o : FaultObj) : (s.coalesce o).sof = s.sof := rfl
@[simp] theorem State.coalesce_pins (o : FaultObj) : (s.coalesce o).pins = s.pins := rfl
@[simp] theorem State.coalesce_jeb (o : FaultObj) : (s.coalesce o).jeb = s.jeb := rfl
@[simp] theorem State.coalesce_latches (o : FaultObj) : (s.coalesce o).latches = s.latches := rfl
@[simp] theorem State.coalesce_outputs (o : FaultObj) : (s.coalesce o).outputs = s.outputs := rfl
@[simp] theorem State.coalesce_fresh (o : FaultObj) : (s.coalesce o).fresh = s.fresh := rfl
@[simp] theorem State.coalesce_pending (o : FaultObj) : (s.coalesce o).pending = s.pending := rfl
/-! ### State.fatalFor -/

@[simp] theorem State.fatalFor_tim (code : Nat) (o : FaultObj) (via : Option (Fin 144)) : (s.fatalFor code o via).tim = s.tim := by
  unfold State.fatalFor
  split
  · rfl
  · split <;> simp
@[simp] theorem State.fatalFor_eav (code : Nat) (o : FaultObj) (via : Option (Fin 144)) : (s.fatalFor code o via).eav = s.eav := by
  unfold State.fatalFor
  split
  · rfl
  · split <;> simp
@[simp] theorem State.fatalFor_gau (code : Nat) (o : FaultObj) (via : Option (Fin 144)) : (s.fatalFor code o via).gau = s.gau := by
  unfold State.fatalFor
  split
  · rfl
  · split <;> simp
@[simp] theorem State.fatalFor_pwr (code : Nat) (o : FaultObj) (via : Option (Fin 144)) : (s.fatalFor code o via).pwr = s.pwr := by
  unfold State.fatalFor
  split
  · rfl
  · split <;> simp
@[simp] theorem State.fatalFor_pins (code : Nat) (o : FaultObj) (via : Option (Fin 144)) : (s.fatalFor code o via).pins = s.pins := by
  unfold State.fatalFor
  split
  · rfl
  · split <;> simp
@[simp] theorem State.fatalFor_jeb (code : Nat) (o : FaultObj) (via : Option (Fin 144)) : (s.fatalFor code o via).jeb = s.jeb := by
  unfold State.fatalFor
  split
  · rfl
  · split <;> simp
@[simp] theorem State.fatalFor_latches (code : Nat) (o : FaultObj) (via : Option (Fin 144)) : (s.fatalFor code o via).latches = s.latches := by
  unfold State.fatalFor
  split
  · rfl
  · split <;> simp
@[simp] theorem State.fatalFor_outputs (code : Nat) (o : FaultObj) (via : Option (Fin 144)) : (s.fatalFor code o via).outputs = s.outputs := by
  unfold State.fatalFor
  split
  · rfl
  · split <;> simp
@[simp] theorem State.fatalFor_pending (code : Nat) (o : FaultObj) (via : Option (Fin 144)) : (s.fatalFor code o via).pending = s.pending := by
  unfold State.fatalFor
  split
  · rfl
  · split <;> simp
/-! ### State.fatal -/

@[simp] theorem State.fatal_tim (code : Nat) (o : FaultObj) (e : Event) : (s.fatal code o e).tim = s.tim := by simp [State.fatal]
@[simp] theorem State.fatal_eav (code : Nat) (o : FaultObj) (e : Event) : (s.fatal code o e).eav = s.eav := by simp [State.fatal]
@[simp] theorem State.fatal_gau (code : Nat) (o : FaultObj) (e : Event) : (s.fatal code o e).gau = s.gau := by simp [State.fatal]
@[simp] theorem State.fatal_pwr (code : Nat) (o : FaultObj) (e : Event) : (s.fatal code o e).pwr = s.pwr := by simp [State.fatal]
@[simp] theorem State.fatal_pins (code : Nat) (o : FaultObj) (e : Event) : (s.fatal code o e).pins = s.pins := by simp [State.fatal]
@[simp] theorem State.fatal_jeb (code : Nat) (o : FaultObj) (e : Event) : (s.fatal code o e).jeb = s.jeb := by simp [State.fatal]
@[simp] theorem State.fatal_latches (code : Nat) (o : FaultObj) (e : Event) : (s.fatal code o e).latches = s.latches := by simp [State.fatal]
@[simp] theorem State.fatal_outputs (code : Nat) (o : FaultObj) (e : Event) : (s.fatal code o e).outputs = s.outputs := by simp [State.fatal]
@[simp] theorem State.fatal_pending (code : Nat) (o : FaultObj) (e : Event) : (s.fatal code o e).pending = s.pending := by simp [State.fatal]
/-! ### What counting does -/

@[simp] theorem Gut.record_srcs (g : Gut) (r : Capture) (b : Bool) : (g.record r b).srcs = g.srcs := by
  unfold Gut.record
  repeat' split
  all_goals rfl

@[simp] theorem Gut.record_fatal (g : Gut) (r : Capture) (b : Bool) : (g.record r b).fatal = g.fatal := by
  unfold Gut.record
  repeat' split
  all_goals rfl

@[simp] theorem Gut.record_phase (g : Gut) (r : Capture) (b : Bool) : (g.record r b).phase = g.phase := by
  unfold Gut.record
  repeat' split
  all_goals rfl

@[simp] theorem State.note_gut_fatal (e : Event) (sev code : Nat) : (s.note e sev code).gut.fatal = s.gut.fatal := by
  simp only [State.note, apply_ite State.gut, State.logEvent_gut, ite_self, Gut.record_fatal]

@[simp] theorem State.note_gut_phase (e : Event) (sev code : Nat) : (s.note e sev code).gut.phase = s.gut.phase := by
  simp only [State.note, apply_ite State.gut, State.logEvent_gut, ite_self, Gut.record_phase]

theorem Src.take_total (c : Src) (b k : Nat) : (c.take b k).1.total = satAdd c.total k := by
  unfold Src.take
  dsimp only
  unfold Src.expire
  repeat' split
  all_goals rfl

/-- An event adds its count to its source's total, and to no other source. -/
theorem State.note_total (e : Event) (sev code n : Nat) :
    (Tab.get Src.zero (s.note e sev code).gut.srcs n).total =
      if n = e.src then satAdd (Tab.get Src.zero s.gut.srcs n).total e.count else (Tab.get Src.zero s.gut.srcs n).total := by
  simp only [State.note, apply_ite State.gut, State.logEvent_gut, ite_self, Gut.record_srcs, Tab.get_put]
  split
  · rename_i h
    rw [h, Src.take_total]
  · rfl

/-- An event leaves the other sources whole. -/
theorem State.note_src_ne (e : Event) (sev code n : Nat) (h : n ≠ e.src) :
    Tab.get Src.zero (s.note e sev code).gut.srcs n = Tab.get Src.zero s.gut.srcs n := by
  simp only [State.note, apply_ite State.gut, State.logEvent_gut, ite_self, Gut.record_srcs, Tab.get_put, if_neg h]

/-- Counting nothing leaves the state. -/
theorem State.count_zero (e : Event) (h : e.count = 0) : s.count e = s := by simp [State.count, h]

theorem State.count_total (e : Event) (h : e.count ≠ 0) :
    (Tab.get Src.zero (s.count e).gut.srcs e.src).total = satAdd (Tab.get Src.zero s.gut.srcs e.src).total e.count := by
  rw [State.count, if_neg h, State.note_total, if_pos rfl]

/-! ### What the queues hold -/

theorem State.freeSlots_queue (n : Fin 144) (vc k q : Nat) : (s.freeSlots n vc k).queue q = s.queue q := rfl

/-- Linking puts a frame at the tail of its queue and of no other. -/
theorem State.link_queue (f : Frame) (q r : Nat) (a : Arrive) :
    ((s.link f q a).queue r).items.map (fun e => e.frame) =
      if r = q then (s.queue q).items.map (fun e => e.frame) ++ [f] else (s.queue r).items.map (fun e => e.frame) := by
  unfold State.link
  cases a.ingress <;> simp only [apply_ite (fun t : State => t.queue r), State.freeSlots_queue, ite_self] <;>
    simp only [State.queue, State.spend, State.setQueue, Tab.get_put] <;> split <;> simp

/-- Giving back a frame's place leaves the queues. -/
theorem State.unlink_queue (q r : Nat) (e : Entry) : (s.unlink q e).queue r = s.queue r := by
  unfold State.unlink
  cases e.ingress with
  | none => rfl
  | some n =>
    dsimp only
    split <;> rfl

/-- A read leaves the queues. -/
@[simp] theorem State.readEntry_queue (e : Entry) (q : Nat) : (s.readEntry e).queue q = s.queue q := by
  unfold State.readEntry
  split <;> rfl

/-- A frame taken from a queue is its head; the rest stay, and so do the other queues. -/
theorem State.dequeue_some (q : Nat) (e : Entry) (t : State) (h : s.dequeue q = some (e, t)) :
    (s.queue q).items = e :: (t.queue q).items ∧ ∀ r, r ≠ q → t.queue r = s.queue r := by
  unfold State.dequeue at h
  split at h
  · cases h
  · rename_i e' rest hq
    cases h
    refine ⟨?_, fun r hr => ?_⟩
    · rw [State.unlink_queue, State.queue_setQueue_same, hq]
      rfl
    · rw [State.unlink_queue, State.queue_setQueue, if_neg hr, State.readEntry_queue]

/-- A queue is empty exactly where nothing can be taken from it. -/
theorem State.dequeue_none (q : Nat) : s.dequeue q = none ↔ (s.queue q).items = [] := by
  unfold State.dequeue
  split
  · rename_i h
    simp [h]
  · rename_i h
    simp [h]

/-! ### Frames of a link, and accesses for a requester -/

/-- What a link-local frame at a port can do: nothing, a fence violation counted, or its action (R16, R23, R46). -/
theorem State.takeLocal_cases (p : PortRef) (raw : RawFrame) (act : State → State) :
    s.takeLocal p raw act = s ∨ s.takeLocal p raw act = (s.takeRx p raw).count (s.portEvent 6 p) ∨ s.takeLocal p raw act = act (s.takeRx p raw) := by
  unfold State.takeLocal
  split
  · exact .inr (.inl rfl)
  · split
    · exact .inr (.inr rfl)
    · exact .inl rfl

/-- A link-local frame on an ACTIVE port whose lane is not fenced is acted on. -/
theorem State.takeLocal_active (p : PortRef) (raw : RawFrame) (act : State → State) (a : (s.port p).train.state = .active)
    (f : s.fencedLane p = false) : s.takeLocal p raw act = act (s.takeRx p raw) := by
  simp [State.takeLocal, State.carries, a, f]

/-- A write for a requester that is not in band is the write. -/
theorem State.inAccess_outside (who : Requester) (d : Dev) (addr : Nat) (act : State → State) (h : who ≠ .inBand) :
    s.inAccess who d addr act = act s := by
  simp [State.inAccess, h]

/-- What a write for a requester can do: the write itself, with the request noted or not. -/
theorem State.inAccess_cases (who : Requester) (d : Dev) (addr : Nat) (act : State → State) :
    s.inAccess who d addr act = act s ∨ s.inAccess who d addr act = s.inRequest (s.managerWrite addr) act := by
  unfold State.inAccess
  split
  · exact .inr rfl
  · exact .inl rfl

end Sys2Proof.Machine
end

