-- ==== Sys2Proof/Laws/Module.lean ====
section
/-! SUPPORT. What the shared operations of the module leave alone: a lemma per operation and field. -/

namespace Sys2Proof.Machine

open Sys2Proof

variable (s : State)

/-! ### State.sendDestroy -/

@[simp] theorem State.sendDestroy_tim (n : Fin 144) : (s.sendDestroy n).tim = s.tim := by
  unfold State.sendDestroy
  simp
@[simp] theorem State.sendDestroy_eav (n : Fin 144) : (s.sendDestroy n).eav = s.eav := by
  unfold State.sendDestroy
  simp
@[simp] theorem State.sendDestroy_gab (n : Fin 144) : (s.sendDestroy n).gab = s.gab := by
  unfold State.sendDestroy
  simp
@[simp] theorem State.sendDestroy_trs (n : Fin 144) : (s.sendDestroy n).trs = s.trs := by
  unfold State.sendDestroy
  simp
@[simp] theorem State.sendDestroy_gut (n : Fin 144) : (s.sendDestroy n).gut = s.gut := by
  unfold State.sendDestroy
  simp
@[simp] theorem State.sendDestroy_gau (n : Fin 144) : (s.sendDestroy n).gau = s.gau := by
  unfold State.sendDestroy
  simp
@[simp] theorem State.sendDestroy_pwr (n : Fin 144) : (s.sendDestroy n).pwr = s.pwr := by
  unfold State.sendDestroy
  simp
@[simp] theorem State.sendDestroy_pins (n : Fin 144) : (s.sendDestroy n).pins = s.pins := by
  unfold State.sendDestroy
  simp
@[simp] theorem State.sendDestroy_jeb (n : Fin 144) : (s.sendDestroy n).jeb = s.jeb := by
  unfold State.sendDestroy
  simp
@[simp] theorem State.sendDestroy_latches (n : Fin 144) : (s.sendDestroy n).latches = s.latches := by
  unfold State.sendDestroy
  simp
@[simp] theorem State.sendDestroy_outputs (n : Fin 144) : (s.sendDestroy n).outputs = s.outputs := by
  unfold State.sendDestroy
  simp
@[simp] theorem State.sendDestroy_pending (n : Fin 144) : (s.sendDestroy n).pending = s.pending := by
  unfold State.sendDestroy
  simp
/-! ### State.restartPort -/

@[simp] theorem State.restartPort_tim (p : PortRef) : (s.restartPort p).tim = s.tim := by
  unfold State.restartPort
  dsimp only
  (repeat' split)
  all_goals (simp)
@[simp] theorem State.restartPort_pur (p : PortRef) : (s.restartPort p).pur = s.pur := by
  unfold State.restartPort
  dsimp only
  (repeat' split)
  all_goals (simp)
@[simp] theorem State.restartPort_eav (p : PortRef) : (s.restartPort p).eav = s.eav := by
  unfold State.restartPort
  dsimp only
  (repeat' split)
  all_goals (simp)
@[simp] theorem State.restartPort_gab (p : PortRef) : (s.restartPort p).gab = s.gab := by
  unfold State.restartPort
  dsimp only
  (repeat' split)
  all_goals (simp)
@[simp] theorem State.restartPort_trs (p : PortRef) : (s.restartPort p).trs = s.trs := by
  unfold State.restartPort
  dsimp only
  (repeat' split)
  all_goals (simp)
@[simp] theorem State.restartPort_sec (p : PortRef) : (s.restartPort p).sec = s.sec := by
  unfold State.restartPort
  dsimp only
  (repeat' split)
  all_goals (simp)
@[simp] theorem State.restartPort_gut (p : PortRef) : (s.restartPort p).gut = s.gut := by
  unfold State.restartPort
  dsimp only
  (repeat' split)
  all_goals (simp)
@[simp] theorem State.restartPort_gau (p : PortRef) : (s.restartPort p).gau = s.gau := by
  unfold State.restartPort
  dsimp only
  (repeat' split)
  all_goals (simp)
@[simp] theorem State.restartPort_pwr (p : PortRef) : (s.restartPort p).pwr = s.pwr := by
  unfold State.restartPort
  dsimp only
  (repeat' split)
  all_goals (simp)
@[simp] theorem State.restartPort_sof (p : PortRef) : (s.restartPort p).sof = s.sof := by
  unfold State.restartPort
  dsimp only
  (repeat' split)
  all_goals (simp)
@[simp] theorem State.restartPort_pins (p : PortRef) : (s.restartPort p).pins = s.pins := by
  unfold State.restartPort
  dsimp only
  (repeat' split)
  all_goals (simp)
@[simp] theorem State.restartPort_latches (p : PortRef) : (s.restartPort p).latches = s.latches := by
  unfold State.restartPort
  dsimp only
  (repeat' split)
  all_goals (simp)
@[simp] theorem State.restartPort_outputs (p : PortRef) : (s.restartPort p).outputs = s.outputs := by
  unfold State.restartPort
  dsimp only
  (repeat' split)
  all_goals (simp)
@[simp] theorem State.restartPort_fresh (p : PortRef) : (s.restartPort p).fresh = s.fresh := by
  unfold State.restartPort
  dsimp only
  (repeat' split)
  all_goals (simp)
@[simp] theorem State.restartPort_pending (p : PortRef) : (s.restartPort p).pending = s.pending := by
  unfold State.restartPort
  dsimp only
  (repeat' split)
  all_goals (simp)
/-! ### State.queueLocal -/

@[simp] theorem State.queueLocal_tim (p : PortRef) (f : Stamping) : (s.queueLocal p f).tim = s.tim := by
  unfold State.queueLocal
  simp
@[simp] theorem State.queueLocal_pur (p : PortRef) (f : Stamping) : (s.queueLocal p f).pur = s.pur := by
  unfold State.queueLocal
  simp
@[simp] theorem State.queueLocal_eav (p : PortRef) (f : Stamping) : (s.queueLocal p f).eav = s.eav := by
  unfold State.queueLocal
  simp
@[simp] theorem State.queueLocal_gab (p : PortRef) (f : Stamping) : (s.queueLocal p f).gab = s.gab := by
  unfold State.queueLocal
  simp
@[simp] theorem State.queueLocal_trs (p : PortRef) (f : Stamping) : (s.queueLocal p f).trs = s.trs := by
  unfold State.queueLocal
  simp
@[simp] theorem State.queueLocal_sec (p : PortRef) (f : Stamping) : (s.queueLocal p f).sec = s.sec := by
  unfold State.queueLocal
  simp
@[simp] theorem State.queueLocal_gut (p : PortRef) (f : Stamping) : (s.queueLocal p f).gut = s.gut := by
  unfold State.queueLocal
  simp
@[simp] theorem State.queueLocal_gau (p : PortRef) (f : Stamping) : (s.queueLocal p f).gau = s.gau := by
  unfold State.queueLocal
  simp
@[simp] theorem State.queueLocal_pwr (p : PortRef) (f : Stamping) : (s.queueLocal p f).pwr = s.pwr := by
  unfold State.queueLocal
  simp
@[simp] theorem State.queueLocal_sof (p : PortRef) (f : Stamping) : (s.queueLocal p f).sof = s.sof := by
  unfold State.queueLocal
  simp
@[simp] theorem State.queueLocal_pins (p : PortRef) (f : Stamping) : (s.queueLocal p f).pins = s.pins := by
  unfold State.queueLocal
  simp
@[simp] theorem State.queueLocal_latches (p : PortRef) (f : Stamping) : (s.queueLocal p f).latches = s.latches := by
  unfold State.queueLocal
  simp
@[simp] theorem State.queueLocal_outputs (p : PortRef) (f : Stamping) : (s.queueLocal p f).outputs = s.outputs := by
  unfold State.queueLocal
  simp
@[simp] theorem State.queueLocal_fresh (p : PortRef) (f : Stamping) : (s.queueLocal p f).fresh = s.fresh := by
  unfold State.queueLocal
  simp
@[simp] theorem State.queueLocal_pending (p : PortRef) (f : Stamping) : (s.queueLocal p f).pending = s.pending := by
  unfold State.queueLocal
  simp
/-! ### State.sendStamp -/

@[simp] theorem State.sendStamp_tim (p : PortRef) : (s.sendStamp p).tim = s.tim := by
  unfold State.sendStamp
  simp
@[simp] theorem State.sendStamp_pur (p : PortRef) : (s.sendStamp p).pur = s.pur := by
  unfold State.sendStamp
  simp
@[simp] theorem State.sendStamp_eav (p : PortRef) : (s.sendStamp p).eav = s.eav := by
  unfold State.sendStamp
  simp
@[simp] theorem State.sendStamp_gab (p : PortRef) : (s.sendStamp p).gab = s.gab := by
  unfold State.sendStamp
  simp
@[simp] theorem State.sendStamp_trs (p : PortRef) : (s.sendStamp p).trs = s.trs := by
  unfold State.sendStamp
  simp
@[simp] theorem State.sendStamp_sec (p : PortRef) : (s.sendStamp p).sec = s.sec := by
  unfold State.sendStamp
  simp
@[simp] theorem State.sendStamp_gut (p : PortRef) : (s.sendStamp p).gut = s.gut := by
  unfold State.sendStamp
  simp
@[simp] theorem State.sendStamp_gau (p : PortRef) : (s.sendStamp p).gau = s.gau := by
  unfold State.sendStamp
  simp
@[simp] theorem State.sendStamp_pwr (p : PortRef) : (s.sendStamp p).pwr = s.pwr := by
  unfold State.sendStamp
  simp
@[simp] theorem State.sendStamp_sof (p : PortRef) : (s.sendStamp p).sof = s.sof := by
  unfold State.sendStamp
  simp
@[simp] theorem State.sendStamp_pins (p : PortRef) : (s.sendStamp p).pins = s.pins := by
  unfold State.sendStamp
  simp
@[simp] theorem State.sendStamp_latches (p : PortRef) : (s.sendStamp p).latches = s.latches := by
  unfold State.sendStamp
  simp
@[simp] theorem State.sendStamp_outputs (p : PortRef) : (s.sendStamp p).outputs = s.outputs := by
  unfold State.sendStamp
  simp
@[simp] theorem State.sendStamp_fresh (p : PortRef) : (s.sendStamp p).fresh = s.fresh := by
  unfold State.sendStamp
  simp
@[simp] theorem State.sendStamp_pending (p : PortRef) : (s.sendStamp p).pending = s.pending := by
  unfold State.sendStamp
  simp
/-! ### State.offsetFault -/

@[simp] theorem State.offsetFault_eav (n : Fin 144) : (s.offsetFault n).eav = s.eav := by
  unfold State.offsetFault
  dsimp only
  (repeat' split)
  all_goals (simp)
@[simp] theorem State.offsetFault_gau (n : Fin 144) : (s.offsetFault n).gau = s.gau := by
  unfold State.offsetFault
  dsimp only
  (repeat' split)
  all_goals (simp)
@[simp] theorem State.offsetFault_pwr (n : Fin 144) : (s.offsetFault n).pwr = s.pwr := by
  unfold State.offsetFault
  dsimp only
  (repeat' split)
  all_goals (simp)
@[simp] theorem State.offsetFault_pins (n : Fin 144) : (s.offsetFault n).pins = s.pins := by
  unfold State.offsetFault
  dsimp only
  (repeat' split)
  all_goals (simp)
@[simp] theorem State.offsetFault_jeb (n : Fin 144) : (s.offsetFault n).jeb = s.jeb := by
  unfold State.offsetFault
  dsimp only
  (repeat' split)
  all_goals (simp)
@[simp] theorem State.offsetFault_latches (n : Fin 144) : (s.offsetFault n).latches = s.latches := by
  unfold State.offsetFault
  dsimp only
  (repeat' split)
  all_goals (simp)
@[simp] theorem State.offsetFault_outputs (n : Fin 144) : (s.offsetFault n).outputs = s.outputs := by
  unfold State.offsetFault
  dsimp only
  (repeat' split)
  all_goals (simp)
@[simp] theorem State.offsetFault_pending (n : Fin 144) : (s.offsetFault n).pending = s.pending := by
  unfold State.offsetFault
  dsimp only
  (repeat' split)
  all_goals (simp)
/-! ### State.drop -/

@[simp] theorem State.drop_ports (h : Header) : (s.drop h).ports = s.ports := by
  unfold State.drop
  simp
@[simp] theorem State.drop_tim (h : Header) : (s.drop h).tim = s.tim := by
  unfold State.drop
  simp
@[simp] theorem State.drop_pur (h : Header) : (s.drop h).pur = s.pur := by
  unfold State.drop
  simp
@[simp] theorem State.drop_eav (h : Header) : (s.drop h).eav = s.eav := by
  unfold State.drop
  simp
@[simp] theorem State.drop_gab (h : Header) : (s.drop h).gab = s.gab := by
  unfold State.drop
  simp
@[simp] theorem State.drop_trs (h : Header) : (s.drop h).trs = s.trs := by
  unfold State.drop
  simp
@[simp] theorem State.drop_sec (h : Header) : (s.drop h).sec = s.sec := by
  unfold State.drop
  simp
@[simp] theorem State.drop_gau (h : Header) : (s.drop h).gau = s.gau := by
  unfold State.drop
  simp
@[simp] theorem State.drop_pwr (h : Header) : (s.drop h).pwr = s.pwr := by
  unfold State.drop
  simp
@[simp] theorem State.drop_pins (h : Header) : (s.drop h).pins = s.pins := by
  unfold State.drop
  simp
@[simp] theorem State.drop_jeb (h : Header) : (s.drop h).jeb = s.jeb := by
  unfold State.drop
  simp
@[simp] theorem State.drop_latches (h : Header) : (s.drop h).latches = s.latches := by
  unfold State.drop
  simp
@[simp] theorem State.drop_outputs (h : Header) : (s.drop h).outputs = s.outputs := by
  unfold State.drop
  simp
@[simp] theorem State.drop_pending (h : Header) : (s.drop h).pending = s.pending := by
  unfold State.drop
  simp
/-! ### State.respondTo, State.respond, State.respondError -/

@[simp] theorem State.respondTo_tim (spar src : Nat) (f : Frame) : (s.respondTo spar src f).tim = s.tim := by
  unfold State.respondTo
  dsimp only
  (repeat' split)
  all_goals (simp)
@[simp] theorem State.respondTo_eav (spar src : Nat) (f : Frame) : (s.respondTo spar src f).eav = s.eav := by
  unfold State.respondTo
  dsimp only
  (repeat' split)
  all_goals (simp)
@[simp] theorem State.respondTo_gab (spar src : Nat) (f : Frame) : (s.respondTo spar src f).gab = s.gab := by
  unfold State.respondTo
  dsimp only
  (repeat' split)
  all_goals (simp)
@[simp] theorem State.respondTo_trs (spar src : Nat) (f : Frame) : (s.respondTo spar src f).trs = s.trs := by
  unfold State.respondTo
  dsimp only
  (repeat' split)
  all_goals (simp)
@[simp] theorem State.respondTo_sec (spar src : Nat) (f : Frame) : (s.respondTo spar src f).sec = s.sec := by
  unfold State.respondTo
  dsimp only
  (repeat' split)
  all_goals (simp)
@[simp] theorem State.respondTo_gau (spar src : Nat) (f : Frame) : (s.respondTo spar src f).gau = s.gau := by
  unfold State.respondTo
  dsimp only
  (repeat' split)
  all_goals (simp)
@[simp] theorem State.respondTo_pwr (spar src : Nat) (f : Frame) : (s.respondTo spar src f).pwr = s.pwr := by
  unfold State.respondTo
  dsimp only
  (repeat' split)
  all_goals (simp)
@[simp] theorem State.respondTo_pins (spar src : Nat) (f : Frame) : (s.respondTo spar src f).pins = s.pins := by
  unfold State.respondTo
  dsimp only
  (repeat' split)
  all_goals (simp)
@[simp] theorem State.respondTo_jeb (spar src : Nat) (f : Frame) : (s.respondTo spar src f).jeb = s.jeb := by
  unfold State.respondTo
  dsimp only
  (repeat' split)
  all_goals (simp)
@[simp] theorem State.respondTo_latches (spar src : Nat) (f : Frame) : (s.respondTo spar src f).latches = s.latches := by
  unfold State.respondTo
  dsimp only
  (repeat' split)
  all_goals (simp)
@[simp] theorem State.respondTo_outputs (spar src : Nat) (f : Frame) : (s.respondTo spar src f).outputs = s.outputs := by
  unfold State.respondTo
  dsimp only
  (repeat' split)
  all_goals (simp)
@[simp] theorem State.respondTo_pending (spar src : Nat) (f : Frame) : (s.respondTo spar src f).pending = s.pending := by
  unfold State.respondTo
  dsimp only
  (repeat' split)
  all_goals (simp)
@[simp] theorem State.respond_tim (src : Nat) (f : Frame) : (s.respond src f).tim = s.tim := s.respondTo_tim 0 src f
@[simp] theorem State.respond_eav (src : Nat) (f : Frame) : (s.respond src f).eav = s.eav := s.respondTo_eav 0 src f
@[simp] theorem State.respond_gab (src : Nat) (f : Frame) : (s.respond src f).gab = s.gab := s.respondTo_gab 0 src f
@[simp] theorem State.respond_trs (src : Nat) (f : Frame) : (s.respond src f).trs = s.trs := s.respondTo_trs 0 src f
@[simp] theorem State.respond_sec (src : Nat) (f : Frame) : (s.respond src f).sec = s.sec := s.respondTo_sec 0 src f
@[simp] theorem State.respond_gau (src : Nat) (f : Frame) : (s.respond src f).gau = s.gau := s.respondTo_gau 0 src f
@[simp] theorem State.respond_pwr (src : Nat) (f : Frame) : (s.respond src f).pwr = s.pwr := s.respondTo_pwr 0 src f
@[simp] theorem State.respond_pins (src : Nat) (f : Frame) : (s.respond src f).pins = s.pins := s.respondTo_pins 0 src f
@[simp] theorem State.respond_jeb (src : Nat) (f : Frame) : (s.respond src f).jeb = s.jeb := s.respondTo_jeb 0 src f
@[simp] theorem State.respond_latches (src : Nat) (f : Frame) : (s.respond src f).latches = s.latches := s.respondTo_latches 0 src f
@[simp] theorem State.respond_outputs (src : Nat) (f : Frame) : (s.respond src f).outputs = s.outputs := s.respondTo_outputs 0 src f
@[simp] theorem State.respond_pending (src : Nat) (f : Frame) : (s.respond src f).pending = s.pending := s.respondTo_pending 0 src f
@[simp] theorem State.respondError_tim (src : Nat) (h : Header) (status : Byte) : (s.respondError src h status).tim = s.tim := by
  simp [State.respondError]
@[simp] theorem State.respondError_eav (src : Nat) (h : Header) (status : Byte) : (s.respondError src h status).eav = s.eav := by
  simp [State.respondError]
@[simp] theorem State.respondError_gab (src : Nat) (h : Header) (status : Byte) : (s.respondError src h status).gab = s.gab := by
  simp [State.respondError]
@[simp] theorem State.respondError_trs (src : Nat) (h : Header) (status : Byte) : (s.respondError src h status).trs = s.trs := by
  simp [State.respondError]
@[simp] theorem State.respondError_sec (src : Nat) (h : Header) (status : Byte) : (s.respondError src h status).sec = s.sec := by
  simp [State.respondError]
@[simp] theorem State.respondError_gau (src : Nat) (h : Header) (status : Byte) : (s.respondError src h status).gau = s.gau := by
  simp [State.respondError]
@[simp] theorem State.respondError_pwr (src : Nat) (h : Header) (status : Byte) : (s.respondError src h status).pwr = s.pwr := by
  simp [State.respondError]
@[simp] theorem State.respondError_pins (src : Nat) (h : Header) (status : Byte) : (s.respondError src h status).pins = s.pins := by
  simp [State.respondError]
@[simp] theorem State.respondError_jeb (src : Nat) (h : Header) (status : Byte) : (s.respondError src h status).jeb = s.jeb := by
  simp [State.respondError]
@[simp] theorem State.respondError_latches (src : Nat) (h : Header) (status : Byte) : (s.respondError src h status).latches = s.latches := by
  simp [State.respondError]
@[simp] theorem State.respondError_outputs (src : Nat) (h : Header) (status : Byte) : (s.respondError src h status).outputs = s.outputs := by
  simp [State.respondError]
@[simp] theorem State.respondError_pending (src : Nat) (h : Header) (status : Byte) : (s.respondError src h status).pending = s.pending := by
  simp [State.respondError]
/-! ### State.trsReport -/

@[simp] theorem State.trsReport_ports (h : Header) (code : Nat) : (s.trsReport h code).ports = s.ports := by
  unfold State.trsReport
  simp
@[simp] theorem State.trsReport_tim (h : Header) (code : Nat) : (s.trsReport h code).tim = s.tim := by
  unfold State.trsReport
  simp
@[simp] theorem State.trsReport_pur (h : Header) (code : Nat) : (s.trsReport h code).pur = s.pur := by
  unfold State.trsReport
  simp
@[simp] theorem State.trsReport_eav (h : Header) (code : Nat) : (s.trsReport h code).eav = s.eav := by
  unfold State.trsReport
  simp
@[simp] theorem State.trsReport_gab (h : Header) (code : Nat) : (s.trsReport h code).gab = s.gab := by
  unfold State.trsReport
  simp
@[simp] theorem State.trsReport_sec (h : Header) (code : Nat) : (s.trsReport h code).sec = s.sec := by
  unfold State.trsReport
  simp
@[simp] theorem State.trsReport_gau (h : Header) (code : Nat) : (s.trsReport h code).gau = s.gau := by
  unfold State.trsReport
  simp
@[simp] theorem State.trsReport_pwr (h : Header) (code : Nat) : (s.trsReport h code).pwr = s.pwr := by
  unfold State.trsReport
  simp
@[simp] theorem State.trsReport_pins (h : Header) (code : Nat) : (s.trsReport h code).pins = s.pins := by
  unfold State.trsReport
  simp
@[simp] theorem State.trsReport_jeb (h : Header) (code : Nat) : (s.trsReport h code).jeb = s.jeb := by
  unfold State.trsReport
  simp
@[simp] theorem State.trsReport_latches (h : Header) (code : Nat) : (s.trsReport h code).latches = s.latches := by
  unfold State.trsReport
  simp
@[simp] theorem State.trsReport_outputs (h : Header) (code : Nat) : (s.trsReport h code).outputs = s.outputs := by
  unfold State.trsReport
  simp
@[simp] theorem State.trsReport_pending (h : Header) (code : Nat) : (s.trsReport h code).pending = s.pending := by
  unfold State.trsReport
  simp
/-! ### State.refuse -/

@[simp] theorem State.refuse_tim (src : Nat) (h : Header) (status : Byte) : (s.refuse src h status).tim = s.tim := by
  unfold State.refuse
  (repeat' split)
  all_goals (simp)
@[simp] theorem State.refuse_eav (src : Nat) (h : Header) (status : Byte) : (s.refuse src h status).eav = s.eav := by
  unfold State.refuse
  (repeat' split)
  all_goals (simp)
@[simp] theorem State.refuse_gab (src : Nat) (h : Header) (status : Byte) : (s.refuse src h status).gab = s.gab := by
  unfold State.refuse
  (repeat' split)
  all_goals (simp)
@[simp] theorem State.refuse_sec (src : Nat) (h : Header) (status : Byte) : (s.refuse src h status).sec = s.sec := by
  unfold State.refuse
  (repeat' split)
  all_goals (simp)
@[simp] theorem State.refuse_gau (src : Nat) (h : Header) (status : Byte) : (s.refuse src h status).gau = s.gau := by
  unfold State.refuse
  (repeat' split)
  all_goals (simp)
@[simp] theorem State.refuse_pwr (src : Nat) (h : Header) (status : Byte) : (s.refuse src h status).pwr = s.pwr := by
  unfold State.refuse
  (repeat' split)
  all_goals (simp)
@[simp] theorem State.refuse_pins (src : Nat) (h : Header) (status : Byte) : (s.refuse src h status).pins = s.pins := by
  unfold State.refuse
  (repeat' split)
  all_goals (simp)
@[simp] theorem State.refuse_jeb (src : Nat) (h : Header) (status : Byte) : (s.refuse src h status).jeb = s.jeb := by
  unfold State.refuse
  (repeat' split)
  all_goals (simp)
@[simp] theorem State.refuse_latches (src : Nat) (h : Header) (status : Byte) : (s.refuse src h status).latches = s.latches := by
  unfold State.refuse
  (repeat' split)
  all_goals (simp)
@[simp] theorem State.refuse_outputs (src : Nat) (h : Header) (status : Byte) : (s.refuse src h status).outputs = s.outputs := by
  unfold State.refuse
  (repeat' split)
  all_goals (simp)
@[simp] theorem State.refuse_pending (src : Nat) (h : Header) (status : Byte) : (s.refuse src h status).pending = s.pending := by
  unfold State.refuse
  (repeat' split)
  all_goals (simp)
/-! ### State.countBundle -/

@[simp] theorem State.countBundle_ports (e : Entry) : (s.countBundle e).ports = s.ports := by
  unfold State.countBundle
  (repeat' split)
  all_goals (simp)
@[simp] theorem State.countBundle_tim (e : Entry) : (s.countBundle e).tim = s.tim := by
  unfold State.countBundle
  (repeat' split)
  all_goals (simp)
@[simp] theorem State.countBundle_eav (e : Entry) : (s.countBundle e).eav = s.eav := by
  unfold State.countBundle
  (repeat' split)
  all_goals (simp)
@[simp] theorem State.countBundle_gab (e : Entry) : (s.countBundle e).gab = s.gab := by
  unfold State.countBundle
  (repeat' split)
  all_goals (simp)
@[simp] theorem State.countBundle_trs (e : Entry) : (s.countBundle e).trs = s.trs := by
  unfold State.countBundle
  (repeat' split)
  all_goals (simp)
@[simp] theorem State.countBundle_sec (e : Entry) : (s.countBundle e).sec = s.sec := by
  unfold State.countBundle
  (repeat' split)
  all_goals (simp)
@[simp] theorem State.countBundle_gut (e : Entry) : (s.countBundle e).gut = s.gut := by
  unfold State.countBundle
  (repeat' split)
  all_goals (simp)
@[simp] theorem State.countBundle_gau (e : Entry) : (s.countBundle e).gau = s.gau := by
  unfold State.countBundle
  (repeat' split)
  all_goals (simp)
@[simp] theorem State.countBundle_pwr (e : Entry) : (s.countBundle e).pwr = s.pwr := by
  unfold State.countBundle
  (repeat' split)
  all_goals (simp)
@[simp] theorem State.countBundle_sof (e : Entry) : (s.countBundle e).sof = s.sof := by
  unfold State.countBundle
  (repeat' split)
  all_goals (simp)
@[simp] theorem State.countBundle_pins (e : Entry) : (s.countBundle e).pins = s.pins := by
  unfold State.countBundle
  (repeat' split)
  all_goals (simp)
@[simp] theorem State.countBundle_jeb (e : Entry) : (s.countBundle e).jeb = s.jeb := by
  unfold State.countBundle
  (repeat' split)
  all_goals (simp)
@[simp] theorem State.countBundle_latches (e : Entry) : (s.countBundle e).latches = s.latches := by
  unfold State.countBundle
  (repeat' split)
  all_goals (simp)
@[simp] theorem State.countBundle_outputs (e : Entry) : (s.countBundle e).outputs = s.outputs := by
  unfold State.countBundle
  (repeat' split)
  all_goals (simp)
@[simp] theorem State.countBundle_fresh (e : Entry) : (s.countBundle e).fresh = s.fresh := by
  unfold State.countBundle
  (repeat' split)
  all_goals (simp)
@[simp] theorem State.countBundle_pending (e : Entry) : (s.countBundle e).pending = s.pending := by
  unfold State.countBundle
  (repeat' split)
  all_goals (simp)
/-! ### State.toPort -/

@[simp] theorem State.toPort_tim (n : Fin 144) (f : Frame) (a : Arrive) : (s.toPort n f a).tim = s.tim := by
  unfold State.toPort
  (repeat' split)
  all_goals (simp)
@[simp] theorem State.toPort_eav (n : Fin 144) (f : Frame) (a : Arrive) : (s.toPort n f a).eav = s.eav := by
  unfold State.toPort
  (repeat' split)
  all_goals (simp)
@[simp] theorem State.toPort_gab (n : Fin 144) (f : Frame) (a : Arrive) : (s.toPort n f a).gab = s.gab := by
  unfold State.toPort
  (repeat' split)
  all_goals (simp)
@[simp] theorem State.toPort_trs (n : Fin 144) (f : Frame) (a : Arrive) : (s.toPort n f a).trs = s.trs := by
  unfold State.toPort
  (repeat' split)
  all_goals (simp)
@[simp] theorem State.toPort_sec (n : Fin 144) (f : Frame) (a : Arrive) : (s.toPort n f a).sec = s.sec := by
  unfold State.toPort
  (repeat' split)
  all_goals (simp)
@[simp] theorem State.toPort_gut (n : Fin 144) (f : Frame) (a : Arrive) : (s.toPort n f a).gut = s.gut := by
  unfold State.toPort
  (repeat' split)
  all_goals (simp)
@[simp] theorem State.toPort_gau (n : Fin 144) (f : Frame) (a : Arrive) : (s.toPort n f a).gau = s.gau := by
  unfold State.toPort
  (repeat' split)
  all_goals (simp)
@[simp] theorem State.toPort_pwr (n : Fin 144) (f : Frame) (a : Arrive) : (s.toPort n f a).pwr = s.pwr := by
  unfold State.toPort
  (repeat' split)
  all_goals (simp)
@[simp] theorem State.toPort_sof (n : Fin 144) (f : Frame) (a : Arrive) : (s.toPort n f a).sof = s.sof := by
  unfold State.toPort
  (repeat' split)
  all_goals (simp)
@[simp] theorem State.toPort_pins (n : Fin 144) (f : Frame) (a : Arrive) : (s.toPort n f a).pins = s.pins := by
  unfold State.toPort
  (repeat' split)
  all_goals (simp)
@[simp] theorem State.toPort_jeb (n : Fin 144) (f : Frame) (a : Arrive) : (s.toPort n f a).jeb = s.jeb := by
  unfold State.toPort
  (repeat' split)
  all_goals (simp)
@[simp] theorem State.toPort_latches (n : Fin 144) (f : Frame) (a : Arrive) : (s.toPort n f a).latches = s.latches := by
  unfold State.toPort
  (repeat' split)
  all_goals (simp)
@[simp] theorem State.toPort_outputs (n : Fin 144) (f : Frame) (a : Arrive) : (s.toPort n f a).outputs = s.outputs := by
  unfold State.toPort
  (repeat' split)
  all_goals (simp)
@[simp] theorem State.toPort_pending (n : Fin 144) (f : Frame) (a : Arrive) : (s.toPort n f a).pending = s.pending := by
  unfold State.toPort
  (repeat' split)
  all_goals (simp)
/-! ### State.countBytes -/

@[simp] theorem State.countBytes_ports (h : Header) : (s.countBytes h).ports = s.ports := by
  unfold State.countBytes
  (repeat' split)
  all_goals (simp)
@[simp] theorem State.countBytes_tim (h : Header) : (s.countBytes h).tim = s.tim := by
  unfold State.countBytes
  (repeat' split)
  all_goals (simp)
@[simp] theorem State.countBytes_eav (h : Header) : (s.countBytes h).eav = s.eav := by
  unfold State.countBytes
  (repeat' split)
  all_goals (simp)
@[simp] theorem State.countBytes_gab (h : Header) : (s.countBytes h).gab = s.gab := by
  unfold State.countBytes
  (repeat' split)
  all_goals (simp)
@[simp] theorem State.countBytes_trs (h : Header) : (s.countBytes h).trs = s.trs := by
  unfold State.countBytes
  (repeat' split)
  all_goals (simp)
@[simp] theorem State.countBytes_sec (h : Header) : (s.countBytes h).sec = s.sec := by
  unfold State.countBytes
  (repeat' split)
  all_goals (simp)
@[simp] theorem State.countBytes_gut (h : Header) : (s.countBytes h).gut = s.gut := by
  unfold State.countBytes
  (repeat' split)
  all_goals (simp)
@[simp] theorem State.countBytes_gau (h : Header) : (s.countBytes h).gau = s.gau := by
  unfold State.countBytes
  (repeat' split)
  all_goals (simp)
@[simp] theorem State.countBytes_pwr (h : Header) : (s.countBytes h).pwr = s.pwr := by
  unfold State.countBytes
  (repeat' split)
  all_goals (simp)
@[simp] theorem State.countBytes_sof (h : Header) : (s.countBytes h).sof = s.sof := by
  unfold State.countBytes
  (repeat' split)
  all_goals (simp)
@[simp] theorem State.countBytes_pins (h : Header) : (s.countBytes h).pins = s.pins := by
  unfold State.countBytes
  (repeat' split)
  all_goals (simp)
@[simp] theorem State.countBytes_jeb (h : Header) : (s.countBytes h).jeb = s.jeb := by
  unfold State.countBytes
  (repeat' split)
  all_goals (simp)
@[simp] theorem State.countBytes_latches (h : Header) : (s.countBytes h).latches = s.latches := by
  unfold State.countBytes
  (repeat' split)
  all_goals (simp)
@[simp] theorem State.countBytes_outputs (h : Header) : (s.countBytes h).outputs = s.outputs := by
  unfold State.countBytes
  (repeat' split)
  all_goals (simp)
@[simp] theorem State.countBytes_fresh (h : Header) : (s.countBytes h).fresh = s.fresh := by
  unfold State.countBytes
  (repeat' split)
  all_goals (simp)
@[simp] theorem State.countBytes_pending (h : Header) : (s.countBytes h).pending = s.pending := by
  unfold State.countBytes
  (repeat' split)
  all_goals (simp)
/-! ### State.leaveHome -/

@[simp] theorem State.leaveHome_ports (n : Fin 32) (i : Nat) : (s.leaveHome n i).ports = s.ports := by
  unfold State.leaveHome
  simp
@[simp] theorem State.leaveHome_tim (n : Fin 32) (i : Nat) : (s.leaveHome n i).tim = s.tim := by
  unfold State.leaveHome
  simp
@[simp] theorem State.leaveHome_pur (n : Fin 32) (i : Nat) : (s.leaveHome n i).pur = s.pur := by
  unfold State.leaveHome
  simp
@[simp] theorem State.leaveHome_gab (n : Fin 32) (i : Nat) : (s.leaveHome n i).gab = s.gab := by
  unfold State.leaveHome
  simp
@[simp] theorem State.leaveHome_trs (n : Fin 32) (i : Nat) : (s.leaveHome n i).trs = s.trs := by
  unfold State.leaveHome
  simp
@[simp] theorem State.leaveHome_sec (n : Fin 32) (i : Nat) : (s.leaveHome n i).sec = s.sec := by
  unfold State.leaveHome
  simp
@[simp] theorem State.leaveHome_gut (n : Fin 32) (i : Nat) : (s.leaveHome n i).gut = s.gut := by
  unfold State.leaveHome
  simp
@[simp] theorem State.leaveHome_gau (n : Fin 32) (i : Nat) : (s.leaveHome n i).gau = s.gau := by
  unfold State.leaveHome
  simp
@[simp] theorem State.leaveHome_pwr (n : Fin 32) (i : Nat) : (s.leaveHome n i).pwr = s.pwr := by
  unfold State.leaveHome
  simp
@[simp] theorem State.leaveHome_sof (n : Fin 32) (i : Nat) : (s.leaveHome n i).sof = s.sof := by
  unfold State.leaveHome
  simp
@[simp] theorem State.leaveHome_pins (n : Fin 32) (i : Nat) : (s.leaveHome n i).pins = s.pins := by
  unfold State.leaveHome
  simp
@[simp] theorem State.leaveHome_jeb (n : Fin 32) (i : Nat) : (s.leaveHome n i).jeb = s.jeb := by
  unfold State.leaveHome
  simp
@[simp] theorem State.leaveHome_latches (n : Fin 32) (i : Nat) : (s.leaveHome n i).latches = s.latches := by
  unfold State.leaveHome
  simp
@[simp] theorem State.leaveHome_outputs (n : Fin 32) (i : Nat) : (s.leaveHome n i).outputs = s.outputs := by
  unfold State.leaveHome
  simp
@[simp] theorem State.leaveHome_fresh (n : Fin 32) (i : Nat) : (s.leaveHome n i).fresh = s.fresh := by
  unfold State.leaveHome
  simp
@[simp] theorem State.leaveHome_pending (n : Fin 32) (i : Nat) : (s.leaveHome n i).pending = s.pending := by
  unfold State.leaveHome
  simp
/-! ### State.durErr -/

@[simp] theorem State.durErr_ports (k : Nat) : (s.durErr k).ports = s.ports := by
  unfold State.durErr
  simp
@[simp] theorem State.durErr_tim (k : Nat) : (s.durErr k).tim = s.tim := by
  unfold State.durErr
  simp
@[simp] theorem State.durErr_pur (k : Nat) : (s.durErr k).pur = s.pur := by
  unfold State.durErr
  simp
@[simp] theorem State.durErr_gab (k : Nat) : (s.durErr k).gab = s.gab := by
  unfold State.durErr
  simp
@[simp] theorem State.durErr_trs (k : Nat) : (s.durErr k).trs = s.trs := by
  unfold State.durErr
  simp
@[simp] theorem State.durErr_sec (k : Nat) : (s.durErr k).sec = s.sec := by
  unfold State.durErr
  simp
@[simp] theorem State.durErr_gut (k : Nat) : (s.durErr k).gut = s.gut := by
  unfold State.durErr
  simp
@[simp] theorem State.durErr_gau (k : Nat) : (s.durErr k).gau = s.gau := by
  unfold State.durErr
  simp
@[simp] theorem State.durErr_pwr (k : Nat) : (s.durErr k).pwr = s.pwr := by
  unfold State.durErr
  simp
@[simp] theorem State.durErr_sof (k : Nat) : (s.durErr k).sof = s.sof := by
  unfold State.durErr
  simp
@[simp] theorem State.durErr_pins (k : Nat) : (s.durErr k).pins = s.pins := by
  unfold State.durErr
  simp
@[simp] theorem State.durErr_jeb (k : Nat) : (s.durErr k).jeb = s.jeb := by
  unfold State.durErr
  simp
@[simp] theorem State.durErr_latches (k : Nat) : (s.durErr k).latches = s.latches := by
  unfold State.durErr
  simp
@[simp] theorem State.durErr_outputs (k : Nat) : (s.durErr k).outputs = s.outputs := by
  unfold State.durErr
  simp
@[simp] theorem State.durErr_fresh (k : Nat) : (s.durErr k).fresh = s.fresh := by
  unfold State.durErr
  simp
@[simp] theorem State.durErr_pending (k : Nat) : (s.durErr k).pending = s.pending := by
  unfold State.durErr
  simp
/-! ### State.gabRefuse -/

@[simp] theorem State.gabRefuse_ports (slot : Option Nat) (h : Header) (rank off reason chunk : Nat) : (s.gabRefuse slot h rank off reason chunk).ports = s.ports := by
  unfold State.gabRefuse
  simp
@[simp] theorem State.gabRefuse_tim (slot : Option Nat) (h : Header) (rank off reason chunk : Nat) : (s.gabRefuse slot h rank off reason chunk).tim = s.tim := by
  unfold State.gabRefuse
  simp
@[simp] theorem State.gabRefuse_pur (slot : Option Nat) (h : Header) (rank off reason chunk : Nat) : (s.gabRefuse slot h rank off reason chunk).pur = s.pur := by
  unfold State.gabRefuse
  simp
@[simp] theorem State.gabRefuse_eav (slot : Option Nat) (h : Header) (rank off reason chunk : Nat) : (s.gabRefuse slot h rank off reason chunk).eav = s.eav := by
  unfold State.gabRefuse
  simp
@[simp] theorem State.gabRefuse_sec (slot : Option Nat) (h : Header) (rank off reason chunk : Nat) : (s.gabRefuse slot h rank off reason chunk).sec = s.sec := by
  unfold State.gabRefuse
  simp
@[simp] theorem State.gabRefuse_gau (slot : Option Nat) (h : Header) (rank off reason chunk : Nat) : (s.gabRefuse slot h rank off reason chunk).gau = s.gau := by
  unfold State.gabRefuse
  simp
@[simp] theorem State.gabRefuse_pwr (slot : Option Nat) (h : Header) (rank off reason chunk : Nat) : (s.gabRefuse slot h rank off reason chunk).pwr = s.pwr := by
  unfold State.gabRefuse
  simp
@[simp] theorem State.gabRefuse_pins (slot : Option Nat) (h : Header) (rank off reason chunk : Nat) : (s.gabRefuse slot h rank off reason chunk).pins = s.pins := by
  unfold State.gabRefuse
  simp
@[simp] theorem State.gabRefuse_jeb (slot : Option Nat) (h : Header) (rank off reason chunk : Nat) : (s.gabRefuse slot h rank off reason chunk).jeb = s.jeb := by
  unfold State.gabRefuse
  simp
@[simp] theorem State.gabRefuse_latches (slot : Option Nat) (h : Header) (rank off reason chunk : Nat) : (s.gabRefuse slot h rank off reason chunk).latches = s.latches := by
  unfold State.gabRefuse
  simp
@[simp] theorem State.gabRefuse_outputs (slot : Option Nat) (h : Header) (rank off reason chunk : Nat) : (s.gabRefuse slot h rank off reason chunk).outputs = s.outputs := by
  unfold State.gabRefuse
  simp
@[simp] theorem State.gabRefuse_pending (slot : Option Nat) (h : Header) (rank off reason chunk : Nat) : (s.gabRefuse slot h rank off reason chunk).pending = s.pending := by
  unfold State.gabRefuse
  simp
/-! ### State.stopBay -/

@[simp] theorem State.stopBay_tim (code : Nat) (via : Option (Fin 144)) (e : Event) : (s.stopBay code via e).tim = s.tim := by
  unfold State.stopBay
  (repeat' split)
  all_goals (simp)
@[simp] theorem State.stopBay_eav (code : Nat) (via : Option (Fin 144)) (e : Event) : (s.stopBay code via e).eav = s.eav := by
  unfold State.stopBay
  (repeat' split)
  all_goals (simp)
@[simp] theorem State.stopBay_gau (code : Nat) (via : Option (Fin 144)) (e : Event) : (s.stopBay code via e).gau = s.gau := by
  unfold State.stopBay
  (repeat' split)
  all_goals (simp)
@[simp] theorem State.stopBay_pwr (code : Nat) (via : Option (Fin 144)) (e : Event) : (s.stopBay code via e).pwr = s.pwr := by
  unfold State.stopBay
  (repeat' split)
  all_goals (simp)
@[simp] theorem State.stopBay_pins (code : Nat) (via : Option (Fin 144)) (e : Event) : (s.stopBay code via e).pins = s.pins := by
  unfold State.stopBay
  (repeat' split)
  all_goals (simp)
@[simp] theorem State.stopBay_jeb (code : Nat) (via : Option (Fin 144)) (e : Event) : (s.stopBay code via e).jeb = s.jeb := by
  unfold State.stopBay
  (repeat' split)
  all_goals (simp)
@[simp] theorem State.stopBay_latches (code : Nat) (via : Option (Fin 144)) (e : Event) : (s.stopBay code via e).latches = s.latches := by
  unfold State.stopBay
  (repeat' split)
  all_goals (simp)
@[simp] theorem State.stopBay_outputs (code : Nat) (via : Option (Fin 144)) (e : Event) : (s.stopBay code via e).outputs = s.outputs := by
  unfold State.stopBay
  (repeat' split)
  all_goals (simp)
@[simp] theorem State.stopBay_pending (code : Nat) (via : Option (Fin 144)) (e : Event) : (s.stopBay code via e).pending = s.pending := by
  unfold State.stopBay
  (repeat' split)
  all_goals (simp)
/-! ### State.drainOne -/

@[simp] theorem State.drainOne_tim (e : Entry) : (s.drainOne e).tim = s.tim := by
  unfold State.drainOne
  dsimp only
  (repeat' split)
  all_goals (simp)
@[simp] theorem State.drainOne_eav (e : Entry) : (s.drainOne e).eav = s.eav := by
  unfold State.drainOne
  dsimp only
  (repeat' split)
  all_goals (simp)
@[simp] theorem State.drainOne_gab (e : Entry) : (s.drainOne e).gab = s.gab := by
  unfold State.drainOne
  dsimp only
  (repeat' split)
  all_goals (simp)
@[simp] theorem State.drainOne_trs (e : Entry) : (s.drainOne e).trs = s.trs := by
  unfold State.drainOne
  dsimp only
  (repeat' split)
  all_goals (simp)
@[simp] theorem State.drainOne_sec (e : Entry) : (s.drainOne e).sec = s.sec := by
  unfold State.drainOne
  dsimp only
  (repeat' split)
  all_goals (simp)
@[simp] theorem State.drainOne_gau (e : Entry) : (s.drainOne e).gau = s.gau := by
  unfold State.drainOne
  dsimp only
  (repeat' split)
  all_goals (simp)
@[simp] theorem State.drainOne_pwr (e : Entry) : (s.drainOne e).pwr = s.pwr := by
  unfold State.drainOne
  dsimp only
  (repeat' split)
  all_goals (simp)
@[simp] theorem State.drainOne_pins (e : Entry) : (s.drainOne e).pins = s.pins := by
  unfold State.drainOne
  dsimp only
  (repeat' split)
  all_goals (simp)
@[simp] theorem State.drainOne_jeb (e : Entry) : (s.drainOne e).jeb = s.jeb := by
  unfold State.drainOne
  dsimp only
  (repeat' split)
  all_goals (simp)
@[simp] theorem State.drainOne_latches (e : Entry) : (s.drainOne e).latches = s.latches := by
  unfold State.drainOne
  dsimp only
  (repeat' split)
  all_goals (simp)
@[simp] theorem State.drainOne_outputs (e : Entry) : (s.drainOne e).outputs = s.outputs := by
  unfold State.drainOne
  dsimp only
  (repeat' split)
  all_goals (simp)
@[simp] theorem State.drainOne_pending (e : Entry) : (s.drainOne e).pending = s.pending := by
  unfold State.drainOne
  dsimp only
  (repeat' split)
  all_goals (simp)
/-! ### State.secRefuse -/

@[simp] theorem State.secRefuse_ports (code : BitVec 4) : (s.secRefuse code).ports = s.ports := by
  unfold State.secRefuse
  simp
@[simp] theorem State.secRefuse_tim (code : BitVec 4) : (s.secRefuse code).tim = s.tim := by
  unfold State.secRefuse
  simp
@[simp] theorem State.secRefuse_pur (code : BitVec 4) : (s.secRefuse code).pur = s.pur := by
  unfold State.secRefuse
  simp
@[simp] theorem State.secRefuse_eav (code : BitVec 4) : (s.secRefuse code).eav = s.eav := by
  unfold State.secRefuse
  simp
@[simp] theorem State.secRefuse_gab (code : BitVec 4) : (s.secRefuse code).gab = s.gab := by
  unfold State.secRefuse
  simp
@[simp] theorem State.secRefuse_trs (code : BitVec 4) : (s.secRefuse code).trs = s.trs := by
  unfold State.secRefuse
  simp
@[simp] theorem State.secRefuse_gut (code : BitVec 4) : (s.secRefuse code).gut = s.gut := by
  unfold State.secRefuse
  simp
@[simp] theorem State.secRefuse_gau (code : BitVec 4) : (s.secRefuse code).gau = s.gau := by
  unfold State.secRefuse
  simp
@[simp] theorem State.secRefuse_pwr (code : BitVec 4) : (s.secRefuse code).pwr = s.pwr := by
  unfold State.secRefuse
  simp
@[simp] theorem State.secRefuse_sof (code : BitVec 4) : (s.secRefuse code).sof = s.sof := by
  unfold State.secRefuse
  simp
@[simp] theorem State.secRefuse_pins (code : BitVec 4) : (s.secRefuse code).pins = s.pins := by
  unfold State.secRefuse
  simp
@[simp] theorem State.secRefuse_jeb (code : BitVec 4) : (s.secRefuse code).jeb = s.jeb := by
  unfold State.secRefuse
  simp
@[simp] theorem State.secRefuse_latches (code : BitVec 4) : (s.secRefuse code).latches = s.latches := by
  unfold State.secRefuse
  simp
@[simp] theorem State.secRefuse_outputs (code : BitVec 4) : (s.secRefuse code).outputs = s.outputs := by
  unfold State.secRefuse
  simp
@[simp] theorem State.secRefuse_fresh (code : BitVec 4) : (s.secRefuse code).fresh = s.fresh := by
  unfold State.secRefuse
  simp
@[simp] theorem State.secRefuse_pending (code : BitVec 4) : (s.secRefuse code).pending = s.pending := by
  unfold State.secRefuse
  simp
/-! ### State.takeBay -/

@[simp] theorem State.takeBay_ports  : (s.takeBay).ports = s.ports := by
  unfold State.takeBay
  dsimp only
  rw [State.foldl_keeps (·.ports) _ (by simp)]
  simp
@[simp] theorem State.takeBay_tim  : (s.takeBay).tim = s.tim := by
  unfold State.takeBay
  dsimp only
  rw [State.foldl_keeps (·.tim) _ (by simp)]
  simp
@[simp] theorem State.takeBay_pur  : (s.takeBay).pur = s.pur := by
  unfold State.takeBay
  dsimp only
  rw [State.foldl_keeps (·.pur) _ (by simp)]
  simp
@[simp] theorem State.takeBay_eav  : (s.takeBay).eav = s.eav := by
  unfold State.takeBay
  dsimp only
  rw [State.foldl_keeps (·.eav) _ (by simp)]
  simp
@[simp] theorem State.takeBay_trs  : (s.takeBay).trs = s.trs := by
  unfold State.takeBay
  dsimp only
  rw [State.foldl_keeps (·.trs) _ (by simp)]
  simp
@[simp] theorem State.takeBay_gau  : (s.takeBay).gau = s.gau := by
  unfold State.takeBay
  dsimp only
  rw [State.foldl_keeps (·.gau) _ (by simp)]
  simp
@[simp] theorem State.takeBay_pwr  : (s.takeBay).pwr = s.pwr := by
  unfold State.takeBay
  dsimp only
  rw [State.foldl_keeps (·.pwr) _ (by simp)]
  simp
@[simp] theorem State.takeBay_pins  : (s.takeBay).pins = s.pins := by
  unfold State.takeBay
  dsimp only
  rw [State.foldl_keeps (·.pins) _ (by simp)]
  simp
@[simp] theorem State.takeBay_jeb  : (s.takeBay).jeb = s.jeb := by
  unfold State.takeBay
  dsimp only
  rw [State.foldl_keeps (·.jeb) _ (by simp)]
  simp
@[simp] theorem State.takeBay_latches  : (s.takeBay).latches = s.latches := by
  unfold State.takeBay
  dsimp only
  rw [State.foldl_keeps (·.latches) _ (by simp)]
  simp
@[simp] theorem State.takeBay_outputs  : (s.takeBay).outputs = s.outputs := by
  unfold State.takeBay
  dsimp only
  rw [State.foldl_keeps (·.outputs) _ (by simp)]
  simp
@[simp] theorem State.takeBay_pending  : (s.takeBay).pending = s.pending := by
  unfold State.takeBay
  dsimp only
  rw [State.foldl_keeps (·.pending) _ (by simp)]
  simp
/-! ### State.emptyBuffer -/

@[simp] theorem State.emptyBuffer_ports  : (s.emptyBuffer).ports = s.ports := by
  unfold State.emptyBuffer
  simp
@[simp] theorem State.emptyBuffer_tim  : (s.emptyBuffer).tim = s.tim := by
  unfold State.emptyBuffer
  simp
@[simp] theorem State.emptyBuffer_eav  : (s.emptyBuffer).eav = s.eav := by
  unfold State.emptyBuffer
  simp
@[simp] theorem State.emptyBuffer_gab  : (s.emptyBuffer).gab = s.gab := by
  unfold State.emptyBuffer
  simp
@[simp] theorem State.emptyBuffer_trs  : (s.emptyBuffer).trs = s.trs := by
  unfold State.emptyBuffer
  simp
@[simp] theorem State.emptyBuffer_sec  : (s.emptyBuffer).sec = s.sec := by
  unfold State.emptyBuffer
  simp
@[simp] theorem State.emptyBuffer_gut  : (s.emptyBuffer).gut = s.gut := by
  unfold State.emptyBuffer
  simp
@[simp] theorem State.emptyBuffer_gau  : (s.emptyBuffer).gau = s.gau := by
  unfold State.emptyBuffer
  simp
@[simp] theorem State.emptyBuffer_pwr  : (s.emptyBuffer).pwr = s.pwr := by
  unfold State.emptyBuffer
  simp
@[simp] theorem State.emptyBuffer_sof  : (s.emptyBuffer).sof = s.sof := by
  unfold State.emptyBuffer
  simp
@[simp] theorem State.emptyBuffer_pins  : (s.emptyBuffer).pins = s.pins := by
  unfold State.emptyBuffer
  simp
@[simp] theorem State.emptyBuffer_jeb  : (s.emptyBuffer).jeb = s.jeb := by
  unfold State.emptyBuffer
  simp
@[simp] theorem State.emptyBuffer_latches  : (s.emptyBuffer).latches = s.latches := by
  unfold State.emptyBuffer
  simp
@[simp] theorem State.emptyBuffer_outputs  : (s.emptyBuffer).outputs = s.outputs := by
  unfold State.emptyBuffer
  simp
@[simp] theorem State.emptyBuffer_fresh  : (s.emptyBuffer).fresh = s.fresh := by
  unfold State.emptyBuffer
  simp
@[simp] theorem State.emptyBuffer_pending  : (s.emptyBuffer).pending = s.pending := by
  unfold State.emptyBuffer
  simp
/-! ### State.clearFatal -/

@[simp] theorem State.clearFatal_ports  : (s.clearFatal).ports = s.ports := by
  unfold State.clearFatal
  (repeat' split)
  all_goals (simp)
@[simp] theorem State.clearFatal_tim  : (s.clearFatal).tim = s.tim := by
  unfold State.clearFatal
  (repeat' split)
  all_goals (simp)
@[simp] theorem State.clearFatal_pur  : (s.clearFatal).pur = s.pur := by
  unfold State.clearFatal
  (repeat' split)
  all_goals (simp)
@[simp] theorem State.clearFatal_eav  : (s.clearFatal).eav = s.eav := by
  unfold State.clearFatal
  (repeat' split)
  all_goals (simp)
@[simp] theorem State.clearFatal_gab  : (s.clearFatal).gab = s.gab := by
  unfold State.clearFatal
  (repeat' split)
  all_goals (simp)
@[simp] theorem State.clearFatal_trs  : (s.clearFatal).trs = s.trs := by
  unfold State.clearFatal
  (repeat' split)
  all_goals (simp)
@[simp] theorem State.clearFatal_sec  : (s.clearFatal).sec = s.sec := by
  unfold State.clearFatal
  (repeat' split)
  all_goals (simp)
@[simp] theorem State.clearFatal_gau  : (s.clearFatal).gau = s.gau := by
  unfold State.clearFatal
  (repeat' split)
  all_goals (simp)
@[simp] theorem State.clearFatal_pwr  : (s.clearFatal).pwr = s.pwr := by
  unfold State.clearFatal
  (repeat' split)
  all_goals (simp)
@[simp] theorem State.clearFatal_sof  : (s.clearFatal).sof = s.sof := by
  unfold State.clearFatal
  (repeat' split)
  all_goals (simp)
@[simp] theorem State.clearFatal_pins  : (s.clearFatal).pins = s.pins := by
  unfold State.clearFatal
  (repeat' split)
  all_goals (simp)
@[simp] theorem State.clearFatal_jeb  : (s.clearFatal).jeb = s.jeb := by
  unfold State.clearFatal
  (repeat' split)
  all_goals (simp)
@[simp] theorem State.clearFatal_latches  : (s.clearFatal).latches = s.latches := by
  unfold State.clearFatal
  (repeat' split)
  all_goals (simp)
@[simp] theorem State.clearFatal_outputs  : (s.clearFatal).outputs = s.outputs := by
  unfold State.clearFatal
  (repeat' split)
  all_goals (simp)
@[simp] theorem State.clearFatal_fresh  : (s.clearFatal).fresh = s.fresh := by
  unfold State.clearFatal
  (repeat' split)
  all_goals (simp)
@[simp] theorem State.clearFatal_pending  : (s.clearFatal).pending = s.pending := by
  unfold State.clearFatal
  (repeat' split)
  all_goals (simp)
/-! ### State.clearCaptures -/

@[simp] theorem State.clearCaptures_ports  : (s.clearCaptures).ports = s.ports := by
  unfold State.clearCaptures
  simp
@[simp] theorem State.clearCaptures_tim  : (s.clearCaptures).tim = s.tim := by
  unfold State.clearCaptures
  simp
@[simp] theorem State.clearCaptures_pur  : (s.clearCaptures).pur = s.pur := by
  unfold State.clearCaptures
  simp
@[simp] theorem State.clearCaptures_eav  : (s.clearCaptures).eav = s.eav := by
  unfold State.clearCaptures
  simp
@[simp] theorem State.clearCaptures_gab  : (s.clearCaptures).gab = s.gab := by
  unfold State.clearCaptures
  simp
@[simp] theorem State.clearCaptures_trs  : (s.clearCaptures).trs = s.trs := by
  unfold State.clearCaptures
  simp
@[simp] theorem State.clearCaptures_sec  : (s.clearCaptures).sec = s.sec := by
  unfold State.clearCaptures
  simp
@[simp] theorem State.clearCaptures_gau  : (s.clearCaptures).gau = s.gau := by
  unfold State.clearCaptures
  simp
@[simp] theorem State.clearCaptures_pwr  : (s.clearCaptures).pwr = s.pwr := by
  unfold State.clearCaptures
  simp
@[simp] theorem State.clearCaptures_sof  : (s.clearCaptures).sof = s.sof := by
  unfold State.clearCaptures
  simp
@[simp] theorem State.clearCaptures_pins  : (s.clearCaptures).pins = s.pins := by
  unfold State.clearCaptures
  simp
@[simp] theorem State.clearCaptures_jeb  : (s.clearCaptures).jeb = s.jeb := by
  unfold State.clearCaptures
  simp
@[simp] theorem State.clearCaptures_latches  : (s.clearCaptures).latches = s.latches := by
  unfold State.clearCaptures
  simp
@[simp] theorem State.clearCaptures_outputs  : (s.clearCaptures).outputs = s.outputs := by
  unfold State.clearCaptures
  simp
@[simp] theorem State.clearCaptures_fresh  : (s.clearCaptures).fresh = s.fresh := by
  unfold State.clearCaptures
  simp
@[simp] theorem State.clearCaptures_pending  : (s.clearCaptures).pending = s.pending := by
  unfold State.clearCaptures
  simp
/-! ### State.clearFences -/

@[simp] theorem State.clearFences_ports (w : Nat) (value : W64) : (s.clearFences w value).ports = s.ports := by
  unfold State.clearFences
  (repeat' split)
  all_goals (simp)
@[simp] theorem State.clearFences_tim (w : Nat) (value : W64) : (s.clearFences w value).tim = s.tim := by
  unfold State.clearFences
  (repeat' split)
  all_goals (simp)
@[simp] theorem State.clearFences_pur (w : Nat) (value : W64) : (s.clearFences w value).pur = s.pur := by
  unfold State.clearFences
  (repeat' split)
  all_goals (simp)
@[simp] theorem State.clearFences_eav (w : Nat) (value : W64) : (s.clearFences w value).eav = s.eav := by
  unfold State.clearFences
  (repeat' split)
  all_goals (simp)
@[simp] theorem State.clearFences_gab (w : Nat) (value : W64) : (s.clearFences w value).gab = s.gab := by
  unfold State.clearFences
  (repeat' split)
  all_goals (simp)
@[simp] theorem State.clearFences_trs (w : Nat) (value : W64) : (s.clearFences w value).trs = s.trs := by
  unfold State.clearFences
  (repeat' split)
  all_goals (simp)
@[simp] theorem State.clearFences_sec (w : Nat) (value : W64) : (s.clearFences w value).sec = s.sec := by
  unfold State.clearFences
  (repeat' split)
  all_goals (simp)
@[simp] theorem State.clearFences_gau (w : Nat) (value : W64) : (s.clearFences w value).gau = s.gau := by
  unfold State.clearFences
  (repeat' split)
  all_goals (simp)
@[simp] theorem State.clearFences_pwr (w : Nat) (value : W64) : (s.clearFences w value).pwr = s.pwr := by
  unfold State.clearFences
  (repeat' split)
  all_goals (simp)
@[simp] theorem State.clearFences_sof (w : Nat) (value : W64) : (s.clearFences w value).sof = s.sof := by
  unfold State.clearFences
  (repeat' split)
  all_goals (simp)
@[simp] theorem State.clearFences_pins (w : Nat) (value : W64) : (s.clearFences w value).pins = s.pins := by
  unfold State.clearFences
  (repeat' split)
  all_goals (simp)
@[simp] theorem State.clearFences_jeb (w : Nat) (value : W64) : (s.clearFences w value).jeb = s.jeb := by
  unfold State.clearFences
  (repeat' split)
  all_goals (simp)
@[simp] theorem State.clearFences_latches (w : Nat) (value : W64) : (s.clearFences w value).latches = s.latches := by
  unfold State.clearFences
  (repeat' split)
  all_goals (simp)
@[simp] theorem State.clearFences_outputs (w : Nat) (value : W64) : (s.clearFences w value).outputs = s.outputs := by
  unfold State.clearFences
  (repeat' split)
  all_goals (simp)
@[simp] theorem State.clearFences_fresh (w : Nat) (value : W64) : (s.clearFences w value).fresh = s.fresh := by
  unfold State.clearFences
  (repeat' split)
  all_goals (simp)
@[simp] theorem State.clearFences_pending (w : Nat) (value : W64) : (s.clearFences w value).pending = s.pending := by
  unfold State.clearFences
  (repeat' split)
  all_goals (simp)
/-! ### State.keyAnswer -/

@[simp] theorem State.keyAnswer_ports (status : BitVec 4) (port : Byte) : (s.keyAnswer status port).ports = s.ports := by
  unfold State.keyAnswer
  (repeat' split)
  all_goals (simp)
@[simp] theorem State.keyAnswer_tim (status : BitVec 4) (port : Byte) : (s.keyAnswer status port).tim = s.tim := by
  unfold State.keyAnswer
  (repeat' split)
  all_goals (simp)
@[simp] theorem State.keyAnswer_pur (status : BitVec 4) (port : Byte) : (s.keyAnswer status port).pur = s.pur := by
  unfold State.keyAnswer
  (repeat' split)
  all_goals (simp)
@[simp] theorem State.keyAnswer_eav (status : BitVec 4) (port : Byte) : (s.keyAnswer status port).eav = s.eav := by
  unfold State.keyAnswer
  (repeat' split)
  all_goals (simp)
@[simp] theorem State.keyAnswer_gab (status : BitVec 4) (port : Byte) : (s.keyAnswer status port).gab = s.gab := by
  unfold State.keyAnswer
  (repeat' split)
  all_goals (simp)
@[simp] theorem State.keyAnswer_trs (status : BitVec 4) (port : Byte) : (s.keyAnswer status port).trs = s.trs := by
  unfold State.keyAnswer
  (repeat' split)
  all_goals (simp)
@[simp] theorem State.keyAnswer_gut (status : BitVec 4) (port : Byte) : (s.keyAnswer status port).gut = s.gut := by
  unfold State.keyAnswer
  (repeat' split)
  all_goals (simp)
@[simp] theorem State.keyAnswer_gau (status : BitVec 4) (port : Byte) : (s.keyAnswer status port).gau = s.gau := by
  unfold State.keyAnswer
  (repeat' split)
  all_goals (simp)
@[simp] theorem State.keyAnswer_pwr (status : BitVec 4) (port : Byte) : (s.keyAnswer status port).pwr = s.pwr := by
  unfold State.keyAnswer
  (repeat' split)
  all_goals (simp)
@[simp] theorem State.keyAnswer_sof (status : BitVec 4) (port : Byte) : (s.keyAnswer status port).sof = s.sof := by
  unfold State.keyAnswer
  (repeat' split)
  all_goals (simp)
@[simp] theorem State.keyAnswer_pins (status : BitVec 4) (port : Byte) : (s.keyAnswer status port).pins = s.pins := by
  unfold State.keyAnswer
  (repeat' split)
  all_goals (simp)
@[simp] theorem State.keyAnswer_jeb (status : BitVec 4) (port : Byte) : (s.keyAnswer status port).jeb = s.jeb := by
  unfold State.keyAnswer
  (repeat' split)
  all_goals (simp)
@[simp] theorem State.keyAnswer_latches (status : BitVec 4) (port : Byte) : (s.keyAnswer status port).latches = s.latches := by
  unfold State.keyAnswer
  (repeat' split)
  all_goals (simp)
@[simp] theorem State.keyAnswer_fresh (status : BitVec 4) (port : Byte) : (s.keyAnswer status port).fresh = s.fresh := by
  unfold State.keyAnswer
  (repeat' split)
  all_goals (simp)
@[simp] theorem State.keyAnswer_pending (status : BitVec 4) (port : Byte) : (s.keyAnswer status port).pending = s.pending := by
  unfold State.keyAnswer
  (repeat' split)
  all_goals (simp)
/-! ### State.sendKey -/

@[simp] theorem State.sendKey_tim (n : Fin 144) (action : Nat) (aux : W64) (data : List Shingle) : (s.sendKey n action aux data).tim = s.tim := by
  unfold State.sendKey
  dsimp only
  (repeat' split)
  all_goals (simp)
@[simp] theorem State.sendKey_eav (n : Fin 144) (action : Nat) (aux : W64) (data : List Shingle) : (s.sendKey n action aux data).eav = s.eav := by
  unfold State.sendKey
  dsimp only
  (repeat' split)
  all_goals (simp)
@[simp] theorem State.sendKey_gab (n : Fin 144) (action : Nat) (aux : W64) (data : List Shingle) : (s.sendKey n action aux data).gab = s.gab := by
  unfold State.sendKey
  dsimp only
  (repeat' split)
  all_goals (simp)
@[simp] theorem State.sendKey_trs (n : Fin 144) (action : Nat) (aux : W64) (data : List Shingle) : (s.sendKey n action aux data).trs = s.trs := by
  unfold State.sendKey
  dsimp only
  (repeat' split)
  all_goals (simp)
@[simp] theorem State.sendKey_gut (n : Fin 144) (action : Nat) (aux : W64) (data : List Shingle) : (s.sendKey n action aux data).gut = s.gut := by
  unfold State.sendKey
  dsimp only
  (repeat' split)
  all_goals (simp)
@[simp] theorem State.sendKey_gau (n : Fin 144) (action : Nat) (aux : W64) (data : List Shingle) : (s.sendKey n action aux data).gau = s.gau := by
  unfold State.sendKey
  dsimp only
  (repeat' split)
  all_goals (simp)
@[simp] theorem State.sendKey_pwr (n : Fin 144) (action : Nat) (aux : W64) (data : List Shingle) : (s.sendKey n action aux data).pwr = s.pwr := by
  unfold State.sendKey
  dsimp only
  (repeat' split)
  all_goals (simp)
@[simp] theorem State.sendKey_pins (n : Fin 144) (action : Nat) (aux : W64) (data : List Shingle) : (s.sendKey n action aux data).pins = s.pins := by
  unfold State.sendKey
  dsimp only
  (repeat' split)
  all_goals (simp)
@[simp] theorem State.sendKey_jeb (n : Fin 144) (action : Nat) (aux : W64) (data : List Shingle) : (s.sendKey n action aux data).jeb = s.jeb := by
  unfold State.sendKey
  dsimp only
  (repeat' split)
  all_goals (simp)
@[simp] theorem State.sendKey_latches (n : Fin 144) (action : Nat) (aux : W64) (data : List Shingle) : (s.sendKey n action aux data).latches = s.latches := by
  unfold State.sendKey
  dsimp only
  (repeat' split)
  all_goals (simp)
@[simp] theorem State.sendKey_outputs (n : Fin 144) (action : Nat) (aux : W64) (data : List Shingle) : (s.sendKey n action aux data).outputs = s.outputs := by
  unfold State.sendKey
  dsimp only
  (repeat' split)
  all_goals (simp)
@[simp] theorem State.sendKey_pending (n : Fin 144) (action : Nat) (aux : W64) (data : List Shingle) : (s.sendKey n action aux data).pending = s.pending := by
  unfold State.sendKey
  dsimp only
  (repeat' split)
  all_goals (simp)
/-! ### State.dropKey -/

@[simp] theorem State.dropKey_ports (slot : BitVec 2) : (s.dropKey slot).ports = s.ports := by
  unfold State.dropKey
  simp
@[simp] theorem State.dropKey_tim (slot : BitVec 2) : (s.dropKey slot).tim = s.tim := by
  unfold State.dropKey
  simp
@[simp] theorem State.dropKey_pur (slot : BitVec 2) : (s.dropKey slot).pur = s.pur := by
  unfold State.dropKey
  simp
@[simp] theorem State.dropKey_eav (slot : BitVec 2) : (s.dropKey slot).eav = s.eav := by
  unfold State.dropKey
  simp
@[simp] theorem State.dropKey_gab (slot : BitVec 2) : (s.dropKey slot).gab = s.gab := by
  unfold State.dropKey
  simp
@[simp] theorem State.dropKey_trs (slot : BitVec 2) : (s.dropKey slot).trs = s.trs := by
  unfold State.dropKey
  simp
@[simp] theorem State.dropKey_gut (slot : BitVec 2) : (s.dropKey slot).gut = s.gut := by
  unfold State.dropKey
  simp
@[simp] theorem State.dropKey_gau (slot : BitVec 2) : (s.dropKey slot).gau = s.gau := by
  unfold State.dropKey
  simp
@[simp] theorem State.dropKey_pwr (slot : BitVec 2) : (s.dropKey slot).pwr = s.pwr := by
  unfold State.dropKey
  simp
@[simp] theorem State.dropKey_sof (slot : BitVec 2) : (s.dropKey slot).sof = s.sof := by
  unfold State.dropKey
  simp
@[simp] theorem State.dropKey_pins (slot : BitVec 2) : (s.dropKey slot).pins = s.pins := by
  unfold State.dropKey
  simp
@[simp] theorem State.dropKey_jeb (slot : BitVec 2) : (s.dropKey slot).jeb = s.jeb := by
  unfold State.dropKey
  simp
@[simp] theorem State.dropKey_latches (slot : BitVec 2) : (s.dropKey slot).latches = s.latches := by
  unfold State.dropKey
  simp
@[simp] theorem State.dropKey_outputs (slot : BitVec 2) : (s.dropKey slot).outputs = s.outputs := by
  unfold State.dropKey
  simp
@[simp] theorem State.dropKey_fresh (slot : BitVec 2) : (s.dropKey slot).fresh = s.fresh := by
  unfold State.dropKey
  simp
@[simp] theorem State.dropKey_pending (slot : BitVec 2) : (s.dropKey slot).pending = s.pending := by
  unfold State.dropKey
  simp
/-! ### State.setLag -/

@[simp] theorem State.setLag_ports (unmet : Bool) : (s.setLag unmet).ports = s.ports := by
  unfold State.setLag
  dsimp only
  (repeat' split)
  all_goals (simp)
@[simp] theorem State.setLag_tim (unmet : Bool) : (s.setLag unmet).tim = s.tim := by
  unfold State.setLag
  dsimp only
  (repeat' split)
  all_goals (simp)
@[simp] theorem State.setLag_pur (unmet : Bool) : (s.setLag unmet).pur = s.pur := by
  unfold State.setLag
  dsimp only
  (repeat' split)
  all_goals (simp)
@[simp] theorem State.setLag_eav (unmet : Bool) : (s.setLag unmet).eav = s.eav := by
  unfold State.setLag
  dsimp only
  (repeat' split)
  all_goals (simp)
@[simp] theorem State.setLag_gab (unmet : Bool) : (s.setLag unmet).gab = s.gab := by
  unfold State.setLag
  dsimp only
  (repeat' split)
  all_goals (simp)
@[simp] theorem State.setLag_trs (unmet : Bool) : (s.setLag unmet).trs = s.trs := by
  unfold State.setLag
  dsimp only
  (repeat' split)
  all_goals (simp)
@[simp] theorem State.setLag_sec (unmet : Bool) : (s.setLag unmet).sec = s.sec := by
  unfold State.setLag
  dsimp only
  (repeat' split)
  all_goals (simp)
@[simp] theorem State.setLag_gau (unmet : Bool) : (s.setLag unmet).gau = s.gau := by
  unfold State.setLag
  dsimp only
  (repeat' split)
  all_goals (simp)
@[simp] theorem State.setLag_pins (unmet : Bool) : (s.setLag unmet).pins = s.pins := by
  unfold State.setLag
  dsimp only
  (repeat' split)
  all_goals (simp)
@[simp] theorem State.setLag_jeb (unmet : Bool) : (s.setLag unmet).jeb = s.jeb := by
  unfold State.setLag
  dsimp only
  (repeat' split)
  all_goals (simp)
@[simp] theorem State.setLag_latches (unmet : Bool) : (s.setLag unmet).latches = s.latches := by
  unfold State.setLag
  dsimp only
  (repeat' split)
  all_goals (simp)
@[simp] theorem State.setLag_outputs (unmet : Bool) : (s.setLag unmet).outputs = s.outputs := by
  unfold State.setLag
  dsimp only
  (repeat' split)
  all_goals (simp)
@[simp] theorem State.setLag_pending (unmet : Bool) : (s.setLag unmet).pending = s.pending := by
  unfold State.setLag
  dsimp only
  (repeat' split)
  all_goals (simp)
/-! ### State.trsSend -/

@[simp] theorem State.trsSend_tim (f : Frame) : (s.trsSend f).tim = s.tim := by
  unfold State.trsSend
  (repeat' split)
  all_goals (simp)
@[simp] theorem State.trsSend_eav (f : Frame) : (s.trsSend f).eav = s.eav := by
  unfold State.trsSend
  (repeat' split)
  all_goals (simp)
@[simp] theorem State.trsSend_gab (f : Frame) : (s.trsSend f).gab = s.gab := by
  unfold State.trsSend
  (repeat' split)
  all_goals (simp)
@[simp] theorem State.trsSend_trs (f : Frame) : (s.trsSend f).trs = s.trs := by
  unfold State.trsSend
  (repeat' split)
  all_goals (simp)
@[simp] theorem State.trsSend_sec (f : Frame) : (s.trsSend f).sec = s.sec := by
  unfold State.trsSend
  (repeat' split)
  all_goals (simp)
@[simp] theorem State.trsSend_gau (f : Frame) : (s.trsSend f).gau = s.gau := by
  unfold State.trsSend
  (repeat' split)
  all_goals (simp)
@[simp] theorem State.trsSend_pwr (f : Frame) : (s.trsSend f).pwr = s.pwr := by
  unfold State.trsSend
  (repeat' split)
  all_goals (simp)
@[simp] theorem State.trsSend_pins (f : Frame) : (s.trsSend f).pins = s.pins := by
  unfold State.trsSend
  (repeat' split)
  all_goals (simp)
@[simp] theorem State.trsSend_jeb (f : Frame) : (s.trsSend f).jeb = s.jeb := by
  unfold State.trsSend
  (repeat' split)
  all_goals (simp)
@[simp] theorem State.trsSend_latches (f : Frame) : (s.trsSend f).latches = s.latches := by
  unfold State.trsSend
  (repeat' split)
  all_goals (simp)
@[simp] theorem State.trsSend_outputs (f : Frame) : (s.trsSend f).outputs = s.outputs := by
  unfold State.trsSend
  (repeat' split)
  all_goals (simp)
@[simp] theorem State.trsSend_pending (f : Frame) : (s.trsSend f).pending = s.pending := by
  unfold State.trsSend
  (repeat' split)
  all_goals (simp)
/-! ### State.trsSignal -/

@[simp] theorem State.trsSignal_tim (kind rack node off : Nat) (aux : W64) : (s.trsSignal kind rack node off aux).tim = s.tim := by
  unfold State.trsSignal
  simp
@[simp] theorem State.trsSignal_eav (kind rack node off : Nat) (aux : W64) : (s.trsSignal kind rack node off aux).eav = s.eav := by
  unfold State.trsSignal
  simp
@[simp] theorem State.trsSignal_gab (kind rack node off : Nat) (aux : W64) : (s.trsSignal kind rack node off aux).gab = s.gab := by
  unfold State.trsSignal
  simp
@[simp] theorem State.trsSignal_trs (kind rack node off : Nat) (aux : W64) : (s.trsSignal kind rack node off aux).trs = s.trs := by
  unfold State.trsSignal
  simp
@[simp] theorem State.trsSignal_sec (kind rack node off : Nat) (aux : W64) : (s.trsSignal kind rack node off aux).sec = s.sec := by
  unfold State.trsSignal
  simp
@[simp] theorem State.trsSignal_gau (kind rack node off : Nat) (aux : W64) : (s.trsSignal kind rack node off aux).gau = s.gau := by
  unfold State.trsSignal
  simp
@[simp] theorem State.trsSignal_pwr (kind rack node off : Nat) (aux : W64) : (s.trsSignal kind rack node off aux).pwr = s.pwr := by
  unfold State.trsSignal
  simp
@[simp] theorem State.trsSignal_pins (kind rack node off : Nat) (aux : W64) : (s.trsSignal kind rack node off aux).pins = s.pins := by
  unfold State.trsSignal
  simp
@[simp] theorem State.trsSignal_jeb (kind rack node off : Nat) (aux : W64) : (s.trsSignal kind rack node off aux).jeb = s.jeb := by
  unfold State.trsSignal
  simp
@[simp] theorem State.trsSignal_latches (kind rack node off : Nat) (aux : W64) : (s.trsSignal kind rack node off aux).latches = s.latches := by
  unfold State.trsSignal
  simp
@[simp] theorem State.trsSignal_outputs (kind rack node off : Nat) (aux : W64) : (s.trsSignal kind rack node off aux).outputs = s.outputs := by
  unfold State.trsSignal
  simp
@[simp] theorem State.trsSignal_pending (kind rack node off : Nat) (aux : W64) : (s.trsSignal kind rack node off aux).pending = s.pending := by
  unfold State.trsSignal
  simp
/-! ### State.putRun -/

@[simp] theorem State.putRun_ports (r : Run) : (s.putRun r).ports = s.ports := by
  unfold State.putRun
  simp
@[simp] theorem State.putRun_tim (r : Run) : (s.putRun r).tim = s.tim := by
  unfold State.putRun
  simp
@[simp] theorem State.putRun_pur (r : Run) : (s.putRun r).pur = s.pur := by
  unfold State.putRun
  simp
@[simp] theorem State.putRun_eav (r : Run) : (s.putRun r).eav = s.eav := by
  unfold State.putRun
  simp
@[simp] theorem State.putRun_gab (r : Run) : (s.putRun r).gab = s.gab := by
  unfold State.putRun
  simp
@[simp] theorem State.putRun_sec (r : Run) : (s.putRun r).sec = s.sec := by
  unfold State.putRun
  simp
@[simp] theorem State.putRun_gut (r : Run) : (s.putRun r).gut = s.gut := by
  unfold State.putRun
  simp
@[simp] theorem State.putRun_gau (r : Run) : (s.putRun r).gau = s.gau := by
  unfold State.putRun
  simp
@[simp] theorem State.putRun_pwr (r : Run) : (s.putRun r).pwr = s.pwr := by
  unfold State.putRun
  simp
@[simp] theorem State.putRun_sof (r : Run) : (s.putRun r).sof = s.sof := by
  unfold State.putRun
  simp
@[simp] theorem State.putRun_pins (r : Run) : (s.putRun r).pins = s.pins := by
  unfold State.putRun
  simp
@[simp] theorem State.putRun_jeb (r : Run) : (s.putRun r).jeb = s.jeb := by
  unfold State.putRun
  simp
@[simp] theorem State.putRun_latches (r : Run) : (s.putRun r).latches = s.latches := by
  unfold State.putRun
  simp
@[simp] theorem State.putRun_outputs (r : Run) : (s.putRun r).outputs = s.outputs := by
  unfold State.putRun
  simp
@[simp] theorem State.putRun_fresh (r : Run) : (s.putRun r).fresh = s.fresh := by
  unfold State.putRun
  simp
@[simp] theorem State.putRun_pending (r : Run) : (s.putRun r).pending = s.pending := by
  unfold State.putRun
  simp
/-! ### State.nextIns -/

@[simp] theorem State.nextIns_ports (r : Run) : (s.nextIns r).ports = s.ports := by
  unfold State.nextIns
  simp
@[simp] theorem State.nextIns_tim (r : Run) : (s.nextIns r).tim = s.tim := by
  unfold State.nextIns
  simp
@[simp] theorem State.nextIns_pur (r : Run) : (s.nextIns r).pur = s.pur := by
  unfold State.nextIns
  simp
@[simp] theorem State.nextIns_eav (r : Run) : (s.nextIns r).eav = s.eav := by
  unfold State.nextIns
  simp
@[simp] theorem State.nextIns_gab (r : Run) : (s.nextIns r).gab = s.gab := by
  unfold State.nextIns
  simp
@[simp] theorem State.nextIns_sec (r : Run) : (s.nextIns r).sec = s.sec := by
  unfold State.nextIns
  simp
@[simp] theorem State.nextIns_gut (r : Run) : (s.nextIns r).gut = s.gut := by
  unfold State.nextIns
  simp
@[simp] theorem State.nextIns_gau (r : Run) : (s.nextIns r).gau = s.gau := by
  unfold State.nextIns
  simp
@[simp] theorem State.nextIns_pwr (r : Run) : (s.nextIns r).pwr = s.pwr := by
  unfold State.nextIns
  simp
@[simp] theorem State.nextIns_sof (r : Run) : (s.nextIns r).sof = s.sof := by
  unfold State.nextIns
  simp
@[simp] theorem State.nextIns_pins (r : Run) : (s.nextIns r).pins = s.pins := by
  unfold State.nextIns
  simp
@[simp] theorem State.nextIns_jeb (r : Run) : (s.nextIns r).jeb = s.jeb := by
  unfold State.nextIns
  simp
@[simp] theorem State.nextIns_latches (r : Run) : (s.nextIns r).latches = s.latches := by
  unfold State.nextIns
  simp
@[simp] theorem State.nextIns_outputs (r : Run) : (s.nextIns r).outputs = s.outputs := by
  unfold State.nextIns
  simp
@[simp] theorem State.nextIns_fresh (r : Run) : (s.nextIns r).fresh = s.fresh := by
  unfold State.nextIns
  simp
@[simp] theorem State.nextIns_pending (r : Run) : (s.nextIns r).pending = s.pending := by
  unfold State.nextIns
  simp
/-! ### State.configError -/

@[simp] theorem State.configError_ports  : (s.configError).ports = s.ports := by
  unfold State.configError
  simp
@[simp] theorem State.configError_tim  : (s.configError).tim = s.tim := by
  unfold State.configError
  simp
@[simp] theorem State.configError_pur  : (s.configError).pur = s.pur := by
  unfold State.configError
  simp
@[simp] theorem State.configError_eav  : (s.configError).eav = s.eav := by
  unfold State.configError
  simp
@[simp] theorem State.configError_gab  : (s.configError).gab = s.gab := by
  unfold State.configError
  simp
@[simp] theorem State.configError_trs  : (s.configError).trs = s.trs := by
  unfold State.configError
  simp
@[simp] theorem State.configError_sec  : (s.configError).sec = s.sec := by
  unfold State.configError
  simp
@[simp] theorem State.configError_gau  : (s.configError).gau = s.gau := by
  unfold State.configError
  simp
@[simp] theorem State.configError_pwr  : (s.configError).pwr = s.pwr := by
  unfold State.configError
  simp
@[simp] theorem State.configError_pins  : (s.configError).pins = s.pins := by
  unfold State.configError
  simp
@[simp] theorem State.configError_jeb  : (s.configError).jeb = s.jeb := by
  unfold State.configError
  simp
@[simp] theorem State.configError_latches  : (s.configError).latches = s.latches := by
  unfold State.configError
  simp
@[simp] theorem State.configError_outputs  : (s.configError).outputs = s.outputs := by
  unfold State.configError
  simp
@[simp] theorem State.configError_pending  : (s.configError).pending = s.pending := by
  unfold State.configError
  simp
/-! ### State.runThatch -/

@[simp] theorem State.runThatch_ports (slot : Option Nat) : (s.runThatch slot).ports = s.ports := by
  unfold State.runThatch
  (repeat' split)
  all_goals (simp)
@[simp] theorem State.runThatch_tim (slot : Option Nat) : (s.runThatch slot).tim = s.tim := by
  unfold State.runThatch
  (repeat' split)
  all_goals (simp)
@[simp] theorem State.runThatch_pur (slot : Option Nat) : (s.runThatch slot).pur = s.pur := by
  unfold State.runThatch
  (repeat' split)
  all_goals (simp)
@[simp] theorem State.runThatch_eav (slot : Option Nat) : (s.runThatch slot).eav = s.eav := by
  unfold State.runThatch
  (repeat' split)
  all_goals (simp)
@[simp] theorem State.runThatch_gab (slot : Option Nat) : (s.runThatch slot).gab = s.gab := by
  unfold State.runThatch
  (repeat' split)
  all_goals (simp)
@[simp] theorem State.runThatch_trs (slot : Option Nat) : (s.runThatch slot).trs = s.trs := by
  unfold State.runThatch
  (repeat' split)
  all_goals (simp)
@[simp] theorem State.runThatch_gut (slot : Option Nat) : (s.runThatch slot).gut = s.gut := by
  unfold State.runThatch
  (repeat' split)
  all_goals (simp)
@[simp] theorem State.runThatch_gau (slot : Option Nat) : (s.runThatch slot).gau = s.gau := by
  unfold State.runThatch
  (repeat' split)
  all_goals (simp)
@[simp] theorem State.runThatch_pwr (slot : Option Nat) : (s.runThatch slot).pwr = s.pwr := by
  unfold State.runThatch
  (repeat' split)
  all_goals (simp)
@[simp] theorem State.runThatch_pins (slot : Option Nat) : (s.runThatch slot).pins = s.pins := by
  unfold State.runThatch
  (repeat' split)
  all_goals (simp)
@[simp] theorem State.runThatch_jeb (slot : Option Nat) : (s.runThatch slot).jeb = s.jeb := by
  unfold State.runThatch
  (repeat' split)
  all_goals (simp)
@[simp] theorem State.runThatch_latches (slot : Option Nat) : (s.runThatch slot).latches = s.latches := by
  unfold State.runThatch
  (repeat' split)
  all_goals (simp)
@[simp] theorem State.runThatch_outputs (slot : Option Nat) : (s.runThatch slot).outputs = s.outputs := by
  unfold State.runThatch
  (repeat' split)
  all_goals (simp)
@[simp] theorem State.runThatch_fresh (slot : Option Nat) : (s.runThatch slot).fresh = s.fresh := by
  unfold State.runThatch
  (repeat' split)
  all_goals (simp)
@[simp] theorem State.runThatch_pending (slot : Option Nat) : (s.runThatch slot).pending = s.pending := by
  unfold State.runThatch
  (repeat' split)
  all_goals (simp)

/-! ### State.flashWrite -/

@[simp] theorem State.flashWrite_ports (d : Domain) (w : FlashWrite) : (s.flashWrite d w).ports = s.ports := by
  unfold State.flashWrite
  (repeat' split)
  all_goals (simp)
@[simp] theorem State.flashWrite_tim (d : Domain) (w : FlashWrite) : (s.flashWrite d w).tim = s.tim := by
  unfold State.flashWrite
  (repeat' split)
  all_goals (simp)
@[simp] theorem State.flashWrite_pur (d : Domain) (w : FlashWrite) : (s.flashWrite d w).pur = s.pur := by
  unfold State.flashWrite
  (repeat' split)
  all_goals (simp)
@[simp] theorem State.flashWrite_eav (d : Domain) (w : FlashWrite) : (s.flashWrite d w).eav = s.eav := by
  unfold State.flashWrite
  (repeat' split)
  all_goals (simp)
@[simp] theorem State.flashWrite_gab (d : Domain) (w : FlashWrite) : (s.flashWrite d w).gab = s.gab := by
  unfold State.flashWrite
  (repeat' split)
  all_goals (simp)
@[simp] theorem State.flashWrite_trs (d : Domain) (w : FlashWrite) : (s.flashWrite d w).trs = s.trs := by
  unfold State.flashWrite
  (repeat' split)
  all_goals (simp)
@[simp] theorem State.flashWrite_sec (d : Domain) (w : FlashWrite) : (s.flashWrite d w).sec = s.sec := by
  unfold State.flashWrite
  (repeat' split)
  all_goals (simp)
@[simp] theorem State.flashWrite_gau (d : Domain) (w : FlashWrite) : (s.flashWrite d w).gau = s.gau := by
  unfold State.flashWrite
  (repeat' split)
  all_goals (simp)
@[simp] theorem State.flashWrite_pwr (d : Domain) (w : FlashWrite) : (s.flashWrite d w).pwr = s.pwr := by
  unfold State.flashWrite
  (repeat' split)
  all_goals (simp)
@[simp] theorem State.flashWrite_pins (d : Domain) (w : FlashWrite) : (s.flashWrite d w).pins = s.pins := by
  unfold State.flashWrite
  (repeat' split)
  all_goals (simp)
@[simp] theorem State.flashWrite_jeb (d : Domain) (w : FlashWrite) : (s.flashWrite d w).jeb = s.jeb := by
  unfold State.flashWrite
  (repeat' split)
  all_goals (simp)
@[simp] theorem State.flashWrite_latches (d : Domain) (w : FlashWrite) : (s.flashWrite d w).latches = s.latches := by
  unfold State.flashWrite
  (repeat' split)
  all_goals (simp)
@[simp] theorem State.flashWrite_outputs (d : Domain) (w : FlashWrite) : (s.flashWrite d w).outputs = s.outputs := by
  unfold State.flashWrite
  (repeat' split)
  all_goals (simp)
@[simp] theorem State.flashWrite_pending (d : Domain) (w : FlashWrite) : (s.flashWrite d w).pending = s.pending := by
  unfold State.flashWrite
  (repeat' split)
  all_goals (simp)
/-! ### State.updateFails -/

@[simp] theorem State.updateFails_ports (kind : Byte) : (s.updateFails kind).ports = s.ports := by
  unfold State.updateFails
  simp
@[simp] theorem State.updateFails_tim (kind : Byte) : (s.updateFails kind).tim = s.tim := by
  unfold State.updateFails
  simp
@[simp] theorem State.updateFails_pur (kind : Byte) : (s.updateFails kind).pur = s.pur := by
  unfold State.updateFails
  simp
@[simp] theorem State.updateFails_eav (kind : Byte) : (s.updateFails kind).eav = s.eav := by
  unfold State.updateFails
  simp
@[simp] theorem State.updateFails_gab (kind : Byte) : (s.updateFails kind).gab = s.gab := by
  unfold State.updateFails
  simp
@[simp] theorem State.updateFails_trs (kind : Byte) : (s.updateFails kind).trs = s.trs := by
  unfold State.updateFails
  simp
@[simp] theorem State.updateFails_sec (kind : Byte) : (s.updateFails kind).sec = s.sec := by
  unfold State.updateFails
  simp
@[simp] theorem State.updateFails_gau (kind : Byte) : (s.updateFails kind).gau = s.gau := by
  unfold State.updateFails
  simp
@[simp] theorem State.updateFails_pwr (kind : Byte) : (s.updateFails kind).pwr = s.pwr := by
  unfold State.updateFails
  simp
@[simp] theorem State.updateFails_pins (kind : Byte) : (s.updateFails kind).pins = s.pins := by
  unfold State.updateFails
  simp
@[simp] theorem State.updateFails_jeb (kind : Byte) : (s.updateFails kind).jeb = s.jeb := by
  unfold State.updateFails
  simp
@[simp] theorem State.updateFails_latches (kind : Byte) : (s.updateFails kind).latches = s.latches := by
  unfold State.updateFails
  simp
@[simp] theorem State.updateFails_outputs (kind : Byte) : (s.updateFails kind).outputs = s.outputs := by
  unfold State.updateFails
  simp
@[simp] theorem State.updateFails_pending (kind : Byte) : (s.updateFails kind).pending = s.pending := by
  unfold State.updateFails
  simp
/-! ### State.stageFails -/

@[simp] theorem State.stageFails_ports  : (s.stageFails).ports = s.ports := by
  unfold State.stageFails
  simp
@[simp] theorem State.stageFails_tim  : (s.stageFails).tim = s.tim := by
  unfold State.stageFails
  simp
@[simp] theorem State.stageFails_pur  : (s.stageFails).pur = s.pur := by
  unfold State.stageFails
  simp
@[simp] theorem State.stageFails_eav  : (s.stageFails).eav = s.eav := by
  unfold State.stageFails
  simp
@[simp] theorem State.stageFails_gab  : (s.stageFails).gab = s.gab := by
  unfold State.stageFails
  simp
@[simp] theorem State.stageFails_trs  : (s.stageFails).trs = s.trs := by
  unfold State.stageFails
  simp
@[simp] theorem State.stageFails_sec  : (s.stageFails).sec = s.sec := by
  unfold State.stageFails
  simp
@[simp] theorem State.stageFails_gut  : (s.stageFails).gut = s.gut := by
  unfold State.stageFails
  simp
@[simp] theorem State.stageFails_gau  : (s.stageFails).gau = s.gau := by
  unfold State.stageFails
  simp
@[simp] theorem State.stageFails_pwr  : (s.stageFails).pwr = s.pwr := by
  unfold State.stageFails
  simp
@[simp] theorem State.stageFails_pins  : (s.stageFails).pins = s.pins := by
  unfold State.stageFails
  simp
@[simp] theorem State.stageFails_jeb  : (s.stageFails).jeb = s.jeb := by
  unfold State.stageFails
  simp
@[simp] theorem State.stageFails_latches  : (s.stageFails).latches = s.latches := by
  unfold State.stageFails
  simp
@[simp] theorem State.stageFails_outputs  : (s.stageFails).outputs = s.outputs := by
  unfold State.stageFails
  simp
@[simp] theorem State.stageFails_pending  : (s.stageFails).pending = s.pending := by
  unfold State.stageFails
  simp
/-! ### State.degrade -/

@[simp] theorem State.degrade_ports (o : MarginObj) (lane : Nat) : (s.degrade o lane).ports = s.ports := by
  unfold State.degrade
  simp
@[simp] theorem State.degrade_tim (o : MarginObj) (lane : Nat) : (s.degrade o lane).tim = s.tim := by
  unfold State.degrade
  simp
@[simp] theorem State.degrade_pur (o : MarginObj) (lane : Nat) : (s.degrade o lane).pur = s.pur := by
  unfold State.degrade
  simp
@[simp] theorem State.degrade_eav (o : MarginObj) (lane : Nat) : (s.degrade o lane).eav = s.eav := by
  unfold State.degrade
  simp
@[simp] theorem State.degrade_gab (o : MarginObj) (lane : Nat) : (s.degrade o lane).gab = s.gab := by
  unfold State.degrade
  simp
@[simp] theorem State.degrade_trs (o : MarginObj) (lane : Nat) : (s.degrade o lane).trs = s.trs := by
  unfold State.degrade
  simp
@[simp] theorem State.degrade_sec (o : MarginObj) (lane : Nat) : (s.degrade o lane).sec = s.sec := by
  unfold State.degrade
  simp
@[simp] theorem State.degrade_gau (o : MarginObj) (lane : Nat) : (s.degrade o lane).gau = s.gau := by
  unfold State.degrade
  simp
@[simp] theorem State.degrade_pwr (o : MarginObj) (lane : Nat) : (s.degrade o lane).pwr = s.pwr := by
  unfold State.degrade
  simp
@[simp] theorem State.degrade_pins (o : MarginObj) (lane : Nat) : (s.degrade o lane).pins = s.pins := by
  unfold State.degrade
  simp
@[simp] theorem State.degrade_jeb (o : MarginObj) (lane : Nat) : (s.degrade o lane).jeb = s.jeb := by
  unfold State.degrade
  simp
@[simp] theorem State.degrade_latches (o : MarginObj) (lane : Nat) : (s.degrade o lane).latches = s.latches := by
  unfold State.degrade
  simp
@[simp] theorem State.degrade_outputs (o : MarginObj) (lane : Nat) : (s.degrade o lane).outputs = s.outputs := by
  unfold State.degrade
  simp
@[simp] theorem State.degrade_pending (o : MarginObj) (lane : Nat) : (s.degrade o lane).pending = s.pending := by
  unfold State.degrade
  simp

/-! ### Turning off (R330) -/

/-- What an interval turns off draws no more than the steps that brought it down, and what is carried over is less than one more draws. -/
theorem Pwr.offGroup_fits (p : Pwr) (power left : Nat) (h : 0 < power) :
    (p.offGroup power left).1 * power ≤ p.offRest + p.step ∧ (p.offGroup power left).2 < power := by
  unfold Pwr.offGroup
  have d := Nat.div_mul_le_self (p.offRest + p.step) power
  have m := Nat.div_add_mod (p.offRest + p.step) power
  have l := Nat.mod_lt (p.offRest + p.step) h
  have e := Nat.mul_comm power ((p.offRest + p.step) / power)
  dsimp only
  constructor
  · exact Nat.le_trans (Nat.mul_le_mul_right _ (Nat.min_le_left _ _)) d
  · split
    · exact h
    · rename_i c
      have : min ((p.offRest + p.step) / power) left = (p.offRest + p.step) / power := by omega
      rw [this]
      omega

end Sys2Proof.Machine
end

