-- ==== Sys2Proof/Laws/Jalem.lean ====
section
/-! SUPPORT. What the shared operations of the Jalem block leave alone: a lemma per operation and field. -/

namespace Sys2Proof.Machine

open Sys2Proof

variable (s : State)

/-! ### State.jebSend -/

@[simp] theorem State.jebSend_tim (p : PortRef) (f : Frame) : (s.jebSend p f).tim = s.tim := by
  unfold State.jebSend
  (repeat' split)
  all_goals (simp)
@[simp] theorem State.jebSend_pur (p : PortRef) (f : Frame) : (s.jebSend p f).pur = s.pur := by
  unfold State.jebSend
  (repeat' split)
  all_goals (simp)
@[simp] theorem State.jebSend_eav (p : PortRef) (f : Frame) : (s.jebSend p f).eav = s.eav := by
  unfold State.jebSend
  (repeat' split)
  all_goals (simp)
@[simp] theorem State.jebSend_gab (p : PortRef) (f : Frame) : (s.jebSend p f).gab = s.gab := by
  unfold State.jebSend
  (repeat' split)
  all_goals (simp)
@[simp] theorem State.jebSend_trs (p : PortRef) (f : Frame) : (s.jebSend p f).trs = s.trs := by
  unfold State.jebSend
  (repeat' split)
  all_goals (simp)
@[simp] theorem State.jebSend_sec (p : PortRef) (f : Frame) : (s.jebSend p f).sec = s.sec := by
  unfold State.jebSend
  (repeat' split)
  all_goals (simp)
@[simp] theorem State.jebSend_gut (p : PortRef) (f : Frame) : (s.jebSend p f).gut = s.gut := by
  unfold State.jebSend
  (repeat' split)
  all_goals (simp)
@[simp] theorem State.jebSend_gau (p : PortRef) (f : Frame) : (s.jebSend p f).gau = s.gau := by
  unfold State.jebSend
  (repeat' split)
  all_goals (simp)
@[simp] theorem State.jebSend_pwr (p : PortRef) (f : Frame) : (s.jebSend p f).pwr = s.pwr := by
  unfold State.jebSend
  (repeat' split)
  all_goals (simp)
@[simp] theorem State.jebSend_sof (p : PortRef) (f : Frame) : (s.jebSend p f).sof = s.sof := by
  unfold State.jebSend
  (repeat' split)
  all_goals (simp)
@[simp] theorem State.jebSend_pins (p : PortRef) (f : Frame) : (s.jebSend p f).pins = s.pins := by
  unfold State.jebSend
  (repeat' split)
  all_goals (simp)
@[simp] theorem State.jebSend_latches (p : PortRef) (f : Frame) : (s.jebSend p f).latches = s.latches := by
  unfold State.jebSend
  (repeat' split)
  all_goals (simp)
@[simp] theorem State.jebSend_outputs (p : PortRef) (f : Frame) : (s.jebSend p f).outputs = s.outputs := by
  unfold State.jebSend
  (repeat' split)
  all_goals (simp)
@[simp] theorem State.jebSend_fresh (p : PortRef) (f : Frame) : (s.jebSend p f).fresh = s.fresh := by
  unfold State.jebSend
  (repeat' split)
  all_goals (simp)
@[simp] theorem State.jebSend_pending (p : PortRef) (f : Frame) : (s.jebSend p f).pending = s.pending := by
  unfold State.jebSend
  (repeat' split)
  all_goals (simp)
/-! ### State.takeFrame -/

@[simp] theorem State.takeFrame_tim (p : PortRef) (f : Frame) : (s.takeFrame p f).tim = s.tim := by
  unfold State.takeFrame
  simp
@[simp] theorem State.takeFrame_pur (p : PortRef) (f : Frame) : (s.takeFrame p f).pur = s.pur := by
  unfold State.takeFrame
  simp
@[simp] theorem State.takeFrame_eav (p : PortRef) (f : Frame) : (s.takeFrame p f).eav = s.eav := by
  unfold State.takeFrame
  simp
@[simp] theorem State.takeFrame_gab (p : PortRef) (f : Frame) : (s.takeFrame p f).gab = s.gab := by
  unfold State.takeFrame
  simp
@[simp] theorem State.takeFrame_trs (p : PortRef) (f : Frame) : (s.takeFrame p f).trs = s.trs := by
  unfold State.takeFrame
  simp
@[simp] theorem State.takeFrame_sec (p : PortRef) (f : Frame) : (s.takeFrame p f).sec = s.sec := by
  unfold State.takeFrame
  simp
@[simp] theorem State.takeFrame_gut (p : PortRef) (f : Frame) : (s.takeFrame p f).gut = s.gut := by
  unfold State.takeFrame
  simp
@[simp] theorem State.takeFrame_gau (p : PortRef) (f : Frame) : (s.takeFrame p f).gau = s.gau := by
  unfold State.takeFrame
  simp
@[simp] theorem State.takeFrame_pwr (p : PortRef) (f : Frame) : (s.takeFrame p f).pwr = s.pwr := by
  unfold State.takeFrame
  simp
@[simp] theorem State.takeFrame_sof (p : PortRef) (f : Frame) : (s.takeFrame p f).sof = s.sof := by
  unfold State.takeFrame
  simp
@[simp] theorem State.takeFrame_pins (p : PortRef) (f : Frame) : (s.takeFrame p f).pins = s.pins := by
  unfold State.takeFrame
  simp
@[simp] theorem State.takeFrame_latches (p : PortRef) (f : Frame) : (s.takeFrame p f).latches = s.latches := by
  unfold State.takeFrame
  simp
@[simp] theorem State.takeFrame_outputs (p : PortRef) (f : Frame) : (s.takeFrame p f).outputs = s.outputs := by
  unfold State.takeFrame
  simp
@[simp] theorem State.takeFrame_fresh (p : PortRef) (f : Frame) : (s.takeFrame p f).fresh = s.fresh := by
  unfold State.takeFrame
  simp
@[simp] theorem State.takeFrame_pending (p : PortRef) (f : Frame) : (s.takeFrame p f).pending = s.pending := by
  unfold State.takeFrame
  simp
/-! ### State.jebFree -/

@[simp] theorem State.jebFree_tim (p : PortRef) (h : Header) : (s.jebFree p h).tim = s.tim := by
  unfold State.jebFree
  (repeat' split)
  all_goals (simp)
@[simp] theorem State.jebFree_pur (p : PortRef) (h : Header) : (s.jebFree p h).pur = s.pur := by
  unfold State.jebFree
  (repeat' split)
  all_goals (simp)
@[simp] theorem State.jebFree_eav (p : PortRef) (h : Header) : (s.jebFree p h).eav = s.eav := by
  unfold State.jebFree
  (repeat' split)
  all_goals (simp)
@[simp] theorem State.jebFree_gab (p : PortRef) (h : Header) : (s.jebFree p h).gab = s.gab := by
  unfold State.jebFree
  (repeat' split)
  all_goals (simp)
@[simp] theorem State.jebFree_trs (p : PortRef) (h : Header) : (s.jebFree p h).trs = s.trs := by
  unfold State.jebFree
  (repeat' split)
  all_goals (simp)
@[simp] theorem State.jebFree_sec (p : PortRef) (h : Header) : (s.jebFree p h).sec = s.sec := by
  unfold State.jebFree
  (repeat' split)
  all_goals (simp)
@[simp] theorem State.jebFree_gut (p : PortRef) (h : Header) : (s.jebFree p h).gut = s.gut := by
  unfold State.jebFree
  (repeat' split)
  all_goals (simp)
@[simp] theorem State.jebFree_gau (p : PortRef) (h : Header) : (s.jebFree p h).gau = s.gau := by
  unfold State.jebFree
  (repeat' split)
  all_goals (simp)
@[simp] theorem State.jebFree_pwr (p : PortRef) (h : Header) : (s.jebFree p h).pwr = s.pwr := by
  unfold State.jebFree
  (repeat' split)
  all_goals (simp)
@[simp] theorem State.jebFree_sof (p : PortRef) (h : Header) : (s.jebFree p h).sof = s.sof := by
  unfold State.jebFree
  (repeat' split)
  all_goals (simp)
@[simp] theorem State.jebFree_pins (p : PortRef) (h : Header) : (s.jebFree p h).pins = s.pins := by
  unfold State.jebFree
  (repeat' split)
  all_goals (simp)
@[simp] theorem State.jebFree_latches (p : PortRef) (h : Header) : (s.jebFree p h).latches = s.latches := by
  unfold State.jebFree
  (repeat' split)
  all_goals (simp)
@[simp] theorem State.jebFree_outputs (p : PortRef) (h : Header) : (s.jebFree p h).outputs = s.outputs := by
  unfold State.jebFree
  (repeat' split)
  all_goals (simp)
@[simp] theorem State.jebFree_fresh (p : PortRef) (h : Header) : (s.jebFree p h).fresh = s.fresh := by
  unfold State.jebFree
  (repeat' split)
  all_goals (simp)
@[simp] theorem State.jebFree_pending (p : PortRef) (h : Header) : (s.jebFree p h).pending = s.pending := by
  unfold State.jebFree
  (repeat' split)
  all_goals (simp)
/-! ### State.done -/

@[simp] theorem State.done_ports (engine : Byte) (id : Nat) (code : Byte) (value : W64) : (s.done engine id code value).ports = s.ports := by
  unfold State.done
  simp
@[simp] theorem State.done_tim (engine : Byte) (id : Nat) (code : Byte) (value : W64) : (s.done engine id code value).tim = s.tim := by
  unfold State.done
  simp
@[simp] theorem State.done_pur (engine : Byte) (id : Nat) (code : Byte) (value : W64) : (s.done engine id code value).pur = s.pur := by
  unfold State.done
  simp
@[simp] theorem State.done_eav (engine : Byte) (id : Nat) (code : Byte) (value : W64) : (s.done engine id code value).eav = s.eav := by
  unfold State.done
  simp
@[simp] theorem State.done_gab (engine : Byte) (id : Nat) (code : Byte) (value : W64) : (s.done engine id code value).gab = s.gab := by
  unfold State.done
  simp
@[simp] theorem State.done_trs (engine : Byte) (id : Nat) (code : Byte) (value : W64) : (s.done engine id code value).trs = s.trs := by
  unfold State.done
  simp
@[simp] theorem State.done_sec (engine : Byte) (id : Nat) (code : Byte) (value : W64) : (s.done engine id code value).sec = s.sec := by
  unfold State.done
  simp
@[simp] theorem State.done_gut (engine : Byte) (id : Nat) (code : Byte) (value : W64) : (s.done engine id code value).gut = s.gut := by
  unfold State.done
  simp
@[simp] theorem State.done_gau (engine : Byte) (id : Nat) (code : Byte) (value : W64) : (s.done engine id code value).gau = s.gau := by
  unfold State.done
  simp
@[simp] theorem State.done_pwr (engine : Byte) (id : Nat) (code : Byte) (value : W64) : (s.done engine id code value).pwr = s.pwr := by
  unfold State.done
  simp
@[simp] theorem State.done_sof (engine : Byte) (id : Nat) (code : Byte) (value : W64) : (s.done engine id code value).sof = s.sof := by
  unfold State.done
  simp
@[simp] theorem State.done_pins (engine : Byte) (id : Nat) (code : Byte) (value : W64) : (s.done engine id code value).pins = s.pins := by
  unfold State.done
  simp
@[simp] theorem State.done_jeb (engine : Byte) (id : Nat) (code : Byte) (value : W64) : (s.done engine id code value).jeb = s.jeb := by
  unfold State.done
  simp
@[simp] theorem State.done_latches (engine : Byte) (id : Nat) (code : Byte) (value : W64) : (s.done engine id code value).latches = s.latches := by
  unfold State.done
  simp
@[simp] theorem State.done_fresh (engine : Byte) (id : Nat) (code : Byte) (value : W64) : (s.done engine id code value).fresh = s.fresh := by
  unfold State.done
  simp
@[simp] theorem State.done_pending (engine : Byte) (id : Nat) (code : Byte) (value : W64) : (s.done engine id code value).pending = s.pending := by
  unfold State.done
  simp
/-! ### State.jebRefuse -/

@[simp] theorem State.jebRefuse_tim (p : PortRef) (h : Header) (status : Byte) : (s.jebRefuse p h status).tim = s.tim := by
  unfold State.jebRefuse
  (repeat' split)
  all_goals (simp)
@[simp] theorem State.jebRefuse_pur (p : PortRef) (h : Header) (status : Byte) : (s.jebRefuse p h status).pur = s.pur := by
  unfold State.jebRefuse
  (repeat' split)
  all_goals (simp)
@[simp] theorem State.jebRefuse_eav (p : PortRef) (h : Header) (status : Byte) : (s.jebRefuse p h status).eav = s.eav := by
  unfold State.jebRefuse
  (repeat' split)
  all_goals (simp)
@[simp] theorem State.jebRefuse_gab (p : PortRef) (h : Header) (status : Byte) : (s.jebRefuse p h status).gab = s.gab := by
  unfold State.jebRefuse
  (repeat' split)
  all_goals (simp)
@[simp] theorem State.jebRefuse_trs (p : PortRef) (h : Header) (status : Byte) : (s.jebRefuse p h status).trs = s.trs := by
  unfold State.jebRefuse
  (repeat' split)
  all_goals (simp)
@[simp] theorem State.jebRefuse_sec (p : PortRef) (h : Header) (status : Byte) : (s.jebRefuse p h status).sec = s.sec := by
  unfold State.jebRefuse
  (repeat' split)
  all_goals (simp)
@[simp] theorem State.jebRefuse_gau (p : PortRef) (h : Header) (status : Byte) : (s.jebRefuse p h status).gau = s.gau := by
  unfold State.jebRefuse
  (repeat' split)
  all_goals (simp)
@[simp] theorem State.jebRefuse_pwr (p : PortRef) (h : Header) (status : Byte) : (s.jebRefuse p h status).pwr = s.pwr := by
  unfold State.jebRefuse
  (repeat' split)
  all_goals (simp)
@[simp] theorem State.jebRefuse_pins (p : PortRef) (h : Header) (status : Byte) : (s.jebRefuse p h status).pins = s.pins := by
  unfold State.jebRefuse
  (repeat' split)
  all_goals (simp)
@[simp] theorem State.jebRefuse_latches (p : PortRef) (h : Header) (status : Byte) : (s.jebRefuse p h status).latches = s.latches := by
  unfold State.jebRefuse
  (repeat' split)
  all_goals (simp)
@[simp] theorem State.jebRefuse_outputs (p : PortRef) (h : Header) (status : Byte) : (s.jebRefuse p h status).outputs = s.outputs := by
  unfold State.jebRefuse
  (repeat' split)
  all_goals (simp)
@[simp] theorem State.jebRefuse_pending (p : PortRef) (h : Header) (status : Byte) : (s.jebRefuse p h status).pending = s.pending := by
  unfold State.jebRefuse
  (repeat' split)
  all_goals (simp)
/-! ### State.jebDropPosted -/

@[simp] theorem State.jebDropPosted_ports (h : Header) : (s.jebDropPosted h).ports = s.ports := by
  unfold State.jebDropPosted
  (repeat' split)
  all_goals (simp)
@[simp] theorem State.jebDropPosted_tim (h : Header) : (s.jebDropPosted h).tim = s.tim := by
  unfold State.jebDropPosted
  (repeat' split)
  all_goals (simp)
@[simp] theorem State.jebDropPosted_pur (h : Header) : (s.jebDropPosted h).pur = s.pur := by
  unfold State.jebDropPosted
  (repeat' split)
  all_goals (simp)
@[simp] theorem State.jebDropPosted_eav (h : Header) : (s.jebDropPosted h).eav = s.eav := by
  unfold State.jebDropPosted
  (repeat' split)
  all_goals (simp)
@[simp] theorem State.jebDropPosted_gab (h : Header) : (s.jebDropPosted h).gab = s.gab := by
  unfold State.jebDropPosted
  (repeat' split)
  all_goals (simp)
@[simp] theorem State.jebDropPosted_trs (h : Header) : (s.jebDropPosted h).trs = s.trs := by
  unfold State.jebDropPosted
  (repeat' split)
  all_goals (simp)
@[simp] theorem State.jebDropPosted_sec (h : Header) : (s.jebDropPosted h).sec = s.sec := by
  unfold State.jebDropPosted
  (repeat' split)
  all_goals (simp)
@[simp] theorem State.jebDropPosted_gau (h : Header) : (s.jebDropPosted h).gau = s.gau := by
  unfold State.jebDropPosted
  (repeat' split)
  all_goals (simp)
@[simp] theorem State.jebDropPosted_pwr (h : Header) : (s.jebDropPosted h).pwr = s.pwr := by
  unfold State.jebDropPosted
  (repeat' split)
  all_goals (simp)
@[simp] theorem State.jebDropPosted_pins (h : Header) : (s.jebDropPosted h).pins = s.pins := by
  unfold State.jebDropPosted
  (repeat' split)
  all_goals (simp)
@[simp] theorem State.jebDropPosted_latches (h : Header) : (s.jebDropPosted h).latches = s.latches := by
  unfold State.jebDropPosted
  (repeat' split)
  all_goals (simp)
@[simp] theorem State.jebDropPosted_outputs (h : Header) : (s.jebDropPosted h).outputs = s.outputs := by
  unfold State.jebDropPosted
  (repeat' split)
  all_goals (simp)
@[simp] theorem State.jebDropPosted_pending (h : Header) : (s.jebDropPosted h).pending = s.pending := by
  unfold State.jebDropPosted
  (repeat' split)
  all_goals (simp)
/-! ### State.jebDropResponse -/

@[simp] theorem State.jebDropResponse_ports (h : Header) : (s.jebDropResponse h).ports = s.ports := by
  unfold State.jebDropResponse
  (repeat' split)
  all_goals (simp)
@[simp] theorem State.jebDropResponse_tim (h : Header) : (s.jebDropResponse h).tim = s.tim := by
  unfold State.jebDropResponse
  (repeat' split)
  all_goals (simp)
@[simp] theorem State.jebDropResponse_pur (h : Header) : (s.jebDropResponse h).pur = s.pur := by
  unfold State.jebDropResponse
  (repeat' split)
  all_goals (simp)
@[simp] theorem State.jebDropResponse_eav (h : Header) : (s.jebDropResponse h).eav = s.eav := by
  unfold State.jebDropResponse
  (repeat' split)
  all_goals (simp)
@[simp] theorem State.jebDropResponse_gab (h : Header) : (s.jebDropResponse h).gab = s.gab := by
  unfold State.jebDropResponse
  (repeat' split)
  all_goals (simp)
@[simp] theorem State.jebDropResponse_trs (h : Header) : (s.jebDropResponse h).trs = s.trs := by
  unfold State.jebDropResponse
  (repeat' split)
  all_goals (simp)
@[simp] theorem State.jebDropResponse_sec (h : Header) : (s.jebDropResponse h).sec = s.sec := by
  unfold State.jebDropResponse
  (repeat' split)
  all_goals (simp)
@[simp] theorem State.jebDropResponse_gau (h : Header) : (s.jebDropResponse h).gau = s.gau := by
  unfold State.jebDropResponse
  (repeat' split)
  all_goals (simp)
@[simp] theorem State.jebDropResponse_pwr (h : Header) : (s.jebDropResponse h).pwr = s.pwr := by
  unfold State.jebDropResponse
  (repeat' split)
  all_goals (simp)
@[simp] theorem State.jebDropResponse_pins (h : Header) : (s.jebDropResponse h).pins = s.pins := by
  unfold State.jebDropResponse
  (repeat' split)
  all_goals (simp)
@[simp] theorem State.jebDropResponse_latches (h : Header) : (s.jebDropResponse h).latches = s.latches := by
  unfold State.jebDropResponse
  (repeat' split)
  all_goals (simp)
@[simp] theorem State.jebDropResponse_outputs (h : Header) : (s.jebDropResponse h).outputs = s.outputs := by
  unfold State.jebDropResponse
  (repeat' split)
  all_goals (simp)
@[simp] theorem State.jebDropResponse_pending (h : Header) : (s.jebDropResponse h).pending = s.pending := by
  unfold State.jebDropResponse
  (repeat' split)
  all_goals (simp)
/-! ### State.endReq -/

@[simp] theorem State.endReq_ports (r : Req) (st : Byte) : (s.endReq r st).ports = s.ports := by
  unfold State.endReq
  (repeat' split)
  all_goals (simp)
@[simp] theorem State.endReq_tim (r : Req) (st : Byte) : (s.endReq r st).tim = s.tim := by
  unfold State.endReq
  (repeat' split)
  all_goals (simp)
@[simp] theorem State.endReq_pur (r : Req) (st : Byte) : (s.endReq r st).pur = s.pur := by
  unfold State.endReq
  (repeat' split)
  all_goals (simp)
@[simp] theorem State.endReq_eav (r : Req) (st : Byte) : (s.endReq r st).eav = s.eav := by
  unfold State.endReq
  (repeat' split)
  all_goals (simp)
@[simp] theorem State.endReq_gab (r : Req) (st : Byte) : (s.endReq r st).gab = s.gab := by
  unfold State.endReq
  (repeat' split)
  all_goals (simp)
@[simp] theorem State.endReq_trs (r : Req) (st : Byte) : (s.endReq r st).trs = s.trs := by
  unfold State.endReq
  (repeat' split)
  all_goals (simp)
@[simp] theorem State.endReq_sec (r : Req) (st : Byte) : (s.endReq r st).sec = s.sec := by
  unfold State.endReq
  (repeat' split)
  all_goals (simp)
@[simp] theorem State.endReq_gut (r : Req) (st : Byte) : (s.endReq r st).gut = s.gut := by
  unfold State.endReq
  (repeat' split)
  all_goals (simp)
@[simp] theorem State.endReq_gau (r : Req) (st : Byte) : (s.endReq r st).gau = s.gau := by
  unfold State.endReq
  (repeat' split)
  all_goals (simp)
@[simp] theorem State.endReq_pwr (r : Req) (st : Byte) : (s.endReq r st).pwr = s.pwr := by
  unfold State.endReq
  (repeat' split)
  all_goals (simp)
@[simp] theorem State.endReq_sof (r : Req) (st : Byte) : (s.endReq r st).sof = s.sof := by
  unfold State.endReq
  (repeat' split)
  all_goals (simp)
@[simp] theorem State.endReq_pins (r : Req) (st : Byte) : (s.endReq r st).pins = s.pins := by
  unfold State.endReq
  (repeat' split)
  all_goals (simp)
@[simp] theorem State.endReq_latches (r : Req) (st : Byte) : (s.endReq r st).latches = s.latches := by
  unfold State.endReq
  (repeat' split)
  all_goals (simp)
@[simp] theorem State.endReq_outputs (r : Req) (st : Byte) : (s.endReq r st).outputs = s.outputs := by
  unfold State.endReq
  (repeat' split)
  all_goals (simp)
@[simp] theorem State.endReq_fresh (r : Req) (st : Byte) : (s.endReq r st).fresh = s.fresh := by
  unfold State.endReq
  (repeat' split)
  all_goals (simp)
@[simp] theorem State.endReq_pending (r : Req) (st : Byte) : (s.endReq r st).pending = s.pending := by
  unfold State.endReq
  (repeat' split)
  all_goals (simp)
/-! ### State.leaveStop -/

@[simp] theorem State.leaveStop_ports  : (s.leaveStop).ports = s.ports := by
  unfold State.leaveStop
  (repeat' split)
  all_goals (simp)
@[simp] theorem State.leaveStop_tim  : (s.leaveStop).tim = s.tim := by
  unfold State.leaveStop
  (repeat' split)
  all_goals (simp)
@[simp] theorem State.leaveStop_pur  : (s.leaveStop).pur = s.pur := by
  unfold State.leaveStop
  (repeat' split)
  all_goals (simp)
@[simp] theorem State.leaveStop_eav  : (s.leaveStop).eav = s.eav := by
  unfold State.leaveStop
  (repeat' split)
  all_goals (simp)
@[simp] theorem State.leaveStop_gab  : (s.leaveStop).gab = s.gab := by
  unfold State.leaveStop
  (repeat' split)
  all_goals (simp)
@[simp] theorem State.leaveStop_trs  : (s.leaveStop).trs = s.trs := by
  unfold State.leaveStop
  (repeat' split)
  all_goals (simp)
@[simp] theorem State.leaveStop_sec  : (s.leaveStop).sec = s.sec := by
  unfold State.leaveStop
  (repeat' split)
  all_goals (simp)
@[simp] theorem State.leaveStop_gut  : (s.leaveStop).gut = s.gut := by
  unfold State.leaveStop
  (repeat' split)
  all_goals (simp)
@[simp] theorem State.leaveStop_gau  : (s.leaveStop).gau = s.gau := by
  unfold State.leaveStop
  (repeat' split)
  all_goals (simp)
@[simp] theorem State.leaveStop_pwr  : (s.leaveStop).pwr = s.pwr := by
  unfold State.leaveStop
  (repeat' split)
  all_goals (simp)
@[simp] theorem State.leaveStop_sof  : (s.leaveStop).sof = s.sof := by
  unfold State.leaveStop
  (repeat' split)
  all_goals (simp)
@[simp] theorem State.leaveStop_pins  : (s.leaveStop).pins = s.pins := by
  unfold State.leaveStop
  (repeat' split)
  all_goals (simp)
@[simp] theorem State.leaveStop_latches  : (s.leaveStop).latches = s.latches := by
  unfold State.leaveStop
  (repeat' split)
  all_goals (simp)
@[simp] theorem State.leaveStop_outputs  : (s.leaveStop).outputs = s.outputs := by
  unfold State.leaveStop
  (repeat' split)
  all_goals (simp)
@[simp] theorem State.leaveStop_fresh  : (s.leaveStop).fresh = s.fresh := by
  unfold State.leaveStop
  (repeat' split)
  all_goals (simp)
@[simp] theorem State.leaveStop_pending  : (s.leaveStop).pending = s.pending := by
  unfold State.leaveStop
  (repeat' split)
  all_goals (simp)
/-! ### State.jebResume -/

@[simp] theorem State.jebResume_tim (q : Fin 18) (h : Header) : (s.jebResume q h).tim = s.tim := by
  unfold State.jebResume
  simp
@[simp] theorem State.jebResume_pur (q : Fin 18) (h : Header) : (s.jebResume q h).pur = s.pur := by
  unfold State.jebResume
  simp
@[simp] theorem State.jebResume_eav (q : Fin 18) (h : Header) : (s.jebResume q h).eav = s.eav := by
  unfold State.jebResume
  simp
@[simp] theorem State.jebResume_gab (q : Fin 18) (h : Header) : (s.jebResume q h).gab = s.gab := by
  unfold State.jebResume
  simp
@[simp] theorem State.jebResume_trs (q : Fin 18) (h : Header) : (s.jebResume q h).trs = s.trs := by
  unfold State.jebResume
  simp
@[simp] theorem State.jebResume_sec (q : Fin 18) (h : Header) : (s.jebResume q h).sec = s.sec := by
  unfold State.jebResume
  simp
@[simp] theorem State.jebResume_gut (q : Fin 18) (h : Header) : (s.jebResume q h).gut = s.gut := by
  unfold State.jebResume
  simp
@[simp] theorem State.jebResume_gau (q : Fin 18) (h : Header) : (s.jebResume q h).gau = s.gau := by
  unfold State.jebResume
  simp
@[simp] theorem State.jebResume_pwr (q : Fin 18) (h : Header) : (s.jebResume q h).pwr = s.pwr := by
  unfold State.jebResume
  simp
@[simp] theorem State.jebResume_sof (q : Fin 18) (h : Header) : (s.jebResume q h).sof = s.sof := by
  unfold State.jebResume
  simp
@[simp] theorem State.jebResume_pins (q : Fin 18) (h : Header) : (s.jebResume q h).pins = s.pins := by
  unfold State.jebResume
  simp
@[simp] theorem State.jebResume_latches (q : Fin 18) (h : Header) : (s.jebResume q h).latches = s.latches := by
  unfold State.jebResume
  simp
@[simp] theorem State.jebResume_outputs (q : Fin 18) (h : Header) : (s.jebResume q h).outputs = s.outputs := by
  unfold State.jebResume
  simp
@[simp] theorem State.jebResume_fresh (q : Fin 18) (h : Header) : (s.jebResume q h).fresh = s.fresh := by
  unfold State.jebResume
  simp
@[simp] theorem State.jebResume_pending (q : Fin 18) (h : Header) : (s.jebResume q h).pending = s.pending := by
  unfold State.jebResume
  simp
/-! ### State.descFault -/

@[simp] theorem State.descFault_ports (d : SendDesc) (cls : Nat) (f : FaultInfo) : (s.descFault d cls f).ports = s.ports := by
  unfold State.descFault
  simp
@[simp] theorem State.descFault_tim (d : SendDesc) (cls : Nat) (f : FaultInfo) : (s.descFault d cls f).tim = s.tim := by
  unfold State.descFault
  simp
@[simp] theorem State.descFault_pur (d : SendDesc) (cls : Nat) (f : FaultInfo) : (s.descFault d cls f).pur = s.pur := by
  unfold State.descFault
  simp
@[simp] theorem State.descFault_eav (d : SendDesc) (cls : Nat) (f : FaultInfo) : (s.descFault d cls f).eav = s.eav := by
  unfold State.descFault
  simp
@[simp] theorem State.descFault_gab (d : SendDesc) (cls : Nat) (f : FaultInfo) : (s.descFault d cls f).gab = s.gab := by
  unfold State.descFault
  simp
@[simp] theorem State.descFault_trs (d : SendDesc) (cls : Nat) (f : FaultInfo) : (s.descFault d cls f).trs = s.trs := by
  unfold State.descFault
  simp
@[simp] theorem State.descFault_sec (d : SendDesc) (cls : Nat) (f : FaultInfo) : (s.descFault d cls f).sec = s.sec := by
  unfold State.descFault
  simp
@[simp] theorem State.descFault_gut (d : SendDesc) (cls : Nat) (f : FaultInfo) : (s.descFault d cls f).gut = s.gut := by
  unfold State.descFault
  simp
@[simp] theorem State.descFault_gau (d : SendDesc) (cls : Nat) (f : FaultInfo) : (s.descFault d cls f).gau = s.gau := by
  unfold State.descFault
  simp
@[simp] theorem State.descFault_pwr (d : SendDesc) (cls : Nat) (f : FaultInfo) : (s.descFault d cls f).pwr = s.pwr := by
  unfold State.descFault
  simp
@[simp] theorem State.descFault_sof (d : SendDesc) (cls : Nat) (f : FaultInfo) : (s.descFault d cls f).sof = s.sof := by
  unfold State.descFault
  simp
@[simp] theorem State.descFault_pins (d : SendDesc) (cls : Nat) (f : FaultInfo) : (s.descFault d cls f).pins = s.pins := by
  unfold State.descFault
  simp
@[simp] theorem State.descFault_latches (d : SendDesc) (cls : Nat) (f : FaultInfo) : (s.descFault d cls f).latches = s.latches := by
  unfold State.descFault
  simp
@[simp] theorem State.descFault_outputs (d : SendDesc) (cls : Nat) (f : FaultInfo) : (s.descFault d cls f).outputs = s.outputs := by
  unfold State.descFault
  simp
@[simp] theorem State.descFault_pending (d : SendDesc) (cls : Nat) (f : FaultInfo) : (s.descFault d cls f).pending = s.pending := by
  unfold State.descFault
  simp
/-! ### State.sendReport -/

@[simp] theorem State.sendReport_tim  : (s.sendReport).tim = s.tim := by
  unfold State.sendReport
  (repeat' split)
  all_goals (simp)
@[simp] theorem State.sendReport_pur  : (s.sendReport).pur = s.pur := by
  unfold State.sendReport
  (repeat' split)
  all_goals (simp)
@[simp] theorem State.sendReport_eav  : (s.sendReport).eav = s.eav := by
  unfold State.sendReport
  (repeat' split)
  all_goals (simp)
@[simp] theorem State.sendReport_gab  : (s.sendReport).gab = s.gab := by
  unfold State.sendReport
  (repeat' split)
  all_goals (simp)
@[simp] theorem State.sendReport_trs  : (s.sendReport).trs = s.trs := by
  unfold State.sendReport
  (repeat' split)
  all_goals (simp)
@[simp] theorem State.sendReport_sec  : (s.sendReport).sec = s.sec := by
  unfold State.sendReport
  (repeat' split)
  all_goals (simp)
@[simp] theorem State.sendReport_gut  : (s.sendReport).gut = s.gut := by
  unfold State.sendReport
  (repeat' split)
  all_goals (simp)
@[simp] theorem State.sendReport_gau  : (s.sendReport).gau = s.gau := by
  unfold State.sendReport
  (repeat' split)
  all_goals (simp)
@[simp] theorem State.sendReport_pwr  : (s.sendReport).pwr = s.pwr := by
  unfold State.sendReport
  (repeat' split)
  all_goals (simp)
@[simp] theorem State.sendReport_sof  : (s.sendReport).sof = s.sof := by
  unfold State.sendReport
  (repeat' split)
  all_goals (simp)
@[simp] theorem State.sendReport_pins  : (s.sendReport).pins = s.pins := by
  unfold State.sendReport
  (repeat' split)
  all_goals (simp)
@[simp] theorem State.sendReport_latches  : (s.sendReport).latches = s.latches := by
  unfold State.sendReport
  (repeat' split)
  all_goals (simp)
@[simp] theorem State.sendReport_outputs  : (s.sendReport).outputs = s.outputs := by
  unfold State.sendReport
  (repeat' split)
  all_goals (simp)
@[simp] theorem State.sendReport_pending  : (s.sendReport).pending = s.pending := by
  unfold State.sendReport
  (repeat' split)
  all_goals (simp)
/-! ### State.clearGenErr -/

@[simp] theorem State.clearGenErr_ports  : (s.clearGenErr).ports = s.ports := by
  unfold State.clearGenErr
  (repeat' split)
  all_goals (simp)
@[simp] theorem State.clearGenErr_tim  : (s.clearGenErr).tim = s.tim := by
  unfold State.clearGenErr
  (repeat' split)
  all_goals (simp)
@[simp] theorem State.clearGenErr_pur  : (s.clearGenErr).pur = s.pur := by
  unfold State.clearGenErr
  (repeat' split)
  all_goals (simp)
@[simp] theorem State.clearGenErr_eav  : (s.clearGenErr).eav = s.eav := by
  unfold State.clearGenErr
  (repeat' split)
  all_goals (simp)
@[simp] theorem State.clearGenErr_gab  : (s.clearGenErr).gab = s.gab := by
  unfold State.clearGenErr
  (repeat' split)
  all_goals (simp)
@[simp] theorem State.clearGenErr_trs  : (s.clearGenErr).trs = s.trs := by
  unfold State.clearGenErr
  (repeat' split)
  all_goals (simp)
@[simp] theorem State.clearGenErr_sec  : (s.clearGenErr).sec = s.sec := by
  unfold State.clearGenErr
  (repeat' split)
  all_goals (simp)
@[simp] theorem State.clearGenErr_gut  : (s.clearGenErr).gut = s.gut := by
  unfold State.clearGenErr
  (repeat' split)
  all_goals (simp)
@[simp] theorem State.clearGenErr_gau  : (s.clearGenErr).gau = s.gau := by
  unfold State.clearGenErr
  (repeat' split)
  all_goals (simp)
@[simp] theorem State.clearGenErr_pwr  : (s.clearGenErr).pwr = s.pwr := by
  unfold State.clearGenErr
  (repeat' split)
  all_goals (simp)
@[simp] theorem State.clearGenErr_sof  : (s.clearGenErr).sof = s.sof := by
  unfold State.clearGenErr
  (repeat' split)
  all_goals (simp)
@[simp] theorem State.clearGenErr_pins  : (s.clearGenErr).pins = s.pins := by
  unfold State.clearGenErr
  (repeat' split)
  all_goals (simp)
@[simp] theorem State.clearGenErr_latches  : (s.clearGenErr).latches = s.latches := by
  unfold State.clearGenErr
  (repeat' split)
  all_goals (simp)
@[simp] theorem State.clearGenErr_outputs  : (s.clearGenErr).outputs = s.outputs := by
  unfold State.clearGenErr
  (repeat' split)
  all_goals (simp)
@[simp] theorem State.clearGenErr_fresh  : (s.clearGenErr).fresh = s.fresh := by
  unfold State.clearGenErr
  (repeat' split)
  all_goals (simp)
@[simp] theorem State.clearGenErr_pending  : (s.clearGenErr).pending = s.pending := by
  unfold State.clearGenErr
  (repeat' split)
  all_goals (simp)

/-! ### The part that goes next (R92) -/

/-- The part that goes next is one of the transfer's, on its own path, in a bucket that drains nothing. -/
theorem State.nextPart_some (x : Xfer) (p : Spec) (path : Path) (l : List Spec) (passed : List (Nat × Nat)) (h : s.nextPart x passed l = some (p, path)) :
    p ∈ l ∧ s.pathOf x p = some path ∧ ∀ b, path.bucket = some b → b ∉ s.jeb.moved := by
  induction l generalizing passed with
  | nil => simp [State.nextPart] at h
  | cons q l ih =>
    unfold State.nextPart at h
    split at h
    · simp at h
    · rename_i w hw
      split at h
      · rename_i c
        simp only [Option.some.injEq, Prod.mk.injEq] at h
        obtain ⟨rfl, rfl⟩ := h
        exact ⟨by simp, hw, fun b hb => by simpa [hb] using c.1⟩
      · obtain ⟨a, b⟩ := ih _ h
        exact ⟨by simp [a], b⟩

/-- With no bucket draining a transfer's parts go in order. -/
theorem State.nextPart_head (x : Xfer) (p : Spec) (l : List Spec) (h : s.jeb.moved = []) :
    s.nextPart x [] (p :: l) = (s.pathOf x p).map fun path => (p, path) := by
  unfold State.nextPart
  cases s.pathOf x p with
  | none => rfl
  | some path => cases path.bucket <;> simp [h, meetExtents]

end Sys2Proof.Machine
end

