-- ==== Sys2Proof/WellFormed.lean ====
section
/-! DEFINITION. The checks on a command's operands: sizes that the spec fixes and the types do not. The meanings are
total; what is ill-formed names no thing of the block. -/

namespace Sys2Proof

/-- A frame's data fits its header's LEN, at most eight (R58). -/
def Frame.wf (f : Frame) : Bool := decide (f.data.length = f.hdr.len.toNat) && decide (f.data.length ≤ 8)

/-- A raw frame carries at most eight data shingles (R58). -/
def RawFrame.wf (f : RawFrame) : Bool := decide (f.data.length ≤ 8)

/-- A register access is aligned to its width (R8). -/
def addrOk (addr : W32) (wide : Bool) : Bool := decide (addr.toNat % (if wide then 8 else 4) = 0)

/-- Operands of a home command. -/
def HomeSel.wf : HomeSel → Bool
  | .eave _ _ => true
  | .jalem _ f => f.wf

def BattenSel.wf : BattenSel → Bool
  | .group _ => true
  | .jalem _ f => f.wf

/-- Whether a command's operands have the sizes the spec fixes. -/
def Instr.wf : Instr → Bool
  | .registerWrite _ _ a wide _ => addrOk a wide
  | .rcRead _ _ a wide => addrOk a wide
  | .lowerHalfWrite _ _ a _ => addrOk a true
  | .lowerHalfRead _ _ a => addrOk a true
  | .upperHalfWrite _ _ a _ => decide (a.toNat % 8 = 4)
  | .upperHalfRead _ _ a => decide (a.toNat % 8 = 4)
  | .lathReceive _ l => decide (l.length = 612)
  | .credit _ l => decide (l.length = 12)
  | .initialCreditGrant _ l => decide (l.length = 12)
  | .frameRouting _ f => f.wf
  | .load h => h.wf
  | .store h => h.wf
  | .atomic h => h.wf
  | .fadd h => h.wf
  | .widenLoad h => h.wf
  | .put h => h.wf
  | .get h => h.wf
  | .batten h => h.wf
  | .battenCont h => h.wf
  | .responseArrival _ f => f.wf
  | .seg _ f => f.wf
  | .signal _ f => f.wf
  | .jebTeardown _ f => f.wf
  | .teardownResume _ f => f.wf
  | .keyInstall _ f => f.wf
  | .keyActivate _ f => f.wf
  | .keyRetire _ f => f.wf
  | .keyDestroy _ f => f.wf
  | .keyAck _ f => f.wf
  | .ctrlWr _ _ f => f.wf
  | .ctrlRd _ _ f => f.wf
  | .test _ f => f.wf
  | .testEcho _ f => f.wf
  | .teardownStop _ f => f.wf
  | .windowTableWrite _ _ _ r _ => decide (r.toNat ≤ 4)
  | .jebInvTail _ l => l.all fun r => decide (r.words.length ≤ 4)
  -- the operands of the other commands have the sizes that their types give
  | .epochMark .. | .refclkLost .. | .refclkReturn .. | .freeRun .. | .stampExchange .. | .stampReq .. | .stampRsp .. | .nak ..
  | .arbitration .. | .retrain .. | .retrainRelock .. | .retrainTimeout .. | .partnerDetected .. | .equaliseDone .. | .equaliseTimeout ..
  | .lockDone .. | .lockTimeout .. | .identityRecord .. | .negotiate .. | .partnerIdle .. | .prtCtrlRestart .. | .bundleResponse
  | .valleyAudit .. | .purLrtShadow .. | .purEpochAt .. | .routeEpoch .. | .purNodeLostSet .. | .faddLedger .. | .battenAccept ..
  | .listIncomplete .. | .stackTrainingLost .. | .homeQueueStopped .. | .patrolScrub .. | .define .. | .sealRegion .. | .reopen ..
  | .silver .. | .advance .. | .declareLost .. | .dissolve .. | .digestDone .. | .transfer .. | .fence .. | .transferIssue .. | .copy ..
  | .invalVa | .invalCtx | .invalAll | .gen | .genComplete | .jebGenErr | .jebFltResume .. | .jebFltHead .. | .jebEpochAt ..
  | .jebRouteEpoch .. | .movedBucketUndrained .. | .movedBucketFatal .. | .sendArm .. | .sendGo .. | .send .. | .tdispError | .jebReset
  | .keyAckTimeout | .activateRetry .. | .relayRequest | .relayResponse | .gutJebReport | .admitBay | .hipAdmissionCheck .. | .measure
  | .release | .destroyTimeout .. | .zeroizationComplete | .secWeight .. | .bayKeys .. | .rotate .. | .weightKey .. | .weightDestroy ..
  | .signedMeasurements .. | .sourceWindowClose .. | .gutTdCtlStop .. | .stopAckTimeout .. | .quiescent | .gutTdCtlRestart ..
  | .resumeAcknowledged | .gutTdCtlUnhold .. | .gutFencePort .. | .gutFatalValid .. | .gutCapStatusClear .. | .jalemPoll ..
  | .marginMeasurement .. | .contrib | .stalled .. | .gableAbandon .. | .slotFree | .start | .runStart .. | .stepInstr .. | .segment ..
  | .slotGrant .. | .signalInstruction .. | .reduce .. | .sendInstruction .. | .wait .. | .raise | .relay | .ready | .trsProgDirValid ..
  | .trsCommCtlValid .. | .gaugeBeatItem .. | .channelLost .. | .interval .. | .powerLoss | .powerUp .. | .tamper | .logRead ..
  | .certRead | .governorInterval .. | .pwrCap .. | .rcLost .. | .brakeAssert .. | .brakeRelease .. | .vinRange .. | .inputLoss ..
  | .inletHigh .. | .throttle .. | .pumpLost .. | .orderlyShutdown .. | .pwrEnHigh .. | .pwrEnLow | .resetNLow .. | .moduleStart ..
  | .watchdog .. | .trialTimeout | .sofFwCtlCommit .. | .sofFwCtlAdvance .. | .firmwareUpdate .. | .configurationUpdate .. | .prbs31 ..
  | .prbs13q .. | .patternOff .. | .genEn .. | .tdispStateChange .. | .stackRetraining .. | .stackRetrained .. | .secureSessionOpen ..
  | .secureSessionEnd .. | .alertResponseAddress | .qspiServiceAccess .. => true

end Sys2Proof
end

