-- ==== Sys2Proof/Laws/PerInstr.lean ====
section
/-! SUPPORT. What a well-formed command guarantees, a lemma per command: a register access is aligned to its width (R8), and a frame
holds the data that its LEN says, eight shingles at most (R58). -/

namespace Sys2Proof.Laws.Addressed

open Sys2Proof

/-- The address and the width, in bytes, of a command that accesses a register. -/
def access : Instr → Option (W32 × Nat)
  | .registerWrite _ _ a wide _ => some (a, if wide then 8 else 4)
  | .rcRead _ _ a wide => some (a, if wide then 8 else 4)
  | .lowerHalfWrite _ _ a _ => some (a, 8)
  | .lowerHalfRead _ _ a => some (a, 8)
  | .upperHalfWrite _ _ a _ => some (a, 4)
  | .upperHalfRead _ _ a => some (a, 4)
  | _ => none

/-- The frame that a command carries. -/
def frame : Instr → Option Frame
  | .load (.jalem _ f) => some f
  | .store (.jalem _ f) => some f
  | .atomic (.jalem _ f) => some f
  | .fadd (.jalem _ f) => some f
  | .widenLoad (.jalem _ f) => some f
  | .put (.jalem _ f) => some f
  | .get (.jalem _ f) => some f
  | .batten (.jalem _ f) => some f
  | .battenCont (.jalem _ f) => some f
  | .responseArrival _ f => some f
  | .seg _ f => some f
  | .signal _ f => some f
  | .jebTeardown _ f => some f
  | .teardownResume _ f => some f
  | .keyInstall _ f => some f
  | .keyActivate _ f => some f
  | .keyRetire _ f => some f
  | .keyDestroy _ f => some f
  | .keyAck _ f => some f
  | .ctrlWr _ _ f => some f
  | .ctrlRd _ _ f => some f
  | .test _ f => some f
  | .testEcho _ f => some f
  | .teardownStop _ f => some f
  | _ => none

/-- What well-formedness gives of a command. -/
def Statement (i : Instr) : Prop :=
  i.wf = true →
    (∀ a n, access i = some (a, n) → a.toNat % n = 0) ∧
    ∀ f, frame i = some f → f.data.length = f.hdr.len.toNat ∧ f.data.length ≤ 8

theorem frame_wf {f : Frame} (h : f.wf = true) : f.data.length = f.hdr.len.toNat ∧ f.data.length ≤ 8 := by
  simpa [Frame.wf] using h

/-- A command without register access and frame. -/
theorem plain {i : Instr} (ha : access i = none) (hf : frame i = none) : Statement i :=
  fun _ => ⟨fun _ _ h => (nomatch ha.symm.trans h), fun _ h => nomatch hf.symm.trans h⟩

/-- A command that carries a frame. -/
theorem carries {i : Instr} {f : Frame} (ha : access i = none) (hf : frame i = some f) (hw : i.wf = f.wf) : Statement i :=
  fun w => ⟨fun _ _ h => (nomatch ha.symm.trans h), fun _ h => Option.some.inj (hf.symm.trans h) ▸ frame_wf (hw ▸ w)⟩

theorem registerWrite (who : Requester) (dev : Dev) (addr : W32) (wide : Bool) (value : W64) : Statement (.registerWrite who dev addr wide value) := by
  intro w
  refine ⟨fun a n h => ?_, fun f h => by cases h⟩
  simp only [access, Option.some.injEq, Prod.mk.injEq] at h
  obtain ⟨rfl, rfl⟩ := h
  simpa [Instr.wf, addrOk] using w
theorem rcRead (who : Requester) (dev : Dev) (addr : W32) (wide : Bool) : Statement (.rcRead who dev addr wide) := by
  intro w
  refine ⟨fun a n h => ?_, fun f h => by cases h⟩
  simp only [access, Option.some.injEq, Prod.mk.injEq] at h
  obtain ⟨rfl, rfl⟩ := h
  simpa [Instr.wf, addrOk] using w
theorem lowerHalfWrite (who : Requester) (dev : Dev) (addr : W32) (value : W32) : Statement (.lowerHalfWrite who dev addr value) := by
  intro w
  refine ⟨fun a n h => ?_, fun f h => by cases h⟩
  simp only [access, Option.some.injEq, Prod.mk.injEq] at h
  obtain ⟨rfl, rfl⟩ := h
  simpa [Instr.wf, addrOk] using w
theorem upperHalfWrite (who : Requester) (dev : Dev) (addr : W32) (value : W32) : Statement (.upperHalfWrite who dev addr value) := by
  intro w
  refine ⟨fun a n h => ?_, fun f h => by cases h⟩
  simp only [access, Option.some.injEq, Prod.mk.injEq] at h
  obtain ⟨rfl, rfl⟩ := h
  simp only [Instr.wf, decide_eq_true_eq] at w
  omega
theorem lowerHalfRead (who : Requester) (dev : Dev) (addr : W32) : Statement (.lowerHalfRead who dev addr) := by
  intro w
  refine ⟨fun a n h => ?_, fun f h => by cases h⟩
  simp only [access, Option.some.injEq, Prod.mk.injEq] at h
  obtain ⟨rfl, rfl⟩ := h
  simpa [Instr.wf, addrOk] using w
theorem upperHalfRead (who : Requester) (dev : Dev) (addr : W32) : Statement (.upperHalfRead who dev addr) := by
  intro w
  refine ⟨fun a n h => ?_, fun f h => by cases h⟩
  simp only [access, Option.some.injEq, Prod.mk.injEq] at h
  obtain ⟨rfl, rfl⟩ := h
  simp only [Instr.wf, decide_eq_true_eq] at w
  omega
theorem epochMark (dev : Dev) (cycles : W32) : Statement (.epochMark dev cycles) := plain rfl rfl
theorem refclkLost (dev : Dev) : Statement (.refclkLost dev) := plain rfl rfl
theorem refclkReturn (dev : Dev) : Statement (.refclkReturn dev) := plain rfl rfl
theorem freeRun (dev : Dev) (cycles : W32) : Statement (.freeRun dev cycles) := plain rfl rfl
theorem stampExchange (k : Fin 12) (beat : W64) : Statement (.stampExchange k beat) := plain rfl rfl
theorem stampReq (p : PortRef) (t1 : W64) (replayed : Bool) (sealFailed : Bool) : Statement (.stampReq p t1 replayed sealFailed) := plain rfl rfl
theorem stampRsp (p : PortRef) (t2 : W64) (t1 : W64) (t3 : W64) (replayed : Bool) (sealFailed : Bool) : Statement (.stampRsp p t2 t1 t3 replayed sealFailed) := plain rfl rfl
theorem lathReceive (p : PortRef) (bytes : List Byte) : Statement (.lathReceive p bytes) := plain rfl rfl
theorem nak (p : PortRef) (ack : BitVec 12) : Statement (.nak p ack) := plain rfl rfl
theorem arbitration (p : PortRef) : Statement (.arbitration p) := plain rfl rfl
theorem credit (p : PortRef) (counts : List W16) : Statement (.credit p counts) := plain rfl rfl
theorem retrain (p : PortRef) (cause : RetrainCause) : Statement (.retrain p cause) := plain rfl rfl
theorem retrainRelock (p : PortRef) (ident : Identity) : Statement (.retrainRelock p ident) := plain rfl rfl
theorem retrainTimeout (p : PortRef) : Statement (.retrainTimeout p) := plain rfl rfl
theorem partnerDetected (p : PortRef) : Statement (.partnerDetected p) := plain rfl rfl
theorem equaliseDone (p : PortRef) : Statement (.equaliseDone p) := plain rfl rfl
theorem equaliseTimeout (p : PortRef) : Statement (.equaliseTimeout p) := plain rfl rfl
theorem lockDone (p : PortRef) : Statement (.lockDone p) := plain rfl rfl
theorem lockTimeout (p : PortRef) : Statement (.lockTimeout p) := plain rfl rfl
theorem identityRecord (p : PortRef) (ident : Identity) : Statement (.identityRecord p ident) := plain rfl rfl
theorem negotiate (p : PortRef) (rev : Option (BitVec 2)) (feats : W16) : Statement (.negotiate p rev feats) := plain rfl rfl
theorem initialCreditGrant (p : PortRef) (grants : List W16) : Statement (.initialCreditGrant p grants) := plain rfl rfl
theorem partnerIdle (p : PortRef) : Statement (.partnerIdle p) := plain rfl rfl
theorem prtCtrlRestart (p : PortRef) : Statement (.prtCtrlRestart p) := plain rfl rfl
theorem frameRouting (p : Fin 144) (raw : RawFrame) : Statement (.frameRouting p raw) := plain rfl rfl
theorem bundleResponse : Statement .bundleResponse := plain rfl rfl
theorem valleyAudit (beat : W64) : Statement (.valleyAudit beat) := plain rfl rfl
theorem purLrtShadow (who : Requester) (n : Byte) (value : W32) : Statement (.purLrtShadow who n value) := plain rfl rfl
theorem purEpochAt (who : Requester) (value : W64) : Statement (.purEpochAt who value) := plain rfl rfl
theorem routeEpoch (beat : W64) : Statement (.routeEpoch beat) := plain rfl rfl
theorem purNodeLostSet (who : Requester) (value : W32) : Statement (.purNodeLostSet who value) := plain rfl rfl
theorem load (h : HomeSel) : Statement (.load h) := by
  cases h with
  | eave n i => exact plain rfl rfl
  | jalem p f => exact carries rfl rfl rfl
theorem store (h : HomeSel) : Statement (.store h) := by
  cases h with
  | eave n i => exact plain rfl rfl
  | jalem p f => exact carries rfl rfl rfl
theorem atomic (h : HomeSel) : Statement (.atomic h) := by
  cases h with
  | eave n i => exact plain rfl rfl
  | jalem p f => exact carries rfl rfl rfl
theorem fadd (h : HomeSel) : Statement (.fadd h) := by
  cases h with
  | eave n i => exact plain rfl rfl
  | jalem p f => exact carries rfl rfl rfl
theorem faddLedger (n : Fin 32) (i : Nat) : Statement (.faddLedger n i) := plain rfl rfl
theorem widenLoad (h : HomeSel) : Statement (.widenLoad h) := by
  cases h with
  | eave n i => exact plain rfl rfl
  | jalem p f => exact carries rfl rfl rfl
theorem put (h : HomeSel) : Statement (.put h) := by
  cases h with
  | eave n i => exact plain rfl rfl
  | jalem p f => exact carries rfl rfl rfl
theorem get (h : HomeSel) : Statement (.get h) := by
  cases h with
  | eave n i => exact plain rfl rfl
  | jalem p f => exact carries rfl rfl rfl
theorem batten (h : BattenSel) : Statement (.batten h) := by
  cases h with
  | group g => exact plain rfl rfl
  | jalem p f => exact carries rfl rfl rfl
theorem battenAccept (g : Fin 4) : Statement (.battenAccept g) := plain rfl rfl
theorem battenCont (h : BattenSel) : Statement (.battenCont h) := by
  cases h with
  | group g => exact plain rfl rfl
  | jalem p f => exact carries rfl rfl rfl
theorem listIncomplete (l : ListSel) (beat : W64) : Statement (.listIncomplete l beat) := plain rfl rfl
theorem stackTrainingLost (n : Fin 32) : Statement (.stackTrainingLost n) := plain rfl rfl
theorem homeQueueStopped (n : Fin 32) (beat : W64) : Statement (.homeQueueStopped n beat) := plain rfl rfl
theorem patrolScrub (n : Fin 32) (err : Shingle) (stackCorr : W16) : Statement (.patrolScrub n err stackCorr) := plain rfl rfl
theorem define (k : Fin 16) : Statement (.define k) := plain rfl rfl
theorem sealRegion (k : Fin 16) : Statement (.sealRegion k) := plain rfl rfl
theorem reopen (k : Fin 16) : Statement (.reopen k) := plain rfl rfl
theorem silver (k : Fin 16) : Statement (.silver k) := plain rfl rfl
theorem advance (k : Fin 16) : Statement (.advance k) := plain rfl rfl
theorem declareLost (k : Fin 16) : Statement (.declareLost k) := plain rfl rfl
theorem dissolve (k : Fin 16) : Statement (.dissolve k) := plain rfl rfl
theorem digestDone (k : Fin 16) : Statement (.digestDone k) := plain rfl rfl
theorem transfer (t : Transfer) : Statement (.transfer t) := plain rfl rfl
theorem fence (f : FenceReq) : Statement (.fence f) := plain rfl rfl
theorem transferIssue (engine : Byte) : Statement (.transferIssue engine) := plain rfl rfl
theorem responseArrival (q : PortRef) (f : Frame) : Statement (.responseArrival q f) := carries rfl rfl rfl
theorem jebInvTail (value : W32) (entries : List HostRead) : Statement (.jebInvTail value entries) := plain rfl rfl
theorem copy (data : HostRead) : Statement (.copy data) := plain rfl rfl
theorem invalVa : Statement .invalVa := plain rfl rfl
theorem invalCtx : Statement .invalCtx := plain rfl rfl
theorem invalAll : Statement .invalAll := plain rfl rfl
theorem gen : Statement .gen := plain rfl rfl
theorem genComplete : Statement .genComplete := plain rfl rfl
theorem jebGenErr : Statement .jebGenErr := plain rfl rfl
theorem jebFltResume (task : W16) : Statement (.jebFltResume task) := plain rfl rfl
theorem jebFltHead (value : W32) : Statement (.jebFltHead value) := plain rfl rfl
theorem jebEpochAt (who : Requester) (value : W64) : Statement (.jebEpochAt who value) := plain rfl rfl
theorem jebRouteEpoch (beat : W64) : Statement (.jebRouteEpoch beat) := plain rfl rfl
theorem movedBucketUndrained (beat : W64) : Statement (.movedBucketUndrained beat) := plain rfl rfl
theorem movedBucketFatal (beat : W64) : Statement (.movedBucketFatal beat) := plain rfl rfl
theorem seg (p : PortRef) (f : Frame) : Statement (.seg p f) := carries rfl rfl rfl
theorem signal (p : PortRef) (f : Frame) : Statement (.signal p f) := carries rfl rfl rfl
theorem sendArm (n : BitVec 10) (value : W64) : Statement (.sendArm n value) := plain rfl rfl
theorem sendGo (n : BitVec 10) : Statement (.sendGo n) := plain rfl rfl
theorem send (n : BitVec 10) : Statement (.send n) := plain rfl rfl
theorem tdispError : Statement .tdispError := plain rfl rfl
theorem jebReset : Statement .jebReset := plain rfl rfl
theorem jebTeardown (p : PortRef) (f : Frame) : Statement (.jebTeardown p f) := carries rfl rfl rfl
theorem teardownResume (p : PortRef) (f : Frame) : Statement (.teardownResume p f) := carries rfl rfl rfl
theorem keyInstall (p : PortRef) (f : Frame) : Statement (.keyInstall p f) := carries rfl rfl rfl
theorem keyActivate (p : PortRef) (f : Frame) : Statement (.keyActivate p f) := carries rfl rfl rfl
theorem keyRetire (p : PortRef) (f : Frame) : Statement (.keyRetire p f) := carries rfl rfl rfl
theorem keyDestroy (p : PortRef) (f : Frame) : Statement (.keyDestroy p f) := carries rfl rfl rfl
theorem keyAck (p : PortRef) (f : Frame) : Statement (.keyAck p f) := carries rfl rfl rfl
theorem keyAckTimeout : Statement .keyAckTimeout := plain rfl rfl
theorem activateRetry (slot : BitVec 2) : Statement (.activateRetry slot) := plain rfl rfl
theorem ctrlWr (h : Dev) (p : PortRef) (f : Frame) : Statement (.ctrlWr h p f) := carries rfl rfl rfl
theorem ctrlRd (h : Dev) (p : PortRef) (f : Frame) : Statement (.ctrlRd h p f) := carries rfl rfl rfl
theorem relayRequest : Statement .relayRequest := plain rfl rfl
theorem relayResponse : Statement .relayResponse := plain rfl rfl
theorem gutJebReport : Statement .gutJebReport := plain rfl rfl
theorem test (p : PortRef) (f : Frame) : Statement (.test p f) := carries rfl rfl rfl
theorem testEcho (p : PortRef) (f : Frame) : Statement (.testEcho p f) := carries rfl rfl rfl
theorem admitBay : Statement .admitBay := plain rfl rfl
theorem hipAdmissionCheck (expired : Bool) : Statement (.hipAdmissionCheck expired) := plain rfl rfl
theorem measure : Statement .measure := plain rfl rfl
theorem release : Statement .release := plain rfl rfl
theorem destroyTimeout (n : Fin 144) : Statement (.destroyTimeout n) := plain rfl rfl
theorem zeroizationComplete : Statement .zeroizationComplete := plain rfl rfl
theorem secWeight (k : Fin 16) (value : W64) : Statement (.secWeight k value) := plain rfl rfl
theorem bayKeys (requester : Nat) (r : KeyReq) : Statement (.bayKeys requester r) := plain rfl rfl
theorem rotate (requester : Nat) (r : KeyReq) : Statement (.rotate requester r) := plain rfl rfl
theorem weightKey (requester : Nat) (slot : Byte) (zero : BitVec 24) (key : BitVec 256) : Statement (.weightKey requester slot zero key) := plain rfl rfl
theorem weightDestroy (requester : Nat) (slot : Byte) : Statement (.weightDestroy requester slot) := plain rfl rfl
theorem signedMeasurements (nonce : BitVec 256) (indices : List Nat) : Statement (.signedMeasurements nonce indices) := plain rfl rfl
theorem sourceWindowClose (n : Fin 23) (beat : W64) : Statement (.sourceWindowClose n beat) := plain rfl rfl
theorem gutTdCtlStop (who : Requester) : Statement (.gutTdCtlStop who) := plain rfl rfl
theorem teardownStop (n : Fin 144) (f : Frame) : Statement (.teardownStop n f) := carries rfl rfl rfl
theorem stopAckTimeout (n : Fin 144) : Statement (.stopAckTimeout n) := plain rfl rfl
theorem quiescent : Statement .quiescent := plain rfl rfl
theorem gutTdCtlRestart (who : Requester) : Statement (.gutTdCtlRestart who) := plain rfl rfl
theorem resumeAcknowledged : Statement .resumeAcknowledged := plain rfl rfl
theorem gutTdCtlUnhold (who : Requester) : Statement (.gutTdCtlUnhold who) := plain rfl rfl
theorem gutFencePort (who : Requester) (w : Fin 3) (value : W64) : Statement (.gutFencePort who w value) := plain rfl rfl
theorem gutFatalValid (who : Requester) : Statement (.gutFatalValid who) := plain rfl rfl
theorem gutCapStatusClear (who : Requester) : Statement (.gutCapStatusClear who) := plain rfl rfl
theorem jalemPoll (beat : W64) (order : List (Fin 144)) : Statement (.jalemPoll beat order) := plain rfl rfl
theorem marginMeasurement (o : MarginObj) (m : MarginMeas) (beat : W64) : Statement (.marginMeasurement o m beat) := plain rfl rfl
theorem contrib : Statement .contrib := plain rfl rfl
theorem stalled (slot : Byte) (chunk : BitVec 10) (lo : Byte) (hi : Byte) : Statement (.stalled slot chunk lo hi) := plain rfl rfl
theorem gableAbandon (slot : Byte) (beat : W64) : Statement (.gableAbandon slot beat) := plain rfl rfl
theorem slotFree : Statement .slotFree := plain rfl rfl
theorem start : Statement .start := plain rfl rfl
theorem runStart (comm : BitVec 6) (beat : W64) : Statement (.runStart comm beat) := plain rfl rfl
theorem stepInstr (ctx : BitVec 9) (beat : W64) : Statement (.stepInstr ctx beat) := plain rfl rfl
theorem segment (ctx : BitVec 9) : Statement (.segment ctx) := plain rfl rfl
theorem slotGrant (slot : Byte) : Statement (.slotGrant slot) := plain rfl rfl
theorem signalInstruction (ctx : BitVec 9) : Statement (.signalInstruction ctx) := plain rfl rfl
theorem reduce (ctx : BitVec 9) : Statement (.reduce ctx) := plain rfl rfl
theorem sendInstruction (ctx : BitVec 9) : Statement (.sendInstruction ctx) := plain rfl rfl
theorem wait (ctx : BitVec 9) : Statement (.wait ctx) := plain rfl rfl
theorem raise : Statement .raise := plain rfl rfl
theorem relay : Statement .relay := plain rfl rfl
theorem ready : Statement .ready := plain rfl rfl
theorem trsProgDirValid (who : Requester) (n : BitVec 4) (value : W64) : Statement (.trsProgDirValid who n value) := plain rfl rfl
theorem trsCommCtlValid (who : Requester) (n : BitVec 6) (value : W64) : Statement (.trsCommCtlValid who n value) := plain rfl rfl
theorem windowTableWrite (dev : Dev) (who : Requester) (n : Byte) (reg : BitVec 3) (value : W64) : Statement (.windowTableWrite dev who n reg value) := plain rfl rfl
theorem gaugeBeatItem (beat : W64) (meas : GaugeMeas) : Statement (.gaugeBeatItem beat meas) := plain rfl rfl
theorem channelLost (beat : W64) (meas : GaugeMeas) : Statement (.channelLost beat meas) := plain rfl rfl
theorem interval (beat : W64) (elapsed : W64) (ownClock : Bool) : Statement (.interval beat elapsed ownClock) := plain rfl rfl
theorem powerLoss : Statement .powerLoss := plain rfl rfl
theorem powerUp (beat : W64) : Statement (.powerUp beat) := plain rfl rfl
theorem tamper : Statement .tamper := plain rfl rfl
theorem logRead (first : W64) (count : Byte) : Statement (.logRead first count) := plain rfl rfl
theorem certRead : Statement .certRead := plain rfl rfl
theorem governorInterval (beat : W64) (meas : PwrMeas) : Statement (.governorInterval beat meas) := plain rfl rfl
theorem pwrCap (who : Requester) (value : W32) : Statement (.pwrCap who value) := plain rfl rfl
theorem rcLost (beat : W64) : Statement (.rcLost beat) := plain rfl rfl
theorem brakeAssert (lastBeatPower : W16) : Statement (.brakeAssert lastBeatPower) := plain rfl rfl
theorem brakeRelease (beat : W64) : Statement (.brakeRelease beat) := plain rfl rfl
theorem vinRange (vin : W16) : Statement (.vinRange vin) := plain rfl rfl
theorem inputLoss (vin : W16) : Statement (.inputLoss vin) := plain rfl rfl
theorem inletHigh (m : CoolMeas) : Statement (.inletHigh m) := plain rfl rfl
theorem throttle (m : CoolMeas) : Statement (.throttle m) := plain rfl rfl
theorem pumpLost (m : CoolMeas) : Statement (.pumpLost m) := plain rfl rfl
theorem orderlyShutdown (m : CoolMeas) (pumpTenSeconds : Bool) : Statement (.orderlyShutdown m pumpTenSeconds) := plain rfl rfl
theorem pwrEnHigh : Statement .pwrEnHigh := plain rfl rfl
theorem pwrEnLow : Statement .pwrEnLow := plain rfl rfl
theorem resetNLow (us : Nat) : Statement (.resetNLow us) := plain rfl rfl
theorem moduleStart (coolTj : Byte) (flow : Byte) (slotId : BitVec 4) (stageOk : Bool) : Statement (.moduleStart coolTj flow slotId stageOk) := plain rfl rfl
theorem watchdog (beat : W64) : Statement (.watchdog beat) := plain rfl rfl
theorem trialTimeout : Statement .trialTimeout := plain rfl rfl
theorem sofFwCtlCommit (who : Requester) : Statement (.sofFwCtlCommit who) := plain rfl rfl
theorem sofFwCtlAdvance (who : Requester) : Statement (.sofFwCtlAdvance who) := plain rfl rfl
theorem firmwareUpdate (img : FwImage) (step : UpdateStep) : Statement (.firmwareUpdate img step) := plain rfl rfl
theorem configurationUpdate (img : CfgImage) (step : UpdateStep) : Statement (.configurationUpdate img step) := plain rfl rfl
theorem prbs31 (n : Fin 144) : Statement (.prbs31 n) := plain rfl rfl
theorem prbs13q (n : Fin 144) : Statement (.prbs13q n) := plain rfl rfl
theorem patternOff (n : Fin 144) : Statement (.patternOff n) := plain rfl rfl
theorem genEn (n : Fin 144) : Statement (.genEn n) := plain rfl rfl
theorem tdispStateChange (st : BitVec 2) (ideBound : Bool) : Statement (.tdispStateChange st ideBound) := plain rfl rfl
theorem stackRetraining (n : Fin 32) : Statement (.stackRetraining n) := plain rfl rfl
theorem stackRetrained (n : Fin 32) : Statement (.stackRetrained n) := plain rfl rfl
theorem secureSessionOpen (session : Nat × Byte) : Statement (.secureSessionOpen session) := plain rfl rfl
theorem secureSessionEnd (i : Nat) : Statement (.secureSessionEnd i) := plain rfl rfl
theorem alertResponseAddress : Statement .alertResponseAddress := plain rfl rfl
theorem qspiServiceAccess (access : QspiAccess) : Statement (.qspiServiceAccess access) := plain rfl rfl

end Sys2Proof.Laws.Addressed
end

