-- ==== Sys2Proof/Machine/Soffit.lean ====
section
/-! DEFINITION. What Soffit's interfaces serve beside registers (R338 to R340): who reads the log, and the sensors. The table has no command for
these readings: they stand as functions of the state, which change nothing (log entry 100). -/

namespace Sys2Proof.Machine

open Sys2Proof

/-! ### The log (R338, R339) -/

/-- An entry of the log that has been written and not erased. -/
def State.logAt (s : State) (i : W16) : Option LogEntry :=
  let e := Tab.get LogEntry.reset s.sof.log i.toNat
  if e = LogEntry.reset then none else some e

/-- What a requester reads of a log entry: the management interfaces every one; in band the fabric manager those of kinds 1 and 2 that
concern its bay. -/
def State.logRead (s : State) (who : Requester) (i : W16) : Option LogEntry :=
  if s.mgmt who then s.logAt i
  else if who = .inBand ∧ s.sof.thatchRun ∧ s.admitted then
    (s.logAt i).filter fun e => e.ofBay && (decide (e.kind = 1) || decide (e.kind = 2))
  else none

/-! ### Sensors (R339, R340) -/

/-- The numeric and the state sensors of PLDM type 2. -/
inductive Sensor where
  | vin | power | tj | inlet | outlet | flow | bayState | faultN
deriving DecidableEq, Repr

/-- A sensor's reading: VIN in 0.1 V, power in W, temperatures in °C, flow in 0.1 L/min, the bay state's code, FAULT_N as 1 while it is
driven low. -/
def State.sensor (s : State) : Sensor → Nat
  | .vin => s.pwr.vin.toNat
  | .power => s.pwr.now.toNat
  | .tj => s.pwr.cool.tj.toNat
  | .inlet => s.pwr.cool.inlet.toNat
  | .outlet => s.pwr.cool.outlet.toNat
  | .flow => s.pwr.cool.flow.toNat
  | .bayState => s.sec.state.code
  | .faultN => s.faultLow.toNat

/-- A sensor read through a management interface that the module serves; in Sarking-only operation none is (R346). -/
def State.sensorRead (s : State) (who : Requester) (x : Sensor) : Option Nat := if s.mgmt who then some (s.sensor x) else none

/-- PLDM types served (R340): in Sarking-only operation only types 0 and 5 (R346, R354). -/
def State.pldmTypes (s : State) : List Nat :=
  if s.sof.halted ∨ !s.sof.started then [] else if s.sarkingOnly then [0, 5] else [0, 2, 5]

end Sys2Proof.Machine
end

