-- ==== Sys2Proof/Tests/Slice0.lean ====
section
/-! SUPPORT. Tests: for every obligation with hypotheses, states and operands that meet them (`test_premises_…`); one step of most
commands (`test_<command>`), expected by hand from the rules that its section names; for every check on operands, a command that it
refuses (`test_ill_…`). Each state is named above the tests that use it. -/

set_option maxRecDepth 100000
set_option Elab.async false

namespace Sys2Proof.Tests

open Sys2Proof Sys2Proof.Machine

/-- Whether a command answers a next state of which a check holds. -/
def runs (c : Instr) (s : State) (p : State → Bool) : Bool :=
  match exec c s with
  | .next t => p t
  | .fault _ => false
  | .refused _ => false
/-- The counter of a Gutter source has grown by `k`, saturating. -/
def cnt (s t : State) (src k : Nat) : Bool := decide ((Tab.get Src.zero t.gut.srcs src).total = satAdd (Tab.get Src.zero s.gut.srcs src).total k)
/-- A fatal fault of a code is latched and teardown begins. -/
def torn (t : State) (code : Nat) : Bool := decide (fld t.gut.fatal 0 8 = code ∧ bitAt t.gut.fatal 63 = true ∧ t.gut.phase = .stopping ∧ t.sec.state = .teardown)
/-- Whether an agent takes a frame, in a state of which a check holds. -/
def taken (r : Except State State) (p : State → Bool) : Bool := match r with | .ok u => p u | .error _ => false
/-- Only a port's training has changed, and `n` items have left the block. -/
def otr (p : PortRef) (s t : State) (n : Nat) : Bool :=
  decide (t.port p = { s.port p with train := (t.port p).train } ∧ t.outputs.length = s.outputs.length + n ∧
    { t with outputs := [] } = { s with ports := t.ports, jeb := { s.jeb with ports := t.jeb.ports }, outputs := [] })

/-- Soffit after reset, with an OTP of no owner key: what its maker wrote is given a value. -/
def plainSof : Sof := { Sof.reset with otp := { device := 0, stage := 0, owner := none } }
/-- The machine after reset, at node 0 and with no transport key: what the straps and the accelerator fix is given a value. -/
def plain : State := { State.reset with jeb := { Jeb.reset with node := 0, transport := none }, sof := plainSof }
/-- A port in a training state, all else as after reset. -/
def portIn (p : PortRef) (st : PState) : State :=
    plain.updPort p fun x => { x with train := { x.train with state := st }, laneIdle := false }
/-- A bay in a state, all else as after reset. -/
def bayIn (b : BayState) : State := { plain with sec := { Sec.reset with state := b } }
/-- REFCLK present at the module. -/
def ticking (s : State) : State := { s with tim := { s.tim with refclkOk := true } }
def hdr0 : Header := ⟨0, 0, 0, 0, 0, 0, 0, 0, 0, 0, 0, 0, 0, 0, 0⟩
def p0 : PortRef := .module 0
/-- A port ACTIVE with every feature, sealed, credit granted and tokens at hand. -/
def livePort : Port :=
  { Port.reset with
    train := { Port.reset.train with state := .active, features := 0xFF, width := 3, role := .rafter }, laneIdle := false
    sealing := { Port.reset.sealing with txOn := true, rxOn := true }
    cred := { Port.reset.cred with txGrant := List.replicate 12 64 }
    arb := { Port.reset.arb with sinceLocal := 0, tok0 := 4000, tok4 := 4000 } }
/-- A window over the first 64 KiB that admits every source, with every right. -/
def openWindow : Window := { base := 1, limit := 0, src := 0xFF00FF00, attr := 7, loc := 0 }
/-- A bay that runs, tag 0x55: module ports 0, 1, 2 and 140 and the Jalem block's port to module 0 are sealed; Thatch runs. -/
def bayRun : State :=
  { plain with
    ports := [(0, livePort), (1, livePort), (2, livePort), (140, livePort)]
    tim := { Tim.reset with refclkOk := true, sync := true }
    pur := { Pur.reset with ready := true, lrt := [(0, 0x200), (1, 0x201), (2, 0x202), (0x80, 0x300), (0x90, 0x28C)] }
    eav := { Eav.reset with wins := [(0, openWindow)] }
    gab := { Gab.reset with ready := true }, trs := { Trs.reset with ready := true }
    sec := { Sec.reset with state := .running, tag := 0x55 }
    sof := { plainSof with started := true, thatchRun := true, fmNode := some 0x90, serviceNodes := [(140, 0x90)] }
    pins := { Pins.reset with resetN := true }
    jeb :=
      { Jeb.reset with
        ports := [(0, livePort), (1, livePort)], tag := 0x55, tagged := true, wins := [(0, openWindow)], memSize := 0x10000
        tim := { Tim.reset with refclkOk := true, sync := true }, node := 0, transport := none } }
/-- A request from node 1 with the bay's tag, to offset 0 of a node of the own rack. -/
def reqTo (op : Byte) (course : BitVec 3) (node : Nat) : Header :=
  { hdr0 with opcode := op, course := course, fpa := fpaOf 0xFF node 0, srcNode := 1, bayTag := 0x55 }
/-- An entry of a queue that holds a frame from port 1. -/
def entryOf (f : Frame) : Entry :=
  { frame := f, desc := 0, cell := none, rot := 0, src := 12, shared := false, serial := 0, ingress := some 1, cut := false, bundle := none,
    order := 0, ma := 0, eave := 0, ledger := false }
/-- A state with one frame in one of Purlin's queues. -/
def queued (s : State) (q : Nat) (f : Frame) : State := s.setQueue q { head := 0, tail := 1, items := [entryOf f] }

/-! ### Well-formedness (R6, R8, R42, R58, R63, R122, R176) -/

/-- A request whose data is not what its LEN says. -/
def shortFrame : Frame := { hdr := { hdr0 with len := 2 }, data := [0] }
theorem test_ill_register_access : (Instr.registerWrite .ethernet .module 0x1004 true 0).wf = false := by decide
theorem test_ill_rc_read : (Instr.rcRead .ethernet .module 0x1002 false).wf = false := by decide
theorem test_ill_lower_half : (Instr.lowerHalfWrite .ethernet .module 0x1004 0).wf = false ∧ (Instr.lowerHalfRead .ethernet .module 0x1004).wf = false := by
  decide
theorem test_ill_upper_half : (Instr.upperHalfWrite .ethernet .module 0x1000 0).wf = false ∧ (Instr.upperHalfRead .ethernet .module 0x1000).wf = false := by
  decide
theorem test_ill_lath : (Instr.lathReceive p0 (List.replicate 611 0)).wf = false := by decide +kernel
theorem test_ill_credit : (Instr.credit p0 [0]).wf = false ∧ (Instr.initialCreditGrant p0 [0]).wf = false := by decide
theorem test_ill_frame : Frame.wf shortFrame = false ∧ Frame.wf { hdr := { hdr0 with len := 9 }, data := List.replicate 9 0 } = false := by decide
theorem test_ill_raw_frame : (Instr.frameRouting 0 ⟨0, List.replicate 9 0⟩).wf = false := by decide
theorem test_ill_home : (Instr.load (.jalem (.rafter 0) shortFrame)).wf = false ∧ (Instr.batten (.jalem (.rafter 0) shortFrame)).wf = false := by decide
theorem test_ill_seg : (Instr.seg (.rafter 0) shortFrame).wf = false ∧ (Instr.responseArrival (.rafter 0) shortFrame).wf = false := by decide
theorem test_ill_window_table : (Instr.windowTableWrite .module .ethernet 0 5 0).wf = false := by decide
theorem test_ill_ring_entry : (Instr.jebInvTail 1 [{ words := [0, 0, 0, 0, 0], failed := false, ide := true }]).wf = false := by decide

/-! ### StepRunsFront (R27, R31) -/

theorem test_premises_StepRunsFront_1 :
    plain.pending = [] := by decide +kernel

/-! ### StepKeepsMemories, GaugeIsolated, MemoryIsTheEaves -/

theorem test_premises_StepKeepsMemories_1 : decide (Memory.wf plain.eav.mem = true ∧ Memory.wf plain.jeb.mem = true) = true ∧
    runs .release (bayIn .running) (fun _ => true) = true := by decide +kernel
theorem test_premises_GaugeIsolated_1 : gaugeCommand .measure = false ∧ gaugeCommand .release = false ∧ memoryCommand .release = false := by decide

/-! ### RegisterAccessCodes (R6, R7) -/

theorem test_premises_RegisterAccessCodes_1 :
    Reg.gutCtrl ∈ plainRegs ∧ plain.mgmt .rackController = true ∧
        regAt .module (0x00700000 : W32).toNat = some .gutCtrl := by decide +kernel
theorem test_premises_RegisterAccessCodes_2 :
    plain.mgmt .ethernet = true := by decide +kernel
theorem test_registerWrite :
    runs (.registerWrite .ethernet .module 0x00B00000 false 8) ({ plain with tim := { Tim.reset with slip := true, ofsFault := true } }) (fun t => t.tim.slip = false ∧ t.tim.ofsFault = true) = true := by decide +kernel
theorem test_premises_RegisterAccessCodes_3 :
    Reg.gabErr ∈ clearRegs ∧ plain.mgmt .ethernet = true ∧ regAt .module (0x00500100 : W32).toNat = some .gabErr := by decide +kernel
theorem test_rcRead :
    runs (.rcRead .ethernet .module 0x00500100 true) ({ plain with gab := { Gab.reset with err := 0x5 } }) (fun t => t.regVal .gabErr = 0 ∧ t.outputs = [.regValue .ethernet .module 0x00500100 5]) = true := by decide +kernel

/-! ### HalvesOfRegisters (R8) -/

theorem test_premises_HalvesOfRegisters_1 :
    plain.reachesDev .ethernet .module = true ∧ wordAt .module (0x00100100 : W32).toNat = some (.purEpochAt, false) ∧
        Reg.purEpochAt.wide = true ∧ wordAt .module ((0x00100100 : W32) + 4).toNat = some (.purEpochAt, true) ∧
        regAt .module (0x00100100 : W32).toNat = some .purEpochAt := by decide +kernel
theorem test_lowerHalfWrite :
    runs (.lowerHalfWrite .ethernet .module 0x00100100 7) plain (fun t => t = { plain with latches := t.latches } ∧
        t.latches.length = 1 ∧ t.regVal .purEpochAt = 0) = true := by decide +kernel
theorem test_upperHalfWrite :
    runs (.upperHalfWrite .ethernet .module 0x00100104 0x80000000) ((match exec (.lowerHalfWrite .ethernet .module 0x00100100 7) plain with | .next t => t | _ => plain)) (fun t => t.pur.epochBeat = 7 ∧ t.pur.epochArm = true ∧ t.latches = []) = true := by decide +kernel
theorem test_premises_HalvesOfRegisters_2 :
    plain.hiddenInBand .purEpochAt = false := by decide +kernel

theorem test_premises_HalvesOfRegisters_3 :
    wordAt .module ((0x00100308 : W32) + 4).toNat = some (.purAuditFirst, true) ∧ plain.latched .ethernet .module 0x00100308 true = none ∧
        wordAt .module ((0x00200008 : W32) + 4).toNat = some (.prtQuantum (.module 0), true) ∧ Reg.prtQuantum (.module 0) ∈ plainRegs ∧
        plain.reachesDev .rackController .module = true ∧ plain.latched .rackController .module 0x00200008 true = none := by decide +kernel
theorem test_upperHalfAlone :
    runs (.upperHalfWrite .ethernet .module 0x0010030C 0) ({ plain with pur := { Pur.reset with auditFirst := 0x2C00005 } }) (fun t => t.pur.auditFirst = 0x2C00005) = true := by decide +kernel

/-! ### WindowTableWrites (R122, R341) -/

theorem test_premises_WindowTableWrites_1 :
    (bayIn .running).admitted = true ∧ ({ bayIn .running with sof := { plainSof with thatchRun := true } } : State).sof.thatchRun = true := by decide +kernel
theorem test_windowTableWrite :
    runs (.windowTableWrite .module .inBand 255 2 0x8001) ({ bayIn .running with sof := { plainSof with thatchRun := true } }) (fun t => (t.winOf .module 255).src = 0x8001) = true := by decide +kernel
def winState : State := { bayIn .running with sof := { plainSof with thatchRun := true }, eav := { Eav.reset with wins := [(3, { Window.reset with limit := 0x10000 })] } }
theorem test_premises_WindowTableWrites_2 :
    bitAt (windowWord .module (winState.winOf .module 0) 3 0xFF).base 0 = false ∧
        (let w := windowWord .module (winState.winOf .module 3) 0 0x20001; fld w.limit 16 32 < fld w.base 16 32) ∧
        (let w := windowWord .module (winState.winOf .module 3) 0 0x10001; bitAt w.base 0 = true ∧ winState.windowBad .module w = false) ∧
        (4 : BitVec 3).toNat ≤ 4 := by decide +kernel

/-! ### JalemSides (R158, R161) -/

theorem test_premises_JalemSides_1 :
    regAt .jalem (0x1000 : W32).toNat = some (.jebSpreadMap 0) ∧ regAt .jalem (0x30000 : W32).toNat = some .jebPoolHost ∧
        Reg.jebPoolHost.locked = true ∧ wordAt .jalem ((0x30000 : W32) + 4).toNat = some (.jebPoolHost, true) ∧
        regAt .jalem (0x30010 : W32).toNat = some .jebPoolSize ∧ wordAt .jalem (0x30010 : W32).toNat = some (.jebPoolSize, false) ∧
        Reg.jebPoolSize.wide = false ∧ Reg.jebPoolSize.locked = true ∧ ({ plain with jeb := { plain.jeb with tdisp := 1 } } : State).jeb.tdisp = 1 ∧ ({ plain with jeb := { plain.jeb with tdisp := 2 } } : State).jeb.tdisp = 2 := by decide +kernel

/-! ### MarksAndSlips (R28, R30, R132) -/

def marked (arm : Bool) (ep : BitVec 34) (f : Nat) (b : BayState) (run : Nat) : State :=
    { bayIn b with tim := { Tim.reset with refclkOk := true, arm := arm, sync := !arm, epochNum := ep, fifths := f, slipRun := run } }
theorem test_premises_MarksAndSlips_1 :
    (marked true 3 17 .free 0).tim.refclkOk = true ∧ (marked true 3 17 .free 0).tim.arm = true := by decide +kernel
theorem test_epochMark :
    runs (.epochMark .module 5) (marked true 3 17 .free 0) (fun t => t.ns = 3 * 2^30 ∧ t.tim.arm = false ∧ t.tim.sync = true ∧
        t.tim.freeRun = false ∧ t = { marked true 3 17 .free 0 with tim := t.tim }) = true := by decide +kernel
def stampedJ : State := { plain with jeb := { plain.jeb with tim := { Tim.reset with refclkOk := true, stamped := some (2^30 * 5 * 7 - 1000, 0) } } }
theorem test_premises_MarksAndSlips_2 :
    stampedJ.jeb.tim.refclkOk = true ∧ stampedJ.jeb.tim.stamped = some (2^30 * 5 * 7 - 1000, 0) ∧
        stampedJ.jeb.tim.sync = false := by decide +kernel
def slipped (b : BayState) (run : Nat) : State := marked false 0 33 b run
theorem test_premises_MarksAndSlips_3 :
    (slipped .free 0).tim.refclkOk = true ∧ (slipped .free 0).tim.arm = false ∧ (slipped .free 0).tim.sync = true ∧
        32 < epochError (slipped .free 0).tim.fifths ∧ (slipped .free 0).tim.moveNext = false ∧
        (slipped .free 0).admitted = false := by decide +kernel
theorem test_premises_MarksAndSlips_4 :
    (slipped .running 0).admitted = true ∧ (slipped .running 0).tim.slipRun = 0 ∧
        32 < epochError (slipped .running 0).tim.fifths := by decide +kernel
theorem test_premises_MarksAndSlips_5 :
    (slipped .running 1).admitted = true ∧ (slipped .running 1).tim.slipRun ≠ 0 ∧
        (slipped .running 1).gut.phase = .none := by decide +kernel

/-! ### ReferenceClockAndStamps (R31, R33, R67) -/

theorem test_premises_ReferenceClockAndStamps_1 :
    (ticking (bayIn .forming)).tim.refclkOk = true ∧ (ticking (bayIn .forming)).admitted = true ∧
        (ticking (bayIn .forming)).gut.phase = .none := by decide +kernel
theorem test_premises_ReferenceClockAndStamps_2 :
    (ticking (bayIn .checking)).tim.refclkOk = true ∧ (ticking (bayIn .checking)).admitted = false := by decide +kernel
theorem test_refclkLost :
    runs (.refclkLost .module) (ticking (bayIn .forming)) (fun t => t.tim = { Tim.reset with refclkOk := false, sync := false } ∧
        fld t.gut.fatal 0 8 = 1 ∧ t.gut.phase = .stopping) = true := by decide +kernel
theorem test_refclkReturn :
    runs (.refclkReturn .module) plain (fun t => t.tim.refclkOk = true ∧ t.tim.fifths = 0 ∧ t.gut = Gut.reset ∧
        t.jeb = plain.jeb) = true := by decide +kernel
theorem test_premises_ReferenceClockAndStamps_8 : 0 ∈ builtPorts ∧ (Tab.get Port.reset plain.jeb.ports 0).train.state = .disabled ∧
    144 ∉ builtPorts ∧ (Tab.get Port.reset bayRun.jeb.ports 0).train.state ≠ .disabled := by
  refine ⟨List.mem_append_left _ (List.mem_range.mpr ?_), by decide +kernel, fun h => ?_, by decide +kernel⟩
  · rw [rafterCount]; omega
  · rcases List.mem_append.mp h with h | h
    · have := List.mem_range.mp h; omega
    · obtain ⟨t, ht, e⟩ := List.mem_map.mp h
      have := List.mem_range.mp (List.mem_filter.mp ht).1
      have hc : trayCount ≤ 3 := by rw [trayCount]; omega
      omega
theorem test_premises_ReferenceClockAndStamps_3 :
    (ticking plain).tim.freeRun = false ∧ (ticking plain).tim.lastMark + (2 ^ 30 + 2 ^ 20) * 5 < (ticking plain).tim.fifths + 32 * (167936001 : W32).toNat := by decide +kernel
theorem test_freeRun :
    runs (.freeRun .module 167936001) (ticking plain) (fun t => t.tim.freeRun = true && t.tim.fifths = 32 * 167936001 &&
        cnt (ticking plain) t 7 1) = true := by decide +kernel
def hipActive : State := portIn (hipPortOf 11) .active
theorem test_premises_ReferenceClockAndStamps_4 :
    (256 : W64).toNat % 256 = 0 ∧ (hipActive.port (hipPortOf 11)).train.state = .active ∧
        (hipActive.port (hipPortOf 11)).laneIdle = false := by decide +kernel
theorem test_stampExchange :
    runs (.stampExchange 11 256) hipActive (fun t => (t.port (hipPortOf 11)).arb.linkLocal = [.req] ∧ t.gut = Gut.reset ∧
        t.pur = Pur.reset) = true := by decide +kernel
theorem test_premises_ReferenceClockAndStamps_5 :
    ((portIn (.tray 1) .active).port (.tray 1)).train.state = .active ∧
        ((portIn (.tray 1) .active).port (.tray 1)).retry.rx = [] := by decide +kernel
/-- The frame of that STAMP_REQ, as the lath that carried it left it at the port, at 10 units of its device's time. -/
def stampHere : State := (portIn (.tray 1) .active).updPort (.tray 1) fun x => { x with retry := { x.retry with rx := [linkLocalFrame opStampReq (77 * 2 ^ 160)], reqAt := 160 } }
theorem test_premises_ReferenceClockAndStamps_9 :
    (stampHere.port (.tray 1)).retry.rx.head? = some (linkLocalFrame opStampReq ((77 : W64).toNat * 2 ^ 160)) ∧
        (stampHere.port (.tray 1)).train.state = .active := by decide +kernel
theorem test_stampReqHere :
    runs (.stampReq (.tray 1) 77 false false) stampHere (fun t =>
        (t.port (.tray 1)).arb.linkLocal = [.rsp (stampUnits 160 (stampHere.port (.tray 1)).fine) 77] ∧ (t.port (.tray 1)).retry.rx = []) = true := by decide +kernel
theorem test_stampReq :
    runs (.stampReq (.tray 1) 77 false false) (portIn (.tray 1) .active) (fun t => (let s := portIn (.tray 1) .active;
        (t.port (.tray 1)).arb.linkLocal = [.rsp (stampUnits (s.portTime (.tray 1)).fifths (s.port (.tray 1)).fine) 77] ∧
        t = { s with ports := t.ports, jeb := { s.jeb with ports := t.jeb.ports } })) = true := by decide +kernel
/-- A hip port ACTIVE, with the offsets of pairs that it has and a request open. -/
def pairing (l : List Int) : State :=
    (portIn (hipPortOf 0) .active).updPort (hipPortOf 0) fun x => { x with stamp := { x.stamp with openT1 := some 9, last16 := l } }
/-- The sixteenth pair is the next: a mean of 0, and of 201 ns. -/
def fifteen (x : Int) : State := pairing (List.replicate 15 x)
/-- The mean that the report of the sixteenth pair gives. -/
def pairMean (s : State) (n : Nat) (t2 t1 t3 : W64) : Int :=
    let x := s.mport n
    let t4 := stampUnits s.tim.fifths x.fine
    let twice : Int := (if x.fine then 1 else 16) * (((t2.toNat : Int) - t1.toNat) - ((t4.toNat : Int) - t3.toNat))
    max (-(2 ^ 19)) (min (2 ^ 19 - 1) ((x.stamp.last16 ++ [twice]).sum / 32))
theorem test_premises_ReferenceClockAndStamps_7 :
    ((fifteen 0).mport 128).stamp.last16.length = 15 ∧ (pairMean (fifteen 0) 128 0 9 0).natAbs ≤ 800 ∧
        3200 < (pairMean (fifteen 7200) 128 0 9 0).natAbs := by decide +kernel
def stampOpen : State := pairing (List.replicate 14 0)
theorem test_premises_ReferenceClockAndStamps_6 :
    (stampOpen.mport 128).stamp.openT1 = some 9 ∧ (stampOpen.mport 128).retry.rx = [] ∧ (stampOpen.mport 128).train.state = .active ∧
        stampOpen.fencedLane (.module 128) = false ∧ (portIn (.tray 1) .active).fencedLane (.tray 1) = false ∧
        (stampOpen.mport 128).stamp.last16.length ≤ 16 := by decide +kernel
/-- A hip port that is held in electrical idle. -/
def idleLane : State := stampOpen.updPort (hipPortOf 0) fun x => { x with laneIdle := true }
theorem test_premises_ReferenceClockAndStamps_10 : idleLane.fencedLane (.module 128) = true := by decide +kernel
theorem test_stampRspIdle :
    runs (.stampRsp (.module 128) 20 9 21 false false) idleLane (fun t => (t.mport 128).stamp = (stampOpen.mport 128).stamp && cnt idleLane t 6 1) = true := by decide +kernel
theorem test_stampRsp :
    runs (.stampRsp (.module 128) 20 9 21 false false) stampOpen (fun t => (t.mport 128).stamp.last16.length = 15 ∧
        (t.mport 128).stamp.openT1 = none ∧ t.gut = Gut.reset) = true := by decide +kernel

/-! ### TrainingMoves (R46) -/

theorem test_premises_TrainingMoves_1 :
    (portIn p0 .detect).pstate p0 = .detect ∧ (portIn p0 .equalise).pstate p0 = .equalise ∧
        ((portIn p0 .equalise).port p0).train.eqFails < 2 ∧
        ((portIn p0 .equalise).updPort p0 fun x => { x with train := { x.train with eqFails := 2 } }).pstate p0 = .equalise ∧ (portIn p0 .lock).pstate p0 = .lock ∧
        (portIn (.tray 1) .credit).pstate (.tray 1) ∈ [PState.lock, .identify, .negotiate, .credit] := by decide +kernel
theorem test_partnerDetected :
    runs (.partnerDetected p0) (portIn p0 .detect) (fun t => t.pstate p0 = .equalise &&
        otr p0 (portIn p0 .detect) t 0) = true := by decide +kernel
theorem test_equaliseDone :
    runs (.equaliseDone p0) (portIn p0 .equalise) (fun t => t.pstate p0 = .lock && (t.port p0).train.width = 3 &&
        otr p0 (portIn p0 .equalise) t 1) = true := by decide +kernel
theorem test_equaliseTimeout :
    runs (.equaliseTimeout p0) (portIn p0 .equalise) (fun t => t.pstate p0 = .detect && (t.port p0).train.eqFails = 1 &&
        otr p0 (portIn p0 .equalise) t 0) = true := by decide +kernel
theorem test_lockDone :
    runs (.lockDone p0) (portIn p0 .lock) (fun t => t.pstate p0 = .identify && otr p0 (portIn p0 .lock) t 1) = true := by decide +kernel
theorem test_lockTimeout :
    runs (.lockTimeout p0) (portIn p0 .lock) (fun t => t.pstate p0 = .equalise && otr p0 (portIn p0 .lock) t 0) = true := by decide +kernel
theorem test_partnerIdle :
    runs (.partnerIdle (.tray 1)) (portIn (.tray 1) .credit) (fun t => t.pstate (.tray 1) = .detect &&
        otr (.tray 1) (portIn (.tray 1) .credit) t 0) = true := by decide +kernel

/-! ### IdentityToActive (R14, R18, R46, R48, R50, R53, R63) -/

def ident0 (n : Byte) : Identity := { jalem := true, role := .rafter, node := n, link := 0, index := 0, coord := ⟨0, 0, 0⟩, port := 0, rev := 3, feats := 0xFF }
theorem test_premises_IdentityToActive_1 :
    (portIn p0 .identify).pstate p0 = .identify ∧ (portIn p0 .identify).partnerOk p0 (ident0 0) = true ∧
        (portIn p0 .identify).partnerOk p0 (ident0 1) = false ∧ portDev (.tray 0) = .jalem := by decide +kernel
theorem test_identityRecord :
    runs (.identityRecord p0 (ident0 0)) (portIn p0 .identify) (fun t => t.pstate p0 = .negotiate &&
        (t.port p0).train.partner = some (ident0 0) && otr p0 (portIn p0 .identify) t 1) = true := by decide +kernel
theorem test_premises_IdentityToActive_2 :
    (portIn p0 .negotiate).pstate p0 = .negotiate ∧ ((portIn p0 .negotiate).port p0).train.width ≠ 3 ∧
        bitAt ((0xFFFF : W16).truncate 8 &&& revFeatures 2 &&& ((portIn p0 .negotiate).port p0).cfg.featMask) featNarrow = true ∧
        bitAt ((0 : W16).truncate 8 &&& revFeatures 2 &&& ((portIn p0 .negotiate).port p0).cfg.featMask) featNarrow = false := by decide +kernel
theorem test_negotiate :
    runs (.negotiate p0 (some 2) 0xFF) (portIn p0 .negotiate) (fun t => t.pstate p0 = .credit && (t.port p0).train.rev = 2 &&
        (t.port p0).train.features = 0xFF &&& revFeatures 2 && t.gut = Gut.reset) = true := by decide +kernel
theorem test_premises_IdentityToActive_3 :
    (portIn p0 .credit).pstate p0 = .credit ∧ (List.replicate 12 (9 : W16)).length = 12 ∧ (∀ x ∈ List.replicate 12 (9 : W16),
        9 ≤ x.toNat) ∧ (∀ x ∈ ((portIn p0 .credit).port p0).cfg.grants, 9 ≤ x) ∧ (∃ x ∈ (8 : W16) :: List.replicate 11 9,
        x.toNat < 9) := ⟨by decide +kernel, by decide +kernel, fun x hx => by rw [List.eq_of_mem_replicate hx]; decide,
        by decide +kernel, 8, by simp, by decide⟩
theorem test_initialCreditGrant :
    runs (.initialCreditGrant p0 (List.replicate 12 9)) (portIn p0 .credit) (fun t => t.pstate p0 = .active &&
        (t.port p0).cred.txGrant = List.replicate 12 9 && t.gut = Gut.reset) = true := by decide +kernel

/-- The control word of a data lath with KEY_ID 0, and seven laths of a group. -/
def ctlAt (n : BitVec 12) : LathCtl := { seq := n, ack := 0, ltype := 0, replayed := false, keyId := 0 }
def sevenLaths : List (W32 × List Shingle) := List.replicate 7 ((ctlAt 0).toWord, List.replicate 16 0)
/-- A sealed port at module port 0, key 5 in slot 0, with a last SEQ and the laths of the group so far. -/
def sealedRx (last : BitVec 12) (g : List (W32 × List Shingle)) : State :=
  { bayRun with
    ports := [(0, { livePort with retry := { livePort.retry with rxLast := last }, sealing := { livePort.sealing with rxGroup := g } })]
    sec := { bayRun.sec with linkKeys := [(0, some ⟨5, 6⟩)] } }

/-! ### RetrainOutcomes (R44, R45) -/

def retraining (p : PortRef) : State := (portIn p .retrain).updPort p fun x => { x with train := { x.train with partner := some (ident0 0) } }
def usedHeld : State := (portIn p0 .held).updPort p0 fun x => { x with train := { x.train with role := .rafter } }
theorem test_premises_RetrainOutcomes_1 :
    (portIn p0 .active).pstate p0 = .active ∧ (retraining p0).pstate p0 = .retrain ∧
        ((retraining p0).port p0).train.partner = some (ident0 0) ∧ samePartner (ident0 0) (ident0 0) = true ∧
        samePartner (ident0 1) (ident0 0) = false ∧ portDev p0 = .module ∧ (retraining (.tray 0)).jeb.stopped = false ∧
        usedHeld.pstate p0 = .held ∧ usedHeld.fenced 0 = false ∧
        (usedHeld.port p0).train.role ≠ .unused := by decide +kernel
def fencedPort : State := { portIn p0 .held with gut := { Gut.reset with fencePorts := 1 } }
theorem test_premises_RetrainOutcomes_2 :
    fencedPort.fenced 0 = true := by decide +kernel
theorem test_premises_RetrainOutcomes_3 :
    (portIn p0 .active).txKey p0 = none ∧ (sealedRx 2 []).txKey p0 ≠ none ∧ (sealedRx 2 []).pstate p0 = .active ∧
        (usedHeld.port p0).laneIdle = false ∧ usedHeld.served = true ∧ (plain.port (.module 128)).laneIdle = true := by decide +kernel
/-- A port that a fault holds while its lanes are idle (R23, R297). -/
def heldHip : State := (portIn (.module 128) .held).updPort (.module 128) fun x => { x with laneIdle := true, train := { x.train with role := .hip } }
theorem test_prtCtrlRestartHip :
    runs (.prtCtrlRestart (.module 128)) heldHip (fun t => t = heldHip) = true := by decide +kernel
theorem test_retrain :
    runs (.retrain p0 .naks) (portIn p0 .active) (fun t => t.pstate p0 = .retrain && (t.port p0).err.lathErr = satFld (0:W32) 16 8 1 &&
        t.pur = Pur.reset && t.sec = Sec.reset) = true := by decide +kernel
theorem test_retrainRelock :
    runs (.retrainRelock p0 (ident0 0)) (retraining p0) (fun t => t.pstate p0 = .active &&
        t = { retraining p0 with ports := t.ports, outputs := t.outputs } &&
        t.outputs.length = 1) = true := by decide +kernel
theorem test_retrainTimeout :
    runs (.retrainTimeout p0) (retraining p0) (fun t => t.pstate p0 = .down && (t.port p0).retry.replay = []) = true := by decide +kernel
theorem test_prtCtrlRestart :
    runs (.prtCtrlRestart p0) usedHeld (fun t => t.pstate p0 = .detect && t = { usedHeld with ports := t.ports }) = true := by decide +kernel

/-! ### NakAndCredit (R43, R63) -/

def kept (n : BitVec 12) : KeptLath := { seq := n, keyId := 0, slots := List.replicate 16 0, tries := 0 }
def nakState : State := (portIn p0 .active).updPort p0 fun x => { x with retry := { x.retry with replay := [kept 4, kept 5, kept 6], nakBeat := 7, txSeq := 7 } }
theorem test_premises_NakAndCredit_1 :
    nakState.pstate p0 = .active ∧ bitAt (nakState.port p0).train.features featSelRetry = false ∧
        (∀ k ∈ (nakState.port p0).retry.replay, k.tries < 4) ∧
        (nakState.port p0).retry.nakBeat ≠ (nakState.portTime p0).beat := by decide +kernel
theorem test_premises_NakAndCredit_2 :
    ((portIn p0 .active).port p0).retry.rx = [] ∧ (List.replicate 12 (1 : W16)).length = 12 ∧ (portIn p0 .active).fencedLane p0 = false ∧
        (plain.port p0).train.state ∉ [PState.active, .retrain] ∧ plain.fencedLane p0 = false := by decide +kernel
theorem test_credit :
    runs (.credit p0 (List.replicate 12 1)) (portIn p0 .active) (fun t => let s := portIn p0 .active
        t.port p0 = { s.port p0 with cred := { (s.port p0).cred with txFreed := List.replicate 12 1 } } ∧ t = { s with ports := t.ports }) = true := by decide +kernel
theorem test_creditUnused : runs (.credit p0 (List.replicate 12 1)) plain (fun t => t = plain) = true := by decide +kernel

/-! ### LathsReceived (R39, R42, R43) -/

theorem test_premises_LathsReceived_1 :
    (portIn p0 .active).pstate p0 = .active ∧ lathOfBytes (((portIn p0 .active).port p0).retry.rxLast + 1) [] = none ∧
        (portIn p0 .active).txKey p0 = none ∧ ((portIn p0 .active).port p0).retry.nakCount < 64 := by decide +kernel
/-- The control word of the lath that is next in turn. -/
def nextCtl : LathCtl := { seq := ((portIn p0 .active).port p0).retry.rxLast + 1, ack := 0, ltype := 0, replayed := false, keyId := 0 }
theorem test_premises_LathsReceived_3 (h : Obligations.LathRoundTrip) :
    lathOfBytes (((portIn p0 .active).port p0).retry.rxLast + 1) (lathBytes nextCtl []) = some (nextCtl, List.replicate 16 0, 0) :=
  (h nextCtl []).2
theorem test_premises_LathsReceived_2 :
    nextCtl.ltype = 0 ∧ nextCtl.seq = ((portIn p0 .active).port p0).retry.rxLast + 1 ∧ ((portIn p0 .active).port p0).retry.resume = false ∧
        ((portIn p0 .active).port p0).retry.rxKept = [] ∧ ((portIn p0 .active).port p0).sealing.rxSealed = false := by decide +kernel

theorem test_premises_LathsReceived_4 :
    (sealedRx 2 []).pstate p0 = .active ∧ (ctlAt 3).ltype = 0 ∧ (ctlAt 3).seq = ((sealedRx 2 []).port p0).retry.rxLast + 1 ∧
        ((sealedRx 2 []).port p0).retry.resume = false ∧ ((sealedRx 2 []).port p0).retry.rxKept = [] ∧
        ((sealedRx 2 []).port p0).sealing.rxSealed = true ∧ (ctlAt 3).seq.toNat % 8 ≠ 7 ∧ (ctlAt 7).seq.toNat % 8 = 7 ∧
        (ctlAt 7).seq = ((sealedRx 6 sevenLaths).port p0).retry.rxLast + 1 ∧
        ((sealedRx 6 sevenLaths).takeAck p0 (ctlAt 7).ack).portKey p0 (LathCtl.ofWord (sevenLaths.headD (0, [])).1).keyId = some ⟨5, 6⟩ ∧
        ((sealedRx 6 sevenLaths).port p0).sealing.anew = false ∧ ((sealedRx 6 sevenLaths).port p0).retry.nakCount < 64 ∧
        ((sealedRx 6 sevenLaths).port p0).sealing.failed ≠ some ((sealedRx 6 sevenLaths).port p0).sealing.rxCount ∧
        (sealedRx 6 sevenLaths).admitted = true ∧ (sealedRx 6 sevenLaths).gut.phase = .none := by decide +kernel
theorem test_premises_LathsReceived_5 (h : Obligations.LathRoundTrip) (n : BitVec 12) (l : List Shingle) (hl : l.length = 16) :
    lathOfBytes n (lathBytes (ctlAt n) l) = some (ctlAt n, l, 0) := by
  have e := (h (ctlAt n) l).2
  rwa [List.take_append_of_le_length (by omega), List.take_of_length_le (by omega)] at e
/-- The eight laths of the group, with a word in the place of the tag. -/
def wholeGroup (t : Shingle) : List (W32 × List Shingle) := sevenLaths ++ [((ctlAt 7).toWord, List.replicate 15 0 ++ [t])]
theorem wholeGroup_tag (key : BitVec 256) (nonce : List Byte) (t : Shingle) : groupTag key nonce (wholeGroup t) = groupTag key nonce (wholeGroup 0) := by
  have h : ((wholeGroup t).flatMap Prod.snd).take 127 = ((wholeGroup 0).flatMap Prod.snd).take 127 := rfl
  rw [groupTag, h]; rfl
theorem wholeGroup_last (t : Shingle) : (((wholeGroup t).getLast?.map Prod.snd).getD []).getD 15 0 = t := rfl
/-- A tag that verifies, and one that does not. -/
theorem test_premises_LathsReceived_6 (nonce : List Byte) (hn : nonce.length = 12) :
    ∃ t, bytesOf ((((wholeGroup t).getLast?.map Prod.snd).getD []).getD 15 0) 16 = groupTag 5 nonce (wholeGroup t) := by
  obtain ⟨tag, ht, hl⟩ : ∃ tag, groupTag 5 nonce (wholeGroup 0) = tag ∧ tag.length = 16 := by
    refine ⟨_, rfl, ?_⟩
    have K := aesKeys_shape (keyBytes 5) (bytesOf_length _ _)
    have b := (aesUnblock_aesBlock (aesKeys (keyBytes 5)) K.1 K.2 (nonce ++ bigEndian 4 1) (by simp [hn, bigEndian])).2
    rw [groupTag, gcmTag, xorBytes_length, b]
    simp [bigEndian]
  refine ⟨BitVec.setWidth 288 (BitVec.ofNat 128 (natOfBytes tag)), ?_⟩
  rw [wholeGroup_last, wholeGroup_tag, ht]
  refine Eq.trans ?_ (bytesOf_natOfBytes tag 16 hl)
  simp only [bytesOf]
  refine List.map_congr_left fun i _ => ?_
  apply BitVec.eq_of_toNat_eq
  have m : natOfBytes tag % 2 ^ 128 % 2 ^ 288 = natOfBytes tag % 2 ^ (8 * 16) :=
    Nat.mod_eq_of_lt (Nat.lt_trans (Nat.mod_lt _ (by decide)) (Nat.pow_lt_pow_right (by decide) (by decide)))
  simp only [BitVec.toNat_setWidth, BitVec.toNat_ushiftRight, BitVec.toNat_ofNat, m]
theorem test_premises_LathsReceived_7 (nonce : List Byte) :
    ∃ t, bytesOf ((((wholeGroup t).getLast?.map Prod.snd).getD []).getD 15 0) 16 ≠ groupTag 5 nonce (wholeGroup t) := by
  by_cases h : bytesOf (0 : Shingle) 16 = groupTag 5 nonce (wholeGroup 0)
  · refine ⟨1, fun e => ?_⟩
    rw [wholeGroup_last, wholeGroup_tag, ← h] at e
    exact absurd e (by decide +kernel)
  · exact ⟨0, h⟩
theorem test_lathReceive :
    runs (.lathReceive p0 []) (sealedRx 2 []) (fun t => (t.port p0).retry.discarding = true ∧ t.outputs.length = 1) = true := by decide +kernel

/-! ### Arbitration (R43, R58, R65, R66) -/

def sendable : State := (portIn p0 .active).updPort p0 fun x => { x with cred := { x.cred with txGrant := List.replicate 12 64 }, arb := { x.arb with sinceLocal := 0, tok0 := 4000, tok4 := 4000 } }
def reqOn (c : BitVec 3) : Frame := { hdr := { hdr0 with opcode := 0x11, course := c }, data := [] }
def rspOn (c : BitVec 3) : Frame := { hdr := { hdr0 with opcode := 0x82, course := c, sub := 1 }, data := [] }
theorem test_premises_Arbitration_1 :
    sendable.pstate p0 = .active ∧ (sendable.port p0).retry.replay.length < 512 ∧ sendable.txKey p0 = none ∧
        sendable.gut.phase ≠ .stopping ∧ sendable.pick p0 = .nothing ∧ (sendable.port p0).retry.txSlots = [] := by decide +kernel
theorem test_premises_Arbitration_2 :
    (queued sendable 6 (reqOn 3)).txKey p0 = none ∧
        (match (queued sendable 6 (reqOn 3)).pick p0 with | .frame f v _ => decide (f = reqOn 3 ∧ v = 6) | _ => false) = true ∧
        (0 : Nat) + 1 + (reqOn 3).data.length < 16 ∧ 6 < ((queued sendable 6 (reqOn 3)).port p0).cred.txSent.length ∧
        ((queued sendable 6 (reqOn 3)).port p0).sealing.dueFor (reqOn 3).hdr = none := by decide +kernel
theorem test_arbitration :
    runs (.arbitration p0) (queued sendable 6 (reqOn 3)) (fun t => (t.port p0).retry.txSlots = [headerSlot (reqOn 3).hdr] ∧
        (t.port p0).cred.txSent = zeros12.modify 6 (· + 1) ∧ t.outputs = [] ∧ t.gut = Gut.reset) = true := by decide +kernel
theorem test_premises_Arbitration_3 :
    sendable.localPick p0 = none ∧ (queued sendable 8 (reqOn 4)).courseHead p0 4 = some (reqOn 4, 8) ∧
        400 * frameSlots (reqOn 4) ≤ ((queued sendable 8 (reqOn 4)).port p0).arb.tok4 := by decide +kernel
theorem test_premises_Arbitration_4 :
    (queued sendable 0 (reqOn 0)).courseHead p0 4 = none ∧ (queued sendable 0 (reqOn 0)).courseHead p0 0 = some (reqOn 0, 0) ∧
        (sendable.port p0).cfg.latCap ≠ 0 ∧ 400 * frameSlots (reqOn 0) ≤ (sendable.port p0).arb.tok0 := by decide +kernel
def both : State := queued (queued sendable 4 (reqOn 2)) 5 (rspOn 2)
theorem test_premises_Arbitration_5 :
    both.mayStart p0 (2 * 2) = some (reqOn 2) ∧ both.mayStart p0 (2 * 2 + 1) = some (rspOn 2) := by decide +kernel

theorem test_premises_Arbitration_6 :
    (sealedRx 0 []).pstate p0 = .active ∧ ((sealedRx 0 []).port p0).retry.replay.length < 512 ∧ (sealedRx 0 []).txKey p0 = some 5 ∧
        (sealedRx 0 []).gut.phase ≠ .stopping ∧ (sealedRx 0 []).pick p0 = .nothing ∧ ((sealedRx 0 []).port p0).retry.txSlots = [] := by decide +kernel

/-! ### QueueSerials (R77) -/

def twoQueued : State := plain.setQueue 5 { head := 0xFFFFFF, tail := 1, items := [{ entryOf (reqOn 2) with serial := 0xFFFFFF }, entryOf (rspOn 2)] }
theorem test_premises_QueueSerials_1 :
    (twoQueued.dequeue 5).isSome = true ∧ (∀ k ∈ [0, 1], ∀ x,
        (twoQueued.queue 5).items[k]? = some x → x.serial = (twoQueued.queue 5).head + BitVec.ofNat 24 k) ∧
        (twoQueued.queue 5).tail = (twoQueued.queue 5).head + BitVec.ofNat 24 (twoQueued.queue 5).items.length := by decide +kernel

/-! ### FramesAndBundles (R16, R23, R59, R78, R95, R96, R97, R120) -/

def hipFenced : State := (portIn (.module 128) .active).updPort (.module 128) fun x => { x with laneIdle := true }
theorem test_premises_FramesAndBundles_1 :
    (hipFenced.mport 128).retry.rx = [] ∧ portRole 128 = .hip ∧ (hipFenced.mport 128).laneIdle = true := by decide +kernel
theorem test_frameRouting :
    runs (.frameRouting 128 ⟨0, []⟩) hipFenced (fun t => cnt hipFenced t 6 1 && t.pur = Pur.reset &&
        t.ports = hipFenced.ports) = true := by decide +kernel
def actBay : State := { portIn p0 .active with sec := { Sec.reset with state := .running }, sof := { plainSof with started := true, thatchRun := true } }
theorem test_premises_FramesAndBundles_2 :
    actBay.isActive 0 = true ∧ portRole 0 ≠ .hip ∧ actBay.admitted = true ∧ actBay.gut.phase = .none := by decide +kernel
theorem gfMul_zero_left (b : Byte) : gfMul 0 b = 0 := by
  have h : ∀ n, gfMulBits 0 b n 0 = 0 := fun n => by
    induction n with
    | zero => rfl
    | succ n ih => rw [gfMulBits, show gfDouble 0 ^^^ (if bitAt b n then 0 else 0) = 0 by split <;> rfl, ih]
  exact h 8
/-- Four bad symbols, whose word has the syndromes (0, 0, 0, s). -/
def lostWord : Shingle := 0x01070E08 <<< 256
theorem test_premises_FramesAndBundles_7 : headerDecode lostWord = none := by
  have h : decide (syndrome lostWord 0 = 0 ∧ syndrome lostWord 1 = 0 ∧ syndrome lostWord 2 = 0 ∧ syndrome lostWord 3 ≠ 0) = true := by
    decide +kernel
  obtain ⟨h0, h1, h2, h3⟩ := of_decide_eq_true h
  generalize lostWord = w at *
  have hs : syndromes w = (0, 0, 0, syndrome w 3) := by rw [syndromes, h0, h1, h2]
  have e1 : oneError w (0, 0, 0, syndrome w 3) = none := by
    rw [oneError, List.findSome?_eq_none_iff]
    exact fun i _ => if_neg fun hc => hc.1 rfl
  have e2 : twoErrors w (0, 0, 0, syndrome w 3) = none := by
    rw [twoErrors, List.findSome?_eq_none_iff]
    intro i _
    rw [List.findSome?_eq_none_iff]
    intro j _
    refine if_neg fun hc => hc.2.1 ?_
    rw [gfMul_zero_left, show (0 : Byte) ^^^ 0 = 0 from rfl, gfMul_zero_left]
  have ne : syndromes w ≠ (0, 0, 0, 0) := fun hc => h3 (by rw [hs] at hc; exact (Prod.mk.inj (Prod.mk.inj (Prod.mk.inj hc).2).2).2)
  rw [headerDecode, decodeShingle, if_neg ne, hs, e1, e2]
  rfl
def getReq : Frame := { hdr := { reqTo opGet 2 0 with aux := 32 }, data := [] }
theorem test_premises_FramesAndBundles_3 :
    (bayRun.mport 1).retry.rx = [] ∧ bayRun.isActive 1 = true ∧ portRole 1 ≠ .hip ∧ flashBad (rawOf getReq).hdr = false ∧
        headerDecode (rawOf getReq).hdr = some getReq.hdr ∧ isResponse getReq.hdr = false ∧ isCtrl getReq.hdr = false ∧ getReq.hdr.course.toNat < 6 ∧ getReq.data.length = getReq.hdr.len.toNat ∧
        badSyndromes getReq.hdr getReq.data = 0 ∧ bayRun.ingressCheck 1 getReq.hdr = none ∧ bayRun.dest getReq.hdr = .port 0 ∧
        getReq.hdr.opcode ≠ opAtomic ∧ getReq.hdr.opcode ≠ opFadd ∧ bitAt getReq.hdr.attr 7 = false := by decide +kernel
def wrongBay : Frame := { getReq with hdr := { getReq.hdr with bayTag := 0x54 } }
theorem test_premises_FramesAndBundles_5 :
    headerDecode (rawOf wrongBay).hdr = some wrongBay.hdr ∧ flashBad (rawOf wrongBay).hdr = false ∧
        bayRun.ingressCheck 1 wrongBay.hdr = some stBayMismatch ∧ isResponse wrongBay.hdr = false ∧ isPosted wrongBay.hdr = false ∧
        wrongBay.hdr.opcode ≠ opBattenCont ∧ bayRun.dest (errorFrame wrongBay.hdr stBayMismatch).hdr = .port 1 := by decide +kernel
/-- Two frames from port 1 that wait for Spar. -/
def twoAtAgent : State := plain.setQueue (agentQueue (agentAt agSpar 1) 2) { head := 0, tail := 2, items := [entryOf (reqOn 2), { entryOf (rspOn 2) with serial := 1 }] }
theorem test_premises_FramesAndBundles_6 :
    (twoAtAgent.queue (agentQueue (agentAt agSpar 1) (reqOn 2).hdr.course.toNat)).items = [entryOf (reqOn 2), { entryOf (rspOn 2) with serial := 1 }] ∧
        (entryOf (reqOn 2)).isFrame 1 (reqOn 2) = true ∧ (entryOf (reqOn 2)).isFrame 1 (rspOn 2) = false ∧
        ({ entryOf (rspOn 2) with serial := 1 } : Entry).isFrame 1 (rspOn 2) = true := by decide +kernel
def ansFrame : Frame := { hdr := { hdr0 with opcode := opAck, sub := 1, tag := 9 }, data := [] }
def bun : Bundle := { index := 9, parts := [(reqTo opAtomic 0 0, 5), (reqTo opAtomic 0 0, 6)] }
def bundled : State := { queued bayRun (agentQueue agBundle 0) ansFrame with pur := { (queued bayRun (agentQueue agBundle 0) ansFrame).pur with bundles := [bun] } }
theorem test_premises_FramesAndBundles_4 :
    (bundled.queue (agentQueue agBundle 0)).items = [entryOf ansFrame] ∧
        bundled.pur.bundles.find? (fun b => decide (b.index = (entryOf ansFrame).frame.hdr.tag.toNat)) = some bun ∧
        (bun.parts.all fun p => decide (p.1.srcEngine ≠ 0xFE)) = true ∧ (reqTo opAtomic 0 0).opcode = opAtomic := by decide +kernel
theorem test_bundleResponse :
    runs (.bundleResponse) bundled (fun t => t.pur.bundles = [] ∧ t.frames (agentQueue agBundle 0) = [] ∧
        t.eav = bundled.eav) = true := by decide +kernel

/-! ### AuditQuarantines (R98, R99, R100) -/

def audited (i : Nat) : State := { plain with pur := { Pur.reset with ready := true, auditArmed := true, cells := { Pool.reset with free := cellTotal, used := [(i, true)] }, descs := { Pool.reset with free := descTotal } } }
theorem test_premises_AuditQuarantines_1 :
    (65536 : W64).toNat % 65536 = 0 ∧ (audited 1048575).pur.ready = true ∧ 1048575 < 2 ^ 20 ∧
        (audited 1048575).pur.cells = { Pool.reset with free := cellTotal, used := [(1048575, true)] } ∧
        (audited 1048575).pur.descs = { Pool.reset with free := descTotal } ∧ (audited 1048575).pur.auditFirst = 0 ∧
        (audited 1048575).pur.auditArmed = true := by decide +kernel
theorem test_valleyAudit :
    runs (.valleyAudit 65536) (audited 1048575) (fun t => Tab.get .free t.pur.cells.tags 1048575 = .quarantined && t.pur.cells.quar = 1 &&
        t.pur.cells.free = cellTotal - 1 && t.pur.auditLast = 1 && fld t.pur.auditFirst 0 22 = 1048575 && fld t.pur.auditFirst 23 3 = 1 &&
        cnt (audited 1048575) t 8 1) = true := by decide +kernel

/-! ### RouteEpochs (R91) -/

def epochArmed : State := { bayRun with pur := { bayRun.pur with epochArm := true, epochBeat := 7, shadow := [(3, 0x201)] } }
theorem test_premises_RouteEpochs_1 :
    bayRun.reaches .ethernet = true ∧ bayRun.pur.epochArm = false ∧ bayRun.badRoute ((0x201 : W32) &&& 0x3FF) = false ∧
        bitAt (0x8000000000000001 : W64) 63 = true ∧ bayRun.beat < fld (0x8000000000000001 : W64) 0 54 := by decide +kernel
theorem test_premises_RouteEpochs_2 :
    epochArmed.pur.epochArm = true ∧ epochArmed.pur.epochBeat.toNat ≤ (7 : W64).toNat ∧ epochArmed.tim.refclkOk = true ∧
        epochArmed.tim.fifths < 5120 * (7 : W64).toNat := by decide +kernel
theorem test_purLrtShadow :
    runs (.purLrtShadow .ethernet 255 0x201) bayRun (fun t => Tab.get 0 t.pur.shadow 255 = 0x201 ∧
        t = { bayRun with pur := { bayRun.pur with shadow := t.pur.shadow } }) = true := by decide +kernel
theorem test_purEpochAt :
    runs (.purEpochAt .ethernet 0x8000000000000001) bayRun (fun t => t.pur.epochArm = true ∧
        t.pur.epochBeat = 1) = true := by decide +kernel
theorem test_routeEpoch :
    runs (.routeEpoch 7) epochArmed (fun t => t.pur.lrt = [(3, 0x201)] ∧ t.pur.epochArm = false ∧ t.pur.epochDone = true ∧
        t.beat = 7) = true := by decide +kernel

/-! ### NodeDeclaredLost (R124, R291) -/

theorem test_premises_NodeDeclaredLost_1 :
    bayRun.reaches .inBand = true ∧ bitAt (0x7F : W32) 7 = false ∧ bitAt (0xFF : W32) 7 = true ∧
        bayRun.nodeLost (fld (0xFF : W32) 0 7) = false ∧ bayRun.admitted = true ∧ bayRun.gut.phase = .none := by decide +kernel
theorem test_purNodeLostSet :
    runs (.purNodeLostSet .inBand 0xFF) bayRun (fun t => t.nodeLost 127 = true ∧ fld t.gut.fatal 0 8 = 7 ∧ t.gut.phase = .stopping ∧
        fld t.gut.fatal 8 2 = 2 ∧ fld t.gut.fatal 10 8 = 127) = true := by decide +kernel

/-! ### EavePerforms (R107, R108, R109, R110, R111, R112, R113, R114, R123, R187) -/

def dat (v : BitVec 256) : Shingle := encodeShingle v
def homed (f : Frame) : State := { bayRun with eav := { bayRun.eav with eaves := [(31, { Eave.reset with ready := true, homeQ := [entryOf f] })] } }
def storeReq : Frame := { hdr := { reqTo opStore 0 0x80 with len := 1 }, data := [dat 42] }
theorem test_premises_EavePerforms_1 :
    ((.store (.eave 31 0), opStore, false) : Instr × Byte × Bool) ∈ eaveCommands 31 0 ∧
        (homed storeReq).homeTurn 31 0 opStore false = some (entryOf storeReq) ∧ (homed storeReq).weighed storeReq 0 = some (storeReq, []) ∧
        (homed storeReq).dest (ackFrame storeReq.hdr).hdr = .port 1 := by decide +kernel
theorem test_store :
    runs (.store (.eave 31 0)) (homed storeReq) (fun t => t.eav.mem = (eaveResult (homed storeReq) (entryOf storeReq) storeReq).store.mem ∧
        (t.eave 31).homeQ = [] ∧ (let m := 1; let r := eaveResult (homed storeReq) (entryOf storeReq) storeReq;
        ((homed storeReq).frames (portQueue m (vcOf r.frame.hdr)) ++ [r.frame]) = t.frames (portQueue m (vcOf r.frame.hdr))) ∧
        t.jeb = bayRun.jeb ∧ readShingle t.eav.store (shingleIndex bayRun.eav.hashCfg 0) = dat 42) = true := by decide +kernel

/-! ### JalemHome (R120, R149) -/

theorem test_premises_JalemHome_1 :
    ((.store (.jalem (.rafter 0) storeReq), opStore) : Instr × Byte) ∈ jebCommands (.rafter 0) storeReq ∧ portDev (.rafter 0) = .jalem ∧
        (bayRun.port (.rafter 0)).retry.rx = [] ∧ bayRun.jebForm (.rafter 0) storeReq.hdr = none ∧
        (match bayRun.jebHome storeReq.hdr (fpaOffset storeReq.hdr.fpa) (accessBytes storeReq.hdr) with | .ok a => decide (a = 0) | _ => false) = true := by decide +kernel
def wrongTag : Frame := { storeReq with hdr := { storeReq.hdr with bayTag := 0x54 } }
theorem test_premises_JalemHome_2 :
    wrongTag.hdr.course ≠ 6 ∧ bayRun.jebForm (.rafter 0) wrongTag.hdr = some stBayMismatch := by decide +kernel

/-! ### LoadReturnsStore (R107, R108, R119, R182, R183) -/

theorem test_premises_LoadReturnsStore_1 :
    storeReq.hdr.opcode ∈ [opStore, opPut] ∧ (reqTo opLoad 0 0x80).opcode ∈ [opLoad, opGet] ∧
        accessBytes (reqTo opLoad 0 0x80) = 32 * [dat 42].length ∧ bayRun.eav.store.cipher = none ∧
        ([dat 42].all fun w => decide (isMarked w = false)) = true ∧ [dat 42].length ≤ 8 ∧
        ({ storeReq.hdr with poison := 1 } : Header).poison.toNat < 2 ^ [dat 42].length := by decide +kernel
theorem test_premises_LoadReturnsStore_2 :
    (reqTo opAtomic 0 0x80).opcode = opAtomic ∧ (decodeOperand (reqTo opAtomic 0 0x80) [dat 5] 0 0).1 = some 5 ∧
        (decodeAt bayRun.eav.store 0).1 = some 0 ∧ (decodeOperand { reqTo opAtomic 0 0x80 with poison := 1 } [dat 5] 0 0).1 = none := by decide +kernel

/-! ### HomeMemoryFrame (R107, R113, R114, R182) -/

theorem test_premises_HomeMemoryFrame_1 :
    (reqTo opLoad 0 0).opcode ∈ [opLoad, opGet, opWidenLoad] ∧ (reqTo opPut 0 0).opcode ∈ [opStore, opPut] ∧
        (reqTo opAtomic 0 0).opcode = opAtomic ∧ (reqTo opFadd 0 0).opcode = opFadd := by decide +kernel

/-! ### BattenLists (R116, R117, R196) -/

def batReq : Frame := { hdr := { reqTo opBatten 2 0x80 with len := 1, aux := 9 }, data := [dat 0] }
def batState : State := queued bayRun (agentQueue 3 2) batReq
theorem test_premises_BattenLists_1 :
    batState.battenHead 3 = some (entryOf batReq) ∧ (batState.group 3).lists.all (fun b => !b.whole) = true ∧ batReq.hdr.opcode = opBatten ∧ (batState.group 3).lists.length < 64 ∧
        batReq.data.length < listShingles (battenCount batReq.hdr) := by decide +kernel
theorem test_battenAccept :
    runs (.battenAccept 3) batState (fun t => (t.group 3).lists = [{ hdr := batReq.hdr, got := [dat 0], start := 0, port := some 1, order := 0 }] ∧
        t.eav.mem = Mem.empty) = true := by decide +kernel
theorem test_batten :
    runs (.batten (.group 3)) batState (fun t => (t.group 3).lists = [{ hdr := batReq.hdr, got := [dat 0], start := 0, port := some 1, order := 0 }] ∧
        t.eav.mem = Mem.empty) = true := by decide +kernel
def batLong : Frame := { batReq with hdr := { batReq.hdr with aux := 20 } }
def blist : BList := { hdr := batLong.hdr, got := [dat 0], start := 0, port := some 1, order := 0 }
def contReq : Frame := { hdr := { batLong.hdr with opcode := opBattenCont, aux := 0 }, data := [dat 1] }
def contState : State := (queued bayRun (agentQueue 0 2) contReq).setGroup 0 { Group.reset with lists := [blist] }
theorem test_premises_BattenLists_2 :
    contState.battenHead 0 = some (entryOf contReq) ∧ contState.beat ≤ blist.start + 16 ∧ contReq.hdr.opcode = opBattenCont ∧
        (contState.group 0).lists.find? (continues contReq.hdr) = some blist ∧
        blist.got.length + contReq.data.length < listShingles (battenCount blist.hdr) := by decide +kernel
theorem test_battenCont :
    runs (.battenCont (.group 0)) contState (fun t => (t.group 0).lists = [blist.extend contReq] ∧
        t.eav.mem = Mem.empty) = true := by decide +kernel
theorem test_premises_BattenLists_3 :
    (contState.group 0).lists[0]? = some blist ∧ contState.tim.refclkOk = true ∧ contState.tim.fifths ≤ 5120 * (16 : W64).toNat ∧
        blist.start + 16 ≤ (16 : W64).toNat ∧ contState.dest (errorFrame blist.hdr stListIncomplete).hdr = .port 1 := by decide +kernel
theorem test_listIncomplete :
    runs (.listIncomplete (.group 0 0) 16) contState (fun t => (t.group 0).lists = [] ∧ t.eav.mem = Mem.empty ∧
        t.frames (portQueue 1 (vcOf (errorFrame blist.hdr stListIncomplete).hdr)) = [errorFrame blist.hdr stListIncomplete]) = true := by decide +kernel
theorem test_premises_BattenLists_4 :
    portDev (.rafter 0) = .jalem ∧ bayRun.jebForm (.rafter 0) { batReq.hdr with fpa := fpaOf 0xFF 0 0 } = none ∧
        ([] : List (Shingle × Bool)).length ≤ 524288 := by decide +kernel

/-! ### StacksAndScrub (R189, R198) -/

theorem test_premises_StacksAndScrub_1 :
    (bayRun.eave 31).failed = false ∧ (homed storeReq).eave 31 ≠ Eave.reset ∧ ((homed storeReq).eave 31).homeQ ≠ [] ∧
        (homed storeReq).tim.refclkOk = true ∧ (homed storeReq).tim.fifths ≤ 5120 * (1024 : W64).toNat ∧
        ((homed storeReq).eave 31).lastDone + 1024 ≤ (1024 : W64).toNat ∧ bayRun.admitted = true ∧
        bayRun.gut.phase = .none := by decide +kernel
def stackDown : State := bayRun.setEave 0 { Eave.reset with retraining := true }
theorem test_premises_StacksAndScrub_2 :
    (stackDown.eave 0).failed = false ∧ (stackDown.eave 0).retraining = true := by decide +kernel
theorem test_stackRetraining :
    runs (.stackRetraining 31) (homed storeReq) (fun t => t.homeTurn 31 0 opStore false = none ∧
        t = { homed storeReq with eav := { (homed storeReq).eav with eaves := t.eav.eaves } }) = true := by decide +kernel
theorem test_stackRetrained :
    runs (.stackRetrained 0) stackDown (fun t => (t.eave 0).retraining = false) = true := by decide +kernel
/-- A gather of page 0 that has all its shingles, and an eave of that page that retrains. -/
def wholeList : BList := { blist with hdr := { batLong.hdr with aux := 1 } }
def gatherHeld : State := stackDown.setGroup 0 { Group.reset with lists := [wholeList] }
theorem test_premises_StacksAndScrub_5 :
    stackDown.eav.groups = [] ∧ wholeList.entries (wholeList.hdr.poison ≠ 0) = .ok [0] ∧
        collectPages (gatherHeld.pageCheck wholeList.hdr) [0] = .ok [(openWindow, 0)] ∧ 0 < pageBytes wholeList.hdr / 256 ∧
        (eaveOf gatherHeld.eav.hashCfg (openWindow.moduleAddr (0 + 256 * 0))).1 = 0 ∧ (gatherHeld.eave 0).retraining = true := by decide +kernel
theorem test_gatherWaits :
    gatherHeld.settleLists = gatherHeld ∧ runs (.stackRetrained 0) gatherHeld (fun t => (t.group 0).lists = []) = true := by decide +kernel
theorem test_stackTrainingLost :
    runs (.stackTrainingLost 0) stackDown (fun t => (t.eave 0).failed && !(t.eave 0).ready && torn t 14) = true := by decide +kernel
theorem test_homeQueueStopped :
    runs (.homeQueueStopped 31 1024) (homed storeReq) (fun t => (t.eave 31).failed && torn t 14) = true := by decide +kernel
def scrubbed : State := { bayRun with eav := { bayRun.eav with eaves := [(31, { Eave.reset with scrubShingle := eaveShingles - 1 })] } }
theorem test_premises_StacksAndScrub_3 :
    bitAt scrubbed.eav.scrubCfg 0 = true ∧ (scrubbed.eave 31).failed = false ∧ (scrubbed.eave 31).zeroizing = false ∧
        markedAt (scrubbed.eav.store.disturb (32 * eaveShingles - 1) 1) (32 * eaveShingles - 1) = false ∧
        decodeShingle (readShingle (scrubbed.eav.store.disturb (32 * eaveShingles - 1) 1) (32 * eaveShingles - 1)) = .corrected 0 := by decide +kernel
def noScrub : State := { scrubbed with eav := { scrubbed.eav with scrubCfg := 0 } }
theorem test_premises_StacksAndScrub_4 :
    bitAt noScrub.eav.scrubCfg 0 = false ∧ (2 : W16) ≠ 0 := by decide +kernel
theorem test_patrolScrub :
    runs (.patrolScrub 31 1 0) scrubbed (fun t => readShingle t.eav.store (32 * eaveShingles - 1) = 0 && t.eav.mem = Mem.empty &&
        (t.eave 31).err = satFld (0:W64) 16 16 1 && (t.eave 31).scrubShingle = 0 && cnt scrubbed t 13 1) = true := by decide +kernel

/-! ### DurableCommands (R203) -/

def durIn (st : DurState) : State := { bayRun with eav := { bayRun.eav with durs := [(15, { Dur.reset with state := st, base := 0x200000, limit := 0x200000 })] } }
theorem test_premises_DurableCommands_1 :
    (bayRun.dur 15).state = .empty ∧ bayRun.regionOk 15 (bayRun.dur 15) = true ∧ ((durIn .loading).dur 15).state = .loading ∧
        ((durIn .sealed).dur 15).state = .sealed ∧ ((durIn .silvering).dur 15).state = .silvering ∧
        ((durIn .lost).dur 15).state ≠ .empty := by decide +kernel
theorem test_premises_DurableCommands_2 :
    ((durIn .loading).dur 15).state ≠ .empty ∧ ((durIn .sealed).dur 15).state ≠ .loading ∧ ((durIn .loading).dur 15).state ≠ .sealed ∧
        ((durIn .loading).dur 15).state ≠ .silvering := by decide +kernel
theorem test_define :
    runs (.define 15) bayRun (fun t => t.dur 15 = { Dur.reset with state := .loading }) = true := by decide +kernel
theorem test_sealRegion :
    runs (.sealRegion 15) (durIn .loading) (fun t => (t.dur 15).state = .sealing) = true := by decide +kernel
theorem test_reopen :
    runs (.reopen 15) (durIn .sealed) (fun t => (t.dur 15).state = .loading) = true := by decide +kernel
theorem test_silver :
    runs (.silver 15) bayRun (fun t => (t.dur 15).state = .silvering) = true := by decide +kernel
theorem test_advance :
    runs (.advance 15) (durIn .silvering) (fun t => (t.dur 15).mark = 1 ∧ (t.dur 15).state = .verifying) = true := by decide +kernel
theorem test_declareLost :
    runs (.declareLost 15) (durIn .sealed) (fun t => (t.dur 15).state = .lost) = true := by decide +kernel
theorem test_dissolve :
    runs (.dissolve 15) (durIn .sealed) (fun t => (t.dur 15).state = .empty) = true := by decide +kernel

theorem test_premises_DurableCommands_3 :
    bayRun.served = true ∧ bayRun.admitted = true ∧ bayRun.sof.thatchRun = true ∧ ((durIn .sealing).dur 15).state = .sealing ∧
        ((durIn .verifying).dur 15).state = .verifying ∧ ((durIn .sealing).dur 15).state ≠ .empty ∧
        regAt .module (0x4A0F00 : W32).toNat = some (.durBase 15) ∧ regAt .module (0x4A0F08 : W32).toNat = some (.durLimit 15) ∧
        regAt .module (0x4A0FA8 : W32).toNat = some (.durExpect 15 5) ∧ (Instr.dissolve 15, 7) ∈ [(Instr.define 15, 1), (.dissolve 15, 7)] := by decide +kernel
theorem test_durCtl :
    runs (.registerWrite .inBand .module 0x4A0F10 false 2) (durIn .loading) (fun t => (t.dur 15).state = .sealing) = true := by decide +kernel
theorem test_resetDur :
    runs (.resetNLow 10) (durIn .verifying) (fun t => t.dur 15 = { (durIn .verifying).dur 15 with state := .silvering }) = true := by decide +kernel
/-- A region that asks for weight encryption under slot 0, while it is LOADING. -/
def weighing : State := { durIn .loading with sec := { bayRun.sec with weights := [(15, 1)], weightKeys := [(0, some 5)] } }
theorem test_premises_LoadReturnsStore_3 :
    (weighing.weighed storeReq 0x200000).isSome = true ∧ (weighing.weightAt 0x200000).isSome = true ∧ storeReq.hdr.opcode ∈ [opStore, opPut] ∧
        accessBytes (reqTo opLoad 0 0x80) = 32 * storeReq.data.length ∧ poisoned storeReq.hdr 0 = false ∧
        (storeReq.data.all fun w => (decodeShingle w).data.isSome) = true := by decide +kernel

/-! ### DurableStates (R201, R202, R203) -/

/-- A memory that nothing has written decodes everywhere. -/
theorem decodeAt_empty (i : Nat) : decodeAt { mem := Mem.empty, cipher := none } i = (some 0, []) := by
  have r : readShingle { mem := Mem.empty, cipher := none } i = 0 := by
    simp [readShingle, Store.reveal, readCells, Mem.empty, Tab.get, upFrom, natOfBytes]
  have m : markedAt { mem := Mem.empty, cipher := none } i = false := by
    rw [markedAt, r]
    exact (Bool.or_eq_false_iff).mpr ⟨rfl, by decide +kernel⟩
  rw [decodeAt, m, r, show decodeShingle 0 = .clean 0 by decide +kernel, if_neg Bool.false_ne_true]
  exact Prod.ext (congrArg some (by decide +kernel)) rfl
theorem test_premises_DurableStates_4 : ({ bayRun with sof := { bayRun.sof with thatchFailed := true } } : State).served = false := by decide +kernel
theorem test_premises_DurableStates_1 : ((durIn .sealing).dur 15).state = .sealing ∧ ((durIn .verifying).dur 15).state = .verifying := by
  decide +kernel
theorem test_premises_DurableStates_2 (d : Dur) : ∃ v, (durIn .sealing).regionDigest d = some v := by
  refine ⟨_, if_pos (List.all_eq_true.mpr fun c _ => List.all_eq_true.mpr fun p hp => ?_)⟩
  obtain ⟨k, _, rfl⟩ := List.mem_map.mp hp
  exact (congrArg (fun r => r.1.isSome) (decodeAt_empty _)).trans rfl
/-- The first shingle of the region is marked as lost. -/
def lostShingle : State :=
    { durIn .sealing with eav := { (durIn .sealing).eav with mem := { Mem.empty with marked := [(shingleIndex bayRun.eav.hashCfg 0x200000, true)] } } }
theorem test_premises_DurableStates_3 : lostShingle.regionDigest (lostShingle.dur 15) = none := by
  rw [State.regionDigest]
  refine if_neg fun h => ?_
  have hc := List.all_eq_true.mp h 0 (List.mem_range.mpr (by decide +kernel))
  have hp := List.all_eq_true.mp hc _ (List.mem_map.mpr ⟨0, List.mem_range.mpr (by omega), rfl⟩)
  exact absurd hp (by decide +kernel)

/-! ### TransfersChecked (R142, R143, R144, R145, R156, R164) -/

def xfer0 : Transfer := { op := .load, attr := 0, engine := 7, task := 3, ctx := 0, rva := 0x10000, lva := 0x20000, rows := 1, rowBytes := 32, rpitch := 32, lpitch := 32, comp := none, ord := 0, operand := 0, entries := [] }
def mapped : State := { bayRun with jeb := { bayRun.jeb with ctxs := [(0, 1)], cache := [⟨0, 0, 1, 0xFF8000000000001D⟩, ⟨0, 0, 2, 0x1D⟩] } }
theorem test_premises_TransfersChecked_1 :
    xfer0.engine.toNat < 0xFE ∧ (mapped.engine 7).queue = [] ∧ (∀ r ∈ mapped.jeb.reqs, r.hdr.srcEngine ≠ 7) ∧
        mapped.jeb.stopped = false ∧ ordOk xfer0 = true ∧ xfer0.task ∉ mapped.jeb.faulted ∧
        ordOk { xfer0 with ord := 7 } = false := by decide +kernel
theorem test_premises_TransfersChecked_2 :
    (match (mapped.jeb.check mapped.freeNat xfer0).1 with | .pass [p] _ _ => decide (p.bytes = 32) | _ => false) = true := by decide +kernel
theorem test_premises_TransfersChecked_3 :
    (mapped.jeb.check mapped.freeNat { xfer0 with rows := 0 }).1 = .code 0x52 := by decide +kernel
theorem test_premises_TransfersChecked_4 :
    (match (bayRun.jeb.check bayRun.freeNat xfer0).1 with | .fault f => decide (f.granule = 1 ∧ f.bad = 2) | _ => false) = true ∧
        bayRun.jeb.fltFull = false ∧ bayRun.jeb.reqs = [] := by decide +kernel
def fullRing : State := { bayRun with jeb := { bayRun.jeb with fltTail := 63 } }
theorem test_premises_TransfersChecked_5 :
    (match (fullRing.jeb.check fullRing.freeNat xfer0).1 with | .fault _ => true | _ => false) = true ∧
        fullRing.jeb.fltFull = true := by decide +kernel
theorem test_transfer :
    runs (.transfer xfer0) ({ mapped with jeb := { mapped.jeb with stopped := true } }) (fun t => t.outputs = [.done 7 0 stTeardown 0]) = true := by decide +kernel

/-! ### FencesAndFaultRing (R144, R145, R164, R173) -/

theorem test_premises_FencesAndFaultRing_1 :
    ({ engine := 7, task := 0, kind := 2, comp := some 9, ord := 0 } : FenceReq).comp = some 9 ∧
        ({ engine := 7, task := 0, kind := 2, comp := none, ord := 0 } : FenceReq).engine.toNat < 0xFE ∧ (bayRun.engine 7).queue = [] ∧ bayRun.jeb.reqs = [] ∧
        bayRun.jeb.engines = [] ∧ bayRun.jeb.fltWait = [] := by decide +kernel
theorem test_fence :
    runs (.fence { engine := 7, task := 0, kind := 2, comp := some 9, ord := 0 }) bayRun (fun t => t.outputs = [.done 7 0 0 0] ∧
        (t.engine 7).queue = [] ∧ t.jeb.sig = [(9, 1)]) = true := by decide +kernel
theorem test_jebFltResume :
    runs (.jebFltResume 3) ({ bayRun with jeb := { bayRun.jeb with faulted := [3, 4] } }) (fun t => t.jeb.faulted = [4]) = true := by decide +kernel
theorem test_jebFltHead :
    runs (.jebFltHead 1) ({ bayRun with jeb := { bayRun.jeb with fltTail := 1, event := true } }) (fun t => t.jeb.fltHead = 1 ∧
        t.jeb.event = false) = true := by decide +kernel
def faultInfo0 : FaultInfo := ⟨1, 0, 0, false, 1⟩
def faultBy0 : FaultBy := ⟨3, 0, 7, 0, 4, 1000⟩
def recordWaits : State := { fullRing with jeb := { fullRing.jeb with fltWait := [(faultInfo0, faultBy0)] } }
theorem test_premises_FencesAndFaultRing_2 :
    recordWaits.jeb.fltWait = [(faultInfo0, faultBy0)] ∧
        (recordWaits.jeb.fltTail.toNat + 1) % ringSize recordWaits.jeb.fltSize ≠ fld (1 : W32) 0 16 % ringSize recordWaits.jeb.fltSize := by decide +kernel

/-! ### RequestsIssued (R146, R171) -/

def waitingX : Xfer := { id := 0, t := xfer0, fmode := false, toIssue := [⟨0xFF80000000000000, 32, 0x20000⟩], lmap := [(2, 0)], failed := none, issued := false, sent := false, broken := false, value := 0, serial := none }
def withXfer (x : Xfer) : State := { mapped with jeb := { mapped.jeb with engines := [(7, ⟨[.xfer x], false, 0⟩)], nextXfer := 1 } }
theorem test_premises_RequestsIssued_1 :
    (withXfer waitingX).jeb.stopped = false ∧
        (match (withXfer waitingX).nextIssue 7 with | some (x, some (p, path)) => decide (x = waitingX ∧ p = ⟨0xFF80000000000000, 32, 0x20000⟩ ∧ path.link = some 0 ∧
          ((withXfer waitingX).jeb.framesOf x p path.course (bitAt ((withXfer waitingX).rport 0).train.features featWiden) ((withXfer waitingX).jeb.freeTag 7)).1 ≠ []) | _ => false) = true ∧
        xfer0.op ≠ .batten := by decide +kernel
theorem test_premises_RequestsIssued_3 :
    (withXfer waitingX).wholeXfer 7 = none ∧ (withXfer waitingX).jeb.reqs = [] ∧ ((withXfer waitingX).engine 7).queue = [.xfer waitingX] := by decide +kernel
def brokenX : Xfer := { waitingX with t := { xfer0 with op := .store, ord := 2 }, broken := true }
theorem test_premises_RequestsIssued_2 :
    (match (withXfer brokenX).nextIssue 7 with | some (x, none) => decide (x = brokenX) | _ => false) = true := by decide +kernel
theorem test_transferIssue :
    runs (.transferIssue 7) (withXfer brokenX) (fun t => t.outputs = [.done 7 0 0x53 0] ∧ t.jeb.reqs = [] ∧
        t.eav = bayRun.eav) = true := by decide +kernel

/-! ### ResponsesComplete (R118, R119, R147, R150, R166) -/

def issuedX : Xfer := { waitingX with toIssue := [], issued := true }
def req0 : Req := { xfer := 0, hdr := { hdr0 with opcode := opLoad, srcEngine := 7, tag := 5 }, link := some 0, spec := ⟨0xFF80000000000000, 32, 0x20000⟩, widen := none, bucket := none, epoch := 0, held := [] }
def outstanding : State := { withXfer issuedX with jeb := { (withXfer issuedX).jeb with reqs := [req0] } }
def rspLoad : Frame := { hdr := { hdr0 with opcode := opLoadData, sub := 1, len := 1, srcEngine := 7, tag := 5, bayTag := 0x55 }, data := [dat 77] }
theorem test_premises_ResponsesComplete_1 :
    (outstanding.rport 0).retry.rx = [] ∧ isResponse rspLoad.hdr = true ∧
        formOk rspLoad.hdr (outstanding.rport 0).train.features true = true ∧ outstanding.jeb.tagged = true ∧
        rspLoad.hdr.course ≠ 6 ∧ rspLoad.hdr.bayTag = outstanding.jeb.tag ∧ outstanding.jeb.reqs = [req0] ∧ req0.hdr.srcEngine = rspLoad.hdr.srcEngine ∧
        req0.hdr.tag = rspLoad.hdr.tag ∧ req0.link.isSome = true ∧ req0.held = [] ∧ (outstanding.engine 7).queue = [.xfer issuedX] ∧
        issuedX.id = req0.xfer ∧ issuedX.toIssue = [] ∧ issuedX.issued = true ∧ issuedX.failed = none ∧ issuedX.t.comp = none ∧
        endsRequest rspLoad = true ∧ outstanding.jeb.stopped = false ∧ rspLoad.hdr.status = stOk ∧ remoteRead issuedX.t.op = true ∧
        rspLoad.hdr.opcode ≠ opGetData ∧ req0.widen = none := by decide +kernel
theorem test_premises_ResponsesComplete_2 :
    bayRun.matchReq rspLoad.hdr = none ∧ bayRun.jeb.reports = [] := by decide +kernel
theorem test_responseArrival :
    runs (.responseArrival (.rafter 0) rspLoad) bayRun (fun t => t.jeb.err0 = 1 ∧ t = { bayRun with jeb := t.jeb }) = true := by decide +kernel
/-- A request that no table lists, at a tray port: it is answered BAD_REQUEST (R60). -/
def strayAtTray : Frame := { hdr := { hdr0 with opcode := 0x7E, course := 4, srcNode := 1, bayTag := 0x55, tag := 3 }, data := [] }
theorem test_strayAtTray :
    runs (.responseArrival (.tray 0) strayAtTray) { bayRun with jeb := { bayRun.jeb with ports := [(18, livePort)] } } (fun t =>
        (t.port (.tray 0)).txq = [errorFrame strayAtTray.hdr stBadRequest]) = true := by decide +kernel

/-! ### InvalidationRing (R137, R138, R139, R140) -/

def ringAt (r : HostRead) : State := { bayRun with jeb := { bayRun.jeb with fetched := [r], poolSize := 4, cache := [⟨1, 0, 5, 0x1D⟩, ⟨2, 0, 5, 0x1D⟩] } }
def entryW (l : List W64) : HostRead := { words := l, failed := false, ide := false }
def copyEntry : HostRead := entryW [0x100000001, 1, 0, 0]
theorem test_premises_InvalidationRing_1 :
    (ringAt copyEntry).jeb.ringTurn 1 = some copyEntry ∧ (ringAt copyEntry).jeb.hostOk (entryW [7]) = true ∧
        (ringAt copyEntry).jeb.hostOk { entryW [7] with failed := true } = false := by decide +kernel
theorem test_copy :
    runs (.copy { entryW [7] with failed := true }) (ringAt copyEntry) (fun t => t = { ringAt copyEntry with outputs := [.hostRead 4096 4096 false], jeb := { (ringAt copyEntry).jeb with genErr := true, genCode := 3 } }) = true := by decide +kernel
theorem test_jebInvTail :
    runs (.jebInvTail 3 [copyEntry, copyEntry]) bayRun (fun t => t.jeb.invTail = 3 ∧ t.jeb.invHead = 0 ∧ t.jeb.mem = Mem.empty ∧
        t.outputs.length = 3 ∧ t = { bayRun with jeb := t.jeb, outputs := t.outputs }) = true := by decide +kernel
/-- In RUN an entry read without IDE is bad from its reading on, whatever the state is when its turn comes (R159). -/
theorem test_judgedWhenRead :
    runs (.jebInvTail 1 [{ copyEntry with ide := false }]) { bayRun with jeb := { bayRun.jeb with tdisp := 2 } } (fun t =>
        (t.jeb.fetched.map fun r => r.failed) = [true] ∧ t.jeb.genErr = true ∧ t.jeb.genCode = 3) = true := by decide +kernel
theorem test_premises_InvalidationRing_2 :
    (ringAt (entryW [0x10002, 0x50000, 1, 0])).jeb.ringTurn 2 = some (entryW [0x10002, 0x50000, 1, 0]) ∧ (ringAt (entryW [0x10003, 0, 0,
        0])).jeb.ringTurn 3 = some (entryW [0x10003, 0, 0, 0]) ∧ (ringAt (entryW [4, 0, 0, 0])).jeb.ringTurn 4 = some (entryW [4, 0, 0,
        0]) ∧ (ringAt (entryW [0x700000005, 0, 0, 1])).jeb.ringTurn 5 = some (entryW [0x700000005, 0, 0, 1]) := by decide +kernel
theorem test_invalVa :
    runs (.invalVa) (ringAt (entryW [0x10002, 0x50000, 1, 0])) (fun t => t.jeb.cache = [⟨2, 0, 5, 0x1D⟩] ∧ t.jeb.invHead = 1 ∧
        t.jeb.fetched = []) = true := by decide +kernel
theorem test_invalCtx :
    runs (.invalCtx) (ringAt (entryW [0x20003, 0, 0, 0])) (fun t => t.jeb.cache = [⟨1, 0, 5, 0x1D⟩]) = true := by decide +kernel
theorem test_invalAll :
    runs (.invalAll) (ringAt (entryW [4, 0, 0, 0])) (fun t => t.jeb.cache = []) = true := by decide +kernel
theorem test_gen :
    runs (.gen) (ringAt (entryW [0x700000005, 0, 0, 1])) (fun t => (t.jeb.genWait.any fun w => decide (w.gen = 7 ∧ w.drain = true)) ∧
        t = { ringAt (entryW [0x700000005, 0, 0, 1]) with jeb := { (ringAt (entryW [0x700000005, 0, 0, 1])).jeb with genWait := t.jeb.genWait } }) = true := by decide +kernel
def genWaits : State := { ringAt (entryW [0x700000005, 0, 0, 1]) with jeb := { (ringAt (entryW [0x700000005, 0, 0, 1])).jeb with genWait := some ⟨7, true, [], [], 0⟩ } }
theorem test_premises_InvalidationRing_3 :
    genWaits.jeb.genWait = some ⟨7, true, [], [], 0⟩ ∧ genWaits.jeb.reqs = [] ∧ (∀ i ∈ ([] : List Nat), i ∉ genWaits.jeb.openChecks) := by decide +kernel
theorem test_genComplete :
    runs (.genComplete) genWaits (fun t => t.jeb.genDone = 7 ∧ t.jeb.genWait = none ∧ t.jeb.invHead = 1) = true := by decide +kernel
def ringStopped : State := { ringAt copyEntry with jeb := { (ringAt copyEntry).jeb with genErr := true, genCode := 3 } }
theorem test_premises_InvalidationRing_4 :
    ringStopped.jeb.genErr = true ∧ ringStopped.jeb.fetched.length ≤ 1 := by decide +kernel
theorem test_jebGenErr :
    runs (.jebGenErr) ringStopped (fun t => t.jeb.genErr = false ∧ t.jeb.fetched = [] ∧ t.jeb.invHead = 1) = true := by decide +kernel

theorem test_premises_InvalidationRing_5 :
    genWaits.jeb.genErr = false ∧ (ringAt copyEntry).jeb.ringTurn 2 = none ∧ (ringAt copyEntry).jeb.ringTurn 5 = none ∧
        ringStopped.jeb.ringTurn 1 = none := by decide +kernel
/-- A descriptor pinned to granule 5 of context 1, which an invalidation of that context names. -/
def pinnedDesc : State :=
  { ringAt (entryW [0x10003, 0, 0, 0]) with jeb := { (ringAt (entryW [0x10003, 0, 0, 0])).jeb with sends := [(1023, { src := 0x50000, ctl := 0x408000000000, aux := 0, queued := 1, pins := [(5, 0)] })] } }
theorem test_invalDisarms :
    runs .invalCtx pinnedDesc (fun t => t.desc 1023 = { src := 0x50000, ctl := 0x808000000000, aux := 0, queued := 0, pins := [] }) = true := by decide +kernel

/-! ### JalemEpochs (R92, R93, R94, R148) -/

theorem test_premises_JalemEpochs_1 :
    bayRun.jeb.epochArm = false ∧ bayRun.jeb.tim.sync = true ∧ bayRun.jeb.tim.beat < fld (0x8000000000000001 : W64) 0 54 ∧
        bitAt (0x8000000000000001 : W64) 63 = true ∧ fld (0x8000000000000000 : W64) 0 54 ≤ bayRun.jeb.tim.beat := by decide +kernel
theorem test_jebEpochAt :
    runs (.jebEpochAt (.fabricSide 0) 0x8000000000000001) bayRun (fun t => t.jeb.epochBeat = 1 ∧
        t.jeb.epochArm = true) = true := by decide +kernel
def jebArmed : State := { bayRun with jeb := { bayRun.jeb with epochArm := true, epochBeat := 9, shadowMap := defaultMap + 1, reqs := [{ req0 with bucket := some 0 }, { req0 with bucket := some 1 }] } }
theorem test_premises_JalemEpochs_2 :
    jebArmed.jeb.epochArm = true ∧ jebArmed.jeb.epochBeat.toNat ≤ (9 : W64).toNat ∧ jebArmed.jeb.tim.refclkOk = true ∧
        jebArmed.jeb.tim.fifths < 5120 * (9 : W64).toNat ∧ jebArmed.jeb.moved = [] ∧ (∀ r ∈ jebArmed.jeb.reqs,
        r.epoch ≤ jebArmed.jeb.epochs) := by decide +kernel
theorem test_jebRouteEpoch :
    runs (.jebRouteEpoch 9) jebArmed (fun t => t.jeb.spreadMap = defaultMap + 1 ∧ t.jeb.epochArm = false ∧ t.jeb.epochAt = 9 ∧
        t.jeb.moved = [0] ∧ t.jeb.epochDone = false) = true := by decide +kernel
def movedOpen : State := { bayRun with jeb := { bayRun.jeb with moved := [0, 5], epochAt := 9 } }
theorem test_premises_JalemEpochs_3 :
    movedOpen.jeb.moved ≠ [] ∧ (1033 : W64).toNat = movedOpen.jeb.epochAt + 1024 ∧ (16393 : W64).toNat = movedOpen.jeb.epochAt + 16384 ∧
        movedOpen.admitted = true ∧ movedOpen.gut.phase = .none := by decide +kernel
theorem test_movedBucketUndrained :
    runs (.movedBucketUndrained 1033) movedOpen (fun t => cnt movedOpen t 9 2 && t.jeb.moved = [0, 5]) = true := by decide +kernel
theorem test_movedBucketFatal :
    runs (.movedBucketFatal 16393) movedOpen (fun t => torn t 8 && t.jeb.moved = [0, 5]) = true := by decide +kernel

/-! ### PostedFrames (R151, R152, R372) -/

def segReq : Frame := { hdr := { reqTo opSeg 1 0 with len := 2, attr := 0x80, aux := 0x00300000 }, data := [dat 1, dat 2] }
def sigReq : Frame := { hdr := { reqTo opSignal 1 0 with fpa := fpaOf 0xFF 0 0x10000 }, data := [] }
theorem test_premises_PostedFrames_1 :
    portDev (.rafter 0) = .jalem ∧ segReq.hdr.course ≠ 6 ∧ segReq.hdr.opcode = opSeg ∧ sigReq.hdr.course ≠ 6 ∧ (bayRun.port (.rafter 0)).retry.rx = [] ∧
        bayRun.postedAt (.rafter 0) segReq.hdr (fpaOffset segReq.hdr.fpa) (accessBytes segReq.hdr) = some 0 ∧
        bayRun.postedAt (.rafter 0) { segReq.hdr with srcNode := 1, bayTag := 0 } 0 64 = none ∧ sigReq.hdr.opcode = opSignal ∧
        bayRun.postedAt (.rafter 0) sigReq.hdr (fpaOffset sigReq.hdr.fpa / 32 * 32) 32 = none ∧
        bayRun.postedAt (.rafter 0) (reqTo opSignal 1 0) 0 32 = some 0 := by decide +kernel
theorem test_seg :
    runs (.seg (.rafter 0) segReq) bayRun (fun t => readShingle t.jeb.store 0 = dat 1 ∧ readShingle t.jeb.store 1 = dat 2 ∧
        readShingle t.jeb.store 2 = 0 ∧ t.jeb.sig = [(counterOf segReq.hdr, 1)] ∧ (t.port (.rafter 0)).txq = []) = true := by decide +kernel
theorem test_signal :
    runs (.signal (.rafter 0) { hdr := reqTo opSignal 1 0, data := [] }) bayRun (fun t => t.jeb.sig = [(0, 1)]) = true := by decide +kernel

/-! ### SendDescriptors (R154, R178, R235) -/

def descCtl : W64 := BitVec.ofNat 64 (2 + 7 * 2 ^ 26 + 2 ^ 38)
def descCached : State := { mapped with jeb := { mapped.jeb with sends := [(1023, { SendDesc.reset with src := 0x20000 })] } }
def armedDesc (q : Byte) : State := { mapped with jeb := { mapped.jeb with sends := [(1023, { src := 0x20000, ctl := descCtl ||| 0x400000000000, aux := 0, queued := q, pins := [(2, 0)] })] } }
theorem test_premises_SendDescriptors_1 :
    (let d : SendDesc := { descCached.desc 1023 with ctl := accessWrite sendCtlMask 0 0 (descCtl ||| 0x400000000000) };
        bitAt (descCtl ||| 0x400000000000) 46 = true ∧ d.port ≠ none ∧ 0 < d.shingles ∧ d.shingles ≤ 8192 ∧
        (match (descCached.jeb.checkTile descCached.freeNat d).1 with | .ok pins => decide (pins = [(2, 0)]) | _ => false) = true) := by decide +kernel
theorem test_premises_SendDescriptors_2 :
    (let d : SendDesc := { bayRun.desc 1023 with ctl := accessWrite sendCtlMask 0 0 (descCtl ||| 0x400000000000) };
        (match (bayRun.jeb.checkTile bayRun.freeNat d).1 with | .ok _ => false | .error _ => true) = true ∧ bayRun.jeb.fltFull = false ∧
        bayRun.jeb.fltWait = []) := by decide +kernel
theorem test_premises_SendDescriptors_3 :
    ((armedDesc 254).desc 1023).armed = true ∧ ((armedDesc 254).desc 1023).queued ≠ 255 ∧ ((armedDesc 255).desc 1023).queued = 255 ∧
        (bayRun.desc 1023).armed = false ∧ ((armedDesc 1).desc 1023).port = some (.rafter 0) ∧ ((armedDesc 1).desc 1023).queued ≠ 0 ∧
        (armedDesc 1).jeb.stopped = false ∧ (armedDesc 1).linkReady (.rafter 0) = true ∧
        bitAt ((armedDesc 1).port (.rafter 0)).train.features featTileSig = true := by decide +kernel
theorem test_sendArm :
    runs (.sendArm 1023 (descCtl ||| 0x400000000000)) descCached (fun t => (t.desc 1023).armed = true ∧ (t.desc 1023).pins = [(2, 0)] ∧
        bitAt (t.desc 1023).ctl 47 = false ∧ t.jeb.mem = Mem.empty) = true := by decide +kernel
theorem test_sendGo :
    runs (.sendGo 1023) (armedDesc 254) (fun t => (t.desc 1023).queued = 255) = true := by decide +kernel

/-! ### JalemStops (R156, R158, R160, R295, R299) -/

def mgmtFrame (op : Byte) (aux : W64) : Frame :=
    { hdr := { hdr0 with opcode := op, course := 4, fpa := fpaOf 0xFF 0 0, srcNode := 0x80, srcEngine := 0xFB, bayTag := 0x55, tag := 3, aux := aux }, data := [] }
theorem test_premises_JalemStops_1 :
    (mgmtFrame opTeardown 0).hdr.opcode = opTeardown ∧ teardownAction (mgmtFrame opTeardown 0).hdr = 0 ∧ (bayRun.rport 0).retry.rx = [] ∧
        bayRun.jebControl (.rafter 0) (mgmtFrame opTeardown 0).hdr = none ∧ bayRun.jeb.stopped = false ∧ bayRun.jeb.engines = [] ∧
        bayRun.jeb.reqs = [] ∧ bayRun.jeb.stopAcks = [] ∧ bayRun.jeb.reportDue = false := by decide +kernel
theorem test_jebTeardown :
    runs (.jebTeardown (.rafter 0) (mgmtFrame opTeardown 0)) bayRun (fun t => t.jeb.stopped = true ∧ t.jeb.shadowMap = defaultMap ∧
        (t.rport 0).txq = [ackFrame (mgmtFrame opTeardown 0).hdr] ∧ t.jeb.stopDone = true) = true := by decide +kernel
def parked1 : State := { bayRun with jeb := { bayRun.jeb with engines := [(7, ⟨[.parked 4 xfer0 false false], false, 0⟩)] } }
theorem test_premises_JalemStops_2 :
    parked1.jeb.engines = [((7 : Byte).toNat, ⟨[.parked 4 xfer0 false false], false, 0⟩)] ∧ parked1.jeb.reqs = [] := by decide +kernel
def stoppedJ : State := { bayRun with jeb := { bayRun.jeb with stopped := true, stopDone := true, resumed := [1] } }
theorem test_premises_JalemStops_3 :
    (mgmtFrame opTeardown 1).hdr.opcode = opTeardown ∧ teardownAction (mgmtFrame opTeardown 1).hdr = 1 ∧
        stoppedJ.jebControl (.rafter 0) (mgmtFrame opTeardown 1).hdr = none ∧ stoppedJ.jeb.stopped = true ∧ stoppedJ.jeb.stopDone = true ∧
        (∀ l : Fin 18, (stoppedJ.rport l).train.state = .active → l = 0 ∨ l ∈ stoppedJ.jeb.resumed) := by decide +kernel
theorem test_teardownResume :
    runs (.teardownResume (.rafter 0) (mgmtFrame opTeardown 1)) stoppedJ (fun t => t.jeb.stopped = false ∧ t.jeb.stopDone = false ∧
        (t.rport 0).txq = [ackFrame (mgmtFrame opTeardown 1).hdr]) = true := by decide +kernel
theorem test_premises_JalemStops_4 :
    bayRun.jeb.tdisp ≠ 3 ∧ bayRun.jeb.stopped = false ∧ (2 : BitVec 2) ≠ 3 := by decide +kernel
theorem test_premises_JalemStops_5 :
    ((List.finRange 18).find? fun q => decide ((bayRun.rport q).train.state = .active)) = some 0 := by decide +kernel
theorem test_tdispError :
    runs (.tdispError) bayRun (fun t => t.jeb.tdisp = 3 ∧ t.jeb.stopped = true ∧
        ((t.rport 0).txq.any fun g => decide (g.hdr.opcode = opCtrlWr ∧ fpaOffset g.hdr.fpa = 0x00700600 ∧
        g.data = [encodeShingle 1])) = true) = true := by decide +kernel
theorem test_tdispStateChange :
    runs (.tdispStateChange 2 true) bayRun (fun t => t = { bayRun with jeb := { bayRun.jeb with tdisp := 2, ideOk := true } }) = true := by decide +kernel

/-! ### KeysAtJalem (R155, R157, R265, R266, R267, R268, R269, R270, R271, R272, R273) -/

def keyFrame (action : Nat) (len : BitVec 4) (data : List Shingle) : Frame :=
    { hdr := { (mgmtFrame opKey 0).hdr with len := len, aux := BitVec.ofNat 64 (action + 1 * 16 + if action = 1 then 9 * 2 ^ 8 + 0x55 * 2 ^ 16 + 6 * 2 ^ 32 else 0) }, data := data }
def kek : BitVec 256 := 0x1F1E1D1C1B1A191817161514131211100F0E0D0C0B0A09080706050403020100
def jebFresh : State := { bayRun with jeb := { bayRun.jeb with tagged := false, transport := some kek } }
theorem test_premises_KeysAtJalem_1 :
    (keyFrame 3 0 []).hdr.opcode = opKey ∧ keyAction (keyFrame 3 0 []).hdr = 3 ∧ (keyFrame 3 0 []).hdr.course ≠ 6 ∧ (bayRun.port (.rafter 0)).retry.rx = [] ∧
        portDev (.rafter 0) = .jalem ∧ bayRun.jebKeyCheck (.rafter 0) (keyFrame 3 0 []).hdr = none ∧
        bayRun.jebKeyCheck (.rafter 0) { (keyFrame 3 0 []).hdr with bayTag := 0 } = some stBayMismatch ∧
        keyAction (keyFrame 4 0 []).hdr = 4 ∧ bayRun.jebKeyCheck (.rafter 0) (keyFrame 4 0 []).hdr = none ∧ ((3,
        .keyRetire (.rafter 0) (keyFrame 3 0 [])) : Nat × Instr) ∈ [(1, Instr.keyInstall (.rafter 0) (keyFrame 3 0 [])), (2,
        .keyActivate (.rafter 0) (keyFrame 3 0 [])), (3, .keyRetire (.rafter 0) (keyFrame 3 0 [])), (4,
        .keyDestroy (.rafter 0) (keyFrame 3 0 []))] := by decide +kernel
theorem test_premises_KeysAtJalem_2 :
    jebFresh.jeb.tagged = false ∧ keyAction (keyFrame 1 2 [dat 0, dat 0]).hdr = 1 ∧
        jebFresh.jebKeyCheck (.rafter 0) (keyFrame 1 2 [dat 0, dat 0]).hdr = none ∧
        (match controlData (keyFrame 1 2 [dat 0, dat 0]) with | .ok d => decide (d.length = 2) | _ => false) = true ∧
        jebFresh.jeb.transport = some kek := by decide +kernel
def jebKeyed : State := { bayRun with jeb := { bayRun.jeb with keys := [(1, some ⟨5, 6⟩)], ports := [(0, { livePort with sealing := Port.reset.sealing })] } }
def activateFrame : Frame := keyFrame 2 1 [dat 1000]
theorem test_premises_KeysAtJalem_3 :
    jebKeyed.jebKeyCheck (.rafter 0) activateFrame.hdr = none ∧ keyAction activateFrame.hdr = 2 ∧
        jebKeyed.portKey (.rafter 0) (keySlot activateFrame.hdr) = some ⟨5, 6⟩ ∧
        (match controlData activateFrame with | .ok d => decide (d = [1000]) | .error _ => false) = true ∧
        (jebKeyed.port (.rafter 0)).sealing.rxOn = false ∧ (jebKeyed.port (.rafter 0)).retry.rx = [] ∧ (jebKeyed.port (.rafter 0)).sealing.rxFirst = none := by decide +kernel
theorem test_keyRetire :
    runs (.keyRetire (.rafter 0) (keyFrame 3 0 [])) bayRun (fun t => (t.port (.rafter 0)).txq = [ackFrame (keyFrame 3 0 []).hdr] ∧
        t.jeb.tag = 0x55 ∧ t.sec = bayRun.sec) = true := by decide +kernel
theorem test_keyDestroy :
    runs (.keyDestroy (.rafter 0) (keyFrame 4 0 [])) jebKeyed (fun t => (t.port (.rafter 0)).txq = [ackFrame (keyFrame 4 0 []).hdr] ∧
        t.jeb.keys = [] ∧ t.jeb.tagged = false ∧ t.jeb.wins = [] ∧ t.jeb.zPending = true ∧ t.jeb.zDone = false ∧
        (t.port (.rafter 0)).sealing.txOn = false) = true := by decide +kernel
def keyAtModule (a : Nat) (len : BitVec 4) : Frame :=
    { hdr := { reqTo opKey 4 0x80 with len := len, aux := BitVec.ofNat 64 (a + if a = 1 then 1 * 16 + 9 * 2 ^ 8 + 0x55 * 2 ^ 16 else 0) }
      data := List.replicate len.toNat (dat 0) }
theorem test_premises_KeysAtJalem_4 :
    ([keyAtModule 1 2, keyAtModule 2 1, keyAtModule 3 0, keyAtModule 4 0].all fun f =>
        decide (f.hdr.opcode = opKey) && taken (bayRun.agentTake agSoffit 1 f) fun u => !u.hipPartner 1 f.hdr) = true ∧
        [keyAtModule 1 2, keyAtModule 2 1, keyAtModule 3 0, keyAtModule 4 0].map (fun f => keyAction f.hdr) = [1, 2, 3, 4] := by decide +kernel
theorem test_keyInstall :
    runs (.keyInstall (.module 1) (keyAtModule 1 2)) bayRun (fun t => t.frames (portQueue 1 (vcOf (errorFrame (keyAtModule 1 2).hdr stNoRight).hdr)) = [errorFrame (keyAtModule 1 2).hdr stNoRight]) = true := by decide +kernel
def trayRetry : State := { bayRun with jeb := { bayRun.jeb with ports := [(18, livePort)], retryAct := some 1 } }
theorem test_premises_KeysAtJalem_5 :
    trayRetry.jeb.retryAct = some 1 ∧ (trayRetry.port (.tray 0)).train.state = .active := by decide +kernel
theorem test_activateRetry :
    runs (.activateRetry 1) trayRetry (fun t => (t.port (.tray 0)).txq.length = 1 ∧
        ((t.port (.tray 0)).txq.all fun g => decide (g.hdr.opcode = opKey ∧ keyAction g.hdr = 2 ∧
        keySlot g.hdr = 1)) = true) = true := by decide +kernel
theorem test_jebReset :
    runs (.jebReset) jebKeyed (fun t => t.jeb.keys = [] ∧ t.jeb.tagged = false ∧ t.jeb.wins = [] ∧
        t.ports = jebKeyed.ports) = true := by decide +kernel
theorem test_jebResetWaits :
    runs .jebReset { jebKeyed with jeb := { jebKeyed.jeb with waits := [(3, 5), (4, 0)] } } (fun t => t.jeb.waits = [(3, 5)] ∧
        t.outputs = jebKeyed.outputs ++ [.waitOver 4 0]) = true := by decide +kernel

/-! ### ControlAccesses (R120, R150, R161, R342, R344) -/

def ctrlFrame (op : Byte) (node : Nat) (off : Nat) (len : BitVec 4) (data : List Shingle) : Frame :=
    { hdr := { (mgmtFrame op 0).hdr with len := len, fpa := fpaOf 0xFF node off }, data := data }
def rdJ : Frame := ctrlFrame opCtrlRd 0 0 0 []
def wrJ : Frame := ctrlFrame opCtrlWr 0 0x1040 1 [dat 0x500]
theorem test_premises_ControlAccesses_1 :
    portDev (.rafter 0) = .jalem ∧ rdJ.hdr.opcode = opCtrlRd ∧ wrJ.hdr.opcode = opCtrlWr ∧ bayRun.jebForm (.rafter 0) rdJ.hdr = none ∧
        0x80 ≤ rdJ.hdr.srcNode.toNat ∧ rdJ.hdr.srcNode.toNat ≤ 0x8F ∧ ctrlExtent rdJ.hdr = none ∧
        rdJ.hdr.course ≠ 6 ∧ stMisaligned ≠ stOk ∧ ctrlExtent (ctrlFrame opCtrlRd 0 2 0 []).hdr = some stMisaligned ∧
        bayRun.jebForm (.rafter 0) (ctrlFrame opCtrlRd 0 2 0 []).hdr = none ∧ wrJ.hdr.len ≠ 0 ∧
        (match controlData wrJ with | .ok d => decide (d = [0x500]) | .error _ => false) = true ∧
        bayRun.jebForm (.rafter 0) { rdJ.hdr with bayTag := 0 } = some stBayMismatch := by decide +kernel
theorem test_ctrlRd :
    runs (.ctrlRd .jalem (.rafter 0) rdJ) bayRun (fun t => t = ((bayRun.jebTake (.rafter 0) rdJ).readWords (.fabricSide 0) .jalem [0]).2.jebSend (.rafter 0) (ctrlDataFrame rdJ.hdr ((bayRun.jebTake (.rafter 0) rdJ).readWords (.fabricSide 0) .jalem [0]).1)) = true := by decide +kernel
theorem test_ctrlWr :
    runs (.ctrlWr .jalem (.rafter 0) wrJ) bayRun (fun t => t.jeb.shadowSeed = 5 ∧
        (t.port (.rafter 0)).txq = [ackFrame wrJ.hdr]) = true := by decide +kernel
def fmReq (op : Byte) (off : Nat) (len : BitVec 4) (data : List Shingle) : Frame :=
    { hdr := { reqTo op 4 0x80 with srcNode := 0x90, fpa := fpaOf 0xFF 0x80 off, len := len }, data := data }
def noThatch : State := { bayRun with sof := { bayRun.sof with thatchRun := false } }
def otherNode : Frame := { hdr := { reqTo opCtrlRd 4 0x80 with srcNode := 0x91 }, data := [] }
/-- A control access that the ingress checks keep from Soffit. -/
def wrongFm : Frame := { fmReq opCtrlRd 0 0 [] with hdr := { (fmReq opCtrlRd 0 0 []).hdr with bayTag := 0x54 } }
theorem test_premises_ControlAccesses_2 :
    taken (bayRun.agentTake agSoffit 140 (fmReq opCtrlRd 0 0 [])) (fun u =>
          !u.isRelay (fmReq opCtrlRd 0 0 []).hdr && u.sof.thatchRun && u.fromManager (fmReq opCtrlRd 0 0 []).hdr) = true ∧
        ctrlExtent (fmReq opCtrlRd 0 0 []).hdr = none ∧
        taken ((queued bayRun (agentQueue agSoffit 4) otherNode).agentTake agSoffit 1 otherNode) (fun u =>
          !u.isRelay otherNode.hdr && u.sof.thatchRun && !u.fromManager otherNode.hdr && decide (0x80 ≤ otherNode.hdr.srcNode.toNat)) = true ∧
        taken (noThatch.agentTake agSoffit 140 (fmReq opCtrlRd 0 0 [])) (fun u => !u.sof.thatchRun) = true ∧
        taken (bayRun.agentTake agSoffit 140 wrongFm) (fun _ => true) = false := by decide +kernel
theorem test_premises_ControlAccesses_3 :
    taken (bayRun.agentTake agSoffit 140 (fmReq opCtrlWr 0x1107FC 1 [dat 0x100])) (fun u =>
        (ctrlAddrs (fmReq opCtrlWr 0x1107FC 1 [dat 0x100]).hdr).all fun a =>
          (ctrlWordAt .module a).all fun r => u.mayWrite .inBand .module r.1) = true := by decide +kernel
theorem test_premises_ControlAccesses_4 :
    taken (bayRun.agentTake agSoffit 140 (fmReq opCtrlWr 0x900008 1 [dat 5])) (fun u =>
        (ctrlAddrs (fmReq opCtrlWr 0x900008 1 [dat 5]).hdr).any fun a =>
          (ctrlWordAt .module a).any fun r => !u.mayWrite .inBand .module r.1) = true := by decide +kernel

/-! ### ReportsAndRelays (R160, R291, R293, R343) -/

def reportF : Frame := { hdr := { reqTo opCtrlWr 4 0x80 with fpa := fpaOf 0xFF 0x80 0x700600, len := 1 }, data := [dat 1] }
def reported : State := queued bayRun (agentQueue agSoffit 4) reportF
theorem test_premises_ReportsAndRelays_1 :
    (reported.queue (agentQueue agSoffit 4)).items = [entryOf reportF] ∧ reported.isReport reportF.hdr = true ∧ reportF.hdr.srcNode.toNat < 0x80 ∧
        isResponse reportF.hdr = false ∧ reported.sof.thatchRun = true ∧ reported.fromManager reportF.hdr = false ∧ reportF.hdr.len ≠ 0 ∧
        (match controlData reportF with | .ok d => decide (d = [1]) | .error _ => false) = true ∧ ctrlCount reportF.hdr = 1 ∧
        (ctrlWords [1]).head? = some 1 ∧ reported.admitted = true ∧ reported.gut.phase = .none := by decide +kernel
theorem test_gutJebReport :
    runs (.gutJebReport) reported (fun t => torn t 11 && fld t.gut.fatal 8 2 = 2 && fld t.gut.fatal 10 8 = 1) = true := by decide +kernel
def relayF : Frame := { hdr := { reqTo opCtrlRd 4 0 with srcNode := 0x90 }, data := [] }
def relayIn : State := queued bayRun (agentQueue agSoffit 4) relayF
theorem test_premises_ReportsAndRelays_2 :
    (relayIn.queue (agentQueue agSoffit 4)).items = [entryOf relayF] ∧ isResponse relayF.hdr = false ∧
        relayIn.isRelay relayF.hdr = true ∧ relayIn.relayRefusal relayF.hdr = none := by decide +kernel
theorem test_relayRequest :
    runs (.relayRequest) relayIn (fun t => t.sof.relays = [{ tag := 0, port := 0, hdr := relayF.hdr }] ∧
        t.frames (portQueue 0 8) = [relayIn.relayed relayF] ∧ t.frames (agentQueue agSoffit 4) = []) = true := by decide +kernel
def relayRsp : Frame := { hdr := { hdr0 with opcode := opCtrlData, course := 4, sub := 1, len := 1, srcNode := 0x80, srcEngine := 0xFB, tag := 7, bayTag := 0x55 }, data := [dat 3] }
def relayBack : State := { queued bayRun (agentQueue agSoffit 4) relayRsp with sof := { bayRun.sof with relays := [{ tag := 7, port := 0, hdr := relayF.hdr }] } }
theorem test_premises_ReportsAndRelays_3 :
    relayBack.relayOf relayRsp.hdr = some { tag := 7, port := 0, hdr := relayF.hdr } ∧
        (restored relayRsp relayF.hdr).hdr.status ≠ stPoisoned ∧
        relayBack.dest (restored relayRsp relayF.hdr).hdr = .port 140 := by decide +kernel
theorem test_relayResponse :
    runs (.relayResponse) relayBack (fun t => t.sof.relays = [] ∧ t.frames (portQueue 140 9) = [restored relayRsp relayF.hdr] ∧
        t.gut = relayBack.gut) = true := by decide +kernel

/-! ### SparEngines (R356, R357) -/

def idlePort : State := portIn (.module 143) .disabled
theorem test_premises_SparEngines_1 :
    idlePort.mayPattern 143 = true ∧ bayRun.mayPattern 0 = false ∧ ((.prbs31 143, 1) : Instr × Nat) ∈ [(Instr.prbs31 143, 1),
        (.prbs13q 143, 2)] := by decide +kernel
theorem test_prbs13q :
    runs (.prbs13q 143) idlePort (fun t => fld (t.mport 143).spar.ctl 0 2 = 2 ∧
        fld (t.mport 143).spar.ctl 8 8 = 0xFF) = true := by decide +kernel
theorem test_premises_SparEngines_2 :
    fld (({ idlePort with ports := [(143, { livePort with spar := { Port.reset.spar with ctl := 1 } })] } : State).mport 143).spar.ctl 0 2 ≠ 0 := by decide +kernel
def testReq : Frame := { hdr := { reqTo opTest 5 0x80 with len := 1 }, data := [dat 8] }
theorem test_premises_SparEngines_3 :
    testReq.hdr.opcode = opTest ∧ isPosted testReq.hdr = false ∧
        taken (bayRun.agentTake agSpar 1 testReq) (fun _ => true) = true ∧ bayRun.jebForm (.rafter 0) testReq.hdr = none := by decide +kernel
theorem test_test :
    runs (.test (.module 1) testReq) bayRun (fun t => t.frames (portQueue 1 11) = [echoFrame testReq]) = true := by decide +kernel
/-- An echo of a frame that port 1 has sent, as it comes back. -/
def echoBack : Frame := { hdr := { hdr0 with opcode := opTestEcho, course := 5, sub := 1, srcNode := 0x80, srcEngine := 0xFC, bayTag := 0x55, len := 1 }, data := [dat 8] }
def generator : State := bayRun
theorem test_premises_SparEngines_4 :
    echoBack.hdr.opcode = opTestEcho ∧
        taken (bayRun.agentTake agSpar 1 echoBack) (fun u => u.isActive 1 && bitAt (u.mport 1).spar.ctl 3) = true := by decide +kernel
theorem test_premises_SparEngines_5 :
    (plain.mayGenerate 1 = false) ∧ generator.mayGenerate 1 = true ∧ bitAt (generator.mport 1).spar.ctl 2 = false ∧
        ({ generator with sof := { generator.sof with noThatch := true } } : State).served = false := by decide +kernel
theorem test_genEnAlone :
    runs (.genEn 1) { generator with sof := { generator.sof with noThatch := true } } (fun t => t = { generator with sof := { generator.sof with noThatch := true } }) = true := by decide +kernel

/-- An echo of a frame while CHK_EN is clear: it is taken, and nothing is recorded of it. -/
theorem test_premises_SparEngines_6 :
    bayRun.served = true ∧ taken (({ bayRun with ports := [(1, { livePort with spar := { livePort.spar with ctl := 0 } })] } : State).agentTake agSpar 1 echoBack)
      (fun u => u.isActive 1 && !bitAt (u.mport 1).spar.ctl 3) = true := by decide +kernel

/-! ### Admission (R259) -/

def freeBay : State := { bayRun with sec := { Sec.reset with admitTag := 0x55, admitShape := BitVec.ofNat 18 (1 * 2 ^ 8 + 1 * 2 ^ 12 + 1 * 2 ^ 15) } }
theorem test_premises_Admission_1 :
    (bayIn .forming).sec.state ≠ .free ∧ plain.sec.state = .free ∧ plain.admitErr = some 2 ∧ plain.sec.lifted = [] := by decide +kernel
theorem test_premises_Admission_2 :
    freeBay.sec.state = .free ∧ freeBay.admitErr = none ∧ freeBay.admitHips = [] := by decide +kernel
theorem test_admitFailedThatch :
    runs .admitBay { freeBay with sof := { freeBay.sof with thatchFailed := true } } (fun t => t = { freeBay with sof := { freeBay.sof with thatchFailed := true } }) = true := by decide +kernel
theorem test_admitBay :
    runs (.admitBay) plain (fun t => t.sec = { Sec.reset with err := 2, busy := false } ∧
        t = { plain with sec := t.sec, sof := t.sof, fresh := t.fresh }) = true := by decide +kernel
def wideBay : State := { freeBay with sec := { freeBay.sec with admitShape := BitVec.ofNat 18 (2 * 2 ^ 8 + 1 * 2 ^ 12 + 1 * 2 ^ 15) }, sof := { freeBay.sof with torus := (2, 1, 1) }, ports := freeBay.ports ++ [(128, { Port.reset with train := { Port.reset.train with role := .hip } })] }
theorem test_premises_Admission_3 :
    wideBay.sec.state = .free ∧ wideBay.admitErr = none ∧ wideBay.admitHips ≠ [] := by decide +kernel
theorem test_premises_Admission_6 :
    plain.served = true ∧ freeBay.served = true ∧ wideBay.served = true ∧ (bayIn .forming).served = true ∧
        ({ freeBay with sof := { freeBay.sof with noThatch := true } } : State).served = false := by decide +kernel
def checkingBay (st : Stamp) : State := { wideBay with sec := { wideBay.sec with state := .checking, lifted := [128], askedTag := 0x55, askedShape := wideBay.sec.admitShape, admitTag := 0 }, ports := freeBay.ports ++ [(128, { livePort with stamp := st })] }
def unsynced : State := { checkingBay { Port.reset.stamp with valid := true } with tim := { Tim.reset with refclkOk := true, sync := false } }
theorem test_premises_Admission_4 :
    (checkingBay { Port.reset.stamp with valid := true }).sec.state = .checking ∧
        (checkingBay { Port.reset.stamp with valid := true }).tim.sync = true ∧ unsynced.sec.state = .checking ∧ unsynced.tim.sync = false ∧
        (∀ n ∈ (checkingBay { Port.reset.stamp with valid := true }).sec.lifted,
        (checkingBay { Port.reset.stamp with valid := true }).hipReady n = true) ∧ (∃ n ∈ (checkingBay Port.reset.stamp).sec.lifted,
        (checkingBay Port.reset.stamp).hipReady n = false) := by decide +kernel
theorem test_hipAdmissionCheck :
    runs (.hipAdmissionCheck false) (checkingBay { Port.reset.stamp with valid := true }) (fun t => t.sec.state = .forming ∧
        t.sec.tag = 0x55 ∧ t.sec.lifted = [] ∧ bitAt t.bayShapeWord 18 = true) = true := by decide +kernel
theorem test_premises_Admission_5 :
    (bayIn .running).sec.state ≠ .forming ∧ (bayIn .forming).sec.state = .forming ∧ (bayIn .forming).trs.dirs = [] ∧
        (∃ p ∈ ({ bayIn .forming with trs := { Trs.reset with dirs := [(15, { ProgDir.reset with refused := true })] } } : State).trs.dirs, p.2.refused = true) := by decide +kernel
theorem test_measure :
    runs (.measure) ({ bayIn .forming with trs := { Trs.reset with dirs := [(15, { ProgDir.reset with refused := true })] } }) (fun t => t.sec.err = 8 ∧ t.sec.state = .forming) = true := by decide +kernel

/-! ### ReleaseZeroizes (R207, R278, R279, R280, R281) -/

def install0 : Install := { rotation := false, slot := 1, requester := 0, newEaveKey := true, oldSlot := 0, waits := [⟨0, 2, 4⟩], retiring := false }
def installing : State := { bayRun with sec := { bayRun.sec with state := .measured, install := some install0, linkKeys := [(1, some ⟨5, 6⟩)] }, eav := { bayRun.eav with key := some 7 } }
theorem test_premises_ReleaseZeroizes_1 :
    (bayIn .zeroizing).sec.state = .zeroizing ∧ installing.sec.state ≠ .free ∧ installing.sec.state ≠ .zeroizing ∧
        installing.sec.install = some install0 ∧ install0.rotation = false ∧ bayRun.sec.state ≠ .free ∧ bayRun.sec.state ≠ .zeroizing ∧
        bayRun.sec.install = none := by decide +kernel
def zeroing0 : State := { bayRun with ports := [], sec := { bayRun.sec with state := .zeroizing, pending := true }, gab := Gab.reset }
def noThatchBay : State := { bayRun with sof := { bayRun.sof with noThatch := true } }
def bareBay : State := { bayRun with ports := [], gab := { bayRun.gab with slots := [(3, { Slot.reset with state := .active })] } }
theorem test_release :
    runs (.release) bareBay (fun t => t.sec.state = .zeroizing ∧ t.sec.pending = true ∧ t.sec.destroyWait = [] ∧ t.keysGone = true ∧
        (t.eave 31).zeroizing = true ∧ t.pur.nodeLost = 0) = true := by decide +kernel
def owing : State := { bayRun with sec := { bayRun.sec with state := .zeroizing, destroyWait := [(1, 4)], pending := true } }
theorem test_premises_ReleaseZeroizes_2 :
    ((1, 4) : Fin 144 × W16) ∈ owing.sec.destroyWait ∧ bitAt (Tab.get Src.zero owing.gut.srcs 20).cfg 24 = true := by decide +kernel
/-- A bay under zeroization with eave 5 gone: what stands in it stays, and eave 6 is zero. -/
def deadEave : State :=
  { zeroing0 with eav := { zeroing0.eav with
      mem := { Mem.empty with cells := [(36 * (5 * eaveShingles), 7), (36 * (6 * eaveShingles), 9)] }
      eaves := [(5, { Eave.reset with failed := true, zeroizing := true }), (6, { Eave.reset with zeroizing := true })] } }
theorem test_deadEave :
    runs .zeroizationComplete deadEave (fun t => decide (t.sec.state = .zeroizing ∧ t.eav.mem.cells = [(36 * (5 * eaveShingles), 7)] ∧
        (t.eave 5).zeroizing = true ∧ (t.eave 6).zeroizing = false) && cnt deadEave t 20 1) = true := by decide +kernel
theorem test_premises_ReleaseZeroizes_4 :
    bayRun.served = true ∧ (bayIn .zeroizing).served = true ∧ installing.served = true ∧ noThatchBay.served = false := by decide +kernel
theorem test_destroyTimeout :
    runs (.destroyTimeout 1) owing (fun t => t.sec.destroyWait = [] && (t.mport 1).train.state = .held && (t.mport 1).train.destroyDue &&
        cnt owing t 20 1) = true := by decide +kernel
def zeroing : State := { bareBay with sec := { bareBay.sec with state := .zeroizing, pending := true }, gab := Gab.reset }
theorem test_premises_ReleaseZeroizes_3 :
    zeroing.sec.state = .zeroizing ∧ zeroing.keysGone = true ∧ (∀ p ∈ zeroing.eav.eaves, p.2.failed = false) ∧
        (∃ p ∈ (zeroing.setEave 5 { Eave.reset with failed := true }).eav.eaves, p.2.failed = true) := by decide +kernel
theorem test_zeroizationComplete :
    runs (.zeroizationComplete) zeroing (fun t => t.sec.state = .free ∧ t.eav.mem = Mem.empty ∧ t.sec.tag = 0 ∧ t.sec.pending = false ∧
        t.sec.done = true ∧ t.gab.slots = [] ∧ (t.mport 128).laneIdle = true) = true := by decide +kernel

/-! ### KeysAndReports (R262, R263, R264, R265, R266, R267, R272, R273, R274, R275, R276, R278) -/

def measuredBay : State := { bayRun with sec := { bayRun.sec with state := .measured, sessions := [(4, 0x12)], transport := (List.range 3).map fun i => (i, some 9) } }
def keyReq0 : KeyReq := { tag := 0x55, slot := 0, zero := 0, gen := 1, key := 5, nodes := 2 ^ 0x90 + 7, transport := [9, 9, 9, 9] }
theorem test_premises_KeysAndReports_1 :
    measuredBay.sec.inSession 4 = true ∧ measuredBay.bayKeysStatus 4 keyReq0 = 0 ∧ measuredBay.bayKeysStatus 4 { keyReq0 with tag := 0 } ≠ 0 ∧
        measuredBay.keyNodes ≠ [] ∧ plain.sec.inSession 4 = false ∧ measuredBay.sec.inSession 5 = false := by decide +kernel
/-- A bay of one module with no rafter port up. -/
def aloneBay : State := { measuredBay with ports := [] }
theorem test_premises_KeysAndReports_6 :
    aloneBay.sec.inSession 4 = true ∧ aloneBay.bayKeysStatus 4 { keyReq0 with nodes := 0, transport := [] } = 0 ∧ aloneBay.keyNodes = [] ∧
        aloneBay.activateHips = [] ∧ aloneBay.sec.releaseDue = false := by decide +kernel
theorem test_bayKeys :
    runs (.bayKeys 4 { keyReq0 with tag := 0 }) measuredBay (fun t => t = { measuredBay with sec := { measuredBay.sec with keyErr := 2 }, outputs := [.spdm 2 0] }) = true := by decide +kernel
def keyed : State := { bayRun with sec := { bayRun.sec with sessions := [(4, 0x13)], requester := some 4, lastGen := some 1, linkKeys := [(0, some ⟨5, 1⟩)], installed := true } }
def rotReq : KeyReq := { tag := 0x55, slot := 1, zero := 0, gen := 2, key := 6, nodes := 0, transport := [] }
theorem test_premises_KeysAndReports_2 :
    keyed.rotateStatus 4 rotReq = 0 ∧ keyed.sec.inSession 4 = true ∧ keyed.keyNodes ≠ [] := by decide +kernel
def keyAckF (st : Byte) : Frame := { hdr := { hdr0 with opcode := opAck, course := 4, sub := 1, tag := 4, srcNode := 0x80, srcEngine := 0xFB, status := st, bayTag := 0x55 }, data := [] }
theorem test_premises_KeysAndReports_3 :
    installing.sec.install = some install0 ∧ install0.waits = [⟨0, 2, 4⟩] ∧ install0.retiring = false ∧ install0.rotation = false ∧
        installing.sec.releaseDue = false ∧ installing.sec.state = .measured ∧ (keyAckF 0).hdr.opcode = opAck ∧
        (keyAckF 0).hdr.course = 4 ∧ (keyAckF 0).hdr.tag = 4 ∧
        ([keyAckF 0, keyAckF 0x31].all fun f => taken (installing.agentTake agSoffit 0 f) fun u =>
          decide (u.sec.install = some install0 ∧ u.sec.releaseDue = false ∧ u.sec.state = .measured)) = true := by decide +kernel
theorem test_keyAck :
    runs (.keyAck (.module 0) (keyAckF 0)) installing (fun t => t.sec.state = .running ∧ t.sec.installed = true ∧ t.sec.install = none ∧
        t.sec.active = 1 ∧ t.outputs = [.spdm 0 0] ∧ t.eav = installing.eav) = true := by decide +kernel
theorem test_keyAckTimeout :
    runs (.keyAckTimeout) installing (fun t => Tab.get none t.sec.linkKeys 1 = none ∧ t.sec.install = none ∧ t.sec.keyErr = 4 ∧
        t.sec.state = .measured ∧ t.outputs = [.spdm 4 0] ∧ t.eav.key = none) = true := by decide +kernel
def twoSessions : State := { keyed with sec := { keyed.sec with sessions := [(4, 0x13), (5, 0x12)] } }
theorem test_premises_KeysAndReports_4 :
    keyed.sec.state = .running ∧ keyed.sec.requester = some 4 ∧ (3 : Byte).toNat ≤ 3 ∧ 3 < (4 : Byte).toNat ∧ (1 : BitVec 24) ≠ 0 ∧
        keyed.sec.inSession 4 = true ∧ twoSessions.sec.inSession 5 = true ∧ twoSessions.sec.requester ≠ some 5 := by decide +kernel
theorem test_weightKey :
    runs (.weightKey 4 3 0 77) keyed (fun t => t.sec.weightKeys = [(3, some 77)] ∧ t.outputs = [.spdm 0 0]) = true := by decide +kernel
theorem test_weightDestroy :
    runs (.weightDestroy 4 3) ({ keyed with sec := { keyed.sec with weightKeys := [(2, some 4), (3, some 77)] } }) (fun t => t.sec.weightKeys = [(2, some 4)] ∧ t.outputs = [.spdm 0 0]) = true := by decide +kernel
theorem test_secureSessionOpen :
    runs (.secureSessionOpen (4, 0x11)) plain (fun t => t = plain) = true := by decide +kernel
/-- A module stopped in mask ROM. -/
def haltedModule : State := { plain with sof := { plain.sof with halted := true } }
theorem test_premises_SessionsAndReports_9 : plain.sof.halted = false ∧ haltedModule.sof.halted = true := by decide +kernel
theorem test_haltedAnswersNothing :
    runs (.secureSessionOpen (4, 0x12)) haltedModule (fun t => t = haltedModule) &&
      runs (.signedMeasurements 5 [5]) haltedModule (fun t => t = haltedModule) = true := by decide +kernel
theorem test_secureSessionEnd :
    runs (.secureSessionEnd 0) keyed (fun t => t.sec.sessions = []) = true := by decide +kernel
theorem test_signedMeasurements :
    runs (.signedMeasurements 5 [5]) bayRun (fun t => (match t.outputs with | [.report b] => decide (b.take 32 = bytesOf (5 : BitVec 256) 32 ∧ (b.drop 32).take 49 = 5 :: bytesOf (bayRun.measurement 5) 48) | _ => false)) = true := by decide +kernel
theorem test_premises_KeysAndReports_5 :
    (Tab.get Dur.reset bayRun.eav.durs 15).state = .empty ∧
        (Tab.get Dur.reset (durIn .loading).eav.durs 15).state ≠ .empty := by decide +kernel
theorem test_premises_KeysAndReports_7 : bayRun.served = true ∧ noThatchBay.served = false := by decide +kernel
theorem test_secWeight :
    runs (.secWeight 15 0xFFFFFFFFFFFFFFFF) bayRun (fun t => t.sec.weights = [(15, 0xFFFFFFFF00000007)]) = true := by decide +kernel

/-! ### GutterControls (R286, R290, R291, R292, R297, R300, R304, R305) -/

def recorded (n : Nat) : State := { bayRun with gut := { Gut.reset with first := { Capture.reset with info := 0x8000000000000000 }, caps := List.replicate n Capture.reset } }
theorem test_premises_GutterControls_1 :
    bitAt (recorded 16).gut.first.info 63 = true ∧ (recorded 16).gut.caps.length = 16 ∧ (recorded 15).gut.caps.length < 16 ∧
        (eventOf 22).src < 23 ∧ (eventOf 22).access < 16 := by decide +kernel
def sourceOpen : State := { bayRun with gut := { Gut.reset with srcs := [(22, { Src.zero with inWin := 3, total := 9, openAt := some 5 })] } }
theorem test_premises_GutterControls_2 :
    sourceOpen.tim.refclkOk = true ∧ sourceOpen.tim.fifths ≤ 5120 * (6 : W64).toNat ∧
        (Tab.get Src.zero sourceOpen.gut.srcs 22).openAt = some 5 := by decide +kernel
theorem test_sourceWindowClose :
    runs (.sourceWindowClose 22 6) sourceOpen (fun t => Tab.get Src.zero t.gut.srcs 22 = { Src.zero with total := 9 }) = true := by decide +kernel
theorem test_premises_GutterControls_3 :
    bayRun.reaches .ethernet = true ∧ bayRun.mgmt .ethernet = true ∧ bayRun.mgmt .inBand = false ∧ plain.admitted = false := by decide +kernel
theorem test_gutFatalValid :
    runs (.gutFatalValid .ethernet) ({ bayRun with gut := { Gut.reset with fatal := 0x8000000000000001 } }) (fun t => t.gut.fatal = 1) = true := by decide +kernel
theorem test_gutCapStatusClear :
    runs (.gutCapStatusClear .ethernet) (recorded 16) (fun t => t.gut.caps = []) = true := by decide +kernel
def quietBay (p : Phase) : State := { bayRun with sec := { bayRun.sec with state := .teardown, resumeTo := .running }, gut := { Gut.reset with phase := p, fencePorts := 2 ^ 143 + 1, history := [0, 0, 0] } }
theorem test_premises_GutterControls_4 :
    (quietBay .quiescent).gut.phase = .quiescent ∧ (quietBay .held).gut.phase ≠ .quiescent ∧ (quietBay .held).admitted = true ∧
        (quietBay .held).gut.phase = .held ∧ (quietBay .quiescent).gut.phase ≠ .held := by decide +kernel
theorem test_gutFencePort :
    runs (.gutFencePort .ethernet 2 0x8000) (quietBay .quiescent) (fun t => t.gut.fencePorts = 1) = true := by decide +kernel
theorem test_gutTdCtlUnhold :
    runs (.gutTdCtlUnhold .ethernet) (quietBay .held) (fun t => t.gut = { (quietBay .held).gut with history := [], endHeld := false, phase := .quiescent } ∧ t.sec = { (quietBay .held).sec with state := .teardown }) = true := by decide +kernel
theorem test_premises_GutterControls_5 :
    (65536 : W64).toNat % 65536 = 0 ∧ bitAt bayRun.gut.ctrl 8 = true ∧ bayRun.admitted = true ∧ bayRun.pollNodes = [0] ∧
        (65535 : W64).toNat % 65536 ≠ 0 := by decide +kernel
theorem test_jalemPoll :
    runs (.jalemPoll 65536 []) bayRun (fun t => (t.frames (portQueue 0 8)).map (fun f => (f.hdr.opcode, fpaOffset f.hdr.fpa)) = [(opCtrlRd, 0xA0000)] ∧
        t.gut.polls = [(0, bayRun.sof.sofTag)]) = true := by decide +kernel
def polled : State := { bayRun with gut := { Gut.reset with polls := [(0, 7)] } }
def pollRsp : Frame := { hdr := { hdr0 with opcode := opCtrlData, course := 4, sub := 1, len := 1, srcNode := 0x80, srcEngine := 0xFB, tag := 7, bayTag := 0x55 }, data := [dat 0x10002] }
theorem test_premises_GutterControls_8 :
    pollRsp.hdr.course = 4 ∧ pollRsp.hdr.srcEngine = 0xFB ∧ (((0 : Fin 144), pollRsp.hdr.tag) ∈ polled.gut.polls) ∧
        (match polled.pollAnswer 0 pollRsp with | some t => cnt polled t 16 3 | none => false) = true := by decide +kernel
def degrading : State := { bayRun with gut := { Gut.reset with health := [(healthKey (.eave 31), { Health.reset with below := 3 })] } }
theorem test_premises_GutterControls_6 :
    (Tab.get Health.reset degrading.gut.health (healthKey (.eave 31))).degraded = false ∧
        3 ≤ (Tab.get Health.reset degrading.gut.health (healthKey (.eave 31))).below ∧
        (marginScore (.eave 31) { lanes := [], value := 0 }).1 < fld degrading.gut.ctrl 16 8 := by decide +kernel
theorem test_marginMeasurement :
    runs (.marginMeasurement (.eave 31) { lanes := [], value := 0 } 7) degrading (fun t => (Tab.get Health.reset t.gut.health (healthKey (.eave 31))).degraded && cnt degrading t 19 1) = true := by decide +kernel
def mending : State := { bayRun with gut := { Gut.reset with health := [(healthKey (.eave 31), { Health.reset with degraded := true, above := 3 })] } }
theorem test_premises_GutterControls_7 :
    (Tab.get Health.reset mending.gut.health (healthKey (.eave 31))).degraded = true ∧
        3 ≤ (Tab.get Health.reset mending.gut.health (healthKey (.eave 31))).above ∧
        fld mending.gut.ctrl 16 8 ≤ (marginScore (.eave 31) { lanes := [], value := 1000000 }).1 := by decide +kernel

/-! ### TeardownCourse (R294, R295, R296, R297, R298, R299, R300, R344) -/

theorem test_premises_TeardownCourse_1 :
    bayRun.mgmt .ethernet = true ∧ bayRun.tornDown = false ∧ bayRun.admitted = true ∧ bayRun.gut.phase = .none ∧
        (quietBay .stopping).tornDown = true := by decide +kernel
theorem test_gutTdCtlStop :
    runs (.gutTdCtlStop .ethernet) bayRun (fun t => torn t 12 && cnt bayRun t 22 1 && t.sec.resumeTo = .running &&
        t.trs.runs = []) = true := by decide +kernel
def hipBay : State := { bayRun with ports := [(1, livePort), (128, livePort)], sec := { bayRun.sec with shape := BitVec.ofNat 18 (2 * 2 ^ 8 + 1 * 2 ^ 12 + 1 * 2 ^ 15) }, sof := { bayRun.sof with torus := (2, 1, 1) } }
def hipStop : Frame := { hdr := { (mgmtFrame opTeardown 0).hdr with srcRack := 1, fpa := fpaOf 0 0x80 0 }, data := [] }
theorem test_premises_TeardownCourse_2 :
    hipStop.hdr.opcode = opTeardown ∧ teardownAction hipStop.hdr = 0 ∧ hipStop.hdr.aux &&& ~~~ 0xFFFF03 = 0 ∧
        taken (hipBay.agentTake agSoffit 128 hipStop) (fun u =>
          u.hipPartner 128 hipStop.hdr && !u.tornDown && u.admitted && decide (u.gut.phase = .none)) = true := by decide +kernel
def managerStop : Frame := { hdr := { reqTo opTeardown 4 0x80 with srcNode := 0x90 }, data := [] }
theorem test_premises_TeardownCourse_8 :
    managerStop.hdr.opcode = opTeardown ∧ teardownAction managerStop.hdr = 0 ∧ managerStop.hdr.aux &&& ~~~ 0xFFFF03 = 0 ∧
        taken (bayRun.agentTake agSoffit 140 managerStop) (fun u =>
          !u.hipPartner 140 managerStop.hdr && u.fromManager managerStop.hdr && !u.tornDown && u.admitted &&
            decide (u.gut.phase = .none)) = true := by decide +kernel
theorem test_teardownStop :
    runs (.teardownStop 128 hipStop) hipBay (fun t => torn t 13 &&
        t.frames (portQueue 128 9) = [ackFrame hipStop.hdr]) = true := by decide +kernel
def nodeStop : Frame := { hdr := reqTo opTeardown 4 0x80, data := [] }
theorem test_premises_TeardownCourse_3 :
    nodeStop.hdr.opcode = opTeardown ∧
        taken (bayRun.agentTake agSoffit 1 nodeStop) (fun u => !u.hipPartner 1 nodeStop.hdr && !u.fromManager nodeStop.hdr) = true := by decide +kernel
def awaiting : State := { quietBay .stopping with gut := { (quietBay .stopping).gut with stopWait := [(1, 4)] } }
theorem test_premises_TeardownCourse_4 :
    ((1, 4) : Fin 144 × W16) ∈ awaiting.gut.stopWait ∧ awaiting.gut.phase = .stopping ∧ awaiting.isActive 1 = true := by decide +kernel
theorem test_stopAckTimeout :
    runs (.stopAckTimeout 1) awaiting (fun t => t.gut.stopWait = [] ∧ (t.mport 1).train.state = .down) = true := by decide +kernel
def drained : State := { quietBay .draining with gut := { (quietBay .draining).gut with toFence := [.port 143, .module] } }
theorem test_premises_TeardownCourse_5 :
    drained.gut.phase = .draining ∧ (∀ p ∈ drained.ports, p.2.pendLog = []) ∧ drained.pur.queues = [] ∧ drained.pur.bundles = [] ∧
        drained.eav.eaves = [] ∧ drained.gab.slots = [] ∧ drained.gut.stopWait = [] ∧ awaiting.gut.stopWait ≠ [] ∧
        FaultObj.port 143 ∈ drained.gut.toFence ∧ FaultObj.module ∈ drained.gut.toFence := by decide +kernel
theorem test_quiescent :
    runs (.quiescent) awaiting (fun t => t.gut.phase = .draining ∧ t.gut.stopWait = [(1, 4)]) = true := by decide +kernel
def restartable : State := { quietBay .quiescent with gut := { (quietBay .quiescent).gut with history := [0, 0] } }
theorem test_premises_TeardownCourse_6 :
    (quietBay .quiescent).restartOk = false ∧ restartable.restartOk = true := by decide +kernel
theorem test_gutTdCtlRestart :
    runs (.gutTdCtlRestart .ethernet) (quietBay .quiescent) (fun t => t = { quietBay .quiescent with gut := { (quietBay .quiescent).gut with tdErr := true } }) = true := by decide +kernel
theorem test_premises_TeardownCourse_7 :
    (quietBay .resuming).gut.phase = .resuming ∧ (quietBay .resuming).gut.resumeWait = [] := by decide +kernel
theorem test_resumeAcknowledged :
    runs (.resumeAcknowledged) (quietBay .resuming) (fun t => t.gut = { (quietBay .resuming).gut with phase := .none, resumeWait := [] } ∧ t.sec = { (quietBay .resuming).sec with state := .running }) = true := by decide +kernel

/-! ### GableSlots (R213, R221, R222, R223, R224, R225, R226, R287) -/

def slot0 : Slot := { Slot.reset with state := .active, leaves := 2, eunits := 1, bundle := 0x100000, segment := 4 }
def contribF (rank off : Nat) (attr : Byte) (l : List Shingle) : Frame :=
    { hdr := { reqTo opSeg 1 0x80 with attr := attr, len := BitVec.ofNat 4 l.length, aux := BitVec.ofNat 64 (0x100000 + 4 * 2 ^ 32 + rank * 2 ^ 48), fpa := BitVec.ofNat 64 off }, data := l }
def gabState (x : Slot) (f : Frame) : State :=
    { queued bayRun (agentQueue agGable 1) f with gab := { bayRun.gab with slots := [(255, x)] } }
def contrib1 : Frame := contribF 1 992 0x10 [dat 7]
theorem test_premises_GableSlots_1 :
    ((gabState slot0 contrib1).queue (agentQueue agGable 1)).items = [entryOf contrib1] ∧ (gabState slot0 contrib1).gut.phase = .none ∧
        (gabState slot0 contrib1).gab.slotOf (BitVec.ofNat 32 (fld contrib1.hdr.aux 0 32)) (fld contrib1.hdr.aux 32 16) = some 255 ∧
        gabReason (some slot0) contrib1 1 992 = 0 ∧ ((slot0.store contrib1 1 992 0).unstall).nodeDone 0 0 2 = false ∧
        gabReason none contrib1 1 992 ≠ 0 ∧ gabReason (some slot0) (contribF 2 0 0x10 [dat 7]) 2 0 = 3 := by decide +kernel
theorem test_contrib :
    runs (.contrib) (gabState slot0 contrib1) (fun t => t.gab.slot 255 = (slot0.store contrib1 1 992 0).unstall ∧ t.gab.work = 1 ∧
        (t.gab.slot 255).shingle 1 31 = some (7, false) ∧ t.eav = bayRun.eav) = true := by decide +kernel
def nearly : Slot := { slot0 with got := ((List.range 8).map fun i => (i, some (0, false))) ++ ((List.range 7).map fun i => (16384 + i, some (0, false))) }
def contrib2 : Frame := contribF 1 224 0x10 [dat 0]
theorem test_premises_GableSlots_2 :
    gabReason (some nearly) contrib2 1 224 = 0 ∧ (nearly.store contrib2 1 224 0).unstall.state = .active ∧
        (nearly.store contrib2 1 224 0).unstall.next + 1 < (nearly.store contrib2 1 224 0).unstall.chunks ∧
        (nearly.store contrib2 1 224 0).unstall.nodeDone 0 0 2 = true ∧
        (nearly.store contrib2 1 224 0).unstall.nodeDone 1 0 2 = false := by decide +kernel
theorem test_premises_GableSlots_3 :
    ((gabState nearly contrib1).gab.slot (255 : Byte).toNat).state = .active ∧
        isNode (0 : Byte).toNat (2 : Byte).toNat 9 0 nearly.leaves = true ∧ (0 : BitVec 10).toNat < nearly.chunks ∧
        nearly.oneChild 0 0 2 = true := by decide +kernel
theorem test_stalled :
    runs (.stalled 255 0 0 2) (gabState nearly contrib1) (fun t => (t.gab.slot 255).state = .stalled && (t.gab.slot 255).stalls = [⟨0,
        0, 2⟩] && t.gab.err = satFld (0 : W64) 16 16 1 && cnt bayRun t 10 1) = true := by decide +kernel
def longStalled : State := gabState { nearly with state := .stalled, stalls := [⟨0, 0, 2⟩] } contrib1
theorem test_premises_GableSlots_4 :
    longStalled.tim.refclkOk = true ∧ longStalled.tim.fifths ≤ 5120 * (BitVec.ofNat 64 longStalled.gab.abandonBeats).toNat ∧
        (longStalled.gab.slot (255 : Byte).toNat).state = .stalled ∧
        (longStalled.gab.slot 255).stallAt + 5120 * longStalled.gab.abandonBeats ≤ 5120 * (BitVec.ofNat 64 longStalled.gab.abandonBeats).toNat ∧ longStalled.admitted = true ∧ longStalled.gut.phase = .none := by decide +kernel
theorem test_gableAbandon :
    runs (.gableAbandon 255 (BitVec.ofNat 64 longStalled.gab.abandonBeats)) longStalled (fun t => torn t 10) = true := by decide +kernel
def releasedSlot : State := { bayRun with gab := { bayRun.gab with slots := [(3, { slot0 with state := .zeroizing })], released := [3] } }
theorem test_premises_GableSlots_5 :
    releasedSlot.gab.released = [3] := by decide +kernel
theorem test_slotFree :
    runs (.slotFree) releasedSlot (fun t => t.gab.slots = [] ∧ t.gab.released = []) = true := by decide +kernel

/-! ### TrussStarts (R231, R232, R233, R241, R242, R246) -/

def prog1 : Tab W64 := [(0, 0x00060001), (1, 0x3), (2, 0x4), (3, 0x202), (4, 0x5), (5, 0x106), (6, 0x1)]
def comm0 : Comm := { Comm.reset with ctl := BitVec.ofNat 64 (1 + 1 * 2 ^ 1 + 0x44 * 2 ^ 16 + 1 * 2 ^ 28), mem0 := 7, block := 0x9100 }
def trsState : State := { bayRun with sec := { bayRun.sec with shape := 0x9100 }, trs := { bayRun.trs with prog := prog1, dirs := [(1, { ProgDir.reset with valid := true, first := 0, length := 6, rev := 1 })], comms := [(63, comm0)] } }
def startF (e : Nat) : Frame := { hdr := { reqTo opSignal 1 0x80 with srcNode := 0, attr := 0x40, aux := BitVec.ofNat 64 (0 + 0x44 * 2 ^ 20 + 1 * 2 ^ 32 + e * 2 ^ 48 + e * 2 ^ 56) }, data := [] }
def trsQueued (f : Frame) : State := queued trsState (agentQueue agTruss 1) f
theorem test_premises_TrussStarts_1 :
    ((trsQueued (startF 1)).queue (agentQueue agTruss 1)).items = [entryOf (startF 1)] ∧ (startF 1).hdr.opcode = opSignal ∧
        kindOf (startF 1).hdr = 4 ∧ (trsQueued (startF 1)).gut.phase = .none ∧ (trsQueued (startF 1)).startCode (startF 1).hdr = none ∧
        (trsQueued (startF 1)).trs.commOf (fld (startF 1).hdr.aux 20 12) = some 63 ∧
        (trsQueued (startF 0)).startCode (startF 0).hdr = some 3 := by decide +kernel
theorem test_start :
    runs (.start) (trsQueued (startF 1)) (fun t => t.trs.insts = [⟨0x04400000, 63, 1, 1, 1, 0, 0⟩] ∧ (t.trs.comm 63).lastSeq = 0 ∧
        (t.trs.comm 63).outstanding = 1 ∧ t.trs.runs = [] ∧ t.gut = trsState.gut) = true := by decide +kernel
theorem test_premises_TrussStarts_2 :
    trsState.reaches .inBand = true ∧ trsState.trs.lock = false ∧ bitAt (0x1 : W64) 0 = true ∧ bitAt (0x0 : W64) 0 = false ∧
        ({ trsState with trs := { trsState.trs with lock := true } } : State).trs.lock = true := by decide +kernel
theorem test_trsProgDirValid :
    runs (.trsProgDirValid .inBand 1 0) trsState (fun t => (t.trs.dir 1).valid = false) = true := by decide +kernel
def regComm : Comm := { comm0 with ctl := 0 }
def unregistered : State := { trsState with trs := { trsState.trs with comms := [(63, regComm)] } }
theorem test_premises_TrussStarts_3 :
    unregistered.admitted = true ∧ unregistered.commBad 63 { regComm with ctl := accessWrite commCtlMask 0 regComm.ctl comm0.ctl } = false ∧ unregistered.commBad 0 { Comm.reset with ctl := accessWrite commCtlMask 0 Comm.reset.ctl comm0.ctl } = true ∧ (trsState.trs.comm 63).valid = true ∧ (({ trsState with trs := { trsState.trs with comms := [(63, { comm0 with outstanding := 1 })] } } : State).trs.comm 63).outstanding ≠ 0 := by decide +kernel
theorem test_trsCommCtlValid :
    runs (.trsCommCtlValid .inBand 0 comm0.ctl) unregistered (fun t => (t.trs.comm 0).valid = false && bitAt (t.trs.comm 0).ctl 15 &&
        cnt trsState t 15 1) = true := by decide +kernel
def inst0 : Instance := ⟨0x04400000, 63, 1, 1, 1, 0, 0⟩
def oneInst : State := { trsState with trs := { trsState.trs with insts := [inst0] } }
theorem test_premises_TrussStarts_4 :
    trsState.trs.nextStart 63 = none ∧ oneInst.trs.nextStart 63 = some inst0 ∧
        oneInst.trs.contextFor 63 inst0 = some 63 := by decide +kernel
theorem test_runStart :
    runs (.runStart 63 5) oneInst (fun t => (t.trs.runs.map fun r => (r.bundle, r.k, r.pc, r.since)) = [(0x04400000, 0, 0,
        25600)]) = true := by decide +kernel

/-! ### TrussInstructions (R240, R243, R244, R245, R246, R249, R371, R372) -/

def run0 : Run := { ctx := 63, bundle := 0x04400000, comm := 63, k := 0, pc := 0, since := 0, handles := [none, none, none, none], waitSlot := none, admitted := [], released := [], sends := [], closed := [], dests := [], handed := [] }
def running (r : Run) : State := { trsState with trs := { trsState.trs with insts := [{ inst0 with nextRun := 1 }], runs := [r] } }
theorem test_premises_TrussInstructions_1 :
    (running { run0 with pc := 5 }).atIns 63 1 = some ({ run0 with pc := 5 }, 0x1) ∧ (running run0).tim.refclkOk = true ∧
        (running run0).tim.fifths ≤ 5120 * (1 : W64).toNat ∧ (1 : W64).toNat % 2 ^ insIfmt 0x1 = 0 ∧
        ({ run0 with pc := 5 } : Run).since < 5120 * (1 : W64).toNat := by decide +kernel
theorem test_stepInstr :
    runs (.stepInstr 63 1) (running { run0 with pc := 5 }) (fun t => t.trs.runAt 63 = some { run0 with pc := 6, since := 5120 } ∨ t.trs.runAt 63 = none) = true := by decide +kernel
theorem test_premises_TrussInstructions_2 :
    (running { run0 with pc := 2 }).atIns 63 2 = some ({ run0 with pc := 2 }, 0x202) ∧
        (running { run0 with pc := 2 }).waitMet { run0 with pc := 2 } 0x202 = false ∧
        (running { run0 with pc := 2, closed := [(0, false)] }).waitMet { run0 with pc := 2, closed := [(0, false)] } 0x202 = true := by decide +kernel
theorem test_wait :
    runs (.wait 63) (running { run0 with pc := 2 }) (fun t => t = running { run0 with pc := 2 }) = true := by decide +kernel
theorem test_premises_TrussInstructions_3 :
    (running run0).atIns 63 3 = some (run0, 0x3) ∧ (running run0).isHost comm0 0 (insStage 0x3) = true ∧ run0.holds = false ∧
        (running run0).trs.comm run0.comm = comm0 := by decide +kernel
theorem test_segment :
    runs (.segment 63) (running run0) (fun t => t.trs.runAt 63 = some { run0 with waitSlot := some 0, handles := [some 0, none, none, none] }) = true := by decide +kernel
theorem test_premises_TrussInstructions_4 :
    (running { run0 with pc := 1 }).atIns 63 4 = some ({ run0 with pc := 1 }, 0x4) ∧ insMode 0x4 ≠ 1 := by decide +kernel
theorem test_sendInstruction :
    runs (.sendInstruction 63) (running { run0 with pc := 1 }) (fun t => t.trs.runAt 63 = some { run0 with pc := 2, sends := [{ stage := 0, relay := false, left := (running run0).sendBytes run0 false 0 }] } ∧ (running run0).sendBytes run0 false 0 ≠ 0) = true := by decide +kernel
def reducing : Run := { run0 with pc := 3, handles := [some 0, none, none, none] }
theorem test_premises_TrussInstructions_5 :
    (running reducing).atIns 63 5 = some (reducing, 0x5) ∧ (running reducing).trs.findRun 0x04400000 0 = some reducing ∧
        reducing.handles.getD (insHandle 0x5) none = some 0 ∧ reducing.handed = [] := by decide +kernel
theorem test_reduce :
    runs (.reduce 63) (running reducing) (fun t => t.trs.runAt 63 = some { reducing with pc := 4, dests := [{ stage := 0, dest := 0, counter := BitVec.ofNat 12 ((running reducing).insCounter comm0 0x5) }] }) = true := by decide +kernel
theorem test_premises_TrussInstructions_6 :
    (running { run0 with pc := 4 }).atIns 63 6 = some ({ run0 with pc := 4 }, 0x106) ∧ insMode 0x106 = 1 := by decide +kernel
theorem test_signalInstruction :
    runs (.signalInstruction 63) (running { run0 with pc := 4 }) (fun t => t.trs.runAt 63 = some { run0 with pc := 5 } ∧
        (t.frames (portQueue 0 2)).length = 1) = true := by decide +kernel

/-! ### CollectiveFrames (R236, R240, R249, R371) -/

def collF (op : Byte) (kind : Nat) (l : List Shingle) : Frame :=
    { hdr := { reqTo op 1 0x80 with attr := BitVec.ofNat 8 (kind * 16), len := BitVec.ofNat 4 l.length, aux := 0x04400000 }, data := l }
def onQueue (r : Run) (f : Frame) : State := queued (running r) (agentQueue agTruss 1) f
def openRun : Run := { run0 with pc := 2, admitted := [0] }
theorem test_premises_CollectiveFrames_1 :
    (collF opSignal 5 []).hdr.opcode = opSignal ∧ kindOf (collF opSignal 5 []).hdr = 5 ∧ kindOf (collF opSignal 0 []).hdr = 0 ∧
        (onQueue run0 (collF opSeg 0 [dat 3])).gut.phase = .none ∧
        (onQueue run0 (collF opSeg 0 [dat 3])).raiseCode (collF opSeg 0 [dat 3]).hdr = some 6 ∧
        (onQueue openRun (collF opSeg 0 [dat 3])).raiseCode (collF opSeg 0 [dat 3]).hdr = none ∧
        (onQueue openRun (collF opSeg 0 [dat 3])).trs.findRun 0x04400000 0 = some openRun ∧
        fld (collF opSeg 0 [dat 3]).hdr.aux 32 2 = 0 := by decide +kernel
theorem test_raise :
    runs (.raise) (onQueue run0 (collF opSeg 0 [dat 3])) (fun t => t.trs.err = satFld (0 : W64) 16 16 1 &&
        cnt trsState t 11 1) = true := by decide +kernel
def relayRun : Run := { run0 with pc := 2, sends := [{ stage := 0, relay := true, left := 96 }] }
theorem test_premises_CollectiveFrames_2 :
    kindOf (collF opSeg 3 [dat 3]).hdr = 3 ∧
        (onQueue relayRun (collF opSeg 3 [dat 3])).trs.relayWaits (collF opSeg 3 [dat 3]).hdr = false ∧
        (onQueue relayRun (collF opSeg 3 [dat 3])).trs.findRun 0x04400000 0 = some relayRun ∧ trsState.trs.findRun 0x04400000 0 = none ∧
        (∃ o ∈ relayRun.sends, o.stage = fld (collF opSeg 3 [dat 3]).hdr.aux 32 2 ∧ o.relay = true) := by decide +kernel
theorem test_relay :
    runs (.relay) (onQueue relayRun (collF opSeg 3 [dat 3])) (fun t => t.trs.runAt 63 = some (relayRun.took 0 true 32)) = true := by decide +kernel

/-! ### GaugeRecords (R309, R310, R311, R312, R313, R314, R315, R316, R317) -/

def meas0 : GaugeMeas := ⟨100, 38000, 1000⟩
def billedBay : State := { bayRun with gau := { Gau.reset with bayState := 5, tag := 0x55 } }
theorem test_premises_GaugeRecords_1 :
    billedBay.tim.refclkOk = true ∧ billedBay.tim.fifths ≤ 5120 * (3 : W64).toNat ∧ billedBay.gau.powered = true ∧
        billedBay.gau.next = none ∧ billed billedBay.gau.bayState = billed billedBay.gaugeItem.bayState ∧
        billed bayRun.gau.bayState ≠ billed bayRun.gaugeItem.bayState ∧ boundary 3 = false ∧ bayRun.gau.keyOk = true := by decide +kernel
theorem test_gaugeBeatItem :
    runs (.gaugeBeatItem 3 meas0) billedBay (fun t => t.gau.period.energy = 100 ∧ t.gau.nextSeq = 0 ∧ t.gau.channelOk = true ∧
        t.pur = { bayRun.pur with bytesIn := [0, 0, 0, 0, 0, 0] } ∧
        t.gab = { bayRun.gab with told := bayRun.gab.work }) = true := by decide +kernel
/-- The first interval boundary after beat 0. -/
def boundaryBeat : W64 := 2 ^ 28
def atBoundary : State := { bayRun with gau := { Gau.reset with period := { Period.reset with start := boundaryBeat } } }
theorem test_premises_GaugeRecords_2 :
    bayRun.gau.powered = true ∧ (true ≠ bayRun.gau.sync) ∧ bayRun.gau.keyOk = true ∧ bayRun.gau.next = none ∧
        ((false : Bool) ≠ ({ bayRun.gau with sync := true } : Gau).sync) ∧ boundary boundaryBeat = true ∧ bayRun.gau.period.start ≠ boundaryBeat := by decide +kernel
theorem test_premises_GaugeRecords_4 :
    billed bayRun.gau.bayState ≠ billed bayRun.gaugeItem.bayState ∧ bayRun.gaugeItem.sync = true ∧ boundary boundaryBeat = true ∧
        bayRun.tim.fifths ≤ 5120 * boundaryBeat.toNat ∧ bayRun.gau.period.start ≠ boundaryBeat ∧
        atBoundary.gau.period.start = boundaryBeat ∧ billed atBoundary.gau.bayState ≠ billed atBoundary.gaugeItem.bayState := by decide +kernel
theorem test_premises_GaugeRecords_3 :
    ({ bayRun with gau := { Gau.reset with powered := false } } : State).gau.powered = false ∧ bayRun.gau.sealOk = true ∧
        ({ bayRun with gau := { Gau.reset with keyOk := false } } : State).gau.keyOk = false := by decide +kernel
theorem test_powerLoss :
    runs (.powerLoss) bayRun (fun t => t.gau.powered = false ∧ t.gau.nextSeq = 1) = true := by decide +kernel
theorem test_premises_GaugeRecords_hold_up : bayRun.gaugeSeal = true ∧ bayRun.gau.powered = true ∧ bayRun.gau.next = none := by decide +kernel
theorem test_sealAfterHoldUp :
    ({ bayRun with gau := { bayRun.gau with powered := false }, pins := { bayRun.pins with sealUntil := 5 }, tim := { bayRun.tim with fifths := 4 } } : State).gaugeSeal = true ∧
      ({ bayRun with gau := { bayRun.gau with powered := false }, pins := { bayRun.pins with sealUntil := 5 }, tim := { bayRun.tim with fifths := 5 } } : State).gaugeSeal = false := by
  decide +kernel
theorem test_powerUp :
    runs (.powerUp 9) ({ bayRun with gau := { Gau.reset with powered := false } }) (fun t => t.gau.powered = true ∧ t.gau.nextSeq = 1 ∧
        t.gau.period.start = 9) = true := by decide +kernel
theorem test_tamper :
    runs (.tamper) bayRun (fun t => t.gau.sealOk = false ∧ t.gau.keyOk = false ∧ t.gau.nextSeq = 1) = true := by decide +kernel
theorem test_interval :
    runs (.interval 7 7 true) ({ bayRun with gau := { Gau.reset with keyOk := false } }) (fun t => t.gau.records = [] ∧
        t.gau.nextSeq = 0) = true := by decide +kernel
theorem test_logRead :
    runs (.logRead 0 200) ({ bayRun with gau := { Gau.reset with records := [(0, [1]), (1, [2])], nextSeq := 2 } }) (fun t => t.outputs = [.gauge [[1], [2]]]) = true := by decide +kernel

/-! ### PowerAndCooling (R320, R322, R323, R324, R327, R328, R329, R330, R332, R366) -/

def governed (cap : W16) (c : Nat) : State :=
    { bayRun with pwr := { Pwr.reset with cap := cap, ceiling := c, started := true, slew := 0x10190 } }
theorem test_premises_PowerAndCooling_1 :
    (governed 2000 1000000000).tim.refclkOk = true ∧ (governed 2000 1000000000).tim.fifths ≤ 5120 * (64 : W64).toNat ∧
        (64 : W64).toNat % 64 = 0 ∧ (governed 2000 1000000000).pwr.inputLost = false ∧ (governed 2000 1000000000).pwr.off = false ∧
        (governed 2000 1000000000).pins.brakeN = true ∧ (governed 2000 1000000000).pwr.brake = false ∧
        (governed 2000 1000000000).pwr.ramp = false ∧ (governed 2000 1000000000).pwr.started = true ∧
        (governed 2000 1000000000).pwr.thermalCeiling = none ∧ (governed 2000 1000000000).pwr.throttle = false ∧
        (governed 2000 1000000000).pwr.pumpLost = false := by decide +kernel
/-- THROTTLE stands, with the thermal ceiling at 1,500 W, falling or rising, at a junction temperature. -/
def throttled (tj : Byte) (fall : Bool) : State :=
    { bayRun with pwr := { (governed 2000 1000000000).pwr with throttle := true, thermalFall := fall, thermalCeiling := some 1500000000, cool := ⟨tj, 30, 40, 30⟩ } }
theorem test_premises_PowerAndCooling_7 :
    (throttled 90 true).pwr.throttle = true ∧ (throttled 90 true).pwr.thermalFall = true ∧
        (throttled 90 true).pwr.thermalCeiling = some 1500000000 ∧
        (throttled 90 true).pwr.throttleT - 5 ≤ (throttled 90 true).pwr.cool.tj.toNat ∧
        (throttled 89 true).pwr.cool.tj.toNat < (throttled 89 true).pwr.throttleT - 5 ∧ (throttled 94 false).pwr.thermalFall = false ∧
        1500000000 + (throttled 89 true).pwr.latch.step < (throttled 89 true).pwr.latch.capNow ∧
        ({ (throttled 89 true).pwr with thermalCeiling := some 2000000000 } : Pwr).capNow ≤ 2000000000 + (throttled 89 true).pwr.latch.step := by decide +kernel
theorem test_governorInterval :
    runs (.governorInterval 64 ⟨1500, 1500, 0⟩) (throttled 94 false) (fun t => decide (t.pwr.thermalFall = false) && t.pwr.throttle &&
        decide (t.pwr.thermalCeiling = some (1500000000 + (throttled 94 false).pwr.latch.step))) = true := by decide +kernel
def ramping : State := { bayRun with pwr := { (governed 2000 1000000000).pwr with ramp := true, offPorts := 144, offEaves := 32 } }
theorem test_premises_PowerAndCooling_8 :
    ramping.pwr.ramp = true ∧ ramping.pwr.offPorts = 144 ∧ ramping.pwr.offEaves = 32 ∧ ramping.pwr.inputLost = false ∧
        ramping.pwr.off = false ∧ ramping.pwr.started = true ∧ ramping.pwr.brake = false ∧ ramping.pins.brakeN = true := by decide +kernel
theorem test_premises_PowerAndCooling_2 :
    bayRun.mgmt .rackController = true ∧ ¬ (Requester.ethernet = .rackController ∧ bayRun.mgmt .ethernet = true) ∧
        bayRun.pwr.rcLost = false ∧ bayRun.pwr.lastCap + 2 ^ 22 ≤ (4194304 : W64).toNat ∧
        (4194303 : W64).toNat < bayRun.pwr.lastCap + 2 ^ 22 := by decide +kernel
theorem test_pwrCap :
    runs (.pwrCap .ethernet 3000) bayRun (fun t => t = bayRun) = true := by decide +kernel
theorem test_rcLost :
    runs (.rcLost 4194304) bayRun (fun t => t.pwr.rcLost && cnt bayRun t 17 1) = true := by decide +kernel
theorem test_premises_PowerAndCooling_3 :
    plain.pins.resetN = false ∧ bayRun.pins.resetN = true ∧ bayRun.pwr.brake = false ∧ bayRun.pwr.ramp = false := by decide +kernel
theorem test_brakeAssert :
    runs (.brakeAssert 3000) plain (fun t => t = { plain with pins := { plain.pins with brakeN := false } }) = true := by decide +kernel
def braked : State := { bayRun with pwr := { Pwr.reset with brake := true } }
/-- The brake ends the last interval's ballast no sooner than that interval, and a power above its ceiling is none of CAP_LAG's. -/
theorem test_brakeKeeps :
    runs (.brakeAssert 1000) { bayRun with pwr := { bayRun.pwr with ballast := 7 } } (fun t => t.pwr.ballast = 7 ∧
        ({ t.pwr with brake := false, started := true } : Pwr).unmet 3000 = false) = true := by decide +kernel
theorem test_premises_PowerAndCooling_4 :
    braked.pwr.brake = true := by decide +kernel
theorem test_brakeRelease :
    runs (.brakeRelease 3) braked (fun t => t.pwr = { braked.pwr with brake := false } ∧ t.pins = { braked.pins with brakeN := true } ∧
        (t.mport 0).cred.paced = false ∧ t.gut = braked.gut) = true := by decide +kernel
theorem test_premises_PowerAndCooling_5 :
    (2700 : W16).toNat = 2700 ∧ ((2700 ≤ (2999 : W16).toNat ∧ (2999 : W16).toNat < 3000) ∨ (4200 < (2999 : W16).toNat ∧
        (2999 : W16).toNat ≤ 4300)) ∧ ((2699 : W16).toNat < 2700 ∨ 4300 < (2699 : W16).toNat) ∧ 2700 ≤ (4300 : W16).toNat ∧
        (4300 : W16).toNat ≤ 4300 ∧ bayRun.pwr.inputLost = false ∧
        bayRun.sof.started = true ∧ bayRun.pins.resetN = true ∧ plain.sof.started = false := by decide +kernel
/-- Rails off, PWR_EN high and mated: VIN in range starts conversion (R366). -/
def awaitsVin : State := { plain with pins := { Pins.reset with rails := false, pwrEn := true, mated := true, vin := 0 } }
theorem test_premises_PowerAndCooling_9 :
    awaitsVin.pins.rails = false ∧ awaitsVin.pins.pwrEn = true ∧ awaitsVin.pins.mated = true ∧ 3000 ≤ (3000 : W16).toNat ∧
        (4200 : W16).toNat ≤ 4200 ∧ bayRun.pins.rails = true := by decide +kernel
theorem test_vinStarts :
    runs (.vinRange 4200) awaitsVin (fun t => t.pins.rails) && runs (.vinRange 4201) awaitsVin (fun t => !t.pins.rails) = true := by decide +kernel
theorem test_vinRange :
    runs (.vinRange 2700) bayRun (fun t => t.pwr.vinRange && cnt bayRun t 17 1 && !t.pwr.inputLost) = true := by decide +kernel
theorem test_inputLoss :
    runs (.inputLoss 4300) bayRun (fun t => t.pwr.vin = 4300 ∧ t.pwr.inputLost = false ∧
        t = { bayRun with pwr := t.pwr, pins := { bayRun.pins with vin := 4300 } }) = true := by decide +kernel
theorem test_inletHigh :
    runs (.inletHigh ⟨50, 41, 50, 29⟩) bayRun (fun t => t.pwr.inletHigh && t.pwr.flowLow && cnt bayRun t 18 2) = true := by decide +kernel
theorem test_throttle :
    runs (.throttle ⟨95, 41, 50, 29⟩) bayRun (fun t => t.pwr.throttle = true) = true := by decide +kernel
theorem test_pumpLost :
    runs (.pumpLost ⟨94, 41, 50, 9⟩) bayRun (fun t => t.pwr.pumpLost = true) = true := by decide +kernel
theorem test_premises_PowerAndCooling_6 :
    bayRun.pwr.throttle = false ∧ bayRun.pwr.pumpLost = false ∧ bayRun.pwr.ramp = false ∧ bayRun.pwr.off = false ∧
        bayRun.pwr.shutdownT ≤ (⟨110, 0, 0, 0⟩ : CoolMeas).tj.toNat ∧ (⟨109, 0, 0,
        0⟩ : CoolMeas).tj.toNat < bayRun.pwr.shutdownT := by decide +kernel
theorem test_orderlyShutdown :
    runs (.orderlyShutdown ⟨110, 0, 0, 0⟩ false) bayRun (fun t => t.pwr.ramp && torn t 15) = true := by decide +kernel

/-! ### ResetAndStart (R11, R199, R277, R303, R345, R346, R366) -/

def railsDown (vin : W16) : State := { plain with pins := { Pins.reset with rails := false, vin := vin } }
def offModule (low : Bool) : State := { plain with pwr := { Pwr.reset with off := true, offLow := low } }
theorem test_premises_ResetAndStart_3 :
    (offModule false).pwr.off = true ∧ (offModule false).pwr.offLow = false ∧ (offModule true).pwr.offLow = true ∧
        (offModule true).sof.started = false ∧ (offModule true).sof.halted = false ∧ (offModule true).pins.rails = true ∧
        80 ≤ (80 : Byte).toNat ∧ (79 : Byte).toNat < 80 ∧ (BitVec.ofNat 8 ((offModule true).pwr.flowMin - 1)).toNat < (offModule true).pwr.flowMin ∧
        (offModule true).pwr.flowMin ≤ (BitVec.ofNat 8 (offModule true).pwr.flowMin).toNat := by decide +kernel
theorem test_premises_ResetAndStart_1 :
    (1 : Nat) < 2 ∧ (2 : Nat) ≤ 9 ∧ (9 : Nat) < 10 ∧ plain.pins.rails = true ∧
        (railsDown 3000).pins.rails = false ∧ (railsDown 3000).pins.mated = true ∧ 3000 ≤ (railsDown 3000).pins.vin.toNat ∧
        (railsDown 4200).pins.vin.toNat ≤ 4200 ∧ (railsDown 2999).pins.vin.toNat < 3000 ∧ 4200 < (railsDown 4201).pins.vin.toNat ∧ (plain.pwr.off = false) ∧ plain.sof.started = false ∧
        bayRun.sof.started = true ∧ bayRun.pins.resetN = true ∧ bayRun.pwr.inputLost = false ∧ plain.sof.halted = false ∧
        plain.pwr.off = false ∧ plain.pwr.restartBlocked = false ∧ plain.pins.retain = true := by decide +kernel
theorem test_resetNLow :
    runs (.resetNLow 1) bayRun (fun t => t = bayRun) = true := by decide +kernel
theorem test_pwrEnHigh :
    runs .pwrEnHigh (railsDown 2999) (fun t => t = { railsDown 2999 with pins := { (railsDown 2999).pins with pwrEn := true } }) = true := by decide +kernel
theorem test_pwrEnLow :
    runs (.pwrEnLow) plain (fun t => t = { plain with pins := { plain.pins with pwrEn := false, rails := false, retain := false } }) = true := by decide +kernel
theorem test_pwrEnSupplies :
    runs .pwrEnHigh (railsDown 3000) (fun t => t.pins.rails) = true := by decide +kernel
theorem test_moduleStart :
    runs (.moduleStart 40 30 1 true) plain (fun t => t.sof.started = true ∧ t.pins.resetN = true ∧ t.pins.retain = true ∧
        t.sec.state = plain.sec.state.kept ∧ t.eav.retained = true ∧ t.sof.noThatch = true ∧
        t.sof.thatchRun = false) = true := by decide +kernel
def coldStart : State := { plain with pins := { Pins.reset with retain := false }, sof := { plainSof with slots := [FwSlot.reset, { FwSlot.reset with state := .committed, major := 3, sigOk := true }] } }
/-- A module with a READY slot beside the COMMITTED one, and one with a failed byte in its immutable stage. -/
def readyStart : State := { plain with sof := { plainSof with slots := [{ FwSlot.reset with state := .ready, major := 3, sigOk := true }, { FwSlot.reset with state := .committed, major := 3, sigOk := true }] } }
def worn : State := { plain with sof := { plainSof with stage := [(5, 1)] } }
theorem test_premises_ResetAndStart_4 :
    plain.sof.stage = [] ∧ worn.sof.stage ≠ [] ∧ readyStart.sof.slotIn .ready = some 0 ∧ readyStart.pins.retain = true ∧
        readyStart.sec.state.kept = .free := by decide +kernel
theorem test_halts :
    runs (.moduleStart 40 30 1 true) worn (fun t => t.sof.halted = true ∧ t.sof.started = false) = true := by decide +kernel
theorem test_premises_ResetAndStart_2 :
    coldStart.pins.retain = false ∧ coldStart.sof.slotIn .ready = none ∧ coldStart.sof.slotIn .committed = some 1 ∧
        plain.sof.slotIn .committed = none := by decide +kernel

/-! ### FirmwareAndPins (R347, R350, R351, R352, R353, R354, R355, R364, R367) -/

def img0 : FwImage := { major := 3, minor := 2, svn := 3, bytes := [], sigOk := true }
theorem test_premises_FirmwareAndPins_1 :
    bayRun.sof.started = true ∧ bayRun.sof.slots.length = 2 ∧ bayRun.sof.copies.length = 2 := by decide +kernel
/-- An update of slot 0, and one of copy 0, in progress. -/
def updatingSlot : State := { bayRun with sof := { bayRun.sof with updating := some (.body 0) } }
def updatingCopy : State := { bayRun with sof := { bayRun.sof with updating := some (.copy 0), otp := { plainSof.otp with owner := some 9 } } }
/-- A configuration image of no section, signed by the owner 9. -/
def cfgHead : List Byte := bytesOf (0x47464E43 : W32) 4 ++ [1, 0, 0, 0] ++ bytesOf (224 : W32) 4 ++ [1] ++ List.replicate 211 0
def cfg0 : CfgImage :=
  { bytes := cfgHead ++ bytesOf (crc32c cfgHead) 4, sigOk := true, signer := 9
    body := { factoryBody 0 with location := none, ports := [] } }
theorem test_premises_FirmwareAndPins_4 :
    bayRun.sof.updating = none ∧ updatingSlot.sof.updating = some (.body 0) ∧ updatingCopy.sof.updating = some (.copy 0) ∧
        img0.sigOk = true ∧ img0.bytes.length ≤ 0x800000 ∧ img0.major = 3 ∧ img0.minor.toNat ≤ 4 ∧ bayRun.sof.svnMin.toNat ≤ img0.svn.toNat ∧
        ({ img0 with major := 4 } : FwImage).major ≠ 3 ∧ imageValid updatingCopy.sof.otp.owner cfg0 = true ∧
        imageValid updatingCopy.sof.otp.owner { cfg0 with signer := 8 } = false := by decide +kernel
theorem test_firmwareUpdate :
    runs (.firmwareUpdate img0 .begins) updatingSlot (fun t => t = { updatingSlot with outputs := [.updateBusy] }) = true := by decide +kernel
theorem test_firmwareComplete :
    runs (.firmwareUpdate img0 .completes) updatingSlot (fun t =>
        t.sof.slots[0]? = some { state := .ready, major := 3, minor := 2, svn := 3, bytes := [], sigOk := true } ∧ t.sof.updating = none) = true := by decide +kernel
theorem test_configurationUpdate :
    runs (.configurationUpdate cfg0 .completes) updatingCopy (fun t => t.sof.copies[0]? = some (some cfg0)) = true := by decide +kernel
def expired : State := { bayRun with sof := { bayRun.sof with expiries := [8, 7] } }
def trialRun : State := { bayRun with sof := { bayRun.sof with trial := true, thatchSlot := 1, slots := [{ FwSlot.reset with state := .committed, major := 3, sigOk := true }, { FwSlot.reset with state := .trial, major := 3, svn := 9, sigOk := true }] } }
theorem test_premises_FirmwareAndPins_2 :
    trialRun.sof.thatchRun = true ∧ trialRun.sof.trial = true ∧
        (trialRun.sof.slots.getD trialRun.sof.thatchSlot.toNat FwSlot.reset).state = .trial ∧ trialRun.sof.slots.length = 2 ∧
        bayRun.sof.trial = false ∧ trialRun.sof.slotIn .committed = some 0 := by decide +kernel
theorem test_premises_FirmwareAndPins_3 :
    bayRun.sof.thatchRun = true ∧ bayRun.sof.trial = false ∧ bayRun.tim.refclkOk = true ∧ bayRun.tim.fifths ≤ 5120 * (1 : W64).toNat ∧
        expired.sof.expiries.length = 2 := by decide +kernel
theorem test_watchdog :
    runs (.watchdog 9) expired (fun t => decide (t.sof.expiries = [9, 8, 7]) && t.sof.thatchFailed && !t.sof.thatchRun &&
        cnt expired t 21 1) = true := by decide +kernel
theorem test_sofFwCtlCommit :
    runs (.sofFwCtlCommit .thatch) trialRun (fun t => (t.sof.slots.map fun x => x.state) = [.ready, .committed] ∧ t.sof.trial = false ∧
        t.sof.svnMin = 0) = true := by decide +kernel
theorem test_sofFwCtlAdvance :
    runs (.sofFwCtlAdvance .thatch) trialRun (fun t => (t.sof.slots.map fun x => x.state) = [.ready, .committed] ∧
        t.sof.svnMin = 9) = true := by decide +kernel
theorem test_trialTimeout :
    runs (.trialTimeout) trialRun (fun t => (t.sof.slots.map fun x => x.state) = [.committed, .empty] && !t.sof.trial &&
        cnt trialRun t 21 1 && t.sof.thatchRun && t.sof.thatchSlot = 0) = true := by decide +kernel
theorem test_qspiServiceAccess :
    runs (.qspiServiceAccess (.ext true)) plain (fun t => t.pins.qspiExtN = false ∧ t.pins.external = true) = true := by decide +kernel
/-- The flash bus with a programmer. -/
def programmed : State := { trialRun with pins := { trialRun.pins with external := true } }
theorem test_premises_FirmwareAndPins_5 :
    programmed.pins.external = true ∧ programmed.sof.slots.length = 2 ∧ programmed.sof.copies.length = 2 ∧ bayRun.pins.external = false := by decide +kernel
theorem test_programmerWrites :
    runs (.qspiServiceAccess (.slot 0 { img0 with sigOk := false })) programmed (fun t => t.sof.slotIn .committed = none) = true := by decide +kernel
end Sys2Proof.Tests
end

section
/-! SUPPORT. Register accesses (R6 to R8): what single registers read, what setting one gives, and what an access in halves leaves. It ends
in the statements about registers. -/
namespace Sys2Proof.Machine

open Sys2Proof

/-! ### What a register reads: its own block gives its value, and every other block 0 -/

section
variable (x m : W64)

theorem onlySof : (x ||| 0 ||| 0 ||| 0 ||| 0 ||| 0 ||| 0) &&& m = x &&& m := by simp
theorem onlyPur : (0 ||| x ||| 0 ||| 0 ||| 0 ||| 0 ||| 0) &&& m = x &&& m := by simp
theorem onlyEav : (0 ||| 0 ||| x ||| 0 ||| 0 ||| 0 ||| 0) &&& m = x &&& m := by simp
theorem onlyTrs : (0 ||| 0 ||| 0 ||| x ||| 0 ||| 0 ||| 0) &&& m = x &&& m := by simp
theorem onlyGut : (0 ||| 0 ||| 0 ||| 0 ||| x ||| 0 ||| 0) &&& m = x &&& m := by simp
theorem onlySec : (0 ||| 0 ||| 0 ||| 0 ||| 0 ||| x ||| 0) &&& m = x &&& m := by simp
theorem onlyJeb : (0 ||| 0 ||| 0 ||| 0 ||| 0 ||| 0 ||| x) &&& m = x &&& m := by simp
end

section
variable (s : State)

theorem State.regVal_tstGen (n : Nat) : s.regVal (.tstGen n) = (s.mport n).spar.gen &&& 0xFFFFFFFFFF03FFFF := onlySof _ _
theorem State.regVal_tstGenCount (n : Nat) : s.regVal (.tstGenCount n) = (s.mport n).spar.genCount &&& 0xFFFFFFFFFFFFFFFF := onlySof _ _
theorem State.regVal_tstChk (n : Nat) : s.regVal (.tstChk n) = (s.mport n).spar.chk &&& 0xFFFFFFFFFFFFFFFF := onlySof _ _
theorem State.regVal_purShareCfg : s.regVal .purShareCfg = s.pur.shareCfg.setWidth 64 &&& 0xFFFFFF := onlyPur _ _
theorem State.regVal_purBundleCtrl : s.regVal .purBundleCtrl = s.pur.bundleCtrl.setWidth 64 &&& 0x3 := onlyPur _ _
theorem State.regVal_purBundleCount : s.regVal .purBundleCount = s.pur.bundleCount &&& 0xFFFFFFFFFFFFFFFF := onlyPur _ _
theorem State.regVal_purAuditFirst : s.regVal .purAuditFirst = s.pur.auditFirst &&& 0xFFFFFFFFFFFFFFFF := onlyPur _ _
theorem State.regVal_purEpochStatus : s.regVal .purEpochStatus = packW 64 [(0, flag s.pur.epochDone), (1, flag s.pur.epochReject)] &&& 0x3 :=
  onlyPur _ _
theorem State.regVal_prtCtrl (p : PortRef) : s.regVal (.prtCtrl p) = (s.port p).ctrlWord &&& 0xFFFF00 := onlyPur _ _
theorem State.regVal_prtQuantum (p : PortRef) : s.regVal (.prtQuantum p) = (s.port p).cfg.quantum &&& 0xFFFFFFFFFFFFFFF := onlyPur _ _
theorem State.regVal_eavErr (n : Nat) : s.regVal (.eavErr n) = (s.eave n).err &&& 0xFFFFFFFFFFFFFFFF := onlyEav _ _
theorem State.regVal_gabErr : s.regVal .gabErr = s.gab.err &&& 0xFFFFFFFFFFFFFFFF := onlyEav _ _
theorem State.regVal_trsErr : s.regVal .trsErr = s.trs.err &&& 0xFFFFFFFFFFFFFFFF := onlyTrs _ _
theorem State.regVal_trsCommCtl (n : Nat) : s.regVal (.trsCommCtl n) = (s.trs.comm n).ctl &&& 0xFFFFFFFFFFFFFF := onlyTrs _ _
theorem State.regVal_trsCommState (n : Nat) : s.regVal (.trsCommState n) =
    packW 64 [(0, (s.trs.comm n).lastSeq.toNat), (20, (s.trs.comm n).outstanding.toNat)] &&& 0xFFFFFF := onlyTrs _ _
theorem State.regVal_gutCtrl : s.regVal .gutCtrl = s.gut.ctrl.setWidth 64 &&& 0xFF0103 := onlyGut _ _
theorem State.regVal_secAdmitShape : s.regVal .secAdmitShape = s.sec.admitShape.setWidth 64 &&& 0x3FFFF := onlySec _ _
theorem State.regVal_secAdmitTag : s.regVal .secAdmitTag = s.sec.admitTag.setWidth 64 &&& 0xFFFF := onlySec _ _
theorem State.regVal_pwrSlew : s.regVal .pwrSlew = s.pwr.slew.setWidth 64 &&& 0x1FFFF := onlySec _ _
theorem State.regVal_pwrThermCfg : s.regVal .pwrThermCfg = s.pwr.thermCfg.setWidth 64 &&& 0xFFFFFFFF := onlySec _ _
theorem State.regVal_jebSpreadMap (k : Nat) : s.regVal (.jebSpreadMap k) = slice64 s.jeb.spreadMap k &&& 0xFFFFFFFFFFFFFFFF := onlyJeb _ _

end

/-! ### Registers at reset -/

theorem State.reset_port (p : PortRef) : State.reset.port p = Port.reset := by cases p <;> rfl

theorem State.reset_comm (n : Nat) : State.reset.trs.comm n = Comm.reset := rfl

theorem State.reset_prtCtrl (p : PortRef) : State.reset.regVal (.prtCtrl p) = 0x40FF00 := by
  rw [State.regVal_prtCtrl, State.reset_port]
  decide

theorem State.reset_prtQuantum (p : PortRef) : State.reset.regVal (.prtQuantum p) = 0x0024048090090024 := by
  rw [State.regVal_prtQuantum, State.reset_port]
  decide

theorem State.reset_trsCommCtl (n : Nat) : State.reset.regVal (.trsCommCtl n) = 0x10000100 := by
  rw [State.regVal_trsCommCtl, State.reset_comm]
  decide

theorem State.reset_trsCommState (n : Nat) : State.reset.regVal (.trsCommState n) = 0xFFFFF := by
  rw [State.regVal_trsCommState, State.reset_comm]
  decide

theorem State.reset_jebSpreadMap : ∀ k, k < 4 → State.reset.regVal (.jebSpreadMap k) = 0xFEDCBA9876543210 := by
  simp only [State.regVal_jebSpreadMap]
  decide

/-- Settles O4: the registers that stand alone by evaluation, those of every port, communicator and map word by what the reset state holds
there. -/
theorem resetState : Obligations.ResetState := by
  have ports (p : PortRef) := And.intro (State.reset_prtCtrl p) (State.reset_prtQuantum p)
  have comms (n : Nat) := And.intro (State.reset_trsCommCtl n) (State.reset_trsCommState n)
  refine ⟨⟨ports, ?purShareCfg, ?purBundleCtrl, ?eavHashCfg, ?eavScrubCfg, ?gabSkewCfg, comms, ?gutCtrl, ?pwrSlew, ?pwrThermCfg, ?jebCtrl,
    State.reset_jebSpreadMap, ?timNow, ?secBayStatus, ?pending⟩, ?memOk⟩
  case pending => rfl
  case memOk => exact ⟨rfl, rfl⟩
  all_goals decide

/-! ### Halves of a word (R8) -/

section
variable (a b : W64) (hi lo : W32)

theorem getLsbD_joinHalves (i : Nat) : (joinHalves hi lo).getLsbD i = if i < 32 then lo.getLsbD i else hi.getLsbD (i - 32) :=
  BitVec.getLsbD_append
theorem lowHalf_and : lowHalf (a &&& b) = lowHalf a &&& lowHalf b := BitVec.setWidth_and
theorem lowHalf_or : lowHalf (a ||| b) = lowHalf a ||| lowHalf b := BitVec.setWidth_or
theorem lowHalf_not : lowHalf (~~~ a) = ~~~ lowHalf a := BitVec.setWidth_not (by decide)
theorem highHalf_and : highHalf (a &&& b) = highHalf a &&& highHalf b := by
  simp only [highHalf, BitVec.truncate_eq_setWidth, BitVec.ushiftRight_and_distrib, BitVec.setWidth_and]
theorem highHalf_or : highHalf (a ||| b) = highHalf a ||| highHalf b := by
  simp only [highHalf, BitVec.truncate_eq_setWidth, BitVec.ushiftRight_or_distrib, BitVec.setWidth_or]
theorem highHalf_not : highHalf (~~~ a) = ~~~ highHalf a := by
  ext i h
  simp only [highHalf, BitVec.truncate_eq_setWidth, BitVec.getElem_setWidth, BitVec.getLsbD_ushiftRight, BitVec.getLsbD_not, BitVec.getElem_not]
  simp only [show 32 + i < 64 by omega, decide_true, Bool.true_and]
theorem lowHalf_joinHalves : lowHalf (joinHalves hi lo) = lo := by
  ext i h
  simp [lowHalf, getLsbD_joinHalves, h]
theorem highHalf_joinHalves : highHalf (joinHalves hi lo) = hi := by
  ext i h
  simp [highHalf, getLsbD_joinHalves, h]

/-- A word by its halves. -/
theorem eq_joinHalves (h : highHalf a = hi) (l : lowHalf a = lo) : a = joinHalves hi lo := by
  subst h l
  apply BitVec.eq_of_getLsbD_eq
  intro i hi
  rw [getLsbD_joinHalves]
  split
  · simp [lowHalf, *]
  · simp [highHalf, show 32 + (i - 32) = i by omega]
    omega
end

/-! ### Setting the fields of a register -/

theorem accessWrite_rw {n : Nat} (rw old new : BitVec n) : accessWrite rw 0 old new = (old &&& ~~~ rw) ||| (new &&& rw) := by
  ext i h
  simp [accessWrite]

theorem accessWrite_zero {n : Nat} (w1c old new : BitVec n) : accessWrite 0 w1c old new = old &&& ~~~ (w1c &&& new) := by
  ext i h
  simp [accessWrite]

/-- A mask below `2 ^ n` sees the low `n` bits only. -/
theorem setWidth_and_mask {w n : Nat} (v m : BitVec w) (h : m.toNat < 2 ^ n) : (v.setWidth n).setWidth w &&& m = v &&& m := by
  apply BitVec.eq_of_getLsbD_eq
  intro i hi
  have hm : n ≤ i → m.getLsbD i = false := fun hn =>
    Nat.testBit_lt_two_pow (Nat.lt_of_lt_of_le h (Nat.pow_le_pow_right (by decide) hn))
  by_cases hn : i < n
  · simp [hn, hi]
  · simp [hm (Nat.le_of_not_lt hn)]

section
variable (s : State) (v : W64)

/-- A Spar register's fields after a change of its port's generator and checkers. -/
theorem State.mport_updSpar {k : Nat} (h : k < 144) (f : Spar → Spar) :
    ((s.updSpar (Fin.ofNat 144 k) f).mport k).spar = f (s.mport k).spar := by
  have hk : (Fin.ofNat 144 k).val = k := Nat.mod_eq_of_lt h
  conv => lhs; arg 1; arg 2; rw [← hk]
  rw [State.mport_eq, State.updSpar, State.port_updPort_same, ← State.mport_eq, hk]

theorem State.setReg_tstGen (n : Nat) : s.setReg (.tstGen n) v = s.updSpar (Fin.ofNat 144 n) fun x => { x with gen := v } := rfl
theorem State.setReg_tstGenCount (n : Nat) : s.setReg (.tstGenCount n) v = s.updSpar (Fin.ofNat 144 n) fun x => { x with genCount := v } := rfl
theorem State.setReg_tstChk (n : Nat) : s.setReg (.tstChk n) v = s.updSpar (Fin.ofNat 144 n) fun x => { x with chk := v } := rfl
theorem State.setReg_prtQuantum (p : PortRef) :
    s.setReg (.prtQuantum p) v = s.updPort p fun x => { x with cfg := { x.cfg with quantum := v } } := rfl
theorem State.setReg_eavErr (n : Nat) : s.setReg (.eavErr n) v = s.setEave n { s.eave n with err := v } := rfl

/-- A register that only stores, or that a read clears whole, reads as it was set, on its fields. -/
theorem State.regVal_setReg : ∀ r ∈ plainRegs ++ clearRegs, (s.setReg r v).regVal r = v &&& r.fields := by
  have narrow (n : Nat) (m : W64) (h : m.toNat < 2 ^ n) := setWidth_and_mask v m h
  simp only [plainRegs, clearRegs, List.cons_append, List.nil_append, List.forall_mem_cons, List.not_mem_nil, false_implies, implies_true,
    and_true]
  refine ⟨?tstGen, ?tstGenCount, ?purShareCfg, ?purBundleCtrl, ?prtQuantum, ?gutCtrl, ?secAdmitShape, ?secAdmitTag, ?pwrSlew, ?pwrThermCfg,
    ?tstChk, ?purBundleCount, ?gabErr, ?trsErr, ?eavErr⟩
  case tstGen => rw [State.regVal_tstGen, State.setReg_tstGen, s.mport_updSpar (by decide)]; rfl
  case tstGenCount => rw [State.regVal_tstGenCount, State.setReg_tstGenCount, s.mport_updSpar (by decide)]; rfl
  case tstChk => rw [State.regVal_tstChk, State.setReg_tstChk, s.mport_updSpar (by decide)]; rfl
  case prtQuantum => rw [State.regVal_prtQuantum, State.setReg_prtQuantum, State.port_updPort_same]; rfl
  case eavErr => rw [State.regVal_eavErr, State.setReg_eavErr, State.eave_setEave, if_pos rfl]; rfl
  case purBundleCount => exact State.regVal_purBundleCount _
  case gabErr => exact State.regVal_gabErr _
  case trsErr => exact State.regVal_trsErr _
  case purShareCfg => exact (State.regVal_purShareCfg _).trans (narrow 32 _ (by decide))
  case purBundleCtrl => exact (State.regVal_purBundleCtrl _).trans (narrow 32 _ (by decide))
  case gutCtrl => exact (State.regVal_gutCtrl _).trans (narrow 32 _ (by decide))
  case secAdmitShape => exact (State.regVal_secAdmitShape _).trans (narrow 18 _ (by decide))
  case secAdmitTag => exact (State.regVal_secAdmitTag _).trans (narrow 16 _ (by decide))
  case pwrSlew => exact (State.regVal_pwrSlew _).trans (narrow 32 _ (by decide))
  case pwrThermCfg => exact (State.regVal_pwrThermCfg _).trans (narrow 32 _ (by decide))

/-- Setting a register that a read clears whole leaves the Jalem block, SEC, Gutter, Soffit and what has left the block. -/
theorem State.setReg_clear_frame : ∀ r ∈ clearRegs, (s.setReg r v).jeb = s.jeb ∧ (s.setReg r v).sec = s.sec ∧ (s.setReg r v).gut = s.gut ∧
    (s.setReg r v).sof = s.sof ∧ (s.setReg r v).outputs = s.outputs := by
  simp only [clearRegs, List.forall_mem_cons, List.not_mem_nil, false_implies, implies_true, and_true]
  refine ⟨?tstChk, ?purBundleCount, ?gabErr, ?trsErr, ?eavErr⟩ <;> exact ⟨rfl, rfl, rfl, rfl, rfl⟩

/-! ### Who may access what -/

theorem State.reaches_of_mgmt {who : Requester} (h : s.mgmt who = true) : s.reachesDev who .module = true := by
  show (s.mgmt who || _) = true
  rw [h, Bool.true_or]

/-- The rack controller writes every register that only stores. -/
theorem State.mayWrite_plain (h : s.mgmt .rackController = true) : ∀ r ∈ plainRegs, s.mayWrite .rackController .module r = true := by
  intro r hr
  have ok : ∀ r ∈ plainRegs, (if r.isSec then r.forwarded else !r.managerOnly) = true := by decide
  show (s.mgmt .rackController && _) = true
  rw [h, ok r hr, Bool.and_true]

/-- The Ethernet interface writes what is not SEC's, the fabric manager's or the rack controller's. -/
theorem State.mayWrite_ethernet {r : Reg} (h : s.mgmt .ethernet = true)
    (ok : (if r.isSec then r.forwarded else !r.managerOnly && !r.rackOnly) = true) : s.mayWrite .ethernet .module r = true := by
  show (s.mgmt .ethernet && _) = true
  rw [h, ok, Bool.and_true]

/-- Writing a register that only stores is a write by the access codes. -/
theorem State.writeReg_plain {who : Requester} (hw : who ≠ .inBand) (hl : who ≠ .localSide) :
    ∀ r ∈ plainRegs, s.writeReg who .module r v = s.plainWrite r r.rw v := by
  have acts : ∀ r ∈ plainRegs, s.moduleWrite who r v = none := by
    simp only [plainRegs, List.forall_mem_cons, List.not_mem_nil, false_implies, implies_true, and_true]
    exact ⟨rfl, rfl, rfl, rfl, rfl, rfl, rfl, rfl, rfl, rfl⟩
  intro r hr
  simp [State.writeReg, acts r hr, hw, hl]

/-- A write by the access codes of a register that only stores, as it then reads. -/
theorem State.regVal_plainWrite : ∀ r ∈ plainRegs, (s.plainWrite r r.rw v).regVal r = (s.regVal r &&& ~~~ r.rw) ||| (v &&& r.rw) := by
  have codes : ∀ r ∈ plainRegs, r.w1c = 0 ∧ r.fields = r.rw := by decide
  intro r hr
  obtain ⟨hw, hf⟩ := codes r hr
  rw [State.plainWrite, s.regVal_setReg _ r (List.mem_append_left _ hr), State.regVal, hw, hf, accessWrite_rw]
  ext i
  simp
  cases r.rw[i] <;> simp

/-! ### Accesses of words -/

theorem wordAt_of_regAt {d : Dev} {a : Nat} {r : Reg} (h : regAt d a = some r) : wordAt d a = some (r, false) := by
  simp [wordAt, h]

/-- A write of a register of the module by a requester outside that may make it. -/
theorem State.write_module {who : Requester} (a : W32) {r : Reg} (h : s.mayWrite who .module r = true) (hw : who ≠ .inBand) :
    s.write who .module a r v = s.writeReg who .module r v := by
  simp [State.write, State.guard, h, s.inAccess_outside _ _ _ _ hw]

/-- A write of a whole register through the register interface, as wide as the register. -/
theorem exec_write_whole {who : Requester} {d : Dev} {a : W32} {r : Reg} (hd : s.reachesDev who d = true) (h : regAt d a.toNat = some r) :
    exec (.registerWrite who d a r.wide v) s = .next (s.write who d a r (if r.wide then v else (v.setWidth 32).setWidth 64)) := by
  cases hr : r.wide <;> simp [exec, execRegisterWrite, hd, State.writeWide, State.writeWord, h, wordAt_of_regAt h, hr]

end

/-! ### Fields that a written 1 clears -/

/-- A bit of a register without RW fields after a write of its low word: a written 1 clears it. -/
theorem bitAt_clearedWord {w1c : W64} (old v : W64) (i : Nat) (h : i < 32) (hc : bitAt w1c i = true) :
    bitAt (accessWrite 0 w1c old ((v.setWidth 32).setWidth 64)) i = (bitAt old i && !bitAt v i) := by
  have h64 : i < 64 := by omega
  rw [bitAt, BitVec.getLsbD_eq_getElem h64] at hc
  rw [accessWrite_zero]
  simp [bitAt, h, h64, hc]

/-- SLIP and OFS_FAULT as TIM_STATUS shows them. -/
theorem State.bitAt_timStatus (s : State) : bitAt (s.regVal .timStatus) 3 = s.tim.slip ∧ bitAt (s.regVal .timStatus) 5 = s.tim.ofsFault := by
  have word : ∀ refclk sync free slip warn fault : Bool,
      let w := packW 64 [(0, flag refclk), (1, flag sync), (2, flag free), (3, flag slip), (4, flag warn), (5, flag fault)] &&& 0x3F
      bitAt w 3 = slip ∧ bitAt w 5 = fault := by decide
  rw [show s.regVal .timStatus = _ from onlySof _ _]
  exact word _ _ _ _ _ _

/-- DONE and REJECT as PUR_EPOCH_STATUS shows them. -/
theorem State.bitAt_purEpochStatus (s : State) :
    bitAt (s.regVal .purEpochStatus) 0 = s.pur.epochDone ∧ bitAt (s.regVal .purEpochStatus) 1 = s.pur.epochReject := by
  have word : ∀ done reject : Bool,
      let w := packW 64 [(0, flag done), (1, flag reject)] &&& 0x3
      bitAt w 0 = done ∧ bitAt w 1 = reject := by decide
  rw [State.regVal_purEpochStatus]
  exact word _ _

section
variable (s : State) (v : W64)

/-- A write through the Ethernet interface of a register of 32 bits that it may write and of which a write only clears bits. -/
theorem exec_write_w1c {a : W32} {r : Reg} (h : s.mgmt .ethernet = true) (ha : regAt .module a.toNat = some r) (hn : r.wide = false)
    (ok : (if r.isSec then r.forwarded else !r.managerOnly && !r.rackOnly) = true) (hrw : r.rw = 0)
    (hm : ∀ x, s.moduleWrite .ethernet r x = none) :
    exec (.registerWrite .ethernet .module a false v) s =
      .next (s.setReg r (accessWrite 0 r.w1c (s.regVal r) ((v.setWidth 32).setWidth 64))) := by
  have whole := exec_write_whole s v (s.reaches_of_mgmt h) ha
  rw [s.write_module _ _ (s.mayWrite_ethernet h ok) (by decide), hn] at whole
  rw [whole]
  simp [State.writeReg, hm, State.plainWrite, hrw]

/-- A write of TIM_STATUS through the Ethernet interface. -/
theorem exec_write_timStatus (h : s.mgmt .ethernet = true) : exec (.registerWrite .ethernet .module 0x00B00000 false v) s = .next
    { s with tim := { s.tim with slip := s.tim.slip && !bitAt v 3, ofsFault := s.tim.ofsFault && !bitAt v 5 } } := by
  obtain ⟨slip, fault⟩ := s.bitAt_timStatus
  have set (x : W64) : s.setReg .timStatus x = { s with tim := { s.tim with slip := bitAt x 3, ofsFault := bitAt x 5 } } := rfl
  rw [exec_write_w1c s v (r := .timStatus) h rfl rfl rfl rfl fun _ => rfl, set, bitAt_clearedWord _ _ 3 (by decide) rfl,
    bitAt_clearedWord _ _ 5 (by decide) rfl, slip, fault]

/-- A write of PUR_EPOCH_STATUS through the Ethernet interface. -/
theorem exec_write_purEpochStatus (h : s.mgmt .ethernet = true) : exec (.registerWrite .ethernet .module 0x00100108 false v) s = .next
    { s with pur := { s.pur with epochDone := s.pur.epochDone && !bitAt v 0, epochReject := s.pur.epochReject && !bitAt v 1 } } := by
  obtain ⟨done, reject⟩ := s.bitAt_purEpochStatus
  have set (x : W64) : s.setReg .purEpochStatus x =
    { s with pur := { s.pur with epochDone := bitAt x 0, epochReject := bitAt x 1 } } := rfl
  rw [exec_write_w1c s v (r := .purEpochStatus) h rfl rfl rfl rfl fun _ => rfl, set, bitAt_clearedWord _ _ 0 (by decide) rfl,
    bitAt_clearedWord _ _ 1 (by decide) rfl, done, reject]

/-! ### Reads that clear -/

/-- A whole read through the Ethernet interface of a register that it clears. -/
theorem exec_rcRead_clear {a : W32} {r : Reg} (hr : r ∈ clearRegs) (h : s.mgmt .ethernet = true) (ha : regAt .module a.toNat = some r) :
    exec (.rcRead .ethernet .module a true) s = .next ((s.setReg r 0).emit (.regValue .ethernet .module a (s.regVal r))) := by
  have clears : ∀ r ∈ clearRegs, r ≠ .purAuditFirst ∧ r.rc = BitVec.allOnes 64 := by decide
  have old : ∀ r ∈ clearRegs, s.cleared r 0 = 0 ∧ ∀ t : State, t.countOn r = t := by
    simp only [clearRegs, List.forall_mem_cons, List.not_mem_nil, false_implies, implies_true, and_true]
    exact ⟨⟨rfl, fun _ => rfl⟩, ⟨rfl, fun _ => rfl⟩, ⟨rfl, fun _ => rfl⟩, ⟨rfl, fun _ => rfl⟩, rfl, fun _ => rfl⟩
  obtain ⟨hf, hrc⟩ := clears r hr
  obtain ⟨hz, hc⟩ := old r hr
  have read : s.readEffect .ethernet r (BitVec.allOnes 64) = s.setReg r 0 := by
    have zero : s.regVal r &&& ~~~ (r.rc &&& BitVec.allOnes 64) = 0 := by simp [hrc]
    rw [State.readEffect, if_neg (by simp), if_neg (by simp), State.clearRead, if_neg hf, if_neg (by rw [hrc]; decide), zero, hz, hc]
  have reaches := s.reaches_of_mgmt h
  simp only [exec, execRcRead, reaches, State.readWide, ha, read]
  simp [State.answerRead, State.readValue]

end

/-- Settles O10: for each access code, what the register access does to the fields (`regVal_plainWrite`, `exec_write_timStatus`,
`exec_write_purEpochStatus`, `exec_rcRead_clear`). -/
theorem registerAccessCodes : Obligations.RegisterAccessCodes := by
  refine ⟨fun s a r v hr hm ha => ?_, fun s v hm => ⟨?_, ?_⟩, fun s a r hr hm ha => ?_⟩
  · have narrow : ∀ r ∈ plainRegs, r.wide = false → r.rw.toNat < 2 ^ 32 := by decide
    refine ⟨_, exec_write_whole s v (s.reaches_of_mgmt hm) ha, ?_⟩
    dsimp only
    rw [s.write_module _ _ (s.mayWrite_plain hm r hr) (by decide), s.writeReg_plain _ (by decide) (by decide) r hr,
      s.regVal_plainWrite _ r hr]
    split
    · rfl
    · next hw => rw [setWidth_and_mask v r.rw (narrow r hr (by simpa using hw))]
  · exact ⟨_, exec_write_timStatus s v hm, rfl, rfl, rfl⟩
  · exact ⟨_, exec_write_purEpochStatus s v hm, rfl, rfl, rfl⟩
  · obtain ⟨jeb, sec, gut, sof, outputs⟩ := s.setReg_clear_frame 0 r hr
    refine ⟨_, exec_rcRead_clear s hr hm ha, ?_, ?_, jeb, sec, gut, sof⟩
    · exact (s.regVal_setReg 0 r (List.mem_append_right _ hr)).trans BitVec.zero_and
    · exact congrArg (· ++ _) outputs

/-! ### What setting a register's fields leaves of the register interface -/

/-- The register interface: the latches, what has left the block, and who reaches the registers. -/
def State.io (s : State) : List Latch × List Output × Bool × Bool := (s.latches, s.outputs, s.served, s.sof.thatchRun)

theorem State.reachesDev_congr {s t : State} (who : Requester) (d : Dev) (h : t.io = s.io) : t.reachesDev who d = s.reachesDev who d := by
  simp only [State.io, Prod.mk.injEq] at h
  obtain ⟨-, -, served, run⟩ := h
  cases d <;> simp only [State.reachesDev, State.reaches, State.mgmt, served, run]

section
variable (s : State) (r : Reg) (v : W64)

theorem State.setSofReg_io : (s.setSofReg r v).io = s.io := by
  unfold State.setSofReg
  split <;> simp [State.io, State.served, State.sarkingOnly, State.updSpar]

theorem State.setPurReg_io : (s.setPurReg r v).io = s.io := by
  unfold State.setPurReg
  split <;> simp [State.io, State.served, State.sarkingOnly]

theorem State.setEavReg_io : (s.setEavReg r v).io = s.io := by
  unfold State.setEavReg
  split <;> simp [State.io, State.served, State.sarkingOnly, State.setScrubCfg]

theorem State.setTrsReg_io : (s.setTrsReg r v).io = s.io := by
  unfold State.setTrsReg
  split <;> simp [State.io, State.served, State.sarkingOnly]

theorem State.setGutReg_io : (s.setGutReg r v).io = s.io := by
  unfold State.setGutReg
  split <;> simp [State.io, State.served, State.sarkingOnly]

theorem State.setSecReg_io : (s.setSecReg r v).io = s.io := by
  unfold State.setSecReg
  split <;> simp [State.io, State.served, State.sarkingOnly]

theorem State.setJebReg_io (h : ∀ n, r ≠ .jebSig n) : (s.setJebReg r v).io = s.io := by
  cases r with
  | jebSig n => exact absurd rfl (h n)
  | _ => rfl

theorem State.setReg_io (h : ∀ n, r ≠ .jebSig n) : (s.setReg r v).io = s.io := by
  simp only [State.setReg, State.setJebReg_io _ r v h, State.setSecReg_io, State.setGutReg_io, State.setTrsReg_io, State.setEavReg_io,
    State.setPurReg_io, State.setSofReg_io]

theorem State.countOn_io : (s.countOn r).io = s.io := by
  unfold State.countOn
  split
  · split <;> simp [State.io, State.served, State.sarkingOnly, State.updSpar]
  · rfl

/-- A read that clears leaves the latches and adds no output. -/
theorem State.clearRead_io (mask : W64) : (s.clearRead r mask).io = s.io := by
  unfold State.clearRead
  split
  · split <;> rfl
  · split
    · rfl
    · next _ hc =>
      have stored : ∀ n, r ≠ .jebSig n := by
        rintro n rfl
        exact hc (BitVec.zero_and)
      rw [State.countOn_io, State.setReg_io _ _ _ stored]

end

/-! ### The latches of an access in halves -/

section
variable (s : State) (who : Requester) (d : Dev) (a : W32) (w : Bool) (v : W32)

theorem State.latched_unlatch : (s.unlatch who d a w).latched who d a w = none := by
  have gone : (s.unlatch who d a w).latches.find? (fun l => decide (l.who = who ∧ l.dev = d ∧ l.addr = a ∧ l.write = w)) = none := by
    rw [List.find?_eq_none]
    intro l hl
    simpa only [State.unlatch, List.mem_filter, Bool.not_eq_true', decide_eq_true_eq, decide_eq_false_iff_not] using (List.mem_filter.mp hl).2
  rw [State.latched, gone, Option.map_none]

theorem State.latched_latch : (s.latch who d a w v).latched who d a w = some v := by
  have gone := s.latched_unlatch who d a w
  rw [State.latched, Option.map_eq_none_iff] at gone
  rw [State.latched, State.latch, List.find?_append, gone]
  simp

theorem State.unlatch_latch : (s.latch who d a w v).unlatch who d a w = s.unlatch who d a w := by
  simp [State.unlatch, State.latch, List.filter_append, List.filter_filter]

theorem State.latched_congr {s t : State} (h : t.latches = s.latches) : t.latched who d a w = s.latched who d a w := by
  rw [State.latched, h, State.latched]

/-- No register shows the latches. -/
theorem State.regVal_latches (l : List Latch) (r : Reg) : State.regVal { s with latches := l } r = s.regVal r := rfl

end

/-! ### Accesses in halves (R8) -/

section
variable {s : State} {who : Requester} {d : Dev} {a : W32} {r : Reg} (lo hi : W32)

theorem exec_lowerHalfWrite (hd : s.reachesDev who d = true) (hl : wordAt d a.toNat = some (r, false)) (hw : r.wide = true) :
    exec (.lowerHalfWrite who d a lo) s = .next (s.latch who d a true lo) := by
  simp [exec, execLowerHalfWrite, hd, State.writeWord, hl, hw]

theorem exec_upperHalfWrite_latched (hd : s.reachesDev who d = true) (hu : wordAt d (a + 4).toNat = some (r, true))
    (h : s.latched who d a true = some lo) :
    exec (.upperHalfWrite who d (a + 4) hi) s = .next ((s.unlatch who d a true).write who d a r (joinHalves hi lo)) := by
  simp only [exec, execUpperHalfWrite, hd, if_true, State.writeWord, hu, BitVec.add_sub_cancel, h]

/-- An upper half written with no lower half latched. -/
theorem exec_upperHalfWrite_alone (hd : s.reachesDev who d = true) (hu : wordAt d (a + 4).toNat = some (r, true))
    (h : s.latched who d a true = none) :
    exec (.upperHalfWrite who d (a + 4) hi) s = .next (s.guard who d a r
      (s.inAccess who d a.toNat fun s => s.writeUpper who d r (joinHalves hi (lowHalf (s.regVal r &&& r.rw))))) := by
  simp only [exec, execUpperHalfWrite, hd, if_true, State.writeWord, hu, BitVec.add_sub_cancel, h]

/-- A lower half read of a register that shows its requester its value. -/
theorem exec_lowerHalfRead (hd : s.reachesDev who d = true) (hl : wordAt d a.toNat = some (r, false)) (hw : r.wide = true)
    (hb : s.hiddenInBand r = false) (ht : who = .thatch → r.secConfig = false) :
    exec (.lowerHalfRead who d a) s = .next (((s.latch who d a false (highHalf (s.regVal r))).clearRead r (BitVec.allOnes 64)).emit
      (.regValue who d a ((lowHalf (s.regVal r)).setWidth 64))) := by
  have seen (t : State) (h : t.hiddenInBand r = false) : t.readValue who r = t.regVal r := by
    rw [State.readValue, if_neg]
    rintro (⟨-, hh⟩ | ⟨rfl, hs⟩)
    · exact absurd hh (by simp [h])
    · exact absurd hs (by simp [ht rfl])
  have effect (t : State) (h : t.hiddenInBand r = false) : t.readEffect who r (BitVec.allOnes 64) = t.clearRead r (BitVec.allOnes 64) := by
    rw [State.readEffect, if_neg, if_neg]
    · rintro ⟨-, hh⟩
      exact absurd hh (by simp [h])
    · rintro ⟨rfl, hs⟩
      exact absurd hs (by simp [ht rfl])
  have latched : (s.latch who d a false (highHalf (s.regVal r))).hiddenInBand r = false := hb
  simp only [exec, execLowerHalfRead, hd, if_true, State.readWord, hl, hw, seen s hb, effect _ latched, State.answerRead]

theorem exec_upperHalfRead_latched (hd : s.reachesDev who d = true) (hu : wordAt d (a + 4).toNat = some (r, true))
    (h : s.latched who d a false = some hi) :
    exec (.upperHalfRead who d (a + 4)) s =
      .next ((s.unlatch who d a false).emit (.regValue who d (a + 4) (hi.setWidth 64))) := by
  simp only [exec, execUpperHalfRead, hd, if_true, State.readWord, hu, BitVec.add_sub_cancel, h, State.answerRead]

end

/-! ### What an upper half written alone leaves -/

section
variable {α : Type} (s : State) (who : Requester)

/-- A guarded write of the module leaves what the firewall and the write leave. -/
theorem State.guard_keeps (g : State → α) (a : W32) (r : Reg) (t : State) (hf : g s.firewall = g s) (ht : g t = g s) :
    g (s.guard who .module a r t) = g s := by
  unfold State.guard
  split
  · split
    · exact hf
    · rfl
  · rw [if_neg (by simp), ht]

/-- A write for a requester leaves what the write leaves, for what does not look at the request. -/
theorem State.inAccess_keeps (g : State → α) (d : Dev) (addr : Nat) (act : State → State)
    (hr : ∀ (s : State) q, g { s with sof := { s.sof with request := q } } = g s) (ha : ∀ s, g (act s) = g s) :
    g (s.inAccess who d addr act) = g s := by
  obtain h | h := s.inAccess_cases who d addr act <;> rw [h]
  · exact ha s
  · rw [State.inRequest, hr, ha, hr]

theorem State.firewall_pur : s.firewall.pur = s.pur := by simp [State.firewall]
theorem State.firewall_trs : s.firewall.trs = s.trs := by simp [State.firewall]

theorem State.regVal_trsProgDir (n : Nat) : s.regVal (.trsProgDir n) =
    (let d := s.trs.dir n
     packW 64 [(0, flag d.valid), (8, d.first.toNat), (32, d.length.toNat), (48, d.rev.toNat), (52, flag d.refused), (53, d.code.toNat)]) &&&
      0xFF03FF001FFF01 := onlyTrs _ _

/-- The registers that act on a write of their lower half. -/
def Reg.actsOnLower (r : Reg) : Prop := r = .purAuditFirst ∨ (∃ n, r = .trsProgDir n) ∨ (∃ n, r = .trsCommCtl n)

/-- A communicator's control word after a write of its upper half alone. -/
theorem State.setComm_upper_low (n : Nat) (v : W64) :
    lowHalf ((s.setComm n fun c => { c with ctl := accessWrite (commCtlMask &&& 0xFFFFFFFF00000000) 0 c.ctl v }).regVal (.trsCommCtl n)) =
      lowHalf (s.regVal (.trsCommCtl n)) := by
  have ctl : ((s.setComm n fun c => { c with ctl := accessWrite (commCtlMask &&& 0xFFFFFFFF00000000) 0 c.ctl v }).trs.comm n).ctl =
      accessWrite (commCtlMask &&& 0xFFFFFFFF00000000) 0 (s.trs.comm n).ctl v :=
    congrArg Comm.ctl (Tab.get_put_same Comm.reset s.trs.comms n _)
  have low : lowHalf (commCtlMask &&& 0xFFFFFFFF00000000) = 0#32 := by decide
  rw [State.regVal_trsCommCtl, State.regVal_trsCommCtl, ctl, accessWrite_rw]
  generalize commCtlMask &&& 0xFFFFFFFF00000000 = mask at low
  simp only [lowHalf_and, lowHalf_or, lowHalf_not, low, show ~~~ 0#32 = BitVec.allOnes 32 from rfl, BitVec.and_allOnes, BitVec.and_zero,
    BitVec.or_zero]

/-- Their lower half keeps its value when their upper half is written alone. -/
theorem State.writeUpper_low {r : Reg} (h : r.actsOnLower) (v : W64) :
    lowHalf ((s.writeUpper who .module r v).regVal r) = lowHalf (s.regVal r) := by
  obtain rfl | ⟨n, rfl⟩ | ⟨n, rfl⟩ := h
  · rfl
  · show lowHalf (State.regVal (if s.trs.lock then s.configError else s) _) = _
    split
    · rw [State.regVal_trsProgDir, State.configError_trs, ← State.regVal_trsProgDir]
    · rfl
  · show lowHalf (State.regVal (if s.admitted then _ else s) _) = _
    split
    · exact s.setComm_upper_low n v
    · rfl

theorem State.guardedUpper_low {r : Reg} (h : r.actsOnLower) (a : W32) (x : State → W64) :
    lowHalf ((s.guard who .module a r (s.inAccess who .module a.toNat fun s => s.writeUpper who .module r (x s))).regVal r) =
      lowHalf (s.regVal r) := by
  let g : State → W32 := fun t => lowHalf (t.regVal r)
  refine s.guard_keeps who g a r _ ?firewall (s.inAccess_keeps who g _ _ _ ?request fun s => s.writeUpper_low who h _)
  case firewall =>
    obtain rfl | ⟨n, rfl⟩ | ⟨n, rfl⟩ := h <;> simp only [g]
    · rw [State.regVal_purAuditFirst, State.firewall_pur, ← State.regVal_purAuditFirst]
    · rw [State.regVal_trsProgDir, State.firewall_trs, ← State.regVal_trsProgDir]
    · rw [State.regVal_trsCommCtl, State.firewall_trs, ← State.regVal_trsCommCtl]
  case request =>
    intro s q
    obtain rfl | ⟨n, rfl⟩ | ⟨n, rfl⟩ := h <;> rfl

end

section
variable {s : State} {a : W32} {r : Reg} (hi : W32)

/-- The rack controller's write of the upper half alone of a register that only stores. -/
theorem exec_upperHalfWrite_plain (hd : s.reachesDev .rackController .module = true) (hr : r ∈ plainRegs)
    (hu : wordAt .module (a + 4).toNat = some (r, true)) (h : s.latched .rackController .module a true = none) :
    exec (.upperHalfWrite .rackController .module (a + 4) hi) s =
      .next (s.plainWrite r r.rw (joinHalves hi (lowHalf (s.regVal r &&& r.rw)))) := by
  have hm : s.mgmt .rackController = true := by simpa [State.reachesDev, State.reaches] using hd
  have upper : ∀ r ∈ plainRegs, ∀ v, s.writeUpper .rackController .module r v = s.writeReg .rackController .module r v := by
    simp only [plainRegs, List.forall_mem_cons, List.not_mem_nil, false_implies, implies_true, and_true]
    exact ⟨fun _ => rfl, fun _ => rfl, fun _ => rfl, fun _ => rfl, fun _ => rfl, fun _ => rfl, fun _ => rfl, fun _ => rfl, fun _ => rfl,
      fun _ => rfl⟩
  rw [exec_upperHalfWrite_alone hi hd hu h, State.guard, s.mayWrite_plain hm r hr, s.inAccess_outside _ _ _ _ (by decide), upper r hr,
    s.writeReg_plain _ (by decide) (by decide) r hr]
  rfl

/-- It sets the upper half's RW fields, and the lower half keeps its value. -/
theorem State.regVal_plainWrite_upper (hr : r ∈ plainRegs) :
    (s.plainWrite r r.rw (joinHalves hi (lowHalf (s.regVal r &&& r.rw)))).regVal r =
      joinHalves ((highHalf (s.regVal r) &&& ~~~ highHalf r.rw) ||| (hi &&& highHalf r.rw)) (lowHalf (s.regVal r)) := by
  rw [s.regVal_plainWrite _ r hr]
  apply eq_joinHalves
  · simp only [highHalf_or, highHalf_and, highHalf_not, highHalf_joinHalves]
  · simp only [lowHalf_or, lowHalf_and, lowHalf_not, lowHalf_joinHalves]
    ext i
    simp
    cases (lowHalf r.rw)[i] <;> simp

end

/-- Settles O11: a half is latched and taken up again (`exec_lowerHalfWrite`, `exec_upperHalfWrite_latched`, `exec_lowerHalfRead`,
`exec_upperHalfRead_latched`), and an upper half written alone leaves the lower one (`guardedUpper_low`, `regVal_plainWrite_upper`). -/
theorem halvesOfRegisters : Obligations.HalvesOfRegisters := by
  refine ⟨fun s who d a r lo hi hd hl hw hu ha => ?write, fun s who d a r hd hl hw hu hb ht => ?read,
    fun s who a hi r hd hn hu => ⟨fun hr => ?acts, fun hr hwho => ?plain⟩⟩
  case write =>
    refine ⟨_, exec_lowerHalfWrite lo hd hl hw, rfl, s.regVal_latches _, _, exec_upperHalfWrite_latched lo hi hd hu (s.latched_latch ..), ?_⟩
    have whole := exec_write_whole (s.unlatch who d a true) (joinHalves hi lo) hd ha
    rw [hw] at whole
    rw [whole, s.unlatch_latch]
    rfl
  case read =>
    have io  := (s.latch who d a false (highHalf (s.regVal r))).clearRead_io r (BitVec.allOnes 64)
    obtain ⟨latches, rest⟩ := Prod.mk.inj io
    obtain ⟨outputs, -⟩ := Prod.mk.inj rest
    have latched : State.latched _ who d a false = some (highHalf (s.regVal r)) :=
      (State.latched_congr who d a false latches).trans (s.latched_latch ..)
    have reaches := (State.reachesDev_congr who d io).trans hd
    exact ⟨_, exec_lowerHalfRead hd hl hw hb ht, congrArg (· ++ _) outputs, latched, _,
      exec_upperHalfRead_latched _ reaches hu latched, rfl, State.latched_unlatch .., rfl⟩
  case acts =>
    exact ⟨_, exec_upperHalfWrite_alone hi hd hu hn, s.guardedUpper_low who hr a _⟩
  case plain =>
    subst hwho
    exact ⟨_, exec_upperHalfWrite_plain hi hd hr hu hn, State.regVal_plainWrite_upper hi hr⟩

end Sys2Proof.Machine
end

section
/-! SUPPORT. Reset and start of the module (R345, R346, R366): what each stage of a start leaves, and the ports at a loss of input. -/
namespace Sys2Proof.Machine

open Sys2Proof

/-! ### What a start settles, and what its later stages leave -/

/-- Soffit's choice of firmware. -/
def Sof.firmware (x : Sof) : Bool × Bool × BitVec 1 × Bool × Bool × List FwSlot × W16 :=
  (x.started, x.thatchRun, x.thatchSlot, x.trial, x.noThatch, x.slots, x.svnMin)

/-- What the eaves hold over a start. -/
def Eav.contents (e : Eav) : Mem × Option (BitVec 512) × Tab Dur × Bool := (e.mem, e.key, e.durs, e.retained)

/-- What a start settles before the module is brought up. -/
def State.settled (s : State) := (s.sof.firmware, s.eav.contents, s.sec, s.pins, s.pwr.off, s.jeb, s.gau)

section
variable (s : State)

theorem State.logEvent_firmware (kind : Byte) (data : List W64) (scope : Bool) :
    (s.logEvent kind data scope).sof.firmware = s.sof.firmware := by
  unfold State.logEvent
  split <;> rfl

theorem State.note_firmware (e : Event) (sev code : Nat) : (s.note e sev code).sof.firmware = s.sof.firmware := by
  unfold State.note
  dsimp only
  split
  · exact State.logEvent_firmware ..
  · rfl

theorem State.count_firmware (e : Event) : (s.count e).sof.firmware = s.sof.firmware := by
  unfold State.count
  split
  · rfl
  · exact s.note_firmware e 0 0

theorem State.count_settled (e : Event) : (s.count e).settled = s.settled := by
  simp [State.settled, s.count_firmware e]

/-- The choice of a configuration leaves all of this. -/
theorem State.chooseConfig_settled : s.chooseConfig.settled = s.settled := by
  unfold State.chooseConfig
  split
  · rw [State.count_settled]
    rfl
  · dsimp only
    split
    · rw [State.count_settled]
      rfl
    · rfl

theorem State.loadBody_settled (b : CfgBody) (i : BitVec 4) : (s.loadBody b i).settled = s.settled := rfl

theorem State.updPort_settled (n : Fin 144) (f : Port → Port) : (s.updPort (.module n) f).settled = s.settled := rfl

theorem State.emptyBuffer_settled : s.emptyBuffer.settled = s.settled := rfl

/-- A change of a module's ports alone, which is all that bringing the ports up is, shows in nothing else. -/
theorem State.portsUp_keeps {α : Type} (g : State → α) (h : ∀ (s : State) (n : Fin 144) f, g (s.updPort (.module n) f) = g s) :
    g s.portsUp = g s := by
  unfold State.portsUp
  split
  · exact State.foldl_keeps g _ (fun s n => h s n _) _ _
  · rfl

/-- The module with the registers of its image loaded, and a straps mismatch counted. -/
def State.loaded (s : State) (slotId : BitVec 4) : State :=
  let s := s.loadBody ((s.sof.image.map CfgImage.body).getD (factoryBody slotId)) slotId
  if s.sof.image.isSome ∧ s.index ≠ slotId.toNat then s.count (eventOf 15) else s

/-- The blocks out of reset, before the reserves are set. -/
def State.blocksUp (s : State) : State :=
  { s with
    eav := { s.eav with
      cryptOn := s.eav.key.isSome
      eaves := Tab.fill Eave.reset s.eav.eaves 0 32 fun n =>
        (Tab.get Eave.reset s.eav.eaves n).begin (bitAt s.eav.scrubCfg 0 && !(Tab.get Eave.reset s.eav.eaves n).zeroizing) }
    gab := s.gableUp.gab
    trs := { s.trs with ready := true }
    pur := { s.pur with ready := true } }

theorem State.loaded_settled (slotId : BitVec 4) : (s.loaded slotId).settled = s.settled := by
  unfold State.loaded
  dsimp only
  split
  · rw [State.count_settled, State.loadBody_settled]
  · rw [State.loadBody_settled]

theorem State.blocksUp_settled : s.blocksUp.settled = s.settled := by
  simp only [State.settled, State.blocksUp, Eav.contents]

theorem State.bringUp_eq (destroy : Bool) (slotId : BitVec 4) : s.bringUp destroy slotId =
    (let s := (s.loaded slotId).blocksUp
     if destroy then
      (s.usedRafters ++ allPorts.filter fun n => decide (portRole n.val = .service) && s.usedPort n).foldl (fun s n =>
        s.updPort (.module n) fun x => { x with train := { x.train with destroyDue := true } }) s
     else s).emptyBuffer.portsUp := rfl

/-- What follows in a bring-up changes ports and the buffer. -/
theorem State.bringUp_keeps {α : Type} (g : State → α) (h : ∀ (s : State) (n : Fin 144) f, g (s.updPort (.module n) f) = g s)
    (he : ∀ s : State, g s.emptyBuffer = g s) (destroy : Bool) (slotId : BitVec 4) :
    g (s.bringUp destroy slotId) = g (s.loaded slotId).blocksUp := by
  rw [State.bringUp_eq, State.portsUp_keeps _ g h, he]
  dsimp only
  split
  · exact State.foldl_keeps g _ (fun s n => h s n _) _ _
  · rfl

theorem State.bringUp_settled (destroy : Bool) (slotId : BitVec 4) : (s.bringUp destroy slotId).settled = s.settled := by
  rw [s.bringUp_keeps State.settled State.updPort_settled State.emptyBuffer_settled, State.blocksUp_settled, State.loaded_settled]

theorem Tab.get_fill [DecidableEq α] (d : α) (t : Tab α) (a n i : Nat) (f : Nat → α) :
    Tab.get d (Tab.fill d t a n f) i = if a ≤ i ∧ i < a + n then f i else Tab.get d t i := by
  rw [Tab.fill, Tab.get_foldl_put]
  simp only [mem_upFrom]

theorem State.blocksUp_eave (n : Nat) (h : n < 32) : (s.blocksUp.eave n).ready = true := by
  rw [State.eave, State.blocksUp, Tab.get_fill, if_pos ⟨Nat.zero_le n, by omega⟩]
  rfl

/-- The blocks are ready after a bring-up, Gable unless the bay is being zeroized. -/
theorem State.bringUp_ready (destroy : Bool) (slotId : BitVec 4) :
    let t := s.bringUp destroy slotId
    t.pur.ready = true ∧ t.gab.ready = decide (t.sec.state ≠ .zeroizing) ∧ t.trs.ready = true ∧
      ∀ n, n < 32 → (t.eave n).ready = true := by
  have keeps {α : Type} (g : State → α) (h : ∀ (s : State) (n : Fin 144) f, g (s.updPort (.module n) f) = g s)
    (he : ∀ s : State, g s.emptyBuffer = g s) := s.bringUp_keeps g h he destroy slotId
  have eaves := keeps State.eave (fun _ _ _ => rfl) (fun _ => rfl)
  have gable := keeps (fun t => (t.gab.ready, t.sec.state)) (fun _ _ _ => rfl) (fun _ => rfl)
  obtain ⟨ready, state⟩ := Prod.mk.inj gable
  refine ⟨keeps (fun t => t.pur.ready) (fun _ _ _ => rfl) (fun _ => rfl), ?gab,
    keeps (fun t => t.trs.ready) (fun _ _ _ => rfl) (fun _ => rfl), ?eaves⟩
  case gab =>
    rw [ready, state]
    rfl
  case eaves =>
    intro n hn
    rw [eaves]
    exact State.blocksUp_eave _ n hn

/-! ### The retained store read (R277, R280) -/

/-- What reading the retained store leaves. -/
def State.outside (s : State) := (s.sof, s.pins, s.pwr, s.jeb, s.gau, s.pur.ready)

theorem State.emptyBuffer_outside : s.emptyBuffer.outside = s.outside := rfl

theorem State.beginZero_outside : s.beginZero.outside = s.outside := by
  rw [State.beginZero, State.emptyBuffer_outside]
  rfl

/-- Zeroization's beginning leaves the bay's state and tag, the contents and the durable table, and destroys the module's key. -/
theorem State.beginZero_bay : s.beginZero.sec = s.sec.noKeys ∧ s.beginZero.eav = s.eav.beginZero := by
  rw [State.beginZero, State.emptyBuffer_sec, State.emptyBuffer_eav]
  exact ⟨rfl, rfl⟩

/-- The retained store as it is read, or as it is lost. -/
def State.storeRead (s : State) : State :=
  if s.pins.retain then
    let st := s.sec.state.kept
    { s with
      sec := if st = .free then { Sec.reset with cold := s.sec.cold, weights := s.sec.weights } else { s.sec with state := st }
      eav := { s.eav with retained := true } }
  else
    { s with
      sec := { Sec.reset with state := .zeroizing, cold := true }
      eav := { s.eav with retained := false, lost := true, durs := [], key := none }
      gut := Gut.reset }

/-- A bay that was held stays so. -/
def State.holdAgain (s : State) : State := if s.sec.state = .held then { s with gut := { s.gut with phase := .held, endHeld := true } } else s

theorem State.readRetained_eq : s.readRetained =
    if s.storeRead.holdAgain.sec.state = .zeroizing then s.storeRead.holdAgain.beginZero else s.storeRead.holdAgain := rfl

theorem State.holdAgain_keeps : s.holdAgain.outside = s.outside ∧ s.holdAgain.sec = s.sec ∧ s.holdAgain.eav = s.eav := by
  unfold State.holdAgain
  split <;> exact ⟨rfl, rfl, rfl⟩

theorem State.storeRead_outside : s.storeRead.outside = s.outside := by
  unfold State.storeRead
  split <;> rfl

theorem State.readRetained_outside : s.readRetained.outside = s.outside := by
  have hold := s.storeRead.holdAgain_keeps.1.trans s.storeRead_outside
  rw [State.readRetained_eq]
  split
  · rw [State.beginZero_outside, hold]
  · exact hold

/-- What the start of a zeroization, where one is due, leaves of the bay. -/
theorem State.readRetained_bay : s.readRetained.sec.state = s.storeRead.sec.state ∧ s.readRetained.sec.cold = s.storeRead.sec.cold ∧
    s.readRetained.sec.tag = s.storeRead.sec.tag ∧ s.readRetained.eav.durs = s.storeRead.eav.durs ∧
    s.readRetained.eav.retained = s.storeRead.eav.retained ∧ s.readRetained.eav.mem = s.storeRead.eav.mem ∧
    s.readRetained.eav.key = if s.storeRead.sec.state = .zeroizing then none else s.storeRead.eav.key := by
  obtain ⟨-, sec, eav⟩ := s.storeRead.holdAgain_keeps
  rw [State.readRetained_eq, sec]
  by_cases due : s.storeRead.sec.state = .zeroizing
  · obtain ⟨zsec, zeav⟩ := s.storeRead.holdAgain.beginZero_bay
    rw [if_pos due, if_pos due, zsec, zeav, sec, eav]
    simp only [Sec.noKeys, Eav.beginZero, and_self]
  · rw [if_neg due, if_neg due, sec, eav]
    exact ⟨rfl, rfl, rfl, rfl, rfl, rfl, rfl⟩

/-- With retention the bay state is that of R277, and the memory keeps its contents, a forming bay its key and tag. -/
theorem State.readRetained_kept (h : s.pins.retain = true) :
    s.readRetained.sec.state = s.sec.state.kept ∧ s.readRetained.eav.retained = true ∧ s.readRetained.eav.mem = s.eav.mem ∧
      (s.sec.state.kept = .forming → s.readRetained.eav.key = s.eav.key ∧ s.readRetained.sec.tag = s.sec.tag) := by
  obtain ⟨state, -, tag, -, retained, mem, key⟩ := s.readRetained_bay
  have eav : s.storeRead.eav = { s.eav with retained := true } := by rw [State.storeRead, if_pos h]
  have sec : s.storeRead.sec = if s.sec.state.kept = .free then { Sec.reset with cold := s.sec.cold, weights := s.sec.weights }
      else { s.sec with state := s.sec.state.kept } := by rw [State.storeRead, if_pos h]
  have kept : s.storeRead.sec.state = s.sec.state.kept := by
    rw [sec]
    split
    · next free => exact free.symm
    · rfl
  refine ⟨state.trans kept, by rw [retained, eav], by rw [mem, eav], fun forming => ⟨?_, ?_⟩⟩
  · rw [key, kept, forming, if_neg (by decide), eav]
  · rw [tag, sec, forming, if_neg (by decide)]

/-- Without it every part of the store is gone, and the whole module is to be zeroized. -/
theorem State.readRetained_lost (h : s.pins.retain = false) :
    s.readRetained.sec.state = .zeroizing ∧ s.readRetained.sec.cold = true ∧ s.readRetained.eav.key = none ∧ s.readRetained.eav.durs = [] ∧
      s.readRetained.sec.tag = 0 := by
  obtain ⟨state, cold, tag, durs, -, -, key⟩ := s.readRetained_bay
  have lost : ¬ s.pins.retain = true := by simp [h]
  have sec : s.storeRead.sec = { Sec.reset with state := .zeroizing, cold := true } := by rw [State.storeRead, if_neg lost]
  have eav : s.storeRead.eav = { s.eav with retained := false, lost := true, durs := [], key := none } := by rw [State.storeRead, if_neg lost]
  rw [sec] at state cold tag key
  rw [eav] at durs key
  exact ⟨state, cold, key, durs, tag⟩

/-! ### The slot that Thatch runs from (R352) -/

/-- What the check of the slots leaves of one: a slot whose signature does not verify becomes EMPTY. -/
def FwSlot.checked (y : FwSlot) : FwSlot := if y.sigOk then y else { y with state := .empty }

theorem Sof.checkSlots_getD (x : Sof) (i : Nat) : x.checkSlots.slots.getD i FwSlot.reset = (x.slots.getD i FwSlot.reset).checked := by
  show (x.slots.map FwSlot.checked).getD i FwSlot.reset = _
  rw [List.getD_eq_getElem?_getD, List.getD_eq_getElem?_getD, List.getElem?_map]
  cases x.slots[i]? <;> rfl

theorem FwSlot.checked_accepted (y : FwSlot) (svnMin : W16) : y.checked.accepted svnMin = y.accepted svnMin := by
  unfold FwSlot.checked
  split
  · rfl
  · next h => simp [FwSlot.accepted, h]

theorem FwSlot.checked_of_accepted {y : FwSlot} {svnMin : W16} (h : y.accepted svnMin = true) : y.checked = y := by
  simp only [FwSlot.accepted, Bool.and_eq_true] at h
  rw [FwSlot.checked, if_pos h.1.1.1.2]

/-- The check of the slots changes no slot that Thatch may run from. -/
theorem Sof.checkSlots_slotIn (x : Sof) (st : FwState) : x.checkSlots.slotIn st = x.slotIn st := by
  unfold Sof.slotIn
  congr 1
  funext i
  show (decide ((x.checkSlots.slots.getD i FwSlot.reset).state = st) && FwSlot.accepted _ x.svnMin) = _
  rw [x.checkSlots_getD, FwSlot.checked_accepted]
  dsimp only
  cases h : (x.slots.getD i FwSlot.reset).accepted x.svnMin
  · rw [Bool.and_false, Bool.and_false]
  · rw [FwSlot.checked_of_accepted h]

theorem Sof.slotIn_eq_some {x : Sof} {st : FwState} {i : Nat} (h : x.slotIn st = some i) :
    i < 2 ∧ (x.slots.getD i FwSlot.reset).state = st ∧ (x.slots.getD i FwSlot.reset).accepted x.svnMin = true := by
  have found := List.find?_some h
  have mem := List.mem_of_find?_eq_some h
  simp only [Bool.and_eq_true, decide_eq_true_eq] at found
  simp only [List.mem_cons, List.not_mem_nil, or_false] at mem
  exact ⟨by omega, found⟩

/-! ### Thatch chosen (R345, R346, R352) -/

/-- What choosing a Thatch slot leaves. -/
def State.around (s : State) := (s.sof.started, s.sec.state, s.sec.cold, s.sec.tag, s.eav, s.pins, s.pwr, s.jeb, s.gau, s.pur)

theorem State.runThatch_around (slot : Option Nat) : (s.runThatch slot).around = s.around := by
  cases slot <;> rfl

theorem State.startThatch_around (fresh : Bool) : (s.startThatch fresh).around = s.around := by
  unfold State.startThatch
  split <;> rw [State.runThatch_around]
  rfl

theorem State.startThatch_none {fresh : Bool} (hr : s.sof.slotIn .ready = none) (hc : s.sof.slotIn .committed = none) :
    (s.startThatch fresh).sof.noThatch = true ∧ (s.startThatch fresh).sof.thatchRun = false := by
  simp only [State.startThatch, hr, hc]
  exact ⟨rfl, rfl⟩

theorem toNat_ofNat_slot {i : Nat} (h : i < 2) : (BitVec.ofNat 1 i).toNat = i := by
  rw [BitVec.toNat_ofNat]
  omega

theorem State.startThatch_committed {fresh : Bool} {i : Nat} (hr : s.sof.slotIn .ready = none) (hc : s.sof.slotIn .committed = some i) :
    (s.startThatch fresh).sof.thatchRun = true ∧ (s.startThatch fresh).sof.thatchSlot.toNat = i ∧ (s.startThatch fresh).sof.trial = false := by
  obtain ⟨hi, state, -⟩ := Sof.slotIn_eq_some hc
  simp only [State.startThatch, hr, hc]
  refine ⟨rfl, toNat_ofNat_slot hi, ?_⟩
  show decide ((s.sof.slots.getD i FwSlot.reset).state = .trial) = false
  rw [state]
  rfl

theorem getD_listUpd {α : Type} (l : List α) (i : Nat) (f : α → α) (d : α) (h : i < l.length) : (listUpd l i f).getD i d = f (l.getD i d) := by
  simp [listUpd, List.getD_eq_getElem?_getD, h]

theorem State.startThatch_ready {i : Nat} (hr : s.sof.slotIn .ready = some i) :
    (s.startThatch true).sof.thatchRun = true ∧ (s.startThatch true).sof.thatchSlot.toNat = i ∧ (s.startThatch true).sof.trial = true ∧
      ((s.startThatch true).sof.slots.getD i FwSlot.reset).state = .trial := by
  obtain ⟨hi, state, -⟩ := Sof.slotIn_eq_some hr
  have present : i < s.sof.slots.length := by
    by_contra h
    rw [List.getD_eq_default _ _ (by omega)] at state
    cases state
  have trial : ((listUpd s.sof.slots i fun y => { y with state := FwState.trial }).getD i FwSlot.reset).state = .trial := by
    rw [getD_listUpd _ _ _ _ present]
  simp only [State.startThatch, hr]
  exact ⟨rfl, toNat_ofNat_slot hi, decide_eq_true trial, trial⟩

/-! ### The start (R345) -/

/-- The module with its retained store read, its configuration chosen and its slots checked. -/
def State.chosen (s : State) : State :=
  ((s.readRetained.chooseConfig.setPins fun p => { p with retain := true }).setSof fun x => { x with started := true }).setSof Sof.checkSlots

/-- Where no bay state but FREE was retained. -/
def State.nothingRetained (s : State) : Bool := !s.pins.retain || decide (s.sec.state.kept = .free)

theorem State.startUp_eq (slotId : BitVec 4) : s.startUp slotId =
    (let t := s.chosen.startThatch s.nothingRetained
     if t.sof.thatchRun then t.bringUp (!s.pins.retain || decide (s.sec.state = .zeroizing)) slotId else t.gableUp) := rfl

theorem State.gableUp_settled : s.gableUp.settled = s.settled := rfl

theorem State.startUp_settled (slotId : BitVec 4) : (s.startUp slotId).settled = (s.chosen.startThatch s.nothingRetained).settled := by
  rw [State.startUp_eq]
  dsimp only
  split
  · exact State.bringUp_settled _ _ _
  · exact State.gableUp_settled _

theorem State.chooseConfig_pur : s.chooseConfig.pur = s.pur := by
  unfold State.chooseConfig
  split
  · rw [State.count_pur, State.setSof_pur]
  · dsimp only
    split
    · rw [State.count_pur, State.setSof_pur]
    · rw [State.setSof_pur]

/-- What stands before Thatch is chosen. -/
theorem State.chosen_around :
    s.chosen.sof.started = true ∧ s.chosen.sec = s.readRetained.sec ∧ s.chosen.eav.contents = s.readRetained.eav.contents ∧
      s.chosen.pins = { s.pins with retain := true } ∧ s.chosen.pwr.off = s.pwr.off ∧ s.chosen.jeb = s.jeb ∧ s.chosen.gau = s.gau ∧
      s.chosen.pur.ready = s.pur.ready ∧ ∀ st, s.chosen.sof.slotIn st = s.sof.slotIn st := by
  have config := s.readRetained.chooseConfig_settled
  have pur := s.readRetained.chooseConfig_pur
  have retained := s.readRetained_outside
  rw [State.chosen]
  generalize s.readRetained.chooseConfig = t at config pur
  simp only [State.settled, Sof.firmware, Prod.mk.injEq] at config
  simp only [State.outside, Prod.mk.injEq] at retained
  obtain ⟨⟨-, -, -, -, -, slots, svn⟩, eav, sec, pins, off, jeb, gau⟩ := config
  obtain ⟨rsof, rpins, rpwr, rjeb, rgau, rpur⟩ := retained
  refine ⟨rfl, sec, eav, ?pins, ?off, jeb.trans rjeb, gau.trans rgau, ?pur, fun st => ?slots⟩
  case pins => rw [← rpins, ← pins]; rfl
  case off => rw [← rpwr, ← off]; rfl
  case pur => rw [← rpur, ← pur]; rfl
  case slots =>
    refine (Sof.checkSlots_slotIn _ st).trans ?_
    show Sof.slotIn { t.sof with started := true } st = _
    rw [Sof.slotIn, Sof.slotIn, slots, svn, rsof]

/-- A start as a whole: the module runs, and the bay is as the retained store gives it. -/
theorem State.startUp_around (slotId : BitVec 4) :
    (s.startUp slotId).sof.started = true ∧ (s.startUp slotId).sec.state = s.readRetained.sec.state ∧
      (s.startUp slotId).sec.cold = s.readRetained.sec.cold ∧ (s.startUp slotId).sec.tag = s.readRetained.sec.tag ∧
      (s.startUp slotId).eav.contents = s.readRetained.eav.contents ∧ (s.startUp slotId).pins = { s.pins with retain := true } ∧
      (s.startUp slotId).pwr.off = s.pwr.off ∧ (s.startUp slotId).jeb = s.jeb ∧ (s.startUp slotId).gau = s.gau := by
  have settled := s.startUp_settled slotId
  have around := s.chosen.startThatch_around s.nothingRetained
  obtain ⟨cstarted, csec, ceav, cpins, coff, cjeb, cgau, -, -⟩ := s.chosen_around
  generalize s.chosen.startThatch s.nothingRetained = v at settled around
  simp only [State.settled, Sof.firmware, Prod.mk.injEq] at settled
  simp only [State.around, Prod.mk.injEq] at around
  obtain ⟨⟨started, -⟩, eav, sec, pins, off, jeb, gau⟩ := settled
  obtain ⟨astarted, astate, acold, atag, aeav, apins, apwr, ajeb, agau, -⟩ := around
  rw [started, sec, eav, pins, off, jeb, gau, astarted, astate, acold, atag, aeav, apins, apwr, ajeb, agau]
  exact ⟨cstarted, congrArg _ csec, congrArg _ csec, congrArg _ csec, ceav, cpins, coff, cjeb, cgau⟩

/-- Firmware, as a start chooses it. -/
theorem State.startUp_firmware (slotId : BitVec 4) :
    (s.startUp slotId).sof.firmware = (s.chosen.startThatch s.nothingRetained).sof.firmware :=
  congrArg Prod.fst (s.startUp_settled slotId)

/-- Sarking alone (R346): with no slot to run from, Purlin stays as it was, and Gable clears its memory. -/
theorem State.startUp_sarkingOnly (slotId : BitVec 4) (hr : s.sof.slotIn .ready = none) (hc : s.sof.slotIn .committed = none) :
    let t := s.startUp slotId
    t.sof.noThatch = true ∧ t.sof.thatchRun = false ∧ t.pur.ready = s.pur.ready ∧ t.gab.ready = decide (t.sec.state ≠ .zeroizing) ∧
      t.gab.zeroizing = decide (t.sec.state = .zeroizing) := by
  obtain ⟨-, -, -, -, -, -, -, pur, slots⟩ := s.chosen_around
  have chosen := s.chosen.startThatch_none (fresh := s.nothingRetained) ((slots _).trans hr) ((slots _).trans hc)
  have around := s.chosen.startThatch_around s.nothingRetained
  rw [State.startUp_eq]
  generalize s.chosen.startThatch s.nothingRetained = v at chosen around
  obtain ⟨noThatch, run⟩ := chosen
  simp only [State.around, Prod.mk.injEq] at around
  obtain ⟨-, -, -, -, -, -, -, -, -, apur⟩ := around
  simp only [run]
  exact ⟨noThatch, run, (congrArg Pur.ready apur).trans pur, rfl, rfl⟩

/-- The blocks of a module that Thatch runs are ready, Gable unless the bay is being zeroized (R345). -/
theorem State.startUp_ready (slotId : BitVec 4) (h : (s.startUp slotId).sof.thatchRun = true) :
    let t := s.startUp slotId
    t.pur.ready = true ∧ t.gab.ready = decide (t.sec.state ≠ .zeroizing) ∧ t.trs.ready = true ∧
      ∀ n, n < 32 → (t.eave n).ready = true := by
  have run : (s.chosen.startThatch s.nothingRetained).sof.thatchRun = true :=
    (congrArg (fun f => f.2.1) (s.startUp_firmware slotId)).symm.trans h
  rw [State.startUp_eq]
  simp only [run, if_true]
  exact State.bringUp_ready _ _ _

/-- Thatch runs from the COMMITTED slot. -/
theorem State.startUp_committed (slotId : BitVec 4) {i : Nat} (hr : s.sof.slotIn .ready = none) (hc : s.sof.slotIn .committed = some i) :
    let t := s.startUp slotId
    t.sof.thatchRun = true ∧ t.sof.thatchSlot.toNat = i ∧ t.sof.trial = false := by
  obtain ⟨-, -, -, -, -, -, -, -, slots⟩ := s.chosen_around
  have chosen := s.chosen.startThatch_committed (fresh := s.nothingRetained) ((slots _).trans hr) ((slots _).trans hc)
  have firmware := s.startUp_firmware slotId
  simp only [Sof.firmware, Prod.mk.injEq] at firmware
  obtain ⟨-, run, slot, trial, -⟩ := firmware
  dsimp only
  rw [run, slot, trial]
  exact chosen

/-- Thatch runs from a READY slot as TRIAL where no bay is retained. -/
theorem State.startUp_trial (slotId : BitVec 4) {i : Nat} (hr : s.sof.slotIn .ready = some i) (h : s.nothingRetained = true) :
    let t := s.startUp slotId
    t.sof.thatchRun = true ∧ t.sof.thatchSlot.toNat = i ∧ t.sof.trial = true ∧ (t.sof.slots.getD i FwSlot.reset).state = .trial := by
  obtain ⟨-, -, -, -, -, -, -, -, slots⟩ := s.chosen_around
  have chosen := s.chosen.startThatch_ready ((slots _).trans hr)
  have firmware := s.startUp_firmware slotId
  rw [h] at firmware
  simp only [Sof.firmware, Prod.mk.injEq] at firmware
  obtain ⟨-, run, slot, trial, -, list, -⟩ := firmware
  dsimp only
  rw [run, slot, trial, list]
  exact chosen

/-! ### The command MODULE_START (R330, R346, R366) -/

/-- The module as MODULE_START finds it: RESET_N high, and the flash bus its own. -/
def State.released (s : State) : State := s.setPins fun p => { p with resetN := true, external := false }

/-- The immutable stage before its digest is taken: a byte has failed, or none has by now. -/
def State.stageRead (s : State) (ok : Bool) : State := if ok then s else s.stageFails

/-- The module out of OFF. -/
def State.leaveOff (s : State) : State := s.setPwr fun p => { p with off := false, offLow := false }

/-- The stage checked: a module whose stage does not match halts in mask ROM, and any other starts, out of OFF. -/
def State.boot (s : State) (slot : BitVec 4) (ok : Bool) : State :=
  if !(s.stageRead ok).stageMatches then (s.stageRead ok).setSof fun x => { x with halted := true }
  else (s.stageRead ok).leaveOff.startUp slot

theorem exec_moduleStart (tj flow : Byte) (slot : BitVec 4) (ok : Bool) : exec (.moduleStart tj flow slot ok) s = .next
    (if s.sof.started ∨ s.sof.halted ∨ (s.pwr.off ∧ !s.pwr.offLow) then s
     else if !s.pins.rails then s.released
     else if s.pwr.off ∧ (80 ≤ tj.toNat ∨ flow.toNat < s.pwr.flowMin) then
      s.released.setPwr fun p => { p with restartBlocked := true, offLow := false }
     else s.released.boot slot ok) := rfl

/-- The start of a module that stands in reset, or leaves OFF cool and with coolant flowing. -/
theorem exec_moduleStart_begins (tj flow : Byte) (slot : BitVec 4) (ok : Bool) (hs : s.sof.started = false) (hh : s.sof.halted = false)
    (ho : s.pwr.off = false ∨ (s.pwr.offLow = true ∧ tj.toNat < 80 ∧ s.pwr.flowMin ≤ flow.toNat)) :
    exec (.moduleStart tj flow slot ok) s = .next (if !s.pins.rails then s.released else s.released.boot slot ok) := by
  have begins : ¬ (s.sof.started = true ∨ s.sof.halted = true ∨ (s.pwr.off = true ∧ (!s.pwr.offLow) = true)) := by
    rw [hs, hh]
    obtain off | ⟨low, -, -⟩ := ho
    · simp [off]
    · simp [low]
  have cool : ¬ (s.pwr.off = true ∧ (80 ≤ tj.toNat ∨ flow.toNat < s.pwr.flowMin)) := by
    obtain off | ⟨-, cool, flows⟩ := ho
    · simp [off]
    · omega
  rw [exec_moduleStart, if_neg begins, if_neg cool]

theorem State.stageMatches_iff : s.stageMatches = true ↔ s.sof.stage = [] := decide_eq_true_iff

/-- A byte that has failed: the stage no longer matches its digest, and that byte reads otherwise than it was written. -/
theorem State.stageFails_mismatch : s.stageFails.stageMatches = false ∧
    ∃ a, a < stageBytes ∧ s.stageFails.stageByte a ≠ some (Config.stageByte a) := by
  have written : Tab.get 0 s.stageFails.sof.stage (s.freeNat % stageBytes) = 1 :=
    Tab.get_put_same (0 : Byte) s.sof.stage _ 1
  have inside : s.freeNat % stageBytes < stageBytes := Nat.mod_lt _ (by decide)
  refine ⟨?_, _, inside, ?_⟩
  · rw [Bool.eq_false_iff, ne_eq, State.stageMatches_iff]
    intro h
    rw [h] at written
    exact absurd written (show ¬ (0 : Byte) = 1 by decide)
  · rw [State.stageByte, if_pos inside, written]
    intro h
    have flipped := congrArg (Config.stageByte (s.freeNat % stageBytes) ^^^ ·) (Option.some.inj h)
    simp at flipped

theorem State.boot_of_mismatch (slot : BitVec 4) {ok : Bool} (h : (s.stageRead ok).stageMatches = false) :
    s.boot slot ok = (s.stageRead ok).setSof fun x => { x with halted := true } := by
  rw [State.boot, h]
  rfl

/-- A module whose stage does not match halts: only the halt, the failed byte and the count of free values show. -/
theorem State.boot_halts (slot : BitVec 4) {ok : Bool} (h : ok = false ∨ s.sof.stage ≠ []) :
    let t := s.boot slot ok
    t.sof.halted = true ∧ (ok = false → ∃ a, a < stageBytes ∧ t.stageByte a ≠ some (Config.stageByte a)) ∧
      t = { s with sof := { s.sof with halted := true, stage := t.sof.stage }, fresh := t.fresh } := by
  obtain ⟨mismatch, a, inside, flipped⟩ := s.stageFails_mismatch
  cases ok with
  | false =>
    rw [s.boot_of_mismatch slot (ok := false) mismatch]
    exact ⟨rfl, fun _ => ⟨a, inside, flipped⟩, rfl⟩
  | true =>
    have failed : s.stageMatches = false := by
      rw [Bool.eq_false_iff, ne_eq, State.stageMatches_iff]
      simpa using h
    rw [s.boot_of_mismatch slot (ok := true) failed]
    exact ⟨rfl, fun h => absurd h (by decide), rfl⟩

theorem State.boot_starts (slot : BitVec 4) (h : s.sof.stage = []) : s.boot slot true = s.leaveOff.startUp slot := by
  have ok : (s.stageRead true).stageMatches = true := s.stageMatches_iff.mpr h
  rw [State.boot, ok]
  rfl

/-! ### The loss of input (R328, R366) -/

/-- What sending laths in a hold-up leaves. -/
def State.unsent (s : State) := (s.pwr, s.eav, s.gau, s.pins)

theorem Port.off_reset : Port.off Port.reset = Port.reset := rfl

theorem State.portsOff_disabled (n : Nat) : (s.portsOff.mport n).train.state = .disabled := by
  rw [State.mport, State.portsOff, Tab.get_mapAll _ _ _ _ Port.off_reset]
  rfl

theorem State.setPort_unsent (p : PortRef) (x : Port) : (s.setPort p x).unsent = s.unsent := by
  simp [State.unsent]

theorem State.updPort_unsent (p : PortRef) (f : Port → Port) : (s.updPort p f).unsent = s.unsent := s.setPort_unsent p _

theorem State.sendLath_unsent (p : PortRef) (plain : List Shingle) : (s.sendLath p plain).unsent = s.unsent := s.setPort_unsent p _

theorem State.idleLath_unsent (p : PortRef) : (s.idleLath p).unsent = s.unsent := s.setPort_unsent p _

theorem State.fillLaths_unsent (p : PortRef) (n : Nat) : (s.fillLaths p n).unsent = s.unsent := by
  induction n generalizing s with
  | zero => rfl
  | succ n ih =>
    rw [State.fillLaths]
    dsimp only
    split
    · rfl
    · rw [ih, State.updPort_unsent, State.sendLath_unsent]

theorem State.sendSlots_unsent (p : PortRef) (l : List Shingle) (isLocal : Bool) (picked : Option Nat) :
    (s.sendSlots p l isLocal picked).unsent = s.unsent := by
  simp only [State.sendSlots, State.ageRequests, State.updPort_unsent, State.fillLaths_unsent]

theorem State.unlink_unsent (q : Nat) (e : Entry) : (s.unlink q e).unsent = s.unsent := by
  simp [State.unsent]

theorem State.dequeue_unsent {s t : State} {q : Nat} {e : Entry} (h : s.dequeue q = some (e, t)) : t.unsent = s.unsent := by
  unfold State.dequeue at h
  split at h
  · cases h
  · cases h
    rw [State.unlink_unsent]
    show (s.readEntry e).unsent = s.unsent
    unfold State.readEntry
    split <;> rfl

theorem State.countBundle_unsent (e : Entry) : (s.countBundle e).unsent = s.unsent := by
  simp [State.unsent]

theorem State.leave_unsent (p : PortRef) (v : Nat) (f : Frame) : (s.leave p v f).unsent = s.unsent := by
  unfold State.leave
  split
  · split
    · rfl
    · next taken =>
      dsimp only
      split
      · rw [State.updPort_unsent, State.countBundle_unsent, State.dequeue_unsent taken]
      · rw [State.countBundle_unsent, State.dequeue_unsent taken]
  · exact s.updPort_unsent _ _

theorem State.sendAs_unsent (p : PortRef) (f : Frame) : (s.sendAs p f).2.unsent = s.unsent := by
  unfold State.sendAs
  split
  · rfl
  · exact s.updPort_unsent _ _

theorem State.purge_unsent (q : Nat) (test : Entry → Bool) : (s.purge q test).2.unsent = s.unsent := by
  unfold State.purge
  exact State.foldl_keeps State.unsent _ (fun s e => s.unlink_unsent q e) _ _

theorem State.drainOne_unsent (e : Entry) : (s.drainOne e).unsent = s.unsent := by
  simp [State.unsent]

theorem State.drainStuck_unsent (e : Entry) : (s.drainStuck e).unsent = s.unsent := by
  simp [State.unsent, State.drainStuck]

theorem State.drainQueue_unsent (q : Nat) : (s.drainQueue q).unsent = s.unsent := by
  have drained : ((s.purge q Machine.drained).1.foldl State.drainOne (s.purge q Machine.drained).2).unsent = s.unsent :=
    (State.foldl_keeps State.unsent _ State.drainOne_unsent _ _).trans (s.purge_unsent q _)
  unfold State.drainQueue
  dsimp only
  split
  · rw [State.foldl_keeps State.unsent _ State.drainStuck_unsent, State.purge_unsent, drained]
  · exact drained

theorem State.afterSending_unsent (p : PortRef) : (s.afterSending p).unsent = s.unsent := by
  have drain : s.drain.unsent = s.unsent := by
    have queues := State.foldl_keeps State.unsent _ State.drainQueue_unsent (s.pur.queues.map Prod.fst) s
    unfold State.drain
    dsimp only
    split
    · exact queues
    · exact queues
  unfold State.afterSending State.drainNow
  split
  · split
    · exact drain
    · rfl
  · rfl

/-- A lath goes, of whichever frame is picked. -/
theorem State.arbitrate_unsent (p : PortRef) : (s.arbitrate p).unsent = s.unsent := by
  unfold State.arbitrate
  split
  · rfl
  · split
    · exact s.idleLath_unsent p
    · rw [State.afterSending_unsent]
      show State.unsent (match s.pick p with | .own none => _ | .own (some f) => _ | .frame f v a => _ | .nothing => _) = _
      split
      · rw [State.sendSlots_unsent, State.updPort_unsent]
      · rw [State.sendSlots_unsent, State.updPort_unsent]
      · dsimp only
        rw [State.sendSlots_unsent, State.sendAs_unsent, State.leave_unsent, State.updPort_unsent]
      · rw [State.sendSlots_unsent]

theorem State.flushStop_unsent (n : Fin 144) (k : Nat) : (s.flushStop n k).unsent = s.unsent := by
  induction k generalizing s with
  | zero => rfl
  | succ k ih =>
    rw [State.flushStop]
    split
    · rw [ih, State.arbitrate_unsent]
    · rfl

theorem State.sendStops_unsent : s.sendStops.unsent = s.unsent :=
  State.foldl_keeps State.unsent _ (fun s n => s.flushStop_unsent n 64) _ _

theorem State.holdUpCapture_unsent : s.holdUpCapture.unsent = s.unsent := by
  unfold State.holdUpCapture
  dsimp only
  split <;> simp [State.unsent]

/-- The hold-up sequence up to the ports: the teardown begun, its STOPs sent and the capture written. -/
def State.stopsHeldUp (s : State) : State :=
  (((s.setPwr fun p => { p with inputLost := true }).fatal 15 .module (eventOf 17)).sendStops).holdUpCapture

theorem State.stopsHeldUp_unsent : s.stopsHeldUp.unsent = ({ s.pwr with inputLost := true }, s.eav, s.gau, s.pins) := by
  rw [State.stopsHeldUp, State.holdUpCapture_unsent, State.sendStops_unsent]
  simp [State.unsent, State.setPwr]

/-- The ports and the rails off. -/
def State.powerDown (s : State) : State :=
  { s.portsOff with sof := { s.portsOff.sof with updating := none }, pins := { s.portsOff.pins with rails := false, retain := false } }

theorem State.holdUp_eq (h : s.pwr.inputLost = false) : s.holdUp = s.stopsHeldUp.powerDown := by
  rw [State.holdUp, if_neg (by rw [h]; decide), State.powerDown, State.stopsHeldUp]

/-- The hold-up sequence turns the ports and the rails off, and leaves the eaves and Gauge. -/
theorem State.holdUp_off (h : s.pwr.inputLost = false) :
    s.holdUp.pins = { s.pins with rails := false, retain := false } ∧ s.holdUp.pwr.inputLost = true ∧
      (∀ n, (s.holdUp.mport n).train.state = .disabled) ∧ s.holdUp.eav = s.eav ∧ s.holdUp.gau = s.gau := by
  have unsent := s.stopsHeldUp_unsent
  rw [s.holdUp_eq h]
  generalize s.stopsHeldUp = t at unsent
  simp only [State.unsent, Prod.mk.injEq] at unsent
  obtain ⟨pwr, eav, gau, pins⟩ := unsent
  refine ⟨?_, congrArg Pwr.inputLost pwr, t.portsOff_disabled, eav, gau⟩
  rw [← pins]
  rfl

/-! ### RESET_N and PWR_EN (R11, R199, R303, R366) -/

/-- A low of RESET_N that resets the module. -/
theorem exec_resetNLow {us : Nat} (h : 10 ≤ us) : exec (.resetNLow us) s = .next
    ((s.setPwr fun p => { p with offLow := p.off }).moduleReset.setPins fun p => { p with resetN := false, external := !p.qspiExtN }) := by
  show execResetNLow us s = _
  rw [execResetNLow, if_neg (by omega), if_neg (by omega)]

/-- What a reset leaves of the eaves: the memory, its key, and no window. -/
theorem Eav.afterReset_keeps (e : Eav) : e.afterReset.mem = e.mem ∧ e.afterReset.key = e.key ∧ e.afterReset.wins = [] := by
  simp only [Eav.afterReset, true_and]
  rfl

theorem Pins.supplied_iff (p : Pins) : p.supplied = true ↔ p.mated = true ∧ 3000 ≤ p.vin.toNat ∧ p.vin.toNat ≤ 4200 := by
  rw [Pins.supplied, Bool.and_eq_true, decide_eq_true_eq]

/-- PWR_EN rises with conversion running, or with no supply for it. -/
theorem exec_pwrEnHigh_idle (h : s.pins.rails = true ∨ s.pins.supplied = false) :
    exec .pwrEnHigh s = .next (s.setPins fun p => { p with pwrEn := true }) := by
  show Host.Outcome.next (State.convert _) = _
  rw [State.convert, if_pos]
  obtain rails | supply := h
  · exact .inl rails
  · exact .inr (.inr (congrArg (!·) supply))

/-- PWR_EN rises, and conversion starts. -/
theorem exec_pwrEnHigh_converts (hr : s.pins.rails = false) (hs : s.pins.supplied = true) :
    exec .pwrEnHigh s = .next ((s.setPins fun p => { p with pwrEn := true }).moduleReset.setPins fun p => { p with rails := true }) := by
  show Host.Outcome.next (State.convert _) = _
  rw [State.convert, if_neg]
  rintro (rails | en | supply)
  · exact absurd (hr.symm.trans rails) (by decide)
  · cases en
  · exact absurd ((congrArg (!·) hs).symm.trans supply) (by decide)

/-- PWR_EN falls. -/
theorem exec_pwrEnLow : exec .pwrEnLow s = .next
    (if s.sof.started ∧ s.pins.resetN then (s.setPins fun p => { p with pwrEn := false }).holdUp
     else s.setPins fun p => { p with pwrEn := false, rails := false, retain := false }) := rfl

end

/-- Settles O59: a reset by what `moduleReset` keeps, the loss of supply by `holdUp_off`, and a start by its stages: the retained store
(`readRetained_kept`, `readRetained_lost`), Thatch's slot (`startUp_sarkingOnly`, `startUp_committed`, `startUp_trial`), the blocks
(`startUp_ready`). -/
theorem resetAndStart : Obligations.ResetAndStart := by
  refine ⟨fun s us => ⟨fun h => ?still, fun h2 h10 => ?pulse, fun h10 => ?reset⟩, fun s h => ?noSupply,
    fun s hr hm hlo hhi => ?supply, fun s h => ?off, fun s hs hr hl => ?holdUp,
    fun s tj flow slot ok h => ?waits, fun s tj flow slot ok hs hh ho hl hr hot => ?blocked,
    fun s tj flow slot hs hh ho => ⟨fun hr ok => ?noRails, fun hr ok h => ?halts, fun hr h => ?starts⟩⟩
  case still =>
    show execResetNLow us s = _
    rw [execResetNLow, if_pos h]
  case pulse =>
    show execResetNLow us s = _
    rw [execResetNLow, if_neg (by omega), if_pos h10]
  case reset =>
    obtain ⟨mem, key, wins⟩ := s.eav.afterReset_keeps
    exact ⟨_, exec_resetNLow s h10, rfl, rfl, rfl, rfl, rfl, rfl, rfl, mem, key, wins, rfl, rfl, rfl, rfl, rfl, rfl,
      rfl, rfl, rfl, rfl, rfl, rfl, rfl⟩
  case noSupply =>
    refine exec_pwrEnHigh_idle s (h.imp_right fun h => ?_)
    rw [Bool.eq_false_iff, ne_eq, Pins.supplied_iff]
    rintro ⟨mated, low, high⟩
    obtain loose | under | above := h
    · exact absurd (loose.symm.trans mated) (by decide)
    · omega
    · omega
  case supply =>
    exact ⟨_, exec_pwrEnHigh_converts s hr (s.pins.supplied_iff.mpr ⟨hm, hlo, hhi⟩), rfl, rfl, rfl, rfl, s.eav.afterReset_keeps.1, rfl, rfl⟩
  case off =>
    rw [exec_pwrEnLow s, if_neg (by rintro ⟨h1, h2⟩; simp [h1, h2] at h)]
    rfl
  case holdUp =>
    refine ⟨_, by rw [exec_pwrEnLow s, if_pos ⟨hs, hr⟩], ?_⟩
    obtain ⟨pins, lost, ports, eav, gau⟩ := (s.setPins fun p => { p with pwrEn := false }).holdUp_off hl
    exact ⟨pins, lost, fun n => ports n.val, eav, gau⟩
  case waits =>
    rw [exec_moduleStart s, if_pos (by simpa using h)]
  case blocked =>
    rw [exec_moduleStart s, if_neg (by simp [hs, hh, hl]), if_neg (by simp [hr]), if_pos ⟨ho, hot⟩]
    rfl
  case noRails =>
    rw [exec_moduleStart_begins s tj flow slot ok hs hh ho, if_pos (by simp [hr])]
    rfl
  case halts =>
    exact ⟨_, by rw [exec_moduleStart_begins s tj flow slot ok hs hh ho, if_neg (by simp [hr])], s.released.boot_halts slot h⟩
  case starts =>
    refine ⟨_, by rw [exec_moduleStart_begins s tj flow slot true hs hh ho, if_neg (by simp [hr]), s.released.boot_starts slot h], ?_⟩
    obtain ⟨started, state, cold, tag, contents, pins, off, jeb, gau⟩ := s.released.leaveOff.startUp_around slot
    simp only [Eav.contents, Prod.mk.injEq] at contents
    obtain ⟨mem, key, durs, retained⟩ := contents
    refine ⟨started, congrArg Pins.resetN pins, congrArg Pins.retain pins, off, jeb, gau, fun retain => ?kept, fun retain => ?lost,
      fun ready committed => s.released.leaveOff.startUp_sarkingOnly slot ready committed, fun i ready committed => ?committed,
      fun i ready free => ?trial⟩
    case kept =>
      obtain ⟨kstate, kretained, kmem, kforming⟩ := s.released.leaveOff.readRetained_kept retain
      exact ⟨state.trans kstate, retained.trans kretained, mem.trans kmem,
        fun forming => ⟨key.trans (kforming forming).1, tag.trans (kforming forming).2⟩⟩
    case lost =>
      obtain ⟨lstate, lcold, lkey, ldurs, ltag⟩ := s.released.leaveOff.readRetained_lost retain
      exact ⟨state.trans lstate, cold.trans lcold, key.trans lkey, durs.trans ldurs, tag.trans ltag⟩
    case committed =>
      obtain ⟨run, ran, trial⟩ := s.released.leaveOff.startUp_committed slot ready committed
      exact ⟨run, ran, trial, s.released.leaveOff.startUp_ready slot run⟩
    case trial =>
      refine s.released.leaveOff.startUp_trial slot ready ?_
      rw [State.nothingRetained]
      obtain lost | kept := free
      · exact Bool.or_eq_true_iff.mpr (.inl (congrArg (!·) lost))
      · exact Bool.or_eq_true_iff.mpr (.inr (decide_eq_true kept))

end Sys2Proof.Machine
end

section
/-! SUPPORT. The step (R27, R153): the front command, and the tick of an empty queue. -/
namespace Sys2Proof.Machine

open Sys2Proof

/-- Outputs that leave one after another. -/
theorem State.foldl_emit {α : Type} (f : α → Output) (l : List α) (s : State) :
    l.foldl (fun s w => s.emit (f w)) s = { s with outputs := s.outputs ++ l.map f } := by
  induction l generalizing s with
  | nil => simp
  | cons w l ih =>
    rw [List.foldl_cons, ih, List.map_cons]
    simp only [State.emit, List.append_assoc, List.singleton_append]

/-- The waits that end leave the block's list, and each is told. -/
theorem State.endWaits_eq (s : State) :
    s.endWaits =
      { s with
        jeb := { s.jeb with waits := s.jeb.waits.filter fun w => !waitOver (Tab.get 0 s.jeb.sig w.1) w.2 }
        outputs := s.outputs ++ (s.jeb.waits.filter fun w => waitOver (Tab.get 0 s.jeb.sig w.1) w.2).map fun w => .waitOver w.1 w.2 } :=
  State.foldl_emit (fun w : Nat × W32 => .waitOver w.1 w.2) _ _

/-- REFCLK cycles move rack time alone. -/
theorem Tim.run_eq (t : Tim) (cycles : Nat) : t.run cycles = { t with fifths := if t.refclkOk then t.fifths + 32 * cycles else t.fifths } := by
  unfold Tim.run cycleFifths
  split <;> rfl

theorem step_idle (s : State) (h : s.pending = []) : step s = .next s.tick := by
  unfold step
  rw [h]

/-- Settles O1: a waiting command by the step's own text, the tick by `Tim.run_eq` and `State.endWaits_eq`. -/
theorem stepRunsFront : Obligations.StepRunsFront := by
  refine ⟨fun c rest s => rfl, fun s idle => ⟨s.tick, step_idle s idle, ?_⟩⟩
  rw [State.tick, State.endWaits_eq, Tim.run_eq, Tim.run_eq]
  exact ⟨rfl, rfl, rfl, rfl, rfl⟩

end Sys2Proof.Machine
end

section
/-! SUPPORT. Faults raised (R286, R287, R291, R295): what a severe one leaves in its source, and how a fatal one begins the teardown of the bay. -/
namespace Sys2Proof.Machine

open Sys2Proof

variable (s : State)

/-! ### Severe faults (R286) -/

/-- Events taken never clear the mark of a severe fault. -/
theorem Src.take_severe (c : Src) (b k : Nat) : (c.take b k).1.severe = (c.severe || (c.take b k).2) := by
  have expire : (c.expire b).severe = c.severe := by
    unfold Src.expire
    repeat' split
    all_goals rfl
  simp only [Src.take, expire]

theorem State.note_severe (e : Event) (code : Nat) : (Tab.get Src.zero (s.note e 1 code).gut.srcs e.src).severe = true := by
  simp [State.note, apply_ite State.gut]

/-- An event leaves a source that is marked severe so. -/
theorem State.note_keeps_severe (e : Event) (sev code n : Nat) (h : (Tab.get Src.zero s.gut.srcs n).severe = true) :
    (Tab.get Src.zero (s.note e sev code).gut.srcs n).severe = true := by
  by_cases other : n = e.src
  · subst other
    simp [State.note, apply_ite State.gut, Src.take_severe, h]
  · rw [s.note_src_ne e sev code n other, h]

/-! ### A teardown begins (R291, R295) -/

theorem fatalWord_toNat (code : Nat) (o : FaultObj) (count : Nat) : (fatalWord code o count).toNat =
    (code + o.kind * 2 ^ 8 + o.number * 2 ^ 10 + min count 255 * 2 ^ 18 + 2 ^ 63) % 2 ^ 64 := by
  rw [fatalWord, packW, BitVec.toNat_ofNat, List.foldl_cons, List.foldl_cons, List.foldl_cons, List.foldl_cons, List.foldl_cons,
    List.foldl_nil, Nat.zero_add, Nat.pow_zero, Nat.mul_one, Nat.one_mul]

theorem fatalWord_code (code : Nat) (o : FaultObj) (count : Nat) (h : code < 256) : fld (fatalWord code o count) 0 8 = code := by
  rw [fld, fatalWord_toNat, Nat.shiftRight_zero]
  omega

theorem FaultObj.kind_lt (o : FaultObj) : o.kind < 4 := by
  cases o <;> simp [FaultObj.kind]

theorem FaultObj.number_lt (o : FaultObj) : o.number < 256 := by
  cases o with
  | nothing => decide
  | port n => exact n.isLt.trans (by decide)
  | node n => exact n.isLt.trans (by decide)
  | module => decide

theorem fatalWord_set (code : Nat) (o : FaultObj) (count : Nat) (h : code < 256) : bitAt (fatalWord code o count) 63 = true := by
  have kind := o.kind_lt
  have number := o.number_lt
  have bounded : min count 255 < 256 := by omega
  rw [bitAt, ← BitVec.testBit_toNat, fatalWord_toNat, Nat.testBit_eq_decide_div_mod_eq, decide_eq_true_eq]
  generalize min count 255 = c at bounded
  omega

theorem State.setBay_state (st : BayState) : (s.setBay st).sec.state = st := by
  unfold State.setBay
  split
  · assumption
  · rw [State.logEvent_sec]

theorem State.beginTeardown_srcs (code : Nat) (o : FaultObj) (via : Option (Fin 144)) : (s.beginTeardown code o via).gut.srcs = s.gut.srcs := by
  unfold State.beginTeardown
  dsimp only
  rw [State.sendAll_keeps _ _ _ State.gut fun s n => State.sendTeardown_gut s n 0]
  simp

theorem State.beginTeardown_fatal (code : Nat) (o : FaultObj) (via : Option (Fin 144)) :
    (s.beginTeardown code o via).gut.fatal = fatalWord code o 1 := by
  unfold State.beginTeardown
  dsimp only
  rw [State.sendAll_keeps _ _ _ State.gut fun s n => State.sendTeardown_gut s n 0]
  simp

theorem State.beginTeardown_phase (code : Nat) (o : FaultObj) (via : Option (Fin 144)) : (s.beginTeardown code o via).gut.phase = .stopping := by
  unfold State.beginTeardown
  dsimp only
  rw [State.sendAll_keeps _ _ _ State.gut fun s n => State.sendTeardown_gut s n 0]
  simp

theorem State.beginTeardown_state (code : Nat) (o : FaultObj) (via : Option (Fin 144)) : (s.beginTeardown code o via).sec.state = .teardown := by
  unfold State.beginTeardown
  dsimp only
  rw [State.sendAll_keeps _ _ _ State.sec fun s n => State.sendTeardown_sec s n 0, State.setBay_state]

theorem State.note_admitted (e : Event) (sev code : Nat) : (s.note e sev code).admitted = s.admitted := by
  rw [State.admitted, State.note_sec, State.admitted]

/-- A fatal fault tears an admitted bay down where no teardown runs. -/
theorem State.fatal_torn (code : Nat) (o : FaultObj) (e : Event) (h : code < 256) (bay : s.admitted = true) (calm : s.gut.phase = .none) :
    TornDown (s.fatal code o e) code := by
  have begun : s.fatal code o e = ((s.note e 2 code).beginTeardown code o none).logEvent 2
      [((s.note e 2 code).beginTeardown code o none).gut.fatal]
      (!bitAt (Tab.get Src.zero ((s.note e 2 code).beginTeardown code o none).gut.srcs e.src).cfg 24) := by
    simp [State.fatal, State.fatalFor, s.note_admitted, bay, calm]
  rw [begun, TornDown, State.logEvent_gut, State.logEvent_sec, State.beginTeardown_fatal, State.beginTeardown_phase, State.beginTeardown_state]
  exact ⟨fatalWord_code code o 1 h, fatalWord_set code o 1 h, rfl, rfl⟩

/-- A fatal fault leaves a source that is marked severe so. -/
theorem State.fatal_keeps_severe (code : Nat) (o : FaultObj) (e : Event) (n : Nat) (h : (Tab.get Src.zero s.gut.srcs n).severe = true) :
    (Tab.get Src.zero (s.fatal code o e).gut.srcs n).severe = true := by
  have srcs (t : State) : (t.fatalFor code o none).gut.srcs = t.gut.srcs := by
    unfold State.fatalFor
    split
    · rfl
    · split
      · exact t.beginTeardown_srcs code o none
      · rfl
  rw [State.fatal, State.logEvent_gut, srcs]
  exact s.note_keeps_severe e 2 code n h

end Sys2Proof.Machine
end

section
/-! SUPPORT. Marks at both devices (R28, R30, R132): what each outcome of a mark does to rack time, and what the module reports of it. -/
namespace Sys2Proof.Machine

open Sys2Proof

variable (t : Tim) (held : Bool)

/-! ### The outcomes of a mark -/

theorem Tim.run_zero : t.run 0 = t := by simp [Tim.run_eq]

/-- R28: the armed epoch. -/
theorem Tim.mark_armed (h : t.arm = true) : t.mark held =
    ({ ({ t with freeRun := false } : Tim).onto (t.epochNum.toNat * epochFifths) with arm := false, sync := true }, .quiet) := by
  rw [Tim.mark, if_pos h]

theorem Tim.mark_unarmed (h : t.arm = false) : t.mark held = ({ t with freeRun := false } : Tim).check held := by
  rw [Tim.mark, if_neg (by simp [h])]

/-- R132: the first mark after the STAMP_RSP. -/
theorem Tim.jebMark_stamped {t3 since : Nat} (h : t.stamped = some (t3, since)) (hs : t.sync = false) : t.jebMark held =
    ({ ({ t with freeRun := false } : Tim).onto (nearestEpoch (t3 + (t.fifths - since))) with sync := true, stamped := none }, .quiet) := by
  simp [Tim.jebMark, h, hs]

/-- R30: a slip while SYNC is set, with the slip counted. -/
def Tim.slipping (t : Tim) : Tim := { t with slip := true, slips := satAdd t.slips 1 }

section
variable (hs : t.sync = true) (far : 32 < epochError t.fifths)
include hs far

/-- A slip with no bay, or after two of them, moves rack time. -/
theorem Tim.check_moved (h : held = false ∨ t.moveNext = true) : t.check held = (t.slipping.onto (nearestEpoch t.fifths), .moved) := by
  have free : !held ∨ t.moveNext := by simpa using h
  rw [Tim.check, cycleFifths, if_neg (Nat.not_le.mpr far), if_neg (by simp [hs]), if_pos free]
  rfl

/-- A bay's slip keeps rack time: its first is reported severe, the second at the next mark is fatal. -/
theorem Tim.check_kept (hb : held = true) (hm : t.moveNext = false) : t.check held =
    if t.slipRun = 0 then ({ t.slipping with slipRun := 1, lastMark := t.fifths }, .first)
    else ({ t.slipping with slipRun := 0, moveNext := true, lastMark := t.fifths }, .second) := by
  rw [Tim.check, cycleFifths, if_neg (Nat.not_le.mpr far), if_neg (by simp [hs]), if_neg (by simp [hb, hm])]
  rfl

end

/-! ### The command -/

section
variable (s : State) (n : W32)

/-- What a module does of a mark's outcome. -/
def State.reportMark (s : State) : Tim × MarkResult → State
  | (t, .quiet) => { s with tim := t }
  | (t, .moved) => { s with tim := t }.count (eventOf 7)
  | (t, .first) => { s with tim := t }.severe (eventOf 7)
  | (t, .second) => { s with tim := t }.fatal 2 .nothing (eventOf 7)

theorem exec_epochMark_module (h : s.tim.refclkOk = true) :
    exec (.epochMark .module n) s = .next (s.reportMark ((s.tim.run n.toNat).mark s.admitted)) := by
  show execEpochMark .module n s = _
  simp only [execEpochMark, h, State.reportMark]
  rfl

theorem exec_epochMark_jalem (h : s.jeb.tim.refclkOk = true) : exec (.epochMark .jalem n) s =
    .next { s with jeb := { s.jeb with tim := ((s.jeb.tim.run n.toNat).jebMark s.jeb.tagged).1 } } := by
  show execEpochMark .jalem n s = _
  simp only [execEpochMark, h]
  rfl

end

/-- Settles O14: each mark by its outcome (`mark_armed`, `jebMark_stamped`, `check_moved`, `check_kept`), the second slip's teardown by
`fatal_torn`. -/
theorem marksAndSlips : Obligations.MarksAndSlips := by
  refine ⟨⟨fun s n clock arm => ?armed, fun s n t3 since clock stamped unsynced => ?stamped⟩, fun s clock arm sync far move => ?slip⟩
  case armed =>
    refine ⟨_, exec_epochMark_module s n clock, ?_⟩
    rw [Tim.mark_armed _ _ (by rw [Tim.run_eq, arm]), Tim.run_eq]
    refine ⟨?_, rfl, rfl, rfl, rfl⟩
    show s.tim.epochNum.toNat * (2 ^ 30 * 5) / 5 = _
    omega
  case stamped =>
    refine ⟨_, exec_epochMark_jalem s n clock, ?_⟩
    rw [Tim.jebMark_stamped _ _ (by rw [Tim.run_eq, stamped]) (by rw [Tim.run_eq, unsynced]), Tim.run_eq, if_pos clock]
    exact ⟨rfl, rfl, rfl⟩
  case slip =>
    have run : exec (.epochMark .module 0) s = .next (s.reportMark (({ s.tim with freeRun := false } : Tim).check s.admitted)) := by
      rw [exec_epochMark_module s 0 clock, show (0 : W32).toNat = 0 from rfl, Tim.run_zero, Tim.mark_unarmed _ _ arm]
    refine ⟨fun noBay => ⟨_, run, ?moved⟩, fun bay fresh => ⟨_, run, ?first⟩, fun bay again calm => ⟨_, run, ?second⟩⟩
    case moved =>
      rw [Tim.check_moved { s.tim with freeRun := false } _ sync far (.inl noBay)]
      beta_reduce
      rw [State.reportMark, State.count_tim]
      exact ⟨rfl, rfl⟩
    case first =>
      rw [Tim.check_kept { s.tim with freeRun := false } _ sync far bay move, if_pos fresh]
      beta_reduce
      rw [State.reportMark, State.severe_tim]
      exact ⟨rfl, rfl, State.note_severe _ (eventOf 7) 0, State.note_gut_phase _ _ _ _⟩
    case second =>
      rw [Tim.check_kept { s.tim with freeRun := false } _ sync far bay move, if_neg again]
      beta_reduce
      rw [State.reportMark, State.fatal_tim]
      exact ⟨rfl, State.fatal_torn _ 2 .nothing (eventOf 7) (by decide) bay calm⟩

end Sys2Proof.Machine
end

section
/-! SUPPORT. The reference clock and free running (R31, R366), and the timestamp exchange (R33, R34, R67): each command's outcome, the pair it
adds, and what a report above 200 ns leaves. -/
namespace Sys2Proof.Machine

open Sys2Proof

/-! ### The reference clock (R31, R366) -/

section
variable (s : State)

theorem exec_refclkLost_module (h : s.tim.refclkOk = true) : exec (.refclkLost .module) s = .next
    (if s.admitted then
      ({ s with tim := { s.tim with refclkOk := false, sync := false } } : State).fatal 1 .nothing (eventOf 7)
     else { s with tim := { s.tim with refclkOk := false, sync := false } }) := by
  show execRefclkLost .module s = _
  rw [execRefclkLost]
  dsimp only
  rw [if_neg (by simp [h])]

/-- A built port of a Jalem block as REFCLK returns: it leaves DISABLED. -/
def Port.leavesDisabled (x : Port) : Port :=
  if x.train.state ≠ .disabled then x else { x.up false with train := { (x.up false).train with role := .rafter } }

theorem Port.leavesDisabled_of_disabled (x : Port) (h : x.train.state = .disabled) : x.leavesDisabled.train.state = .detect := by
  rw [Port.leavesDisabled, if_neg (by simp [h])]
  rfl

theorem Port.leavesDisabled_of_ne (x : Port) (h : x.train.state ≠ .disabled) : x.leavesDisabled = x := if_pos h

theorem Port.leavesDisabled_twice (x : Port) : x.leavesDisabled.leavesDisabled = x.leavesDisabled := by
  by_cases h : x.train.state = .disabled
  · exact Port.leavesDisabled_of_ne _ (by simp [x.leavesDisabled_of_disabled h])
  · rw [x.leavesDisabled_of_ne h, x.leavesDisabled_of_ne h]

/-- Entries changed one after another by a change that does nothing the second time. -/
theorem Tab.get_foldl_upd {α : Type} [DecidableEq α] (d : α) (f : α → α) (twice : ∀ x, f (f x) = f x) (l : List Nat) (t : Tab α) (i : Nat) :
    Tab.get d (l.foldl (fun t i => Tab.upd d t i f) t) i = if i ∈ l then f (Tab.get d t i) else Tab.get d t i := by
  induction l generalizing t with
  | nil => rfl
  | cons k l ih =>
    rw [List.foldl_cons, ih, Tab.upd, Tab.get_put]
    by_cases here : i = k
    · simp [here, twice]
    · simp [here]

theorem Jeb.portsUp_ports (j : Jeb) (h : j.tim.refclkOk = true) : j.portsUp =
    { j with ports := builtPorts.foldl (fun t i => Tab.upd Port.reset t i Port.leavesDisabled) j.ports } := by
  rw [Jeb.portsUp, if_neg (by simp [h])]
  rfl

/-- The ports of a block whose REFCLK is present leave DISABLED where they are built. -/
theorem Jeb.portsUp_get (j : Jeb) (h : j.tim.refclkOk = true) (i : Nat) : Tab.get Port.reset j.portsUp.ports i =
    if i ∈ builtPorts then (Tab.get Port.reset j.ports i).leavesDisabled else Tab.get Port.reset j.ports i := by
  rw [j.portsUp_ports h]
  exact Tab.get_foldl_upd _ _ Port.leavesDisabled_twice _ _ _

/-- Free running begins (R31). -/
theorem Tim.overdue_run (t : Tim) (n : Nat) (clock : t.refclkOk = true) (marked : t.freeRun = false)
    (late : t.lastMark + (2 ^ 30 + 2 ^ 20) * 5 < t.fifths + 32 * n) : (t.run n).overdue = true := by
  simp only [Tim.run_eq, Tim.overdue, clock, marked, if_true, Bool.not_false, Bool.and_true, Bool.true_and, decide_eq_true_eq]
  exact late

theorem exec_freeRun_module (n : W32) (h : (s.tim.run n.toNat).overdue = true) : exec (.freeRun .module n) s =
    .next (({ s with tim := { s.tim.run n.toNat with freeRun := true } } : State).count (eventOf 7)) := by
  show execFreeRun .module n s = _
  rw [execFreeRun]
  dsimp only
  rw [if_pos h]

theorem exec_freeRun_jalem (n : W32) (h : (s.jeb.tim.run n.toNat).overdue = true) : exec (.freeRun .jalem n) s =
    .next { s with jeb := { s.jeb with tim := { s.jeb.tim.run n.toNat with freeRun := true } } } := by
  show execFreeRun .jalem n s = _
  rw [execFreeRun]
  dsimp only
  rw [if_pos h]

end

/-! ### STAMP frames (R67) -/

section
variable (s : State)

/-- The opcode of a link-local frame stands in the low byte of its header slot. -/
theorem linkLocalFrame_opcode (op : Byte) (rest : Nat) (h : 256 ∣ rest) : (linkLocalFrame op rest).hdr.extractLsb' 0 8 = op := by
  have low : (op.toNat + 7 * 2 ^ 8 + rest) % 2 ^ 8 = op.toNat := by
    have := op.isLt
    omega
  apply BitVec.eq_of_getLsbD_eq
  intro i hi
  have inside : i < 256 := by omega
  rw [BitVec.getLsbD_extractLsb', linkLocalFrame, encodeShingle, BitVec.getLsbD_append, Nat.zero_add, if_pos inside,
    BitVec.getLsbD_ofNat, ← BitVec.testBit_toNat]
  conv_rhs => rw [← low, Nat.testBit_mod_two_pow]
  simp [hi, inside]

/-- A port after a frame that its laths may have left there is taken. -/
theorem State.takeRx_port (p : PortRef) (raw : RawFrame) : (s.takeRx p raw).port p =
    { s.port p with retry := { (s.port p).retry with
        rx := if (s.port p).retry.rx.head? = some raw then (s.port p).retry.rx.drop 1 else (s.port p).retry.rx } } := by
  rw [State.takeRx, State.port_updPort_same]
  split <;> rfl

theorem State.count_port (e : Event) (q : PortRef) : (s.count e).port q = s.port q := by
  cases q <;> simp [State.port]

/-- R23: a frame on a lane that is held idle is counted, and leaves the port if it stood there. -/
theorem State.takeLocal_fenced (p : PortRef) (raw : RawFrame) (act : State → State) (h : s.fencedLane p = true) :
    s.takeLocal p raw act = (s.takeRx p raw).count (s.portEvent 6 p) := if_pos h

/-- What a frame on a fenced lane leaves. -/
theorem State.fenceViolation (n : Fin 144) (raw : RawFrame) :
    let t := (s.takeRx (.module n) raw).count (linkEvent 6 n.val)
    Counted s t 6 1 ∧ (∀ q, t.port q = (s.takeRx (.module n) raw).port q) ∧ t.pur = s.pur ∧ t.tim = s.tim ∧ t.jeb = s.jeb := by
  refine ⟨?_, State.count_port _ _, ?_, ?_, ?_⟩
  · have counted := (s.takeRx (.module n) raw).count_total (linkEvent 6 n.val) (by simp [linkEvent, eventOf])
    rw [State.takeRx_gut] at counted
    exact counted
  · rw [State.count_pur, State.takeRx_pur]
  · rw [State.count_tim, State.takeRx_tim]
  · rw [State.count_jeb]
    rfl

end

/-! ### A report (R33, R34) -/

section
variable (x : Stamp) (twice : Int)

/-- The pairs of a port once one more is there. -/
def Stamp.pairs (x : Stamp) (twice : Int) : List Int := (x.last16 ++ [twice]).drop (x.last16.length + 1 - 16)

theorem Stamp.pair_waits (h : (x.pairs twice).length ≤ 15) : x.pair twice = ({ x with openT1 := none, last16 := x.pairs twice }, false) := by
  rw [Stamp.pair]
  exact if_pos (show (x.pairs twice).length < 16 by omega)

theorem Stamp.pair_reports (h : (x.pairs twice).length = 16) : x.pair twice =
    let m := meanOffset (x.pairs twice)
    ({ x with openT1 := none, last16 := x.pairs twice, offset := BitVec.ofInt 20 m, valid := true, warn := decide (800 < m.natAbs),
              fault := decide (3200 < m.natAbs), overRun := if decide (3200 < m.natAbs) then x.overRun + 1 else 0 },
     decide (3200 < m.natAbs)) := by
  rw [Stamp.pair]
  exact if_neg (show ¬ (x.pairs twice).length < 16 by omega)

end

section
variable (s : State)

theorem State.sendTeardown_ports (n : Fin 144) (action : Nat) : (s.sendTeardown n action).ports = s.ports := rfl

theorem State.beginTeardown_ports (code : Nat) (o : FaultObj) (via : Option (Fin 144)) : (s.beginTeardown code o via).ports = s.ports := by
  unfold State.beginTeardown
  dsimp only
  rw [State.sendAll_keeps _ _ _ State.ports fun s n => State.sendTeardown_ports s n 0]
  simp

theorem State.fatal_ports (code : Nat) (o : FaultObj) (e : Event) : (s.fatal code o e).ports = s.ports := by
  have consequences (t : State) : (t.fatalFor code o none).ports = t.ports := by
    unfold State.fatalFor
    split
    · rfl
    · split
      · exact t.beginTeardown_ports code o none
      · rfl
  rw [State.fatal, State.logEvent_ports, consequences, State.note_ports]

/-- A report above 200 ns: OFS_FAULT, a severe fault of source 7, and of the port's pairs only the run of reports is reset. -/
theorem State.offsetFault_spec (n : Fin 144) :
    let t := s.offsetFault n
    t.tim.ofsFault = true ∧ (Tab.get Src.zero t.gut.srcs 7).severe = true ∧
      ∃ k, (t.mport n.val).stamp = { (s.mport n.val).stamp with overRun := k } := by
  have severe : (Tab.get Src.zero (({ s with tim := { s.tim with ofsFault := true } } : State).severe (linkEvent 7 n.val)).gut.srcs 7).severe
    = true := State.note_severe _ (linkEvent 7 n.val) 0
  unfold State.offsetFault
  dsimp only
  split
  · refine ⟨by simp, State.fatal_keeps_severe _ 3 .nothing _ 7 severe, 0, ?_⟩
    rw [State.mport, State.fatal_ports]
    simp [State.updPort, State.setPort, State.port, State.mport]
  · exact ⟨by simp, severe, (s.mport n.val).stamp.overRun, by simp [State.mport]⟩

end

/-! ### The commands of a STAMP exchange -/

section
variable (s : State)

theorem exec_stampExchange (k : Fin 12) (b : W64) (due : b.toNat % 256 = 0) (active : (s.port (hipPortOf k)).train.state = .active)
    (lane : (s.port (hipPortOf k)).laneIdle = false) :
    exec (.stampExchange k b) s = .next ((s.toBeat b.toNat).queueLocal (hipPortOf k) .req) := by
  show execStampExchange k b s = _
  rw [execStampExchange]
  exact congrArg _ (if_pos ⟨due, active, by simp [show ((s.toBeat b.toNat).port (hipPortOf k)).laneIdle = false from lane]⟩)

/-- The frame of a STAMP_REQ, and of a STAMP_RSP (R59, R67). -/
def stampReqFrame (t1 : W64) : RawFrame := linkLocalFrame opStampReq (t1.toNat * 2 ^ 160)
def stampRspFrame (t2 t1 t3 : W64) : RawFrame := linkLocalFrame opStampRsp (t2.toNat * 2 ^ 32 + t1.toNat * 2 ^ 96 + t3.toNat * 2 ^ 160)

theorem State.cameAt_req (p : PortRef) (t1 : W64) : s.cameAt p (stampReqFrame t1) =
    if (s.port p).retry.rx.head? = some (stampReqFrame t1) then (s.port p).retry.reqAt else (s.portTime p).fifths := by
  have opcode : (stampReqFrame t1).hdr.extractLsb' 0 8 = opStampReq := linkLocalFrame_opcode opStampReq _ (Dvd.dvd.mul_left (by decide) _)
  rw [State.cameAt, opcode, if_pos (rfl : opStampReq = opStampReq)]

theorem State.cameAt_rsp (p : PortRef) (t2 t1 t3 : W64) : s.cameAt p (stampRspFrame t2 t1 t3) =
    if (s.port p).retry.rx.head? = some (stampRspFrame t2 t1 t3) then (s.port p).retry.rspAt else (s.portTime p).fifths := by
  have opcode : (stampRspFrame t2 t1 t3).hdr.extractLsb' 0 8 = opStampRsp :=
    linkLocalFrame_opcode opStampRsp _ (((Dvd.dvd.mul_left (by decide) _).add (Dvd.dvd.mul_left (by decide) _)).add (Dvd.dvd.mul_left (by decide) _))
  rw [State.cameAt, opcode, if_neg (show ¬ opStampRsp = opStampReq by decide)]

theorem exec_stampReq (p : PortRef) (t1 : W64) (active : (s.port p).train.state = .active) (lane : s.fencedLane p = false) :
    exec (.stampReq p t1 false false) s = .next ((s.takeRx p (stampReqFrame t1)).queueLocal p
      (.rsp (stampUnits (s.cameAt p (stampReqFrame t1)) (s.port p).fine) t1)) := by
  show execStampReq p t1 false false s = _
  rw [execStampReq, State.takeLocal_active _ _ _ _ active lane, if_neg (by decide)]
  rfl

/-- The pair that a STAMP_RSP completes, twice its offset in 1/16 ns. -/
def State.stampTwice (s : State) (n : Fin 144) (t2 t1 t3 : W64) : Int :=
  let x := s.mport n.val
  (if x.fine then 1 else 16) * (((t2.toNat : Int) - t1.toNat) -
    (((stampUnits (s.cameAt (.module n) (stampRspFrame t2 t1 t3)) x.fine).toNat : Int) - t3.toNat))

/-- A module's port with a pair added to its offsets. -/
def State.addPair (s : State) (n : Fin 144) (t2 t1 t3 : W64) : State :=
  (s.takeRx (.module n) (stampRspFrame t2 t1 t3)).updPort (.module n) fun y =>
    { y with stamp := ((s.mport n.val).stamp.pair (s.stampTwice n t2 t1 t3)).1 }

theorem State.addPair_stamp (n : Fin 144) (t2 t1 t3 : W64) :
    ((s.addPair n t2 t1 t3).mport n.val).stamp = ((s.mport n.val).stamp.pair (s.stampTwice n t2 t1 t3)).1 := by
  rw [State.mport_eq, State.addPair, State.port_updPort_same]

theorem State.addPair_rest (n : Fin 144) (t2 t1 t3 : W64) : s.addPair n t2 t1 t3 = { s with ports := (s.addPair n t2 t1 t3).ports } := rfl

theorem exec_stampRsp (n : Fin 144) (t2 t1 t3 : W64) (active : (s.mport n.val).train.state = .active)
    (lane : s.fencedLane (.module n) = false) (opened : (s.mport n.val).stamp.openT1 = some t1) :
    exec (.stampRsp (.module n) t2 t1 t3 false false) s = .next
      (if ((s.mport n.val).stamp.pair (s.stampTwice n t2 t1 t3)).2 then (s.addPair n t2 t1 t3).offsetFault n else s.addPair n t2 t1 t3) := by
  show execStampRsp (.module n) t2 t1 t3 false false s = _
  have port := s.takeRx_port (.module n) (stampRspFrame t2 t1 t3)
  have stamp : ((s.takeRx (.module n) (stampRspFrame t2 t1 t3)).port (.module n)).stamp = (s.mport n.val).stamp := by rw [port]; rfl
  have fine : ((s.takeRx (.module n) (stampRspFrame t2 t1 t3)).port (.module n)).fine = (s.mport n.val).fine := by rw [port]; rfl
  change Host.Outcome.next (s.takeLocal (.module n) (stampRspFrame t2 t1 t3) _) = _
  rw [State.takeLocal_active s (.module n) _ _ active lane, if_neg (by simp [stamp, opened])]
  simp only [stamp, fine]
  rfl

/-- What a pair leaves: of the port's offsets what `Stamp.pair` makes of them, and of the rest nothing, unless it reports above 200 ns. -/
theorem State.pair_reported (n : Fin 144) (t2 t1 t3 : W64) {twice : Int} (h : s.stampTwice n t2 t1 t3 = twice) :
    let x := s.mport n.val
    let pairs := x.stamp.pairs twice
    let mean := meanOffset pairs
    let t := if (x.stamp.pair (s.stampTwice n t2 t1 t3)).2 then (s.addPair n t2 t1 t3).offsetFault n else s.addPair n t2 t1 t3
    (t.mport n.val).stamp.openT1 = none ∧ (t.mport n.val).stamp.last16 = pairs ∧
      (pairs.length ≤ 15 → (t.mport n.val).stamp = { x.stamp with openT1 := none, last16 := pairs } ∧ t = { s with ports := t.ports }) ∧
      (pairs.length = 16 →
        (t.mport n.val).stamp.valid = true ∧ (t.mport n.val).stamp.offset = BitVec.ofInt 20 mean ∧
        (t.mport n.val).stamp.warn = decide (800 < mean.natAbs) ∧
        (mean.natAbs ≤ 3200 → t = { s with ports := t.ports }) ∧
        (3200 < mean.natAbs → t.tim.ofsFault = true ∧ (Tab.get Src.zero t.gut.srcs 7).severe = true)) := by
  subst h
  intro x pairs mean t
  have stamp := s.addPair_stamp n t2 t1 t3
  have rest := s.addPair_rest n t2 t1 t3
  obtain ⟨ofs, severe, k, faulted⟩ := (s.addPair n t2 t1 t3).offsetFault_spec n
  obtain few | full : pairs.length ≤ 15 ∨ pairs.length = 16 := by
    simp only [pairs, Stamp.pairs, List.length_drop, List.length_append, List.length_singleton]
    omega
  · have pair := x.stamp.pair_waits _ few
    have plain : t = s.addPair n t2 t1 t3 := if_neg (by rw [pair]; exact Bool.false_ne_true)
    rw [plain, stamp, pair]
    exact ⟨rfl, rfl, fun _ => ⟨rfl, rest⟩, fun full => by omega⟩
  · have pair := x.stamp.pair_reports _ full
    by_cases big : 3200 < mean.natAbs
    · have fault : t = (s.addPair n t2 t1 t3).offsetFault n := if_pos (by rw [pair]; exact decide_eq_true big)
      rw [fault, faulted, stamp, pair]
      exact ⟨rfl, rfl, fun few => by omega, fun _ => ⟨rfl, rfl, rfl, fun small => by omega, fun _ => ⟨ofs, severe⟩⟩⟩
    · have plain : t = s.addPair n t2 t1 t3 := if_neg (by rw [pair]; exact fun h => big (of_decide_eq_true h))
      rw [plain, stamp, pair]
      exact ⟨rfl, rfl, fun few => by omega, fun _ => ⟨rfl, rfl, rfl, fun _ => rest, fun h => absurd h big⟩⟩

end

/-- Settles O15: REFCLK by `fatal_torn`, `portsUp_keeps` and `Jeb.portsUp_get`, free running by `overdue_run`, the exchange by its commands
(`exec_stampExchange`, `exec_stampReq`, `exec_stampRsp`), the report by `pair_waits`, `pair_reports` and `offsetFault_spec`, and a lane held
idle by `takeLocal_fenced`. -/
theorem referenceClockAndStamps : Obligations.ReferenceClockAndStamps := by
  refine ⟨⟨fun s clock => ?lost, fun s => ⟨_, rfl, rfl⟩, fun s => ?returns, fun s => ?jalemReturns, fun s n clock marked late => ?free,
      fun s n clock marked late => ?jalemFree⟩,
    fun s k b due active lane => ?exchange, fun s p t1 active lane => ?request, fun s n t1 t2 t3 active lane opened _ => ?response,
    fun s n t1 t2 t3 a b lane => ?fenced⟩
  case lost =>
    refine ⟨_, exec_refclkLost_module s clock, ?_⟩
    split
    · rename_i bay
      refine ⟨State.fatal_tim _ _ _ _, fun _ calm => ?_, fun free => absurd (bay.symm.trans free) (by decide)⟩
      obtain ⟨code, -, phase, -⟩ := State.fatal_torn { s with tim := { s.tim with refclkOk := false, sync := false } } 1 .nothing (eventOf 7)
        (by decide) bay calm
      exact ⟨code, phase⟩
    · rename_i free
      exact ⟨rfl, fun bay => absurd bay free, fun _ => rfl⟩
  case returns =>
    refine ⟨_, rfl, ?_⟩
    have keeps {α : Type} (g : State → α) (h : ∀ (s : State) (n : Fin 144) f, g (s.updPort (.module n) f) = g s) :=
      State.portsUp_keeps { s with tim := s.tim.resume } g h
    have tim := keeps State.tim fun _ _ _ => rfl
    exact ⟨(congrArg Tim.refclkOk tim :), (congrArg Tim.fifths tim :), (congrArg Tim.sync tim :), keeps State.gut fun _ _ _ => rfl,
      keeps State.jeb fun _ _ _ => rfl⟩
  case jalemReturns =>
    refine ⟨_, rfl, ?_⟩
    have port := Jeb.portsUp_get { s.jeb with tim := s.jeb.tim.resume } rfl
    have rest := Jeb.portsUp_ports { s.jeb with tim := s.jeb.tim.resume } rfl
    refine ⟨by rw [rest]; rfl, by rw [rest]; rfl, fun i built off => ?_, fun i other => ?_, by rw [rest]⟩
    · rw [port, if_pos built]
      exact Port.leavesDisabled_of_disabled _ off
    · rw [port]
      split
      · rename_i built
        exact Port.leavesDisabled_of_ne _ (other.resolve_left fun h => h built)
      · rfl
  case free =>
    refine ⟨_, exec_freeRun_module s n (Tim.overdue_run _ _ clock marked late), ?_⟩
    have counted := State.count_total ({ s with tim := { s.tim.run n.toNat with freeRun := true } }) (eventOf 7) (by decide)
    refine ⟨by rw [State.count_tim], ?_, State.count_sec _ _, counted⟩
    rw [State.count_tim, Tim.run_eq]
    exact if_pos clock
  case jalemFree =>
    refine ⟨_, exec_freeRun_jalem s n (Tim.overdue_run _ _ clock marked late), ?_⟩
    rw [Tim.run_eq, if_pos clock]
  case exchange =>
    refine ⟨_, exec_stampExchange s k b due active lane, ?_⟩
    exact ⟨State.port_updPort_same _ _ _, rfl⟩
  case request =>
    refine ⟨_, exec_stampReq s p t1 active lane, ?_⟩
    dsimp only
    rw [State.queueLocal, State.port_updPort_same, State.takeRx_port, State.cameAt_req]
    simp only [decide_eq_true_eq]
    exact ⟨rfl, by cases p <;> rfl⟩
  case response =>
    refine ⟨_, exec_stampRsp s n t2 t1 t3 active lane opened, ?_⟩
    exact s.pair_reported n t2 t1 t3 (by rw [State.stampTwice, State.cameAt_rsp]; rfl)
  case fenced =>
    have violation (raw : RawFrame) (act : State → State) :
        let t := s.takeLocal (.module n) raw act
        Counted s t 6 1 ∧ (t.mport n.val).arb = (s.mport n.val).arb ∧ (t.mport n.val).stamp = (s.mport n.val).stamp ∧
          (∀ q, q ≠ .module n → t.port q = s.port q) ∧ t.tim = s.tim ∧ t.jeb = s.jeb := by
      intro t
      have counts : t = (s.takeRx (.module n) raw).count (linkEvent 6 n.val) := s.takeLocal_fenced (.module n) raw act lane
      obtain ⟨counted, port, -, tim, jeb⟩ := s.fenceViolation n raw
      rw [← counts] at counted port tim jeb
      have here := (port (.module n)).trans (s.takeRx_port (.module n) raw)
      exact ⟨counted, (congrArg Port.arb here :), (congrArg Port.stamp here :),
        fun q other => (port q).trans (s.port_updPort_ne (.module n) q _ other), tim, jeb⟩
    intro c hc
    rw [List.mem_pair] at hc
    obtain rfl | rfl := hc
    · exact ⟨_, rfl, violation _ _⟩
    · exact ⟨_, rfl, violation _ _⟩

end Sys2Proof.Machine
end

section
/-! SUPPORT. From an identity record to ACTIVE (R46, R48, R50, R63): what each command of the training does at its port, and what a port that
becomes ACTIVE does at its device. -/
namespace Sys2Proof.Machine

open Sys2Proof

/-! ### Only a port's training -/

section
variable {p : PortRef} {s t : State} {out : List Output}

theorem OnlyTrain.refl (p : PortRef) (s : State) : OnlyTrain p s s [] := ⟨fun _ _ => rfl, rfl, by rw [List.append_nil]⟩

/-- A further change of the port's training. -/
theorem OnlyTrain.updPort (h : OnlyTrain p s t out) (f : Port → Port) (hf : f (t.port p) = { t.port p with train := (f (t.port p)).train }) :
    OnlyTrain p s (t.updPort p f) out := by
  obtain ⟨others, here, rest⟩ := h
  refine ⟨fun q other => (t.port_updPort_ne p q f other).trans (others q other), ?_, ?_⟩
  · rw [State.port_updPort_same, hf, here]
  · rw [t.updPort_eq, rest]

/-- Something leaves the block besides. -/
theorem OnlyTrain.emit (h : OnlyTrain p s t out) (o : Output) : OnlyTrain p s (t.emit o) (out ++ [o]) := by
  obtain ⟨others, here, rest⟩ := h
  refine ⟨others, here, ?_⟩
  rw [← List.append_assoc]
  exact congrArg (fun u : State => u.emit o) rest

end

/-! ### IDENTIFY (R14, R48) -/

section
variable (s : State) (p : PortRef)

/-- Which partner a port must have is no matter of its training. -/
theorem State.partnerOk_updPort (q : PortRef) (f : Port → Port) (i : Identity) : (s.updPort q f).partnerOk p i = s.partnerOk p i := by
  cases p <;> cases q <;> rfl

/-- A port with its partner's record stored. -/
def State.storePartner (s : State) (p : PortRef) (i : Identity) : State :=
  s.updPort p fun x => { x with train := { x.train with partner := some i } }

theorem exec_identityRecord (i : Identity) (h : s.pstate p = .identify) : exec (.identityRecord p i) s = .next
    (if s.partnerOk p i then
      ((s.storePartner p i).setPState p .negotiate).emit (.offer p 3 ((s.port p).cfg.featMask.setWidth 16))
     else ((s.storePartner p i).updPort p fun x => x.hold 1).cabling p) := by
  show execIdentityRecord p i s = _
  rw [execIdentityRecord, if_neg (by simp [h])]
  dsimp only
  rw [State.partnerOk_updPort, State.port_updPort_same]
  rfl

/-- A cabling fault counts as one event of source 5, and moves no frame (R14, R285). -/
theorem State.cabling_spec : Counted s (s.cabling p) 5 1 ∧ (s.cabling p).pur = s.pur := by
  refine ⟨?_, State.count_pur _ _⟩
  obtain ⟨source, one⟩ : (s.portEvent 5 p).src = 5 ∧ (s.portEvent 5 p).count = 1 := by cases p <;> exact ⟨rfl, rfl⟩
  have counted := s.count_total (s.portEvent 5 p) (by rw [one]; decide)
  rw [source, one] at counted
  exact counted

/-! ### NEGOTIATE (R50, R51, R53) -/

theorem exec_negotiate_none (m : W16) (h : s.pstate p = .negotiate) : exec (.negotiate p none m) s = .next (s.updPort p fun x => x.hold 2) := by
  show execNegotiate p none m s = _
  rw [execNegotiate, if_neg (by simp [h])]

theorem exec_negotiate_some (r : BitVec 2) (m : W16) (h : s.pstate p = .negotiate) : exec (.negotiate p (some r) m) s = .next
    (if (s.port p).train.width ≠ 3 ∧ !bitAt ((s.port p).agreed r m) featNarrow then s.updPort p Port.narrowRefused
     else (s.updPort p fun x =>
        { x with train := { x.train with state := .credit, rev := r, features := x.agreed r m }
                 cred := { x.cred with granted := x.cfg.grants } }).emit (.grants p (s.port p).cfg.grants)) := by
  show execNegotiate p (some r) m s = _
  rw [execNegotiate, if_neg (by simp [h])]

/-! ### CREDIT (R63) -/

theorem exec_initialCreditGrant (g : List W16) (h : s.pstate p = .credit) (twelve : g.length = 12) :
    exec (.initialCreditGrant p g) s = .next
      (if (∀ x ∈ g, 9 ≤ x.toNat) ∧ ∀ x ∈ (s.port p).cfg.grants, 9 ≤ x then (s.updPort p fun x => x.start g).onActive p
       else s.updPort p fun x => x.hold 3) := by
  show execInitialCreditGrant p g s = _
  rw [execInitialCreditGrant, if_neg (by simp [h])]
  simp only [twelve, List.all_eq_true, decide_eq_true_eq, true_and]

end

/-! ### What a port that becomes ACTIVE does (R132, R160, R278) -/

section
variable (s : State) (p : PortRef)

/-- A frame sent at the block joins the frames that wait at a port. -/
theorem State.jebSend_port (f : Frame) (q : PortRef) : ∃ l, (s.jebSend p f).port q = { s.port q with txq := l } := by
  unfold State.jebSend
  by_cases here : q = p
  · subst here
    split
    · exact ⟨_, State.port_updPort_same ..⟩
    · exact ⟨_, State.port_updPort_same ..⟩
  · refine ⟨(s.port q).txq, ?_⟩
    split
    · exact s.port_updPort_ne p q _ here
    · exact s.port_updPort_ne p q _ here

theorem State.sendReport_port (q : PortRef) : ∃ l, s.sendReport.port q = { s.port q with txq := l } := by
  unfold State.sendReport
  split
  · exact ⟨_, rfl⟩
  · split
    · exact ⟨_, rfl⟩
    · obtain ⟨l, sent⟩ := s.jebSend_port (.rafter _) _ q
      refine ⟨l, Eq.trans ?_ sent⟩
      cases q <;> rfl

theorem State.sendDestroy_ports (n : Fin 144) : (s.sendDestroy n).ports = s.ports := rfl

/-- What a device does on a port that has become ACTIVE leaves the port's state and credit. -/
theorem State.onActive_port : ((s.onActive p).port p).train.state = (s.port p).train.state ∧ ((s.onActive p).port p).cred = (s.port p).cred := by
  cases p with
  | module n =>
    rw [State.onActive]
    split
    · have here : ((s.updPort (.module n) fun x => { x with train := { x.train with destroyDue := false } }).sendDestroy n).port (.module n) =
        { s.port (.module n) with train := { (s.port (.module n)).train with destroyDue := false } } := by
        rw [State.port, State.sendDestroy_ports]
        exact s.port_updPort_same (.module n) _
      rw [here]
      exact ⟨rfl, rfl⟩
    · exact ⟨rfl, rfl⟩
  | rafter q =>
    rw [State.onActive]
    obtain ⟨l, reported⟩ := (if q = 0 ∧ !s.jeb.tim.sync then s.sendStamp (.rafter q) else s).sendReport_port (.rafter q)
    rw [reported]
    split
    · rw [State.sendStamp, State.queueLocal, State.port_updPort_same]
      exact ⟨rfl, rfl⟩
    · exact ⟨rfl, rfl⟩
  | tray t => exact ⟨rfl, rfl⟩

end

/-- Settles O17: each command by its outcome, what changes beside the port by `OnlyTrain.updPort`, `cabling_spec` and `onActive_port`. -/
theorem identityToActive : Obligations.IdentityToActive := by
  refine ⟨fun s p i identify => ⟨fun ok => ?passes, fun bad => ?fails⟩,
    fun s p => ⟨fun negotiate r m => ⟨fun wide => ?agrees, fun narrow off => ?refuses⟩, fun negotiate m => ?noRevision,
      fun credit g twelve => ⟨fun enough own => ?active, fun few => ?held⟩⟩⟩
  case passes =>
    refine ⟨_, (exec_identityRecord s p i identify).trans (by rw [if_pos ok]), ?_⟩
    have stored : (s.storePartner p i).port p = { s.port p with train := { (s.port p).train with partner := some i } } := s.port_updPort_same p _
    have here := (s.storePartner p i).port_updPort_same p fun x => { x with train := { x.train with state := .negotiate } }
    rw [stored] at here
    have only := ((OnlyTrain.refl p s).updPort (fun x => { x with train := { x.train with partner := some i } }) rfl).updPort
      (fun x => { x with train := { x.train with state := .negotiate } }) rfl
    exact ⟨(congrArg (fun x => x.train.state) here :), (congrArg (fun x => x.train.partner) here :), only.emit _⟩
  case fails =>
    refine ⟨_, (exec_identityRecord s p i identify).trans (by rw [if_neg (by simp [bad])]), ?_⟩
    obtain ⟨counted, pur⟩ := ((s.storePartner p i).updPort p fun x => x.hold 1).cabling_spec p
    have here : (((s.storePartner p i).updPort p fun x => x.hold 1).cabling p).port p = Port.hold _ 1 :=
      (State.count_port _ _ p).trans (State.port_updPort_same _ p _)
    refine ⟨(congrArg (fun x => x.train.state) here :), (congrArg (fun x => x.train.fail) here :), ?_, ?_⟩
    · rw [Counted, State.storePartner, State.updPort_gut, State.updPort_gut] at counted
      exact counted
    · rw [pur, State.storePartner, State.updPort_pur, State.updPort_pur]
  case agrees =>
    have go : ¬ ((s.port p).train.width ≠ 3 ∧ !bitAt ((s.port p).agreed r m) featNarrow) := by
      rintro ⟨narrow, off⟩
      obtain full | on := wide
      · exact narrow full
      · exact absurd (((congrArg (!·) on).symm).trans off) (by decide)
    refine ⟨_, (exec_negotiate_some s p r m negotiate).trans (by rw [if_neg go]), ?_⟩
    have here := s.port_updPort_same p fun x =>
      { x with train := { x.train with state := .credit, rev := r, features := x.agreed r m }, cred := { x.cred with granted := x.cfg.grants } }
    exact ⟨(congrArg (fun x => x.train.state) here :), (congrArg (fun x => x.train.rev) here :),
      (congrArg (fun x => x.train.features) here :),
      congrArg (fun t : State => t.emit (.grants p (s.port p).cfg.grants)) (s.updPort_eq p _)⟩
  case refuses =>
    refine ⟨_, (exec_negotiate_some s p r m negotiate).trans (by rw [if_pos ⟨narrow, (congrArg (!·) off :)⟩]), ?_⟩
    have here := s.port_updPort_same p Port.narrowRefused
    exact ⟨(congrArg (fun x => x.train.state) here :), (congrArg (fun x => x.train.narrowOff) here :),
      (OnlyTrain.refl p s).updPort Port.narrowRefused rfl⟩
  case noRevision =>
    have here := s.port_updPort_same p fun x => x.hold 2
    exact ⟨_, exec_negotiate_none s p m negotiate, (congrArg (fun x => x.train.state) here :),
      (congrArg (fun x => x.train.fail) here :), s.updPort_eq p _⟩
  case active =>
    refine ⟨_, (exec_initialCreditGrant s p g credit twelve).trans (by rw [if_pos ⟨enough, own⟩]), ?_⟩
    obtain ⟨state, cred⟩ := (s.updPort p fun x => x.start g).onActive_port p
    rw [State.port_updPort_same] at state cred
    exact ⟨state, (congrArg Credit.txGrant cred :)⟩
  case held =>
    have short : ¬ ((∀ x ∈ g, 9 ≤ x.toNat) ∧ ∀ x ∈ (s.port p).cfg.grants, 9 ≤ x) := by
      rintro ⟨enough, own⟩
      obtain ⟨x, mem, low⟩ | ⟨x, mem, low⟩ := few
      · exact absurd (enough x mem) (by omega)
      · exact absurd (own x mem) (by omega)
    have here := s.port_updPort_same p fun x => x.hold 3
    exact ⟨_, (exec_initialCreditGrant s p g credit twelve).trans (by rw [if_neg short]), (congrArg (fun x => x.train.state) here :),
      (congrArg (fun x => x.train.fail) here :), s.updPort_eq p _⟩

end Sys2Proof.Machine
end

section
/-! SUPPORT. Where routing and the checks at an ingress look (R78, R120): what a frame on its way in changes is none of it. -/
namespace Sys2Proof.Machine

open Sys2Proof

/-! ### States that route alike -/

/-- What routing and the ingress checks see of a module is the same in both states. -/
structure State.RoutesAs (s u : State) : Prop where
  sec : u.sec = s.sec
  sof : u.sof = s.sof
  gut : u.gut = s.gut
  lrt : u.pur.lrt = s.pur.lrt
  pairSeed : u.pur.pairSeed = s.pur.pairSeed
  nodeLost : u.pur.nodeLost = s.pur.nodeLost
  train : ∀ n, (u.mport n).train = (s.mport n).train
  laneIdle : ∀ n, (u.mport n).laneIdle = (s.mport n).laneIdle
  sealing : ∀ n, (u.mport n).sealing = (s.mport n).sealing

theorem State.RoutesAs.refl (s : State) : s.RoutesAs s := ⟨rfl, rfl, rfl, rfl, rfl, rfl, fun _ => rfl, fun _ => rfl, fun _ => rfl⟩

section
variable {s u : State} (same : s.RoutesAs u)
include same

theorem State.RoutesAs.fenced (n : Nat) : u.fenced n = s.fenced n := by rw [State.fenced, same.gut, State.fenced]

theorem State.RoutesAs.ownRack (r : Nat) : u.ownRack r = s.ownRack r := by rw [State.ownRack, same.sec, State.ownRack]

theorem State.RoutesAs.bay : u.bay = s.bay := by rw [State.bay, same.sec, State.bay]

theorem State.RoutesAs.node : u.node = s.node := by rw [State.node, State.index, same.sof, State.node, State.index]

theorem State.RoutesAs.relCoord : u.relCoord = s.relCoord := by
  rw [State.relCoord, same.bay, State.coord, same.sof, State.relCoord, State.coord]

theorem State.RoutesAs.portDest (n : Fin 144) : u.portDest n = s.portDest n := by
  simp only [State.portDest, same.fenced, same.train, same.laneIdle]

theorem State.RoutesAs.hipPort (dir : Nat) (h : Header) : u.hipPort dir h = s.hipPort dir h := by
  simp only [State.hipPort, same.fenced, same.pairSeed]

/-- Both states send a frame to the same place. -/
theorem State.RoutesAs.dest (h : Header) : u.dest h = s.dest h := by
  simp only [State.dest, State.isRelay, State.nodeLost, same.ownRack, same.bay, same.relCoord, same.hipPort, same.portDest, same.node, same.sof,
    same.lrt, same.nodeLost]
  rfl

/-- A frame passes or fails the ingress checks in both states alike. -/
theorem State.RoutesAs.ingressCheck (n : Fin 144) (h : Header) : u.ingressCheck n h = s.ingressCheck n h := by
  simp only [State.ingressCheck, State.stopped, State.inTeardown, State.awaitsKeys, State.isKeyAck, State.admitted, Port.sealed, same.ownRack,
    same.bay, same.train, same.sealing, same.sec, same.gut]
  rfl

/-- A change at a module's port of what routing does not see. -/
theorem State.RoutesAs.updPort (n : Fin 144) (f : Port → Port) (train : ∀ x, (f x).train = x.train) (lane : ∀ x, (f x).laneIdle = x.laneIdle)
    (sealed : ∀ x, (f x).sealing = x.sealing) : s.RoutesAs (u.updPort (.module n) f) := by
  have port (m : Nat) : (u.updPort (.module n) f).mport m = if m = n.val then f (u.mport m) else u.mport m := by
    have get : (u.updPort (.module n) f).mport m = if m = n.val then f (u.mport n.val) else u.mport m := Tab.get_put ..
    rw [get]
    split
    · rename_i here
      rw [here]
    · rfl
  refine ⟨same.sec, same.sof, same.gut, same.lrt, same.pairSeed, same.nodeLost, fun m => ?_, fun m => ?_, fun m => ?_⟩
  · rw [port, ← same.train]
    split
    · exact train _
    · rfl
  · rw [port, ← same.laneIdle]
    split
    · exact lane _
    · rfl
  · rw [port, ← same.sealing]
    split
    · exact sealed _
    · rfl

theorem State.RoutesAs.takeRx (n : Fin 144) (raw : RawFrame) : s.RoutesAs (u.takeRx (.module n) raw) := by
  refine same.updPort n _ (fun x => ?_) (fun x => ?_) fun x => ?_
  all_goals
    split <;> rfl

theorem State.RoutesAs.freeSlots (n : Fin 144) (vc k : Nat) : s.RoutesAs (u.freeSlots n vc k) :=
  same.updPort n _ (fun _ => rfl) (fun _ => rfl) fun _ => rfl

/-- A header or shingles without a syndrome. -/
theorem State.RoutesAs.countNoFlash (n : Fin 144) : s.RoutesAs (u.countFlash (.module n) 0) := by
  rw [State.countFlash, State.count_zero _ _ rfl]
  exact same.updPort n _ (fun _ => rfl) (fun _ => rfl) fun _ => rfl

theorem State.RoutesAs.countBytes (h : Header) : s.RoutesAs (u.countBytes h) := by
  unfold State.countBytes
  split
  · exact ⟨same.sec, same.sof, same.gut, same.lrt, same.pairSeed, same.nodeLost, same.train, same.laneIdle, same.sealing⟩
  · exact same

end

/-! ### A frame that comes in -/

section
variable (s : State) (n : Fin 144) (raw : RawFrame)

/-- A frame without a syndrome taken off its port. -/
def State.takenClean (s : State) (n : Fin 144) (raw : RawFrame) : State :=
  ((s.takeRx (.module n) raw).countFlash (.module n) 0).countFlash (.module n) 0

/-- The state in which a frame without a syndrome is checked. -/
def State.received (s : State) (n : Fin 144) (raw : RawFrame) (h : Header) : State := (s.takenClean n raw).countBytes h

theorem State.received_routesAs (h : Header) : s.RoutesAs (s.received n raw h) :=
  ((((State.RoutesAs.refl s).takeRx n raw).countNoFlash n).countNoFlash n).countBytes h

theorem State.countBytes_queue (h : Header) (q : Nat) : (s.countBytes h).queue q = s.queue q := by
  unfold State.countBytes
  split <;> rfl

/-- A frame on its way in moves no other, and touches no eave. -/
theorem State.received_queue (h : Header) (q : Nat) : (s.received n raw h).queue q = s.queue q := by
  rw [State.received, State.countBytes_queue, State.takenClean, State.queue, State.countFlash_pur, State.countFlash_pur, State.takeRx_pur,
    State.queue]

theorem State.received_eav (h : Header) : (s.received n raw h).eav = s.eav := by
  rw [State.received, State.countBytes_eav, State.takenClean, State.countFlash_eav, State.countFlash_eav, State.takeRx_eav]

/-- R23: what holds a lane. -/
theorem State.fencedLane_eq_false (h : portRole n.val ≠ .hip ∨ (s.mport n.val).laneIdle = false) : s.fencedLane (.module n) = false := by
  rw [State.fencedLane, ← State.mport_eq, Bool.and_eq_false_iff, decide_eq_false_iff_not]
  exact h

theorem State.carries_active (h : s.isActive n.val = true) : s.carries (.module n) raw = true := by
  rw [State.carries, Bool.or_eq_true]
  exact .inl h

theorem State.countFlash_phase (p : PortRef) (k : Nat) : (s.countFlash p k).gut.phase = s.gut.phase := by
  rw [State.countFlash, State.count]
  split
  · rw [State.updPort_gut]
  · rw [State.note_gut_phase, State.updPort_gut]

/-- A header that correcting mode cannot restore (R59). -/
theorem State.routeRaw_uncorrectable (active : s.isActive n.val = true) (lane : s.fencedLane (.module n) = false)
    (bad : headerDecode raw.hdr = none) : s.routeRaw n raw =
      ((s.takeRx (.module n) raw).countFlash (.module n) (flashBad raw.hdr).toNat).fatal 5 (.port n) (linkEvent 1 n.val) := by
  rw [State.routeRaw, if_neg (by simp [lane]), if_neg (by simp [s.carries_active n raw active])]
  simp only [bad]

/-- The form of a frame that its port takes whole: a header without an error on one of the six courses, and data of its length without one. -/
structure CleanFrame (raw : RawFrame) (h : Header) : Prop where
  header : flashBad raw.hdr = false
  decoded : headerDecode raw.hdr = some h
  course : h.course.toNat < 6
  whole : raw.data.length = h.len.toNat
  clean : badSyndromes h raw.data = 0

/-- The frame that such a header slot and data make; the slot goes on as it was received. -/
def frameOf (raw : RawFrame) (h : Header) : Frame := { hdr := h, data := raw.data, err := raw.hdr ^^^ headerSlot h }

/-- A clean frame is checked once it is received. -/
theorem State.routeRaw_clean {h : Header} (form : CleanFrame raw h) (active : s.isActive n.val = true)
    (lane : s.fencedLane (.module n) = false) : s.routeRaw n raw = (s.takenClean n raw).arrive n (frameOf raw h) := by
  obtain ⟨header, decoded, course, whole, clean⟩ := form
  have data : (raw.data ++ List.replicate 8 0).take h.len.toNat = raw.data := by rw [← whole, List.take_left]
  have linkLocal : h.course ≠ 7 := fun c => by rw [c] at course; exact absurd course (by decide)
  have noChannel : h.course ≠ 6 := fun c => by rw [c] at course; exact absurd course (by decide)
  rw [State.routeRaw, if_neg (by simp [lane]), if_neg (by simp [s.carries_active n raw active])]
  simp only [decoded, data, clean, header, if_neg linkLocal, if_neg noChannel, Bool.toNat_false]
  rfl

end

/-! ### The frame forwarded, and refused (R78, R120) -/

section
variable (s : State) (n e : Fin 144) (f : Frame)

/-- A request that passes the checks is forwarded. -/
theorem State.arrive_passes (pass : (s.countBytes f.hdr).ingressCheck n f.hdr = none) (request : isResponse f.hdr = false) :
    s.arrive n f = (s.countBytes f.hdr).forward n f := by
  simp only [State.arrive, pass, State.lateResponse, State.freePending, request]
  rfl

/-- A request that a check refuses and that has a response is answered once its slots are free. -/
theorem State.arrive_refused {code : Byte} (refused : (s.countBytes f.hdr).ingressCheck n f.hdr = some code) (request : isResponse f.hdr = false)
    (answered : isPosted f.hdr = false) (cont : f.hdr.opcode ≠ opBattenCont) : s.arrive n f =
      ((s.countBytes f.hdr).freeSlots n (vcOf f.hdr) (frameSlots f)).respondError (portSource n.val (vcOf f.hdr)) f.hdr code := by
  simp only [State.arrive, refused]
  rw [if_neg (by simp [answered, cont]), State.refuse, if_neg (by simp [request]), if_neg (by simp [answered]), if_neg cont]

/-- A frame without SIG goes to a port as it is (R51). -/
theorem State.toPort_keepsSig (a : Arrive) (sig : bitAt f.hdr.attr 7 = false) : s.toPort e f a = s.link f (portQueue e.val (vcOf f.hdr)) a :=
  if_neg (by simp [sig])

/-- A request that joins no bundle and keeps its SIG is linked to the queue of its channel at another port. -/
theorem State.forward_port (plain : isCtrl f.hdr = false) (towards : s.dest f.hdr = .port e)
    (atomic : f.hdr.opcode ≠ opAtomic) (fadd : f.hdr.opcode ≠ opFadd) (sig : bitAt f.hdr.attr 7 = false) :
    ∃ a, s.forward n f = s.link f (portQueue e.val (vcOf f.hdr)) a := by
  have alone : s.tryMerge (portQueue e.val (vcOf f.hdr)) n f (bitAt (s.mport e.val).train.features featFpBundle) = none := by
    simp [State.tryMerge, State.bundles, atomic, fadd]
  refine ⟨{ fromAgent 0 with src := portSource n.val (vcOf f.hdr), ingress := some n, cut := s.cutThrough e n f }, ?_⟩
  rw [State.forward]
  dsimp only
  rw [if_neg (by simp [plain]), towards]
  dsimp only
  rw [alone]
  exact s.toPort_keepsSig e f _ sig

/-- No check of R120 refuses with POISONED. -/
theorem State.ingressCheck_ne_poisoned (h : Header) : s.ingressCheck n h ≠ some stPoisoned := by
  unfold State.ingressCheck
  dsimp only
  repeat' split
  all_goals decide

/-- An answer whose requester lies behind a port is linked there. -/
theorem State.respondTo_port (spar src : Nat) (sound : f.hdr.status ≠ stPoisoned) (towards : s.dest f.hdr = .port e) :
    ∃ a, s.respondTo spar src f = s.link f (portQueue e.val (vcOf f.hdr)) a := by
  refine ⟨{ fromAgent 0 with src := src }, ?_⟩
  simp only [State.respondTo, if_neg sound, towards]

/-- A frame linked stands last in its queue, and no other queue changes. -/
theorem State.frames_link (q k : Nat) (a : Arrive) : (s.link f q a).frames k = if k = q then s.frames q ++ [f] else s.frames k :=
  s.link_queue f q k a

end
end Sys2Proof.Machine
end

section
/-! SUPPORT. What an agent takes from its queue (R76), and the answer of a bundle split among its requesters (R95 to R97). -/
namespace Sys2Proof.Machine

open Sys2Proof

/-! ### The head of a queue taken -/

section
variable (s : State) (q : Nat) (e : Entry) (rest : List Entry)

/-- The state once the head of a queue is read and taken out of the buffer. -/
def State.dequeued (s : State) (q : Nat) (e : Entry) (rest : List Entry) : State :=
  ((s.readEntry e).setQueue q ((s.queue q).keep rest)).unlink q e

theorem State.dequeue_cons (h : (s.queue q).items = e :: rest) : s.dequeue q = some (e, s.dequeued q e rest) := by
  rw [State.dequeue, h]
  rfl

/-- Taking a frame changes the buffer and the credit of its port. -/
theorem State.dequeued_eq : s.dequeued q e rest = { s with pur := (s.dequeued q e rest).pur, ports := (s.dequeued q e rest).ports } := by
  have read : s.readEntry e = { s with pur := (s.readEntry e).pur } := by
    unfold State.readEntry
    split <;> rfl
  rw [State.dequeued, read]
  unfold State.unlink
  cases e.ingress with
  | none => rfl
  | some n =>
    dsimp only
    split <;> rfl

theorem State.dequeued_bundles : (s.dequeued q e rest).pur.bundles = s.pur.bundles := by
  have read : (s.readEntry e).pur.bundles = s.pur.bundles := by
    unfold State.readEntry
    split <;> rfl
  rw [State.dequeued, ← read]
  unfold State.unlink
  cases e.ingress with
  | none => rfl
  | some n =>
    dsimp only
    split <;> rfl

/-- The rest of a queue waits as before, and so does every other queue. -/
theorem State.dequeued_frames (h : (s.queue q).items = e :: rest) :
    (s.dequeued q e rest).frames q = rest.map (fun e => e.frame) ∧ ∀ k, k ≠ q → (s.dequeued q e rest).frames k = s.frames k := by
  obtain ⟨head, others⟩ := s.dequeue_some q e _ (s.dequeue_cons q e rest h)
  have left : ((s.dequeued q e rest).queue q).items = rest := (List.cons.inj (h.symm.trans head)).2.symm
  exact ⟨by rw [State.frames, left], fun k other => by rw [State.frames, others k other, State.frames]⟩

end

/-! ### An agent takes a frame (R76) -/

section
variable (s : State) (a : Nat) (n : Fin 144) (f : Frame) (e : Entry) (rest : List Entry)

/-- A frame that waits in its agent's queue is taken from its head, or not at all. -/
theorem State.agentTake_waiting (h : (s.queue (agentQueue (agentAt a n.val) f.hdr.course.toNat)).items = e :: rest)
    (waits : ∃ r ∈ e :: rest, r.isFrame n f = true) : s.agentTake a n f =
      if e.isFrame n f then .ok (s.dequeued (agentQueue (agentAt a n.val) f.hdr.course.toNat) e rest) else .error s := by
  rw [State.agentTake, if_pos (by rw [h]; exact List.any_eq_true.mpr waits), s.dequeue_cons _ e rest h]

end

/-! ### The answers of a bundle (R97) -/

section
variable (s : State)

/-- A response goes to an agent only where that agent asked for it. -/
theorem State.dest_agent {h : Header} {g : Nat} (response : isResponse h = true) (towards : s.dest h = .agent g) : issuer h = some g := by
  have port (n : Fin 144) : s.portDest n ≠ .agent g := by
    unfold State.portDest
    dsimp only
    repeat' split
    all_goals simp
  unfold State.dest at towards
  dsimp only at towards
  split at towards
  · split at towards
    · cases towards
    · split at towards
      · exact absurd towards (port _)
      · cases towards
  · split at towards
    · cases towards
    · split at towards
      · split at towards
        · cases towards
          assumption
        · cases towards
      · rw [if_neg (by simp [response])] at towards
        split at towards
        · cases towards
        · split at towards
          · cases towards
          · exact absurd towards (port _)

theorem State.link_bundles (f : Frame) (q : Nat) (a : Arrive) : (s.link f q a).pur.bundles = s.pur.bundles := by
  unfold State.link
  cases a.ingress with
  | none => rfl
  | some n =>
    dsimp only
    split <;> rfl

/-- No port's queue is that of the bundling unit. -/
theorem portQueue_ne_bundling (n : Fin 144) (h : Header) : portQueue n.val (vcOf h) ≠ agentQueue agBundle 0 := by
  have port := n.isLt
  have course := h.course.isLt
  have sub := h.sub.isLt
  simp only [portQueue, vcOf, agentQueue, agBundle]
  omega

/-- The queue in which an agent gets an answer that it asked for is another than the bundling unit's, unless that unit asked. -/
theorem answerQueue_ne_bundling {h : Header} {g : Nat} (requester : h.srcEngine ≠ 0xFE) (asked : issuer h = some g)
    (expects : agentExpects g h = true) : agentQueue (agentAt g 0) h.course.toNat ≠ agentQueue agBundle 0 := by
  have unit : g ≠ agBundle := by
    rintro rfl
    unfold issuer at asked
    split at asked
    · cases asked
    · cases asked
    · cases asked
    · rename_i engine
      exact requester (BitVec.eq_of_toNat_eq engine)
    · cases asked
  simp only [agentExpects, Bool.or_eq_true, Bool.and_eq_true, decide_eq_true_eq] at expects
  obtain (⟨⟨rfl, course⟩, -⟩ | ⟨rfl, -⟩) | ⟨rfl, -⟩ := expects
  · rw [course]
    decide
  · simp only [agentAt, agentQueue, agSpar, agBundle, if_true]
    omega
  · exact absurd rfl unit

/-- An answer to a requester that is no bundling unit moves nothing in the bundling unit's queue, and no bundle. -/
theorem State.respond_bundling (src : Nat) (f : Frame) (response : isResponse f.hdr = true) (requester : f.hdr.srcEngine ≠ 0xFE) :
    (s.respond src f).frames (agentQueue agBundle 0) = s.frames (agentQueue agBundle 0) ∧ (s.respond src f).pur.bundles = s.pur.bundles := by
  obtain ⟨t, before⟩ : ∃ t, t = if f.hdr.status = stPoisoned then s.count (requestEvent 1 f.hdr) else s := ⟨_, rfl⟩
  have pur : t.pur = s.pur := by
    rw [before]
    split
    · exact s.count_pur _
    · rfl
  have frames (q : Nat) : t.frames q = s.frames q := by rw [State.frames, State.queue, pur]; rfl
  have linked (q : Nat) (a : Arrive) (other : q ≠ agentQueue agBundle 0) :
      (t.link f q a).frames (agentQueue agBundle 0) = s.frames (agentQueue agBundle 0) ∧ (t.link f q a).pur.bundles = s.pur.bundles := by
    rw [State.link_bundles, pur, ← frames]
    exact ⟨(t.link_queue f q _ a).trans (if_neg other.symm), rfl⟩
  rw [State.respond, State.respondTo, ← before]
  dsimp only
  split
  · rename_i n _
    exact linked _ _ (portQueue_ne_bundling n f.hdr)
  · rename_i g towards
    split
    · rename_i expects
      exact linked _ _ (answerQueue_ne_bundling requester (t.dest_agent response towards) expects.1)
    · rw [frames, pur]
      exact ⟨rfl, rfl⟩
  · rw [State.frames, State.queue, State.drop_pur, pur]
    exact ⟨rfl, rfl⟩

/-- The answer to a constituent is a response to its requester. -/
theorem constituentAnswer_hdr (r : Frame) (h : Header) (v : Option (BitVec 256)) :
    isResponse (constituentAnswer r h v).hdr = true ∧ (constituentAnswer r h v).hdr.srcEngine = h.srcEngine := by
  unfold constituentAnswer
  split
  · exact ⟨rfl, rfl⟩
  · split
    · exact ⟨rfl, rfl⟩
    · split <;> exact ⟨rfl, rfl⟩

/-- The values that the constituents of a bundle receive, in their order; none where the answer's data has none (R97). -/
def Bundle.values (b : Bundle) (r : Frame) : List (Option (BitVec 256)) :=
  match (decodeData r).headD none with
  | some x => (splitValues (BitVec.ofNat 256 (fld x 0 (if bitAt (b.parts.headD (r.hdr, 0)).1.attr 3 then 64 else 32))) b.parts).map some
  | none => b.parts.map fun _ => none

/-- A bundle's constituents answered one after another. -/
def State.answerParts (s : State) (b : Bundle) (r : Frame) : State :=
  (b.parts.zip (b.values r)).foldl (fun s p => s.respond (agentSource agSoffit) (constituentAnswer r p.1.1 p.2)) s

theorem exec_bundleResponse {e : Entry} {rest : List Entry} {b : Bundle} (waits : (s.queue (agentQueue agBundle 0)).items = e :: rest)
    (found : s.pur.bundles.find? (fun b => decide (b.index = e.frame.hdr.tag.toNat)) = some b) :
    exec .bundleResponse s = .next
      (let t := s.dequeued (agentQueue agBundle 0) e rest
       ({ t with pur := { t.pur with bundles := t.pur.bundles.filter fun c => decide (c.index ≠ b.index) } } : State).answerParts b e.frame) := by
  show execBundleResponse s = _
  rw [execBundleResponse, s.dequeue_cons _ e rest waits]
  dsimp only
  rw [s.dequeued_bundles, found]
  rfl

/-- The answers to the constituents move nothing at the bundling unit or an eave. -/
theorem State.answerParts_spec (b : Bundle) (r : Frame) (requesters : ∀ p ∈ b.parts, p.1.srcEngine ≠ 0xFE) :
    let t := s.answerParts b r
    t.frames (agentQueue agBundle 0) = s.frames (agentQueue agBundle 0) ∧ t.pur.bundles = s.pur.bundles ∧ t.eav = s.eav := by
  refine List.foldlRecOn (b.parts.zip (b.values r)) _ (motive := fun t : State =>
    t.frames (agentQueue agBundle 0) = s.frames (agentQueue agBundle 0) ∧ t.pur.bundles = s.pur.bundles ∧ t.eav = s.eav) ⟨rfl, rfl, rfl⟩ ?_
  rintro t ⟨frames, bundles, eav⟩ p mem
  obtain ⟨response, engine⟩ := constituentAnswer_hdr r p.1.1 p.2
  obtain ⟨frames', bundles'⟩ := t.respond_bundling (agentSource agSoffit) _ response
    (by rw [engine]; exact requesters p.1 (List.of_mem_zip mem).1)
  exact ⟨frames'.trans frames, bundles'.trans bundles, (t.respond_eav _ _).trans eav⟩

/-- Of two bundled ATOMIC operations the second finds what the first has made (R96, R97). -/
theorem splitValues_atomicPair (v : BitVec 256) (h₁ h₂ : Header) (a b : BitVec 256) (atomic : h₁.opcode = opAtomic) :
    splitValues v [(h₁, a), (h₂, b)] =
      [v, BitVec.ofNat 256 (atomicNew (fld h₁.attr 0 3) (if bitAt h₁.attr 3 then 64 else 32) (bitAt h₁.attr 4)
        (fld v 0 (if bitAt h₁.attr 3 then 64 else 32)) (fld a 0 (if bitAt h₁.attr 3 then 64 else 32)) 0)] := by
  rw [splitValues, splitValues, splitValues, mergeOperand, if_neg (by rw [atomic]; decide)]

end

/-- Settles O23: a frame at an ingress by `routeRaw_clean` and what then becomes of it (`forward_port`, `arrive_refused`), an agent's queue by
`agentTake_waiting`, and a bundle by `answerParts_spec`. -/
theorem framesAndBundles : Obligations.FramesAndBundles := by
  refine ⟨fun s n raw => ⟨fun hip idle => ?fenced, fun active unfenced bad bay calm => ?uncorrectable,
      fun h e active unfenced sound decoded course whole clean pass request ctrl towards atomic fadd sig => ?forwarded,
      fun h code e active unfenced sound decoded course whole clean refused request answered cont towards => ?refused⟩,
    fun s a n f e rest waits => ⟨fun first => ?taken, fun other behind => ?behind⟩,
    fun s e rest b waits found requesters => ?bundle, splitValues_atomicPair⟩
  case fenced =>
    have lane : s.fencedLane (.module n) = true := by
      rw [State.fencedLane, Bool.and_eq_true, decide_eq_true_eq]
      exact ⟨hip, idle⟩
    obtain ⟨counted, port, pur, -, -⟩ := s.fenceViolation n raw
    exact ⟨_, congrArg Host.Outcome.next (if_pos lane), counted, pur,
      fun q other => (port q).trans (s.port_updPort_ne (.module n) q _ other), (port (.module n)).trans (s.takeRx_port (.module n) raw)⟩
  case uncorrectable =>
    refine ⟨_, congrArg Host.Outcome.next (s.routeRaw_uncorrectable n raw active (s.fencedLane_eq_false n unfenced) bad), ?_⟩
    generalize counted : (s.takeRx (.module n) raw).countFlash (.module n) (flashBad raw.hdr).toNat = t
    have admitted : t.admitted = true := by
      rw [← counted, State.admitted, State.countFlash_sec, State.takeRx_sec]
      exact bay
    have phase : t.gut.phase = .none := by
      rw [← counted, State.countFlash_phase, State.takeRx_gut]
      exact calm
    obtain ⟨code, -, stopping, -⟩ := t.fatal_torn 5 (.port n) (linkEvent 1 n.val) (by decide) admitted phase
    exact ⟨code, stopping⟩
  case forwarded =>
    have same := s.received_routesAs n raw h
    obtain ⟨a, linked⟩ := (s.received n raw h).forward_port n e (frameOf raw h) ctrl ((same.dest h).trans towards) atomic fadd sig
    have routed : s.routeRaw n raw = (s.received n raw h).link (frameOf raw h) (portQueue e.val (vcOf h)) a := by
      rw [s.routeRaw_clean n raw ⟨sound, decoded, course, whole, clean⟩ active (s.fencedLane_eq_false n unfenced),
        (s.takenClean n raw).arrive_passes n (frameOf raw h) ((same.ingressCheck n h).trans pass) request]
      exact linked
    refine ⟨_, congrArg Host.Outcome.next routed, ?_, ?_, ?_, ?_⟩
    · rw [State.frames_link, if_pos rfl, State.frames, s.received_queue]
      rfl
    · rw [State.link_eav, s.received_eav]
    · rw [State.link_sec, same.sec]
    · rw [State.link_gut, same.gut]
  case refused =>
    have same := s.received_routesAs n raw h
    have freed := same.freeSlots n (vcOf h) (frameSlots (frameOf raw h))
    have checked : code ≠ stPoisoned := by
      rintro rfl
      exact s.ingressCheck_ne_poisoned n h refused
    obtain ⟨a, linked⟩ := ((s.received n raw h).freeSlots n (vcOf h) (frameSlots (frameOf raw h))).respondTo_port e (errorFrame h code)
      (if h.opcode = opTest then fld h.aux 32 8 else 0) (portSource n.val (vcOf h)) checked ((freed.dest _).trans towards)
    have routed : s.routeRaw n raw = ((s.received n raw h).freeSlots n (vcOf h) (frameSlots (frameOf raw h))).link (errorFrame h code)
        (portQueue e.val (vcOf (errorFrame h code).hdr)) a := by
      rw [s.routeRaw_clean n raw ⟨sound, decoded, course, whole, clean⟩ active (s.fencedLane_eq_false n unfenced),
        (s.takenClean n raw).arrive_refused n (frameOf raw h) ((same.ingressCheck n h).trans refused) request answered cont]
      exact linked
    have frames (k : Nat) : ((s.received n raw h).freeSlots n (vcOf h) (frameSlots (frameOf raw h))).frames k = s.frames k := by
      rw [State.frames, State.freeSlots_queue, s.received_queue, State.frames]
    refine ⟨_, congrArg Host.Outcome.next routed, ?_, fun k other => ?_, ?_, ?_, ?_⟩
    · rw [State.frames_link, if_pos rfl, frames]
    · rw [State.frames_link, if_neg other, frames]
    · rw [State.link_eav, State.freeSlots_eav, s.received_eav]
    · rw [State.link_sec, freed.sec]
    · rw [State.link_gut, freed.gut]
  case taken =>
    obtain ⟨left, others⟩ := s.dequeued_frames _ e rest waits
    exact ⟨_, (s.agentTake_waiting a n f e rest waits ⟨e, List.mem_cons_self, first⟩).trans (if_pos first), left, others,
      s.dequeued_eq _ e rest⟩
  case behind =>
    obtain ⟨r, mem, here⟩ := behind
    exact (s.agentTake_waiting a n f e rest waits ⟨r, List.mem_cons_of_mem e mem, here⟩).trans (if_neg (by simp [other]))
  case bundle =>
    refine ⟨_, exec_bundleResponse s waits found, ?_⟩
    obtain ⟨left, -⟩ := s.dequeued_frames _ e rest waits
    have bundles := s.dequeued_bundles (agentQueue agBundle 0) e rest
    have eav := congrArg State.eav (s.dequeued_eq (agentQueue agBundle 0) e rest)
    obtain ⟨frames', bundles', eav'⟩ := State.answerParts_spec _ b e.frame requesters
    exact ⟨bundles'.trans (by rw [bundles]), frames'.trans left, eav'.trans eav⟩

end Sys2Proof.Machine
end

section
/-! SUPPORT. What the commands leave apart: the memories of both devices, Gauge and the commands that wait. A lemma for every operation that leaves
them all, in the order of the model. -/
namespace Sys2Proof.Machine

open Sys2Proof

/-- What only a command that works on a memory, Gauge's own commands and the step itself change: the memories of the module and of the Jalem
block, Gauge, and the commands that wait. -/
def State.apart (s : State) : Mem × Mem × Gau × List Instr := (s.eav.mem, s.jeb.mem, s.gau, s.pending)

@[simp] theorem State.apart_mk (ports tim pur eav gab trs sec gut gau pwr sof pins jeb latches outputs fresh pending) :
    (State.mk ports tim pur eav gab trs sec gut gau pwr sof pins jeb latches outputs fresh pending).apart = (eav.mem, jeb.mem, gau, pending) := rfl

@[simp] theorem State.apart_fold (s : State) : (s.eav.mem, s.jeb.mem, s.gau, s.pending) = s.apart := rfl

@[simp] theorem State.foldl_apart {β : Type} (f : State → β → State) (h : ∀ s x, (f s x).apart = s.apart) (l : List β) (s : State) :
    (l.foldl f s).apart = s.apart := State.foldl_keeps State.apart f h l s

@[simp] theorem State.updJeb_apart (s : State) (f : Jeb → Jeb) (h : (f s.jeb).mem = s.jeb.mem) : (s.updJeb f).apart = s.apart :=
  congrArg (fun m => (s.eav.mem, m, s.gau, s.pending)) h

/-! ### Machine/Ops -/

@[simp] theorem State.setPort_apart (s : State) (p : PortRef) (x : Port) : (s.setPort p x).apart = s.apart := by
  unfold State.setPort
  split <;> simp

@[simp] theorem State.updPort_apart (s : State) (p : PortRef) (f : Port → Port) : (s.updPort p f).apart = s.apart := by
  simp [State.updPort]

@[simp] theorem State.toTime_apart (s : State) (at_ : Nat) : (s.toTime at_).apart = s.apart := by
  simp [State.toTime]

@[simp] theorem State.toBeat_apart (s : State) (b : Nat) : (s.toBeat b).apart = s.apart := by
  simp [State.toBeat]

@[simp] theorem State.spend_apart (s : State) (n : Nat) : (s.spend n).apart = s.apart := by
  simp [State.spend]

@[simp] theorem State.emit_apart (s : State) (o : Output) : (s.emit o).apart = s.apart := by
  simp [State.emit]

@[simp] theorem State.logEvent_apart (s : State) (kind : Byte) (data : List W64) (scope : Bool) : (s.logEvent kind data scope).apart = s.apart := by
  unfold State.logEvent
  split <;> simp

@[simp] theorem State.note_apart (s : State) (e : Event) (sev code : Nat) : (s.note e sev code).apart = s.apart := by
  unfold State.note
  dsimp only
  repeat' split
  all_goals simp

@[simp] theorem State.count_apart (s : State) (e : Event) : (s.count e).apart = s.apart := by
  unfold State.count
  split <;> simp

@[simp] theorem State.inRequest_apart (s : State) (h : Header) (act : State → State) (keeps : ∀ t, (act t).apart = t.apart) :
    (s.inRequest h act).apart = s.apart := keeps _

@[simp] theorem State.inAccess_apart (s : State) (who : Requester) (d : Dev) (addr : Nat) (act : State → State)
    (keeps : ∀ t, (act t).apart = t.apart) : (s.inAccess who d addr act).apart = s.apart := by
  unfold State.inAccess
  split <;> simp [keeps]

@[simp] theorem State.severe_apart (s : State) (e : Event) : (s.severe e).apart = s.apart := by
  simp [State.severe]

@[simp] theorem State.takeRx_apart (s : State) (p : PortRef) (raw : RawFrame) : (s.takeRx p raw).apart = s.apart := by
  simp [State.takeRx]

@[simp] theorem State.countFlash_apart (s : State) (p : PortRef) (k : Nat) : (s.countFlash p k).apart = s.apart := by
  simp [State.countFlash]

@[simp] theorem State.takeLocal_apart (s : State) (p : PortRef) (raw : RawFrame) (act : State → State) (h : ∀ t, (act t).apart = t.apart) :
    (s.takeLocal p raw act).apart = s.apart := by
  unfold State.takeLocal
  repeat' split
  all_goals simp [h]

@[simp] theorem State.readEntry_apart (s : State) (e : Entry) : (s.readEntry e).apart = s.apart := by
  unfold State.readEntry
  split <;> simp

@[simp] theorem State.setQueue_apart (s : State) (q : Nat) (x : Queue) : (s.setQueue q x).apart = s.apart := by
  simp [State.setQueue]

@[simp] theorem State.freeSlots_apart (s : State) (n : Fin 144) (vc k : Nat) : (s.freeSlots n vc k).apart = s.apart := by
  simp [State.freeSlots]

@[simp] theorem State.link_apart (s : State) (f : Frame) (q : Nat) (a : Arrive) : (s.link f q a).apart = s.apart := by
  unfold State.link
  dsimp only
  repeat' split
  all_goals simp

@[simp] theorem State.unlink_apart (s : State) (q : Nat) (e : Entry) : (s.unlink q e).apart = s.apart := by
  unfold State.unlink
  repeat' split
  all_goals simp

theorem State.dequeue_apart {s t : State} {q : Nat} {e : Entry} (h : s.dequeue q = some (e, t)) : t.apart = s.apart := by
  unfold State.dequeue at h
  split at h
  · cases h
  · cases h
    simp

@[simp] theorem State.purge_apart (s : State) (q : Nat) (test : Entry → Bool) : (s.purge q test).2.apart = s.apart := by
  simp [State.purge]

@[simp] theorem State.sendOn_apart (s : State) (agent : Nat) (p : PortRef) (f : Frame) : (s.sendOn agent p f).apart = s.apart := by
  unfold State.sendOn
  split <;> simp

@[simp] theorem State.soffitSend_apart (s : State) (n : Fin 144) (h : Header) (data : List Shingle) : (s.soffitSend n h data).apart = s.apart := by
  simp [State.soffitSend]

@[simp] theorem State.sendTeardown_apart (s : State) (n : Fin 144) (action : Nat) : (s.sendTeardown n action).apart = s.apart := by
  simp [State.sendTeardown]

@[simp] theorem State.sendAll_apart (s : State) (ports : List (Fin 144)) (action : Nat) : (s.sendAll ports action).2.apart = s.apart :=
  s.sendAll_keeps ports action State.apart fun t n => t.sendTeardown_apart n action

@[simp] theorem State.setBay_apart (s : State) (st : BayState) : (s.setBay st).apart = s.apart := by
  unfold State.setBay
  split <;> simp

@[simp] theorem State.beginTeardown_apart (s : State) (code : Nat) (o : FaultObj) (via : Option (Fin 144)) :
    (s.beginTeardown code o via).apart = s.apart := by
  simp [State.beginTeardown]

@[simp] theorem State.coalesce_apart (s : State) (o : FaultObj) : (s.coalesce o).apart = s.apart := by
  simp [State.coalesce]

@[simp] theorem State.fatalFor_apart (s : State) (code : Nat) (o : FaultObj) (via : Option (Fin 144)) :
    (s.fatalFor code o via).apart = s.apart := by
  unfold State.fatalFor
  repeat' split
  all_goals simp

@[simp] theorem State.fatal_apart (s : State) (code : Nat) (o : FaultObj) (e : Event) : (s.fatal code o e).apart = s.apart := by
  simp [State.fatal]

/-! ### Machine/Route -/

@[simp] theorem State.portsUp_apart (s : State) : s.portsUp.apart = s.apart := by
  unfold State.portsUp
  split <;> simp

@[simp] theorem State.drop_apart (s : State) (h : Header) : (s.drop h).apart = s.apart := by
  simp [State.drop]

@[simp] theorem State.respondTo_apart (s : State) (spar src : Nat) (f : Frame) : (s.respondTo spar src f).apart = s.apart := by
  unfold State.respondTo
  dsimp only
  repeat' split
  all_goals simp

@[simp] theorem State.respond_apart (s : State) (src : Nat) (f : Frame) : (s.respond src f).apart = s.apart := by
  simp [State.respond]

@[simp] theorem State.respondError_apart (s : State) (src : Nat) (h : Header) (status : Byte) : (s.respondError src h status).apart = s.apart := by
  simp [State.respondError]

@[simp] theorem State.answer_apart (s : State) (n : Fin 144) (f : Frame) : (s.answer n f).apart = s.apart := by
  unfold State.answer
  split <;> simp

@[simp] theorem State.trsReport_apart (s : State) (h : Header) (code : Nat) : (s.trsReport h code).apart = s.apart := by
  simp [State.trsReport]

@[simp] theorem State.refuse_apart (s : State) (src : Nat) (h : Header) (status : Byte) : (s.refuse src h status).apart = s.apart := by
  unfold State.refuse
  repeat' split
  all_goals simp

@[simp] theorem State.drainOne_apart (s : State) (e : Entry) : (s.drainOne e).apart = s.apart := by
  unfold State.drainOne
  dsimp only
  repeat' split
  all_goals simp

@[simp] theorem State.drainStuck_apart (s : State) (e : Entry) : (s.drainStuck e).apart = s.apart := by
  simp [State.drainStuck]

@[simp] theorem State.drainQueue_apart (s : State) (q : Nat) : (s.drainQueue q).apart = s.apart := by
  unfold State.drainQueue
  dsimp only
  repeat' split
  all_goals simp

@[simp] theorem State.drain_apart (s : State) : s.drain.apart = s.apart := by
  unfold State.drain
  dsimp only
  repeat' split
  all_goals simp

@[simp] theorem State.drainNow_apart (s : State) : s.drainNow.apart = s.apart := by
  unfold State.drainNow
  split <;> simp

@[simp] theorem State.setEave_apart (s : State) (n : Nat) (e : Eave) : (s.setEave n e).apart = s.apart := by
  simp [State.setEave]

@[simp] theorem State.setGroup_apart (s : State) (g : Nat) (x : Group) : (s.setGroup g x).apart = s.apart := by
  simp [State.setGroup]

@[simp] theorem State.countBundle_apart (s : State) (e : Entry) : (s.countBundle e).apart = s.apart := by
  unfold State.countBundle
  split <;> simp

@[simp] theorem State.serveOne_apart (s : State) (g c : Nat) : (s.serveOne g c).apart = s.apart := by
  unfold State.serveOne
  split
  · rfl
  · rename_i found
    rw [← State.dequeue_apart found]
    dsimp only
    repeat' split
    all_goals simp

@[simp] theorem State.serve_apart (s : State) (g n : Nat) : (s.serve g n).apart = s.apart := by
  induction n generalizing s with
  | zero => rfl
  | succ n ih =>
    unfold State.serve
    split
    · rfl
    · rw [ih, State.serveOne_apart]

@[simp] theorem State.serveGroup_apart (s : State) (g : Nat) : (s.serveGroup g).apart = s.apart := s.serve_apart g _

@[simp] theorem State.mergeInto_apart (s : State) (q : Nat) (e : Entry) (f : Frame) (w : BitVec 256) : (s.mergeInto q e f w).apart = s.apart := by
  simp [State.mergeInto]

theorem State.tryMerge_apart {s t : State} {q : Nat} {n : Fin 144} {f : Frame} {linkOk : Bool} (h : s.tryMerge q n f linkOk = some t) :
    t.apart = s.apart := by
  unfold State.tryMerge at h
  split at h
  · split at h
    · cases h
      simp
    · cases h
  · cases h

@[simp] theorem State.answerLost_apart (s : State) (n : Fin 144) : (s.answerLost n).apart = s.apart := by
  have answers (out : List Entry) (t : State) : (out.foldl (fun s e =>
      if isResponse e.frame.hdr ∨ isPosted e.frame.hdr ∨ e.frame.hdr.opcode = opBattenCont then s.drop e.frame.hdr
      else s.respondError (agentSource agSoffit) e.frame.hdr stTargetLost) t).apart = t.apart :=
    State.foldl_apart _ (fun t e => by split <;> simp) out t
  unfold State.answerLost
  refine (State.foldl_apart _ (fun t v => (answers _ _).trans (t.purge_apart _ _)) _ _).trans ?_
  simp

@[simp] theorem State.declareLost_apart (s : State) (n : Fin 128) : (s.declareLost n).apart = s.apart := by
  unfold State.declareLost
  split <;> simp

@[simp] theorem State.moduleDown_apart (s : State) (n : Fin 144) : (s.moduleDown n).apart = s.apart := by
  unfold State.moduleDown
  repeat' split
  all_goals simp

/-! ### Machine/Purlin -/

@[simp] theorem State.toPort_apart (s : State) (n : Fin 144) (f : Frame) (a : Arrive) : (s.toPort n f a).apart = s.apart := by
  unfold State.toPort
  split <;> simp

@[simp] theorem State.toEave_apart (s : State) (n : Fin 144) (f : Frame) (a : Arrive) : (s.toEave n f a).apart = s.apart := by
  unfold State.toEave
  dsimp only
  split
  · split <;> simp
  · split
    · simp
    · split
      · rename_i merged
        rw [State.freeSlots_apart, State.tryMerge_apart merged]
      · simp

theorem State.teardownAck_apart {s t : State} {n : Fin 144} {h : Header} (taken : s.teardownAck n h = some t) : t.apart = s.apart := by
  unfold State.teardownAck at taken
  dsimp only at taken
  split at taken
  · cases taken
    rfl
  · cases taken

theorem State.pollAnswer_apart {s t : State} {n : Fin 144} {f : Frame} (taken : s.pollAnswer n f = some t) : t.apart = s.apart := by
  unfold State.pollAnswer at taken
  dsimp only at taken
  split at taken
  · cases taken
    simp
  · cases taken

theorem State.soffitOwn_apart {s t : State} {n : Fin 144} {f : Frame} (taken : s.soffitOwn n f = some t) : t.apart = s.apart := by
  unfold State.soffitOwn at taken
  cases ack : s.teardownAck n f.hdr with
  | none =>
    rw [ack] at taken
    exact State.pollAnswer_apart taken
  | some u =>
    rw [ack] at taken
    cases taken
    exact State.teardownAck_apart ack

@[simp] theorem State.forward_apart (s : State) (n : Fin 144) (f : Frame) : (s.forward n f).apart = s.apart := by
  unfold State.forward
  dsimp only
  split
  · simp
  · split
    · simp
    · simp
    · split
      · rename_i merged
        rw [State.freeSlots_apart, State.tryMerge_apart merged]
      · simp
    · split
      · split
        · rename_i own
          rw [State.freeSlots_apart, State.soffitOwn_apart own]
        · split <;> simp
      · repeat' split
        all_goals simp

@[simp] theorem State.freePending_apart (s : State) (n : Fin 144) (h : Header) : (s.freePending n h).apart = s.apart := by
  unfold State.freePending
  split <;> simp

@[simp] theorem State.countBytes_apart (s : State) (h : Header) : (s.countBytes h).apart = s.apart := by
  unfold State.countBytes
  split <;> simp

@[simp] theorem State.arrive_apart (s : State) (n : Fin 144) (f : Frame) : (s.arrive n f).apart = s.apart := by
  unfold State.arrive
  dsimp only
  repeat' split
  all_goals simp

@[simp] theorem State.routeRaw_apart (s : State) (n : Fin 144) (raw : RawFrame) : (s.routeRaw n raw).apart = s.apart := by
  unfold State.routeRaw
  repeat' split
  all_goals simp

theorem State.agentTake_apart {s t : State} {a : Nat} {n : Fin 144} {f : Frame} (h : s.agentTake a n f = .ok t ∨ s.agentTake a n f = .error t) :
    t.apart = s.apart := by
  have routed (b : Bool) : (if b then s else s.routeRaw n (rawOf f)).apart = s.apart := by split <;> simp
  unfold State.agentTake at h
  dsimp only at h
  split at h
  · rename_i found
    split at h
    all_goals
      rcases h with h | h
      all_goals cases h
    · rw [State.dequeue_apart found, routed]
    · exact routed _
  · rcases h with h | h
    all_goals cases h
    exact routed _

@[simp] theorem State.audit_apart (s : State) : s.audit.apart = s.apart := by
  unfold State.audit
  dsimp only
  repeat' split
  all_goals simp

@[simp] theorem State.writeShadow_apart (s : State) (n : Nat) (value : W32) : (s.writeShadow n value).apart = s.apart := by
  unfold State.writeShadow
  split <;> simp

@[simp] theorem State.writeEpoch_apart (s : State) (value : W64) : (s.writeEpoch value).apart = s.apart := by
  unfold State.writeEpoch
  dsimp only
  repeat' split
  all_goals simp

@[simp] theorem State.writeNodeLost_apart (s : State) (value : W32) : (s.writeNodeLost value).apart = s.apart := by
  unfold State.writeNodeLost
  split <;> simp

/-! ### Machine/JebOps -/

@[simp] theorem State.jebSend_apart (s : State) (p : PortRef) (f : Frame) : (s.jebSend p f).apart = s.apart := by
  unfold State.jebSend
  split <;> simp

@[simp] theorem State.takeFrame_apart (s : State) (p : PortRef) (f : Frame) : (s.takeFrame p f).apart = s.apart := by
  simp [State.takeFrame]

@[simp] theorem State.jebFree_apart (s : State) (p : PortRef) (h : Header) : (s.jebFree p h).apart = s.apart := by
  unfold State.jebFree
  split <;> simp

@[simp] theorem Jeb.bump0_mem (j : Jeb) (lo : Nat) : (j.bump0 lo).mem = j.mem := by
  simp [Jeb.bump0]

@[simp] theorem Jeb.bump1_mem (j : Jeb) (lo : Nat) : (j.bump1 lo).mem = j.mem := by
  simp [Jeb.bump1]

@[simp] theorem Jeb.bumpOrd_mem (j : Jeb) (lo : Nat) : (j.bumpOrd lo).mem = j.mem := by
  simp [Jeb.bumpOrd]

@[simp] theorem State.done_apart (s : State) (engine : Byte) (id : Nat) (code : Byte) (value : W64) :
    (s.done engine id code value).apart = s.apart := by
  simp [State.done]

@[simp] theorem State.endWaits_apart (s : State) : s.endWaits.apart = s.apart := by
  simp [State.endWaits]

@[simp] theorem State.advance_apart (s : State) (c : Nat) : (s.advance c).apart = s.apart := by
  simp [State.advance]

@[simp] theorem State.finish_apart (s : State) (e : Byte) (id : Nat) (comp : Option (BitVec 12)) (code : Byte) (value : W64) :
    (s.finish e id comp code value).apart = s.apart := by
  unfold State.finish
  split <;> simp

@[simp] theorem State.endTransfer_apart (s : State) (e : Byte) (id : Nat) (t : Transfer) (code : Byte) (value : W64) :
    (s.endTransfer e id t code value).apart = s.apart := by
  simp [State.endTransfer]

@[simp] theorem State.jebRefuse_apart (s : State) (p : PortRef) (h : Header) (status : Byte) : (s.jebRefuse p h status).apart = s.apart := by
  unfold State.jebRefuse
  split <;> simp

@[simp] theorem State.jebDropPosted_apart (s : State) (h : Header) : (s.jebDropPosted h).apart = s.apart := by
  unfold State.jebDropPosted
  split <;> simp

@[simp] theorem State.jebDropResponse_apart (s : State) (h : Header) : (s.jebDropResponse h).apart = s.apart := by
  unfold State.jebDropResponse
  split <;> simp

@[simp] theorem Jeb.finishClear_mem (j : Jeb) : j.finishClear.mem = j.mem := by
  unfold Jeb.finishClear
  split <;> simp

@[simp] theorem State.jebTake_apart (s : State) (p : PortRef) (f : Frame) : (s.jebTake p f).apart = s.apart := by
  simp [State.jebTake]

@[simp] theorem State.setEngine_apart (s : State) (e : Byte) (x : Engine) : (s.setEngine e x).apart = s.apart := by
  simp [State.setEngine]

@[simp] theorem State.completeXfer_apart (s : State) (e : Byte) (x : Xfer) (code : Byte) : (s.completeXfer e x code).apart = s.apart := by
  unfold State.completeXfer
  dsimp only
  rw [State.endTransfer_apart]
  split <;> simp

@[simp] theorem Jeb.drain_mem (j : Jeb) : j.drain.mem = j.mem := by
  unfold Jeb.drain
  split <;> simp

@[simp] theorem Jeb.forget_mem (j : Jeb) (r : Req) : (j.forget r).mem = j.mem := by
  simp [Jeb.forget]

@[simp] theorem State.endReq_apart (s : State) (r : Req) (st : Byte) : (s.endReq r st).apart = s.apart := by
  unfold State.endReq
  split <;> simp

@[simp] theorem Jeb.portsAfterTeardown_mem (j : Jeb) : j.portsAfterTeardown.mem = j.mem := by
  simp [Jeb.portsAfterTeardown]

@[simp] theorem State.leaveStop_apart (s : State) : s.leaveStop.apart = s.apart := by
  unfold State.leaveStop
  split <;> simp

@[simp] theorem State.sendReport_apart (s : State) : s.sendReport.apart = s.apart := by
  unfold State.sendReport
  split
  · rfl
  · split
    · rfl
    · simp

@[simp] theorem State.ackStops_apart (s : State) : s.ackStops.apart = s.apart := by
  unfold State.ackStops
  dsimp only
  repeat' split
  all_goals simp

/-! ### Machine/Seal -/

@[simp] theorem State.announce_apart (s : State) (p : PortRef) (d : KeyDue) : (s.announce p d).apart = s.apart := by
  simp [State.announce]

@[simp] theorem State.sendAs_apart (s : State) (p : PortRef) (f : Frame) : (s.sendAs p f).2.apart = s.apart := by
  unfold State.sendAs
  split <;> simp

@[simp] theorem Jeb.retireDone_mem (j : Jeb) : j.retireDone.mem = j.mem := by
  unfold Jeb.retireDone
  dsimp only
  repeat' split
  all_goals simp

@[simp] theorem State.setSec_apart (s : State) (f : Sec → Sec) : (s.setSec f).apart = s.apart := by
  simp [State.setSec]

@[simp] theorem State.dropKey_apart (s : State) (slot : BitVec 2) : (s.dropKey slot).apart = s.apart := by
  simp [State.dropKey]

@[simp] theorem State.dropRetired_apart (s : State) : s.dropRetired.apart = s.apart := by
  simp [State.dropRetired]

@[simp] theorem State.retireDone_apart (s : State) (p : PortRef) : (s.retireDone p).apart = s.apart := by
  unfold State.retireDone
  split <;> simp

/-! ### Machine/Home -/

@[simp] theorem State.eaveMark_apart (ev : Nat → Event) (s : State) (m : Mark × Nat) : (State.eaveMark ev s m).apart = s.apart := by
  unfold State.eaveMark
  split <;> simp

@[simp] theorem State.eaveMarks_apart (s : State) (ev : Nat → Event) (l : List (Mark × Nat)) : (s.eaveMarks ev l).apart = s.apart := by
  simp [State.eaveMarks]

@[simp] theorem State.leaveHome_apart (s : State) (n : Fin 32) (i : Nat) : (s.leaveHome n i).apart = s.apart := by
  simp [State.leaveHome]

@[simp] theorem State.endList_apart (s : State) (g : Fin 4) (b : BList) (answer : List Frame) : (s.endList g b answer).apart = s.apart := by
  simp [State.endList]

@[simp] theorem State.tryList_apart (s : State) (g : Fin 4) (b : BList) : (s.tryList g b).apart = s.apart := by
  unfold State.tryList
  split <;> simp

@[simp] theorem State.settleLists_apart (s : State) : s.settleLists.apart = s.apart := by
  simp [State.settleLists]

@[simp] theorem State.acceptBatten_apart (s : State) (g : Fin 4) : (s.acceptBatten g).apart = s.apart := by
  unfold State.acceptBatten
  split
  · rfl
  · split
    · rfl
    · split
      · rfl
      · rename_i found
        rw [← State.dequeue_apart found]
        simp

@[simp] theorem State.contBatten_apart (s : State) (g : Fin 4) : (s.contBatten g).apart = s.apart := by
  unfold State.contBatten
  split
  · rfl
  · dsimp only
    split
    · rfl
    · split
      · rfl
      · rename_i found
        rw [← State.dequeue_apart found]
        split
        · simp
        · rw [State.settleLists_apart, State.serveGroup_apart]
          split <;> simp

@[simp] theorem State.jebEndList_apart (s : State) (p : PortRef) (b : BList) (answer : List Frame) : (s.jebEndList p b answer).apart = s.apart := by
  unfold State.jebEndList
  dsimp only
  rw [State.foldl_apart _ fun t f => t.jebSend_apart p f]
  split <;> rfl

@[simp] theorem State.jebTryList_apart (s : State) (p : PortRef) (b : BList) : (s.jebTryList p b).apart = s.apart := by
  unfold State.jebTryList
  split <;> simp

@[simp] theorem State.jebBatten_apart (s : State) (p : PortRef) (f : Frame) : (s.jebBatten p f).apart = s.apart := by
  unfold State.jebBatten
  dsimp only
  repeat' split
  all_goals simp

@[simp] theorem State.jebCont_apart (s : State) (p : PortRef) (f : Frame) : (s.jebCont p f).apart = s.apart := by
  unfold State.jebCont
  dsimp only
  repeat' split
  all_goals simp

@[simp] theorem State.failEave_apart (s : State) (n : Fin 32) : (s.failEave n).apart = s.apart := by
  simp [State.failEave]

@[simp] theorem State.stackCorr_apart (s : State) (n k : Nat) : (s.stackCorr n k).apart = s.apart := by
  unfold State.stackCorr
  split <;> simp

/-! ### Machine/Translate -/

@[simp] theorem Jeb.cacheAdd_mem (j : Jeb) (free : Nat) (c : CacheEntry) : (j.cacheAdd free c).mem = j.mem := by
  unfold Jeb.cacheAdd
  repeat' split
  all_goals simp

@[simp] theorem Jeb.translate_mem (j : Jeb) (free : Nat) (ctx : BitVec 6) (va : Nat) : (j.translate free ctx va).2.mem = j.mem := by
  unfold Jeb.translate
  repeat' split
  all_goals simp

@[simp] theorem checkGranule_mem (ctx : BitVec 6) (bit free : Nat) (r : Jeb × List (Nat × Except Nat CacheEntry)) (g : Nat) :
    (checkGranule ctx bit free r g).1.mem = r.1.mem := by
  have kept := r.1.translate_mem (free + g) ctx (g * 65536)
  unfold checkGranule
  split
  all_goals
    rename_i found
    rw [found] at kept
    exact kept

@[simp] theorem checkSide_mem (j : Jeb) (ctx : BitVec 6) (bit free : Nat) (l : List Nat) : (checkSide j ctx bit free l).1.mem = j.mem :=
  List.foldlRecOn l _ (motive := fun r : Jeb × List (Nat × Except Nat CacheEntry) => r.1.mem = j.mem) rfl
    fun r kept g _ => (checkGranule_mem ctx bit free r g).trans kept

@[simp] theorem Jeb.check_mem (j : Jeb) (free : Nat) (t : Transfer) : (j.check free t).2.mem = j.mem := by
  unfold Jeb.check
  split
  · rfl
  · split
    · rfl
    · have kept := (checkSide_mem _ t.ctx (needBit t.op true) (free + 2 ^ 42) (localGranules t)).trans
        (checkSide_mem j t.ctx (needBit t.op false) free (remoteGranules t))
      dsimp only
      repeat' split
      all_goals exact kept

/-! ### Machine/Transfer -/

@[simp] theorem State.endItem_apart (s : State) (e : Byte) (i : QItem) (code : Byte) : (s.endItem e i code).apart = s.apart := by
  unfold State.endItem
  split <;> simp

@[simp] theorem State.squash_apart (s : State) (task : W16) (id : Nat) : (s.squash task id).apart = s.apart :=
  State.foldl_apart _ (fun t k => State.foldl_apart _ (fun t j => by split <;> simp) _ t) _ s

@[simp] theorem State.nextId_apart (s : State) : (s.nextId).2.apart = s.apart := by
  simp [State.nextId]

@[simp] theorem State.enqueue_apart (s : State) (e : Byte) (boundary : Bool) (i : Bool → QItem) : (s.enqueue e boundary i).apart = s.apart := by
  simp [State.enqueue]

@[simp] theorem State.spareResponse_apart (s : State) (h : Header) : (s.spareResponse h).apart = s.apart := by
  unfold State.spareResponse
  split <;> simp

/-! ### Machine/Sends -/

@[simp] theorem State.setDesc_apart (s : State) (n : Nat) (d : SendDesc) : (s.setDesc n d).apart = s.apart := by
  simp [State.setDesc]

@[simp] theorem Jeb.checkTile_mem (j : Jeb) (free : Nat) (d : SendDesc) : (j.checkTile free d).2.mem = j.mem := by
  have kept := checkSide_mem j d.ctx 2 free (granulesOf d.va (32 * d.shingles))
  unfold Jeb.checkTile
  dsimp only
  split
  all_goals exact kept

/-! ### Machine/JebKeys -/

@[simp] theorem State.jebResume_apart (s : State) (q : Fin 18) (h : Header) : (s.jebResume q h).apart = s.apart := by
  unfold State.jebResume
  dsimp only
  rw [State.leaveStop_apart, State.updJeb_apart]
  · simp
  · split <;> rfl

@[simp] theorem Jeb.clearBay_mem (j : Jeb) : j.clearBay.mem = j.mem := by
  simp [Jeb.clearBay]

@[simp] theorem Jeb.afterReset_mem (j : Jeb) (free : Nat) : (j.afterReset free).mem = j.mem := by
  simp [Jeb.afterReset]

@[simp] theorem State.trayKey_apart (s : State) (action : Nat) (slot : BitVec 2) (data : List Shingle) :
    (s.trayKey action slot data).apart = s.apart := by
  unfold State.trayKey
  dsimp only
  repeat' split
  all_goals simp

@[simp] theorem State.trayActivate_apart (s : State) (slot : BitVec 2) : (s.trayActivate slot).apart = s.apart := by
  simp [State.trayActivate]

@[simp] theorem State.jebInstall_apart (s : State) (p : PortRef) (f : Frame) : (s.jebInstall p f).apart = s.apart := by
  unfold State.jebInstall
  dsimp only
  split
  · simp
  · split
    · simp
    · split
      · simp
      · split <;> simp [apply_ite]

@[simp] theorem State.jebActivate_apart (s : State) (p : PortRef) (f : Frame) : (s.jebActivate p f).apart = s.apart := by
  unfold State.jebActivate
  dsimp only
  repeat' split
  all_goals simp

@[simp] theorem State.jebRetire_apart (s : State) (p : PortRef) (h : Header) : (s.jebRetire p h).apart = s.apart := by
  unfold State.jebRetire
  dsimp only
  rw [State.updJeb_apart]
  · split <;> simp
  · simp

@[simp] theorem State.jebDestroy_apart (s : State) (p : PortRef) (h : Header) : (s.jebDestroy p h).apart = s.apart := by
  simp [State.jebDestroy]

@[simp] theorem State.jebKey_apart (s : State) (p : PortRef) (f : Frame) (act : State → State) (h : ∀ t, (act t).apart = t.apart) :
    (s.jebKey p f act).apart = s.apart := by
  unfold State.jebKey
  dsimp only
  repeat' split
  all_goals simp [h]

@[simp] theorem State.moduleKey_apart (s : State) (n : Fin 144) (f : Frame) (act : Option (State → State))
    (keeps : ∀ a, act = some a → ∀ t, (a t).apart = t.apart) : (s.moduleKey n f act).apart = s.apart := by
  unfold State.moduleKey
  split
  · rename_i taken
    exact State.agentTake_apart (.inr taken)
  · rename_i taken
    rw [← State.agentTake_apart (.inl taken)]
    split
    · split
      · exact keeps _ rfl _
      · simp
    · simp

@[simp] theorem State.moduleActivate_apart (s : State) (n : Fin 144) (f : Frame) : (s.moduleActivate n f).apart = s.apart := by
  unfold State.moduleActivate
  dsimp only
  repeat' split
  all_goals simp

@[simp] theorem State.moduleRetire_apart (s : State) (n : Fin 144) (h : Header) : (s.moduleRetire n h).apart = s.apart := by
  simp [State.moduleRetire]

/-! ### Machine/Time -/

@[simp] theorem Jeb.portsUp_mem (j : Jeb) : j.portsUp.mem = j.mem := by
  unfold Jeb.portsUp
  split <;> simp

@[simp] theorem State.queueLocal_apart (s : State) (p : PortRef) (f : Stamping) : (s.queueLocal p f).apart = s.apart := by
  simp [State.queueLocal]

@[simp] theorem State.sendStamp_apart (s : State) (p : PortRef) : (s.sendStamp p).apart = s.apart := by
  simp [State.sendStamp]

@[simp] theorem State.offsetFault_apart (s : State) (n : Fin 144) : (s.offsetFault n).apart = s.apart := by
  unfold State.offsetFault
  dsimp only
  repeat' split
  all_goals simp

/-! ### Machine/Training -/

@[simp] theorem State.putLath_apart (s : State) (p : PortRef) (ctl : LathCtl) (slots : List Shingle) : (s.putLath p ctl slots).apart = s.apart := by
  simp [State.putLath]

@[simp] theorem State.spareLath_apart (s : State) (p : PortRef) (ltype : BitVec 3) : (s.spareLath p ltype).apart = s.apart := by
  simp [State.spareLath]

@[simp] theorem State.trainingLath_apart (s : State) (p : PortRef) : (s.trainingLath p).apart = s.apart := by
  simp [State.trainingLath]

@[simp] theorem State.sendIdentity_apart (s : State) (p : PortRef) : (s.sendIdentity p).apart = s.apart := by
  simp [State.sendIdentity]

@[simp] theorem State.cabling_apart (s : State) (p : PortRef) : (s.cabling p).apart = s.apart := by
  simp [State.cabling]

@[simp] theorem State.setPState_apart (s : State) (p : PortRef) (st : PState) : (s.setPState p st).apart = s.apart := by
  simp [State.setPState]

@[simp] theorem State.enterRetrain_apart (s : State) (p : PortRef) : (s.enterRetrain p).apart = s.apart := by
  unfold State.enterRetrain
  split <;> simp

@[simp] theorem State.sendDestroy_apart (s : State) (n : Fin 144) : (s.sendDestroy n).apart = s.apart := by
  simp [State.sendDestroy]

@[simp] theorem State.onActive_apart (s : State) (p : PortRef) : (s.onActive p).apart = s.apart := by
  unfold State.onActive
  repeat' split
  all_goals simp

@[simp] theorem State.restartPort_apart (s : State) (p : PortRef) : (s.restartPort p).apart = s.apart := by
  unfold State.restartPort
  dsimp only
  repeat' split
  all_goals simp

/-! ### Machine/TrussOps -/

@[simp] theorem State.trsSend_apart (s : State) (f : Frame) : (s.trsSend f).apart = s.apart := by
  unfold State.trsSend
  repeat' split
  all_goals simp

@[simp] theorem State.trsSignal_apart (s : State) (kind rack node off : Nat) (aux : W64) :
    (s.trsSignal kind rack node off aux).apart = s.apart := by
  simp [State.trsSignal]

@[simp] theorem State.sendOutput_apart (s : State) (kind fmt rack node : Nat) (off : Nat → Nat) (aux : W64) (data : List (Shingle × Bool))
    (last : Bool) :
    (s.sendOutput kind fmt rack node off aux data last).apart = s.apart := by
  simp [State.sendOutput]

@[simp] theorem State.setTrs_apart (s : State) (f : Trs → Trs) : (s.setTrs f).apart = s.apart := by
  simp [State.setTrs]

@[simp] theorem State.putRun_apart (s : State) (r : Run) : (s.putRun r).apart = s.apart := by
  simp [State.putRun]

@[simp] theorem State.nextIns_apart (s : State) (r : Run) : (s.nextIns r).apart = s.apart := by
  simp [State.nextIns]

@[simp] theorem State.emitChunk_apart (s : State) (r : Run) (d : Dest) (h : Handed) : (s.emitChunk r d h).apart = s.apart := by
  unfold State.emitChunk
  split <;> simp

@[simp] theorem State.emitRelease_apart (s : State) (r : Run) (d : Dest) (h : Handed) : (s.emitRelease r d h).apart = s.apart := by
  unfold State.emitRelease
  dsimp only
  repeat' split
  all_goals simp

@[simp] theorem State.takeChunk_apart (s : State) (bundle : W32) (seg : Nat) (h : Handed) : (s.takeChunk bundle seg h).apart = s.apart := by
  unfold State.takeChunk
  repeat' split
  all_goals simp

@[simp] theorem State.relayOn_apart (s : State) (c : Comm) (segs : List (Nat × Nat × Nat)) (f : Frame) : (s.relayOn c segs f).apart = s.apart := by
  unfold State.relayOn
  dsimp only
  repeat' split
  all_goals simp

@[simp] theorem State.relaySignal_apart (s : State) (f : Frame) : (s.relaySignal f).apart = s.apart := by
  unfold State.relaySignal
  split <;> simp

@[simp] theorem State.takeRelay_apart (s : State) (r : Run) (f : Frame) : (s.takeRelay r f).apart = s.apart := by
  unfold State.takeRelay
  dsimp only
  repeat' split
  all_goals simp

/-! ### Machine/Gable -/

@[simp] theorem State.setSlot_apart (s : State) (n : Nat) (x : Slot) : (s.setSlot n x).apart = s.apart := by
  simp [State.setSlot]

theorem State.handOne_apart {s t : State} {n : Nat} (h : s.handOne n = some t) : t.apart = s.apart := by
  unfold State.handOne at h
  dsimp only at h
  split at h
  · cases h
    simp
  · cases h

@[simp] theorem State.handOver_apart (s : State) (n k : Nat) : (s.handOver n k).apart = s.apart := by
  induction k generalizing s with
  | zero => rfl
  | succ k ih =>
    unfold State.handOver
    split
    · rename_i handed
      rw [ih, State.handOne_apart handed]
    · rfl

@[simp] theorem State.gabRefuse_apart (s : State) (slot : Option Nat) (h : Header) (rank off reason chunk : Nat) :
    (s.gabRefuse slot h rank off reason chunk).apart = s.apart := by
  simp [State.gabRefuse]

@[simp] theorem State.gabTake_apart (s : State) (f : Frame) : (s.gabTake f).apart = s.apart := by
  unfold State.gabTake
  dsimp only
  split <;> simp

@[simp] theorem State.stallNode_apart (s : State) (n : Nat) (t : Stall) : (s.stallNode n t).apart = s.apart := by
  unfold State.stallNode
  dsimp only
  repeat' split
  all_goals simp

/-! ### Machine/Truss -/

@[simp] theorem State.configError_apart (s : State) : s.configError.apart = s.apart := by
  simp [State.configError]

@[simp] theorem State.writeProgDir_apart (s : State) (n : Nat) (value : W64) : (s.writeProgDir n value).apart = s.apart := by
  unfold State.writeProgDir
  repeat' split
  all_goals simp

@[simp] theorem State.writeProgWord_apart (s : State) (i : Nat) (value : W64) : (s.writeProgWord i value).apart = s.apart := by
  unfold State.writeProgWord
  split <;> simp

@[simp] theorem State.writeCommCtl_apart (s : State) (n : Nat) (value : W64) : (s.writeCommCtl n value).apart = s.apart := by
  unfold State.writeCommCtl
  dsimp only
  repeat' split
  all_goals simp

@[simp] theorem State.refuseStart_apart (s : State) (h : Header) (code : Nat) : (s.refuseStart h code).apart = s.apart := by
  simp [State.refuseStart]

theorem State.trsTake_apart {s t : State} {ops : List Byte} {kind : Nat} {f : Frame} (h : s.trsTake ops kind = some (f, t)) : t.apart = s.apart := by
  unfold State.trsTake at h
  split at h
  · cases h
  · split at h
    · obtain ⟨⟨e, u⟩, found, same⟩ := Option.map_eq_some_iff.mp h
      cases same
      exact State.dequeue_apart found
    · cases h

@[simp] theorem State.doSignal_apart (s : State) (r : Run) (w : W64) : (s.doSignal r w).apart = s.apart := by
  unfold State.doSignal
  dsimp only
  repeat' split
  all_goals simp

@[simp] theorem State.flush_apart (s : State) (bundle : W32) (k : Nat) (d : Dest) (l : List Handed) : (s.flush bundle k d l).apart = s.apart :=
  State.foldl_apart _ (fun t h => by split <;> simp) l s

/-- The body is put in for the function as a whole: the kernel cannot compare the two at arguments, where it evaluates the search for a run. -/
@[simp] theorem State.forwardRaise_apart (s : State) (r : Run) (f : Frame) : (s.forwardRaise r f).apart = s.apart := by
  obtain ⟨raise, body⟩ : ∃ g, g = State.forwardRaise := ⟨_, rfl⟩
  rw [← body]
  delta State.forwardRaise at body
  rw [body]
  dsimp only
  split
  · rw [State.putRun_apart, State.spend_apart, State.trsSend_apart]
  · rw [State.spend_apart, State.trsSend_apart]

/-! ### Machine/Bay -/

@[simp] theorem State.emptyBuffer_apart (s : State) : s.emptyBuffer.apart = s.apart := by
  simp [State.emptyBuffer]

@[simp] theorem State.secRefuse_apart (s : State) (code : BitVec 4) : (s.secRefuse code).apart = s.apart := by
  simp [State.secRefuse]

@[simp] theorem State.takeBay_apart (s : State) : s.takeBay.apart = s.apart := by
  simp [State.takeBay]

@[simp] theorem State.admitFail_apart (s : State) (code : BitVec 4) : (s.admitFail code).apart = s.apart := by
  simp [State.admitFail]

@[simp] theorem State.cmdAdmit_apart (s : State) : s.cmdAdmit.apart = s.apart := by
  unfold State.cmdAdmit
  dsimp only
  repeat' split
  all_goals simp

@[simp] theorem State.cmdMeasure_apart (s : State) : s.cmdMeasure.apart = s.apart := by
  unfold State.cmdMeasure
  repeat' split
  all_goals simp

@[simp] theorem State.unsealPorts_apart (s : State) : s.unsealPorts.apart = s.apart := by
  simp [State.unsealPorts]

@[simp] theorem Eav.beginZero_mem (e : Eav) : e.beginZero.mem = e.mem := by
  simp [Eav.beginZero]

@[simp] theorem State.beginZero_apart (s : State) : s.beginZero.apart = s.apart := by
  simp [State.beginZero]

@[simp] theorem State.unfinished_apart (s : State) (n : Nat) : (s.unfinished n).apart = s.apart := by
  simp [State.unfinished]

@[simp] theorem State.afterDestroy_apart (s : State) : s.afterDestroy.apart = s.apart := by
  unfold State.afterDestroy
  split <;> simp

@[simp] theorem State.startRelease_apart (s : State) : s.startRelease.apart = s.apart := by
  unfold State.startRelease
  dsimp only
  repeat' split
  all_goals simp

@[simp] theorem State.cmdRelease_apart (s : State) : s.cmdRelease.apart = s.apart := by
  unfold State.cmdRelease
  repeat' split
  all_goals simp

@[simp] theorem State.bayCommand_apart (s : State) (cmd : Nat) : (s.bayCommand cmd).apart = s.apart := by
  unfold State.bayCommand
  split <;> simp

@[simp] theorem State.writeWeight_apart (s : State) (k : Nat) (value : W64) : (s.writeWeight k value).apart = s.apart := by
  unfold State.writeWeight
  split <;> simp

@[simp] theorem State.keyAnswer_apart (s : State) (status : BitVec 4) (port : Byte) : (s.keyAnswer status port).apart = s.apart := by
  unfold State.keyAnswer
  split <;> simp

@[simp] theorem State.sendKey_apart (s : State) (n : Fin 144) (action : Nat) (aux : W64) (data : List Shingle) :
    (s.sendKey n action aux data).apart = s.apart := by
  unfold State.sendKey
  dsimp only
  repeat' split
  all_goals simp

@[simp] theorem State.sendInstall_apart (s : State) (slot : BitVec 2) (key : LinkKey) (p : Nat × Fin 144) :
    (s.sendInstall slot key p).apart = s.apart := by
  simp [State.sendInstall]

@[simp] theorem State.sendActivate_apart (s : State) (slot : BitVec 2) (n : Fin 144) : (s.sendActivate slot n).apart = s.apart := by
  simp [State.sendActivate]

@[simp] theorem State.placeKey_apart (s : State) (slot : BitVec 2) (key : LinkKey) : (s.placeKey slot key).apart = s.apart := by
  simp [State.placeKey]

@[simp] theorem State.eaveKey_apart (s : State) : (s.eaveKey).2.apart = s.apart := by
  unfold State.eaveKey
  split <;> simp

@[simp] theorem State.spread_apart (s : State) (slot : BitVec 2) (key : LinkKey) : (s.spread slot key).apart = s.apart := by
  simp [State.spread]

@[simp] theorem State.endInstall_apart (s : State) : s.endInstall.apart = s.apart := by
  unfold State.endInstall
  dsimp only
  repeat' split
  all_goals simp

@[simp] theorem State.installFailed_apart (s : State) (i : Install) (port : Nat) : (s.installFailed i port).apart = s.apart := by
  unfold State.installFailed
  repeat' split
  all_goals simp

@[simp] theorem State.rotated_apart (s : State) (i : Install) : (s.rotated i).apart = s.apart := by
  simp [State.rotated]

@[simp] theorem State.retireAll_apart (s : State) (i : Install) : (s.retireAll i).apart = s.apart := by
  unfold State.retireAll
  dsimp only
  repeat' split
  all_goals simp

@[simp] theorem State.installed_apart (s : State) (i : Install) : (s.installed i).apart = s.apart := by
  unfold State.installed
  dsimp only
  repeat' split
  all_goals simp

@[simp] theorem State.settleInstall_apart (s : State) : s.settleInstall.apart = s.apart := by
  unfold State.settleInstall
  repeat' split
  all_goals simp

@[simp] theorem State.afterWait_apart (s : State) (i : Install) (w : KeyWait) : (s.afterWait i w).apart = s.apart := by
  simp [State.afterWait]

@[simp] theorem State.startBayKeys_apart (s : State) (requester : Nat) (r : KeyReq) : (s.startBayKeys requester r).apart = s.apart := by
  simp [State.startBayKeys]

@[simp] theorem State.startRotate_apart (s : State) (requester : Nat) (r : KeyReq) : (s.startRotate requester r).apart = s.apart := by
  simp [State.startRotate]

@[simp] theorem State.setWeightKey_apart (s : State) (slot : Nat) (key : Option (BitVec 256)) : (s.setWeightKey slot key).apart = s.apart := by
  simp [State.setWeightKey]

@[simp] theorem State.sarkingAck_apart (s : State) (n : Fin 144) (h : Header) : (s.sarkingAck n h).apart = s.apart := by
  unfold State.sarkingAck
  repeat' split
  all_goals simp

@[simp] theorem State.trayAck_apart (s : State) (p : PortRef) (h : Header) : (s.trayAck p h).apart = s.apart := by
  unfold State.trayAck
  repeat' split
  all_goals simp

/-! ### Machine/Durable -/

@[simp] theorem State.setDur_apart (s : State) (k : Nat) (d : Dur) : (s.setDur k d).apart = s.apart := by
  simp [State.setDur]

@[simp] theorem State.durErr_apart (s : State) (k : Nat) : (s.durErr k).apart = s.apart := by
  simp [State.durErr]

@[simp] theorem State.openRegion_apart (s : State) (k : Nat) (dst : DurState) : (s.openRegion k dst).apart = s.apart := by
  unfold State.openRegion
  dsimp only
  repeat' split
  all_goals simp

@[simp] theorem State.cmdDefine_apart (s : State) (k : Nat) : (s.cmdDefine k).apart = s.apart := by
  simp [State.cmdDefine]

@[simp] theorem State.cmdSeal_apart (s : State) (k : Nat) : (s.cmdSeal k).apart = s.apart := by
  unfold State.cmdSeal
  dsimp only
  repeat' split
  all_goals simp

@[simp] theorem State.cmdReopen_apart (s : State) (k : Nat) : (s.cmdReopen k).apart = s.apart := by
  unfold State.cmdReopen
  dsimp only
  repeat' split
  all_goals simp

@[simp] theorem State.cmdSilver_apart (s : State) (k : Nat) : (s.cmdSilver k).apart = s.apart := by
  simp [State.cmdSilver]

@[simp] theorem State.cmdAdvance_apart (s : State) (k : Nat) : (s.cmdAdvance k).apart = s.apart := by
  unfold State.cmdAdvance
  dsimp only
  repeat' split
  all_goals simp

@[simp] theorem State.cmdLost_apart (s : State) (k : Nat) : (s.cmdLost k).apart = s.apart := by
  unfold State.cmdLost
  dsimp only
  repeat' split
  all_goals simp

@[simp] theorem State.cmdDissolve_apart (s : State) (k : Nat) : (s.cmdDissolve k).apart = s.apart := by
  simp [State.cmdDissolve]

@[simp] theorem State.durCommand_apart (s : State) (k code : Nat) : (s.durCommand k code).apart = s.apart := by
  unfold State.durCommand
  split <;> simp

@[simp] theorem State.endDigest_apart (s : State) (k : Nat) (r : Option (BitVec 384)) : (s.endDigest k r).apart = s.apart := by
  unfold State.endDigest
  extract_lets d
  cases d.state <;> cases r
  case verifying.some v =>
    dsimp only
    split <;> rfl
  all_goals rfl

/-! ### Machine/Gauge -/

@[simp] theorem State.itemSent_apart (s : State) : s.itemSent.apart = s.apart := by
  simp [State.itemSent]

/-! ### Machine/Gutter -/

@[simp] theorem State.setGut_apart (s : State) (f : Gut → Gut) : (s.setGut f).apart = s.apart := by
  simp [State.setGut]

@[simp] theorem State.clearFatal_apart (s : State) : s.clearFatal.apart = s.apart := by
  unfold State.clearFatal
  split <;> simp

@[simp] theorem State.clearCaptures_apart (s : State) : s.clearCaptures.apart = s.apart := by
  simp [State.clearCaptures]

@[simp] theorem State.clearFences_apart (s : State) (w : Nat) (value : W64) : (s.clearFences w value).apart = s.apart := by
  unfold State.clearFences
  split <;> simp

@[simp] theorem State.stopBay_apart (s : State) (code : Nat) (via : Option (Fin 144)) (e : Event) : (s.stopBay code via e).apart = s.apart := by
  unfold State.stopBay
  split <;> simp

@[simp] theorem State.teardownFrame_apart (s : State) (n : Fin 144) (h : Header) : (s.teardownFrame n h).apart = s.apart := by
  unfold State.teardownFrame
  dsimp only
  repeat' split
  all_goals simp

@[simp] theorem State.fencePort_apart (s : State) (n : Fin 144) : (s.fencePort n).apart = s.apart := by
  simp [State.fencePort]

@[simp] theorem State.fenceObj_apart (s : State) (o : FaultObj) : (s.fenceObj o).apart = s.apart := by
  unfold State.fenceObj
  split <;> simp

@[simp] theorem State.becomeQuiet_apart (s : State) : s.becomeQuiet.apart = s.apart := by
  unfold State.becomeQuiet
  dsimp only
  repeat' split
  all_goals simp

@[simp] theorem State.restartBay_apart (s : State) : s.restartBay.apart = s.apart := by
  unfold State.restartBay
  split <;> simp

@[simp] theorem State.unhold_apart (s : State) : s.unhold.apart = s.apart := by
  unfold State.unhold
  split <;> simp

@[simp] theorem State.poll_apart (s : State) (n : Fin 144) : (s.poll n).apart = s.apart := by
  simp [State.poll]

@[simp] theorem State.degrade_apart (s : State) (o : MarginObj) (lane : Nat) : (s.degrade o lane).apart = s.apart := by
  simp [State.degrade]

/-! ### Machine/Spar -/

@[simp] theorem State.updSpar_apart (s : State) (n : Fin 144) (f : Spar → Spar) : (s.updSpar n f).apart = s.apart := by
  simp [State.updSpar]

@[simp] theorem State.setPattern_apart (s : State) (n : Fin 144) (mode : Nat) : (s.setPattern n mode).apart = s.apart := by
  unfold State.setPattern
  split <;> simp

@[simp] theorem State.patternOff_apart (s : State) (n : Fin 144) : (s.patternOff n).apart = s.apart := by
  unfold State.patternOff
  split <;> simp

@[simp] theorem State.generate_apart (s : State) (n : Fin 144) : (s.generate n).apart = s.apart := by
  simp [State.generate]

@[simp] theorem State.genEn_apart (s : State) (n : Fin 144) : (s.genEn n).apart = s.apart := by
  unfold State.genEn
  dsimp only
  repeat' split
  all_goals simp

@[simp] theorem State.check_apart (s : State) (n : Fin 144) (f : Frame) : (s.check n f).apart = s.apart := by
  unfold State.check
  split <;> simp

@[simp] theorem State.moduleTest_apart (s : State) (n : Fin 144) (f : Frame) : (s.moduleTest n f).apart = s.apart := by
  unfold State.moduleTest
  split
  · rename_i taken
    exact State.agentTake_apart (.inr taken)
  · rename_i taken
    rw [← State.agentTake_apart (.inl taken)]
    dsimp only
    split <;> simp

@[simp] theorem State.jebTest_apart (s : State) (p : PortRef) (f : Frame) : (s.jebTest p f).apart = s.apart := by
  unfold State.jebTest
  dsimp only
  repeat' split
  all_goals simp

/-! ### Machine/FlashMem -/

@[simp] theorem State.setSof_apart (s : State) (f : Sof → Sof) : (s.setSof f).apart = s.apart := by
  simp [State.setSof]

@[simp] theorem State.stageFails_apart (s : State) : s.stageFails.apart = s.apart := by
  simp [State.stageFails]

@[simp] theorem State.flashWrite_apart (s : State) (d : Domain) (w : FlashWrite) : (s.flashWrite d w).apart = s.apart := by
  unfold State.flashWrite
  split <;> simp

/-! ### Machine/Laths -/

@[simp] theorem State.sendLath_apart (s : State) (p : PortRef) (plain : List Shingle) : (s.sendLath p plain).apart = s.apart := by
  simp [State.sendLath]

@[simp] theorem State.idleLath_apart (s : State) (p : PortRef) : (s.idleLath p).apart = s.apart := by
  simp [State.idleLath]

@[simp] theorem State.countNak_apart (s : State) (p : PortRef) : (s.countNak p).apart = s.apart := by
  unfold State.countNak
  dsimp only
  repeat' split
  all_goals simp

@[simp] theorem State.sendNak_apart (s : State) (p : PortRef) : (s.sendNak p).apart = s.apart := by
  simp [State.sendNak]

@[simp] theorem State.takeAck_apart (s : State) (p : PortRef) (ack : BitVec 12) : (s.takeAck p ack).apart = s.apart := by
  simp [State.takeAck]

@[simp] theorem State.resend_apart (s : State) (p : PortRef) (pick : KeptLath → Bool) : (s.resend p pick).apart = s.apart := by
  simp [State.resend]

@[simp] theorem State.nakReceived_apart (s : State) (p : PortRef) (ack : BitVec 12) : (s.nakReceived p ack).apart = s.apart := by
  unfold State.nakReceived
  dsimp only
  repeat' split
  all_goals simp

@[simp] theorem State.deliver_apart (s : State) (p : PortRef) (came : Nat) (slots : List Shingle) : (s.deliver p came slots).apart = s.apart := by
  simp [State.deliver]

@[simp] theorem State.deliverAll_apart (s : State) (p : PortRef) (came : List Nat) (laths : List (List Shingle)) :
    (s.deliverAll p came laths).apart = s.apart := by
  simp [State.deliverAll]

@[simp] theorem State.markSealFault_apart (s : State) (o : FaultObj) : (s.markSealFault o).apart = s.apart := by
  unfold State.markSealFault
  split <;> simp

@[simp] theorem State.sealFailed_apart (s : State) (p : PortRef) (first : BitVec 12) : (s.sealFailed p first).apart = s.apart := by
  unfold State.sealFailed
  dsimp only
  repeat' split
  all_goals simp

@[simp] theorem State.partnerAnew_apart (s : State) (p : PortRef) : (s.partnerAnew p).apart = s.apart := by
  simp [State.partnerAnew]

@[simp] theorem State.badGroup_apart (s : State) (p : PortRef) (first : BitVec 12) : (s.badGroup p first).apart = s.apart := by
  unfold State.badGroup
  split <;> simp

@[simp] theorem State.openGroup_apart (s : State) (p : PortRef) : (s.openGroup p).apart = s.apart := by
  unfold State.openGroup
  dsimp only
  repeat' split
  all_goals simp

@[simp] theorem State.acceptLath_apart (s : State) (p : PortRef) (ctl : LathCtl) (slots : List Shingle) (came : Nat) :
    (s.acceptLath p ctl slots came).apart = s.apart := by
  unfold State.acceptLath
  dsimp only
  repeat' split
  all_goals simp

@[simp] theorem State.acceptKept_apart (s : State) (p : PortRef) (n : Nat) : (s.acceptKept p n).apart = s.apart := by
  induction n generalizing s with
  | zero => rfl
  | succ n ih =>
    unfold State.acceptKept
    dsimp only
    split
    · rfl
    · rw [ih]
      simp

@[simp] theorem State.dataLath_apart (s : State) (p : PortRef) (ctl : LathCtl) (slots : List Shingle) : (s.dataLath p ctl slots).apart = s.apart := by
  unfold State.dataLath
  dsimp only
  repeat' split
  all_goals simp

@[simp] theorem State.badLath_apart (s : State) (p : PortRef) : (s.badLath p).apart = s.apart := by
  unfold State.badLath
  split <;> simp

@[simp] theorem State.goodLath_apart (s : State) (p : PortRef) (ctl : LathCtl) (slots : List Shingle) :
    (s.goodLath p ctl slots).apart = s.apart := by
  unfold State.goodLath
  dsimp only
  repeat' split
  all_goals simp

@[simp] theorem State.leave_apart (s : State) (p : PortRef) (v : Nat) (f : Frame) : (s.leave p v f).apart = s.apart := by
  unfold State.leave
  split
  · split
    · rfl
    · rename_i found
      rw [← State.dequeue_apart found]
      dsimp only
      split <;> simp
  · simp

@[simp] theorem State.fillLaths_apart (s : State) (p : PortRef) (n : Nat) : (s.fillLaths p n).apart = s.apart := by
  induction n generalizing s with
  | zero => rfl
  | succ n ih =>
    unfold State.fillLaths
    dsimp only
    split
    · rfl
    · rw [ih]
      simp

@[simp] theorem State.ageRequests_apart (s : State) (p : PortRef) (picked : Option Nat) (laths : Nat) :
    (s.ageRequests p picked laths).apart = s.apart := by
  simp [State.ageRequests]

@[simp] theorem State.sendSlots_apart (s : State) (p : PortRef) (l : List Shingle) (isLocal : Bool) (picked : Option Nat) :
    (s.sendSlots p l isLocal picked).apart = s.apart := by
  unfold State.sendSlots
  rw [State.ageRequests_apart, State.fillLaths_apart, State.updPort_apart]

@[simp] theorem State.afterSending_apart (s : State) (p : PortRef) : (s.afterSending p).apart = s.apart := by
  unfold State.afterSending
  split <;> simp

@[simp] theorem State.arbitrate_apart (s : State) (p : PortRef) : (s.arbitrate p).apart = s.apart := by
  unfold State.arbitrate
  repeat' split
  all_goals simp

@[simp] theorem State.flushStop_apart (s : State) (n : Fin 144) (k : Nat) : (s.flushStop n k).apart = s.apart := by
  induction k generalizing s with
  | zero => rfl
  | succ k ih =>
    unfold State.flushStop
    split
    · rw [ih, State.arbitrate_apart]
    · rfl

@[simp] theorem State.sendStops_apart (s : State) : s.sendStops.apart = s.apart :=
  State.foldl_apart _ (fun t n => t.flushStop_apart n 64) _ s

/-! ### Machine/Power -/

@[simp] theorem State.setPwr_apart (s : State) (f : Pwr → Pwr) : (s.setPwr f).apart = s.apart := by
  simp [State.setPwr]

@[simp] theorem State.setLag_apart (s : State) (unmet : Bool) : (s.setLag unmet).apart = s.apart := by
  unfold State.setLag
  dsimp only
  repeat' split
  all_goals simp

@[simp] theorem State.pace_apart (s : State) (on : Bool) : (s.pace on).apart = s.apart :=
  State.foldl_apart _ (fun t n => by split <;> simp) _ s

@[simp] theorem State.setPacing_apart (s : State) (demand : Nat) : (s.setPacing demand).apart = s.apart := by
  simp [State.setPacing]

@[simp] theorem State.engageBrake_apart (s : State) (power : Nat) : (s.engageBrake power).apart = s.apart := by
  simp [State.engageBrake]

@[simp] theorem State.portsOff_apart (s : State) : s.portsOff.apart = s.apart := by
  simp [State.portsOff]

@[simp] theorem State.selfRefresh_apart (s : State) (n : Nat) : (s.selfRefresh n).apart = s.apart := by
  simp [State.selfRefresh]

@[simp] theorem State.turnOff_apart (s : State) : s.turnOff.apart = s.apart := by
  simp [State.turnOff]

@[simp] theorem State.turnOffStep_apart (s : State) : s.turnOffStep.apart = s.apart := by
  unfold State.turnOffStep
  dsimp only
  repeat' split
  all_goals simp

@[simp] theorem State.govern_apart (s : State) (m : PwrMeas) : (s.govern m).apart = s.apart := by
  unfold State.govern
  dsimp only
  repeat' split
  all_goals simp

@[simp] theorem State.writeCap_apart (s : State) (value : W32) : (s.writeCap value).apart = s.apart := by
  simp [State.writeCap]

@[simp] theorem State.readVin_apart (s : State) (vin : W16) : (s.readVin vin).apart = s.apart := by
  simp [State.readVin]

@[simp] theorem State.holdUpCapture_apart (s : State) : s.holdUpCapture.apart = s.apart := by
  unfold State.holdUpCapture
  dsimp only
  repeat' split
  all_goals simp

@[simp] theorem State.holdUp_apart (s : State) : s.holdUp.apart = s.apart := by
  unfold State.holdUp
  split <;> simp

@[simp] theorem State.readCool_apart (s : State) (m : CoolMeas) : (s.readCool m).apart = s.apart := by
  simp [State.readCool]

/-! ### Machine/Start -/

@[simp] theorem State.setPins_apart (s : State) (f : Pins → Pins) : (s.setPins f).apart = s.apart := by
  simp [State.setPins]

@[simp] theorem Eav.afterReset_mem (e : Eav) : e.afterReset.mem = e.mem := by
  simp [Eav.afterReset]

@[simp] theorem State.moduleReset_apart (s : State) : s.moduleReset.apart = s.apart := by
  simp [State.moduleReset]

@[simp] theorem State.convert_apart (s : State) : s.convert.apart = s.apart := by
  unfold State.convert
  split <;> simp

@[simp] theorem State.takeVin_apart (s : State) (vin : W16) : (s.takeVin vin).apart = s.apart := by
  simp [State.takeVin]

@[simp] theorem State.loadBody_apart (s : State) (b : CfgBody) (slotId : BitVec 4) : (s.loadBody b slotId).apart = s.apart := by
  simp [State.loadBody]

@[simp] theorem State.readRetained_apart (s : State) : s.readRetained.apart = s.apart := by
  unfold State.readRetained
  cases s.pins.retain
  all_goals
    dsimp only
    repeat' split
    all_goals simp

@[simp] theorem State.chooseConfig_apart (s : State) : s.chooseConfig.apart = s.apart := by
  unfold State.chooseConfig
  dsimp only
  repeat' split
  all_goals simp

@[simp] theorem State.runThatch_apart (s : State) (slot : Option Nat) : (s.runThatch slot).apart = s.apart := by
  unfold State.runThatch
  split <;> simp

@[simp] theorem State.startThatch_apart (s : State) (fresh : Bool) : (s.startThatch fresh).apart = s.apart := by
  unfold State.startThatch
  split <;> simp

@[simp] theorem State.gableUp_apart (s : State) : s.gableUp.apart = s.apart := by
  simp [State.gableUp]

@[simp] theorem State.bringUp_apart (s : State) (destroy : Bool) (slotId : BitVec 4) : (s.bringUp destroy slotId).apart = s.apart := by
  unfold State.bringUp
  dsimp only
  repeat' split
  all_goals simp

@[simp] theorem State.startUp_apart (s : State) (slotId : BitVec 4) : (s.startUp slotId).apart = s.apart := by
  unfold State.startUp
  dsimp only
  split <;> simp

@[simp] theorem State.revert_apart (s : State) : s.revert.apart = s.apart := by
  simp [State.revert]

@[simp] theorem State.expire_apart (s : State) : s.expire.apart = s.apart := by
  unfold State.expire
  dsimp only
  repeat' split
  all_goals simp

@[simp] theorem State.commit_apart (s : State) (advance : Bool) : (s.commit advance).apart = s.apart := by
  unfold State.commit
  dsimp only
  repeat' split
  all_goals simp

@[simp] theorem State.updateFails_apart (s : State) (kind : Byte) : (s.updateFails kind).apart = s.apart := by
  simp [State.updateFails]

@[simp] theorem State.beginFirmware_apart (s : State) : s.beginFirmware.apart = s.apart := by
  simp [State.beginFirmware]

@[simp] theorem State.endFirmware_apart (s : State) (i : Fin 2) (img : FwImage) : (s.endFirmware i img).apart = s.apart := by
  unfold State.endFirmware
  dsimp only
  repeat' split
  all_goals simp

@[simp] theorem State.beginConfig_apart (s : State) : s.beginConfig.apart = s.apart := by
  simp [State.beginConfig]

@[simp] theorem State.endConfig_apart (s : State) (k : Fin 2) (img : CfgImage) : (s.endConfig k img).apart = s.apart := by
  unfold State.endConfig
  split <;> simp

/-! ### Machine/Ring -/

@[simp] theorem Jeb.ringLook_mem (j : Jeb) : j.ringLook.mem = j.mem := by
  unfold Jeb.ringLook
  repeat' split
  all_goals simp

@[simp] theorem Jeb.ringNext_mem (j : Jeb) : j.ringNext.mem = j.mem := by
  simp [Jeb.ringNext]

@[simp] theorem Jeb.writeInvTail_mem (j : Jeb) (value : W32) (entries : List HostRead) : (j.writeInvTail value entries).mem = j.mem := by
  simp [Jeb.writeInvTail]

@[simp] theorem State.readEntries_apart (s : State) (value : W32) : (s.readEntries value).apart = s.apart := by
  simp [State.readEntries]

@[simp] theorem Jeb.invalidate_mem (j : Jeb) (hit : BitVec 6 → Nat → Nat → Bool) : (j.invalidate hit).mem = j.mem := by
  simp [Jeb.invalidate]

@[simp] theorem State.clearGenErr_apart (s : State) : s.clearGenErr.apart = s.apart := by
  unfold State.clearGenErr
  split <;> simp

@[simp] theorem State.writeJebEpoch_apart (s : State) (value : W64) : (s.writeJebEpoch value).apart = s.apart := by
  unfold State.writeJebEpoch
  refine s.updJeb_apart _ ?_
  dsimp only
  split <;> rfl

@[simp] theorem Jeb.swap_mem (j : Jeb) : j.swap.mem = j.mem := by
  simp [Jeb.swap]

/-! ### Machine/Registers -/

@[simp] theorem State.setSofReg_apart (s : State) (r : Reg) (v : W64) : (s.setSofReg r v).apart = s.apart := by
  unfold State.setSofReg
  split <;> simp

@[simp] theorem State.setPurReg_apart (s : State) (r : Reg) (v : W64) : (s.setPurReg r v).apart = s.apart := by
  unfold State.setPurReg
  split <;> simp

@[simp] theorem State.setScrubCfg_apart (s : State) (v : W32) : (s.setScrubCfg v).apart = s.apart := by
  simp [State.setScrubCfg]

@[simp] theorem State.setEavReg_apart (s : State) (r : Reg) (v : W64) : (s.setEavReg r v).apart = s.apart := by
  unfold State.setEavReg
  split <;> simp

@[simp] theorem State.setComm_apart (s : State) (n : Nat) (f : Comm → Comm) : (s.setComm n f).apart = s.apart := by
  simp [State.setComm]

@[simp] theorem State.setTrsReg_apart (s : State) (r : Reg) (v : W64) : (s.setTrsReg r v).apart = s.apart := by
  unfold State.setTrsReg
  split <;> simp

@[simp] theorem State.setSrc_apart (s : State) (n : Nat) (f : Src → Src) : (s.setSrc n f).apart = s.apart := by
  simp [State.setSrc]

@[simp] theorem State.setGutReg_apart (s : State) (r : Reg) (v : W64) : (s.setGutReg r v).apart = s.apart := by
  unfold State.setGutReg
  split <;> simp

@[simp] theorem State.setSecReg_apart (s : State) (r : Reg) (v : W64) : (s.setSecReg r v).apart = s.apart := by
  unfold State.setSecReg
  split <;> simp

@[simp] theorem State.setJebReg_apart (s : State) (r : Reg) (v : W64) : (s.setJebReg r v).apart = s.apart := by
  unfold State.setJebReg
  split <;> simp

@[simp] theorem State.setReg_apart (s : State) (r : Reg) (v : W64) : (s.setReg r v).apart = s.apart := by
  simp [State.setReg]

@[simp] theorem State.countOn_apart (s : State) (r : Reg) : (s.countOn r).apart = s.apart := by
  unfold State.countOn
  repeat' split
  all_goals simp

@[simp] theorem State.clearRead_apart (s : State) (r : Reg) (mask : W64) : (s.clearRead r mask).apart = s.apart := by
  unfold State.clearRead
  repeat' split
  all_goals simp

@[simp] theorem State.firewall_apart (s : State) : s.firewall.apart = s.apart := by
  simp [State.firewall]

@[simp] theorem State.readEffect_apart (s : State) (who : Requester) (r : Reg) (mask : W64) : (s.readEffect who r mask).apart = s.apart := by
  unfold State.readEffect
  repeat' split
  all_goals simp

@[simp] theorem State.plainWrite_apart (s : State) (r : Reg) (rw : W64) (v : W64) : (s.plainWrite r rw v).apart = s.apart := by
  simp [State.plainWrite]

@[simp] theorem State.setWindow_apart (s : State) (d : Dev) (n : Nat) (w : Window) : (s.setWindow d n w).apart = s.apart := by
  unfold State.setWindow
  split <;> simp

@[simp] theorem State.writeWindow_apart (s : State) (d : Dev) (n k : Nat) (v : W64) : (s.writeWindow d n k v).apart = s.apart := by
  unfold State.writeWindow
  dsimp only
  repeat' split
  all_goals simp

@[simp] theorem State.writeDur_apart (s : State) (r : Reg) (k : Nat) (v : W64) : (s.writeDur r k v).apart = s.apart := by
  unfold State.writeDur
  repeat' split
  all_goals simp

@[simp] theorem State.writeDurCtl_apart (s : State) (k : Nat) (v : W64) : (s.writeDurCtl k v).apart = s.apart := by
  unfold State.writeDurCtl
  split <;> simp

@[simp] theorem State.writeTstCtl_apart (s : State) (n : Fin 144) (v : W64) : (s.writeTstCtl n v).apart = s.apart := by
  unfold State.writeTstCtl
  dsimp only
  repeat' split
  all_goals simp

@[simp] theorem State.writePrtCtrl_apart (s : State) (p : PortRef) (v : W64) : (s.writePrtCtrl p v).apart = s.apart := by
  unfold State.writePrtCtrl
  split <;> simp

@[simp] theorem State.writeTdCtl_apart (s : State) (v : W64) : (s.writeTdCtl v).apart = s.apart := by
  unfold State.writeTdCtl
  repeat' split
  all_goals simp

@[simp] theorem State.writeFwCtl_apart (s : State) (v : W64) : (s.writeFwCtl v).apart = s.apart := by
  unfold State.writeFwCtl
  split <;> simp

theorem State.moduleWrite_apart (s t : State) (who : Requester) (r : Reg) (v : W64) (h : s.moduleWrite who r v = some t) : t.apart = s.apart := by
  unfold State.moduleWrite at h
  split at h
  all_goals
    cases h
    try split
    all_goals simp

theorem State.guard_apart (s : State) (who : Requester) (d : Dev) (addr : W32) (r : Reg) (t : State) (h : t.apart = s.apart) :
    (s.guard who d addr r t).apart = s.apart := by
  unfold State.guard
  repeat' split
  all_goals simp [h]

@[simp] theorem State.unlatch_apart (s : State) (who : Requester) (d : Dev) (addr : W32) (wr : Bool) :
    (s.unlatch who d addr wr).apart = s.apart := by
  simp [State.unlatch]

@[simp] theorem State.latch_apart (s : State) (who : Requester) (d : Dev) (addr : W32) (wr : Bool) (v : W32) :
    (s.latch who d addr wr v).apart = s.apart := by
  simp [State.latch]

@[simp] theorem State.readWord_apart (s : State) (who : Requester) (d : Dev) (a : W32) : (s.readWord who d a).2.apart = s.apart := by
  unfold State.readWord
  repeat' split
  all_goals simp

@[simp] theorem State.readWide_apart (s : State) (who : Requester) (d : Dev) (a : W32) : (s.readWide who d a).2.apart = s.apart := by
  unfold State.readWide
  split <;> simp

/-! ### Machine/Inband -/

@[simp] theorem State.readWords_apart (s : State) (who : Requester) (d : Dev) (l : List Nat) : (s.readWords who d l).2.apart = s.apart :=
  List.foldlRecOn l _ (motive := fun r : List W32 × State => r.2.apart = s.apart) rfl
    fun r kept a _ => by split <;> simp [kept]

@[simp] theorem State.issueRelay_apart (s : State) (f : Frame) : (s.issueRelay f).apart = s.apart := by
  simp [State.issueRelay]

@[simp] theorem State.startRelay_apart (s : State) (f : Frame) : (s.startRelay f).apart = s.apart := by
  unfold State.startRelay
  split <;> simp

@[simp] theorem State.takeReport_apart (s : State) (f : Frame) : (s.takeReport f).2.apart = s.apart := by
  unfold State.takeReport
  dsimp only
  repeat' split
  all_goals simp

theorem State.soffitFirst_apart {s t : State} {test : Entry → Bool} {e : Entry} (h : s.soffitFirst test = some (e, t)) : t.apart = s.apart :=
  State.dequeue_apart (Option.filter_eq_some_iff.mp h).1

/-! ### Machine/Step -/

@[simp] theorem State.tick_apart (s : State) : s.tick.apart = s.apart := by
  simp [State.tick]

end Sys2Proof.Machine
end

section
/-! SUPPORT. The operations that may write the Jalem block's memory, and the commands: what each leaves of the memories, of Gauge and of the
commands that wait (log entry 7). -/
namespace Sys2Proof.Machine

open Sys2Proof

/-! ### Commands that may work on the block's memory -/

/-- Of what stands apart nothing differs but the Jalem block's memory, and that keeps its canonical form. -/
def Lands (k l : Mem × Mem × Gau × List Instr) : Prop :=
  l.1 = k.1 ∧ (Memory.wf k.2.1 = true → Memory.wf l.2.1 = true) ∧ l.2.2 = k.2.2

@[simp] theorem Lands.refl (k : Mem × Mem × Gau × List Instr) : Lands k k := ⟨rfl, id, rfl⟩

variable {k : Mem × Mem × Gau × List Instr}

/-- The block changed so that its memory keeps its form. -/
@[simp] theorem State.updJeb_lands {s : State} (f : Jeb → Jeb) (h : Lands k s.apart)
    (wf : Memory.wf s.jeb.mem = true → Memory.wf (f s.jeb).mem = true) : Lands k (s.updJeb f).apart := by
  obtain ⟨eav, mem, rest⟩ := h
  exact ⟨eav, fun ok => wf (mem ok), rest⟩

@[simp] theorem State.foldl_lands {β : Type} (f : State → β → State) (hf : ∀ s x, Lands k s.apart → Lands k (f s x).apart) (l : List β)
    (s : State) (h : Lands k s.apart) : Lands k (l.foldl f s).apart :=
  List.foldlRecOn l f h fun t ht x _ => hf t x ht

@[simp] theorem State.landFrame_lands (s : State) (r : Req) (x : Xfer) (f : Frame) (h : Lands k s.apart) : Lands k (s.landFrame r x f).1.apart := by
  unfold State.landFrame
  split
  · split <;> simp [h]
  · split
    · split <;> simp [h]
    · split
      · exact State.updJeb_lands _ h (landData_wf (m := s.jeb.store) _ _ _)
      · exact h

@[simp] theorem State.takeResponse_lands (s : State) (r : Req) (f : Frame) (h : Lands k s.apart) : Lands k (s.takeResponse r f).apart := by
  unfold State.takeResponse
  split
  · simpa using h
  · have landed := fun x => s.landFrame_lands r x f h
    dsimp only
    repeat' split
    all_goals simp [landed]

@[simp] theorem State.settle_lands (s : State) (e : Byte) (n : Nat) (h : Lands k s.apart) : Lands k (s.settle e n).apart := by
  induction n generalizing s with
  | zero => exact h
  | succ n ih =>
    unfold State.settle
    split
    · exact ih _ (State.foldl_lands _ (fun t f ht => t.takeResponse_lands _ f ht) _ _ (by simpa using h))
    · split
      · exact ih _ (by simpa using h)
      · split
        · refine ih _ ?_
          dsimp only
          split <;> simp [h]
        · exact h

@[simp] theorem State.settleAll_lands (s : State) (e : Byte) (h : Lands k s.apart) : Lands k (s.settleAll e).apart := by
  simp [State.settleAll, h]

@[simp] theorem State.answerReq_lands (s : State) (r : Req) (f : Frame) (h : Lands k s.apart) : Lands k (s.answerReq r f).apart := by
  unfold State.answerReq
  dsimp only
  repeat' split
  all_goals simp [h]

@[simp] theorem State.loseReq_lands (s : State) (r : Req) (h : Lands k s.apart) : Lands k (s.loseReq r).apart := by
  simp [State.loseReq, h]

@[simp] theorem State.linkLost_lands (s : State) (q : Fin 18) (h : Lands k s.apart) : Lands k (s.linkLost q).apart := by
  unfold State.linkLost
  rw [State.ackStops_apart, State.updJeb_apart _ _ rfl]
  exact State.foldl_lands _ (fun t r ht => t.loseReq_lands r ht) _ _ (by simpa using h)

@[simp] theorem State.stopIssue_lands (s : State) (h : Lands k s.apart) : Lands k s.stopIssue.apart := by
  refine State.foldl_lands _ (fun t n ht => State.settleAll_lands _ _ ?_) _ _ (by simpa using h)
  rw [State.foldl_apart]
  · exact ht
  · intro t i
    cases i <;> simp

@[simp] theorem State.jebPerform_lands (s : State) (p : PortRef) (f : Frame) (op : Byte) (h : Lands k s.apart) :
    Lands k (s.jebPerform p f op).apart := by
  unfold State.jebPerform
  split
  · exact h
  · dsimp only
    split
    · simp [h]
    · split
      · simp [h]
      · have performed (b : Nat) (r : Store) (wf : Memory.wf (s.jebTake p f).jeb.mem = true → Memory.wf r.mem = true) :
            Lands k ((s.jebTake p f).updJeb fun j => { j with mem := r.mem }).apart :=
          State.updJeb_lands _ (by simpa using h) wf
        split
        all_goals
          simp only [State.jebSend_apart, State.updJeb_apart, Jeb.bump1_mem]
          exact performed 0 _ (homePerform_wf (m := (s.jebTake p f).jeb.store) _ _ _ _ _ _)

/-- A fault record is a shingle written. -/
theorem Jeb.recordFault_wf (j : Jeb) (f : FaultInfo) (b : FaultBy) (wf : Memory.wf j.mem = true) : Memory.wf (j.recordFault f b).mem = true := by
  unfold Jeb.recordFault
  rw [Jeb.bump1_mem]
  exact storeShingle_wf (m := j.store) _ _ _ wf

@[simp] theorem State.settleEvery_lands (s : State) (h : Lands k s.apart) : Lands k s.settleEvery.apart :=
  State.foldl_lands _ (fun t _ ht => t.settleAll_lands _ ht) _ s h

@[simp] theorem State.checkItem_lands (s : State) (e : Byte) (id : Nat) (t : Transfer) (broken : Bool) (h : Lands k s.apart) :
    Lands k (s.checkItem e id t broken).apart := by
  unfold State.checkItem
  dsimp only
  split
  · simp [h]
  · split
    · simp [h]
    · refine State.settleEvery_lands _ ?_
      rw [State.squash_apart, State.endTransfer_apart, State.setEngine_apart]
      exact State.updJeb_lands _ (by simpa using h) (Jeb.recordFault_wf _ _ _)
  · simp [h]

@[simp] theorem State.unpark_lands (s : State) (e : Byte) (h : Lands k s.apart) : Lands k (s.unpark e).apart := by
  refine State.foldl_lands _ (fun t id ht => ?_) _ s h
  split
  · split
    · exact ht
    · exact t.checkItem_lands _ _ _ _ ht
  · exact ht

theorem Jeb.writeWaiting_wf (j : Jeb) (n : Nat) (wf : Memory.wf j.mem = true) : Memory.wf (j.writeWaiting n).mem = true := by
  induction n generalizing j with
  | zero => exact wf
  | succ n ih =>
    unfold Jeb.writeWaiting
    split
    · exact wf
    · split
      · exact wf
      · exact ih _ (Jeb.recordFault_wf _ _ _ wf)

theorem Jeb.sendFault_wf (j : Jeb) (f : FaultInfo) (b : FaultBy) (wf : Memory.wf j.mem = true) : Memory.wf (j.sendFault f b).mem = true :=
  Jeb.writeWaiting_wf _ _ wf

@[simp] theorem State.unparkAll_lands (s : State) (h : Lands k s.apart) : Lands k s.unparkAll.apart :=
  State.foldl_lands _ (fun t _ ht => t.unpark_lands _ ht) _ _ (State.updJeb_lands _ h (Jeb.writeWaiting_wf _ _))

/-- An answer of the block's own memory leaves it in its form. -/
theorem localAnswer_wf (m : Store) (free : Nat → BitVec 256) (h : Header) (data : List Shingle) (t : Transfer) (wf : Memory.wf m.mem = true) :
    Memory.wf (localAnswer m free h data t).1.mem = true := by
  unfold localAnswer
  dsimp only
  split
  · exact wf
  · split
    · exact wf
    · exact homePerform_wf _ _ _ _ _ _ wf

@[simp] theorem State.issuePart_lands (s : State) (e : Byte) (x : Xfer) (p : Spec) (path : Path) (h : Lands k s.apart) :
    Lands k (s.issuePart e x p path).apart := by
  unfold State.issuePart
  cases path.link with
  | some q =>
    dsimp only
    split
    · simp [h]
    · split <;> simp [h]
  | none =>
    dsimp only
    split
    · exact h
    · split
      · exact h
      · refine State.settleAll_lands _ _ (State.foldl_lands _ (fun t f ht => t.answerReq_lands _ f ht) _ _ ?_)
        rw [State.spend_apart]
        exact State.updJeb_lands _ (by simp [h]) (localAnswer_wf (Jeb.store _) _ _ _ _)

@[simp] theorem State.rafterResponse_lands (s : State) (q : Fin 18) (f : Frame) (h : Lands k s.apart) : Lands k (s.rafterResponse q f).apart := by
  unfold State.rafterResponse
  repeat' split
  all_goals simp [h]

@[simp] theorem State.resumeTask_lands (s : State) (task : W16) (h : Lands k s.apart) : Lands k (s.resumeTask task).apart := by
  simp [State.resumeTask, h]

@[simp] theorem State.writeFltHead_lands (s : State) (value : W32) (h : Lands k s.apart) : Lands k (s.writeFltHead value).apart := by
  simp [State.writeFltHead, h]

@[simp] theorem State.descFault_lands (s : State) (d : SendDesc) (cls : Nat) (f : FaultInfo) (h : Lands k s.apart) :
    Lands k (s.descFault d cls f).apart := by
  unfold State.descFault
  rw [State.spend_apart]
  exact State.updJeb_lands _ h (Jeb.sendFault_wf _ _ _)

@[simp] theorem State.arm_lands (s : State) (n : Nat) (d : SendDesc) (h : Lands k s.apart) : Lands k (s.arm n d).apart := by
  have checked : Lands k ({ s with jeb := (s.jeb.checkTile s.freeNat d).2 } : State).apart := by simpa using h
  unfold State.arm
  dsimp only
  split
  · simp [h]
  · split
    all_goals
      rename_i found
      rw [found] at checked
    · exact State.descFault_lands _ _ _ _ (by rwa [State.setDesc_apart, State.spend_apart])
    · rwa [State.setDesc_apart, State.spend_apart]

@[simp] theorem State.writeSendCtl_lands (s : State) (n : Nat) (value : W64) (h : Lands k s.apart) : Lands k (s.writeSendCtl n value).apart := by
  unfold State.writeSendCtl
  split <;> simp [h]

@[simp] theorem State.go_lands (s : State) (n : Nat) (h : Lands k s.apart) : Lands k (s.go n).apart := by
  unfold State.go
  dsimp only
  repeat' split
  all_goals simp [h]

@[simp] theorem State.jebStop_lands (s : State) (q : Fin 18) (h : Header) (hs : Lands k s.apart) : Lands k (s.jebStop q h).apart := by
  unfold State.jebStop
  split <;> simp [hs]

@[simp] theorem State.tdispFail_lands (s : State) (h : Lands k s.apart) : Lands k s.tdispFail.apart := by
  unfold State.tdispFail
  dsimp only
  repeat' split
  all_goals simp [h]

@[simp] theorem State.linkDown_lands (s : State) (p : PortRef) (h : Lands k s.apart) : Lands k (s.linkDown p).apart := by
  unfold State.linkDown
  split <;> simp [h]

@[simp] theorem State.portDown_lands (s : State) (p : PortRef) (st : PState) (fail : BitVec 4) (h : Lands k s.apart) :
    Lands k (s.portDown p st fail).apart := by
  simp [State.portDown, h]

theorem State.jebWrite_lands {s t : State} {r : Reg} {v : W64} (written : s.jebWrite r v = some t) (h : Lands k s.apart) : Lands k t.apart := by
  unfold State.jebWrite at written
  split at written
  all_goals
    repeat' split at written
    all_goals cases written
    all_goals simp [h]

@[simp] theorem State.writeReg_lands (s : State) (who : Requester) (d : Dev) (r : Reg) (v : W64) (h : Lands k s.apart) :
    Lands k (s.writeReg who d r v).apart := by
  unfold State.writeReg
  split
  · rename_i written
    cases d with
    | module => rwa [State.moduleWrite_apart _ _ _ _ _ written]
    | jalem => exact State.jebWrite_lands written h
  · simpa using h

@[simp] theorem State.writeUpper_lands (s : State) (who : Requester) (d : Dev) (r : Reg) (v : W64) (h : Lands k s.apart) :
    Lands k (s.writeUpper who d r v).apart := by
  unfold State.writeUpper
  repeat' split
  all_goals simp [h]

/-- An access lands where its action does. -/
@[simp] theorem State.inRequest_lands (s : State) (h : Header) (act : State → State) (hs : Lands k s.apart)
    (lands : ∀ t : State, Lands k t.apart → Lands k (act t).apart) : Lands k (s.inRequest h act).apart :=
  lands { s with sof := { s.sof with request := some h } } hs

@[simp] theorem State.inAccess_lands (s : State) (who : Requester) (d : Dev) (addr : Nat) (act : State → State) (h : Lands k s.apart)
    (lands : ∀ t : State, Lands k t.apart → Lands k (act t).apart) : Lands k (s.inAccess who d addr act).apart := by
  unfold State.inAccess
  split
  · exact s.inRequest_lands _ _ h lands
  · exact lands s h

@[simp] theorem State.guard_lands (s : State) (who : Requester) (d : Dev) (addr : W32) (r : Reg) (t : State) (h : Lands k s.apart)
    (ht : Lands k t.apart) : Lands k (s.guard who d addr r t).apart := by
  unfold State.guard
  repeat' split
  all_goals simp [h, ht]

@[simp] theorem State.write_lands (s : State) (who : Requester) (d : Dev) (addr : W32) (r : Reg) (v : W64) (h : Lands k s.apart) :
    Lands k (s.write who d addr r v).apart :=
  s.guard_lands who d addr r _ h (s.inAccess_lands who d _ _ h fun t ht => t.writeReg_lands who d r v ht)

@[simp] theorem State.writeWord_lands (s : State) (who : Requester) (d : Dev) (a : W32) (v : W32) (h : Lands k s.apart) :
    Lands k (s.writeWord who d a v).apart := by
  unfold State.writeWord
  split
  · exact h
  · split <;> simp [h]
  · split
    · simp [h]
    · exact s.guard_lands who d _ _ _ h (s.inAccess_lands who d _ _ h fun t ht => t.writeUpper_lands who d _ _ ht)

@[simp] theorem State.writeWide_lands (s : State) (who : Requester) (d : Dev) (a : W32) (v : W64) (h : Lands k s.apart) :
    Lands k (s.writeWide who d a v).apart := by
  unfold State.writeWide
  split <;> simp [h]

@[simp] theorem State.writeWords_lands (s : State) (who : Requester) (d : Dev) (l : List (Nat × W32)) (h : Lands k s.apart) :
    Lands k (s.writeWords who d l).apart :=
  State.foldl_lands _ (fun t p ht => by split <;> simp [ht]) l s h

@[simp] theorem State.ctrlPerform_lands (s : State) (who : Requester) (d : Dev) (f : Frame) (may : Reg → Bool) (h : Lands k s.apart) :
    Lands k (s.ctrlPerform who d f may).2.apart := by
  unfold State.ctrlPerform
  dsimp only
  split
  · exact h
  · split
    · simpa using h
    · split
      · exact h
      · split
        · exact h
        · split
          · exact h
          · dsimp only
            split
            · exact s.inRequest_lands _ _ h fun t ht => t.writeWords_lands who d _ ht
            · exact s.writeWords_lands who d _ h

@[simp] theorem State.soffitAccess_lands (s : State) (f : Frame) (h : Lands k s.apart) : Lands k (s.soffitAccess f).2.apart := by
  unfold State.soffitAccess
  dsimp only
  repeat' split
  all_goals simp [h]

@[simp] theorem State.moduleCtrl_lands (s : State) (n : Fin 144) (f : Frame) (h : Lands k s.apart) : Lands k (s.moduleCtrl n f).apart := by
  unfold State.moduleCtrl
  split
  · rename_i taken
    rwa [State.agentTake_apart (.inr taken)]
  · rename_i taken
    rw [← State.agentTake_apart (.inl taken)] at h
    dsimp only
    split <;> simp [h]

@[simp] theorem State.jebCtrl_lands (s : State) (p : PortRef) (f : Frame) (h : Lands k s.apart) : Lands k (s.jebCtrl p f).apart := by
  unfold State.jebCtrl
  dsimp only
  repeat' split
  all_goals simp [h]

@[simp] theorem State.ctrl_lands (s : State) (d : Dev) (p : PortRef) (op : Byte) (f : Frame) (h : Lands k s.apart) :
    Lands k (s.ctrl d p op f).apart := by
  unfold State.ctrl
  repeat' split
  all_goals simp [h]

/-! ### The commands -/

/-- A command that stops, or whose next state differs from `s` in none of what stands apart but the block's memory, which keeps its form. -/
def LandsFrom (s : State) : Host.Outcome State Fault Refusal → Prop
  | .next t => Lands s.apart t.apart
  | _ => True

@[simp] theorem landsFrom_next (s t : State) : LandsFrom s (.next t) ↔ Lands s.apart t.apart := Iff.rfl

theorem execRegisterWrite_lands (who : Requester) (d : Dev) (a : W32) (wide : Bool) (v : W64) (s : State) :
    LandsFrom s (execRegisterWrite who d a wide v s) := by
  unfold execRegisterWrite
  repeat' split
  all_goals simp

@[simp] theorem State.answerRead_apart (r : W64 × State) (who : Requester) (d : Dev) (a : W32) :
    (State.answerRead r who d a).apart = r.2.apart := rfl

theorem execRcRead_lands (who : Requester) (d : Dev) (a : W32) (wide : Bool) (s : State) : LandsFrom s (execRcRead who d a wide s) := by
  unfold execRcRead
  rw [landsFrom_next]
  repeat' split
  all_goals simp

theorem execLowerHalfWrite_lands (who : Requester) (d : Dev) (a : W32) (v : W32) (s : State) : LandsFrom s (execLowerHalfWrite who d a v s) := by
  unfold execLowerHalfWrite
  split <;> simp

theorem execUpperHalfWrite_lands (who : Requester) (d : Dev) (a : W32) (v : W32) (s : State) : LandsFrom s (execUpperHalfWrite who d a v s) := by
  unfold execUpperHalfWrite
  split <;> simp

theorem execLowerHalfRead_lands (who : Requester) (d : Dev) (a : W32) (s : State) : LandsFrom s (execLowerHalfRead who d a s) := by
  unfold execLowerHalfRead
  split <;> simp

theorem execUpperHalfRead_lands (who : Requester) (d : Dev) (a : W32) (s : State) : LandsFrom s (execUpperHalfRead who d a s) := by
  unfold execUpperHalfRead
  split <;> simp

theorem execEpochMark_lands (dev : Dev) (cycles : W32) (s : State) : LandsFrom s (execEpochMark dev cycles s) := by
  unfold execEpochMark
  repeat' split
  all_goals simp

theorem execRefclkLost_lands (dev : Dev) (s : State) : LandsFrom s (execRefclkLost dev s) := by
  unfold execRefclkLost
  repeat' split
  all_goals simp

theorem execRefclkReturn_lands (dev : Dev) (s : State) : LandsFrom s (execRefclkReturn dev s) := by
  unfold execRefclkReturn
  split <;> simp

theorem execFreeRun_lands (dev : Dev) (cycles : W32) (s : State) : LandsFrom s (execFreeRun dev cycles s) := by
  unfold execFreeRun
  dsimp only [landsFrom_next]
  repeat' split
  all_goals simp

theorem execStampExchange_lands (k : Fin 12) (beat : W64) (s : State) : LandsFrom s (execStampExchange k beat s) := by
  unfold execStampExchange
  dsimp only [landsFrom_next]
  repeat' split
  all_goals simp

theorem execStampReq_lands (p : PortRef) (t1 : W64) (replayed sealFailed : Bool) (s : State) :
    LandsFrom s (execStampReq p t1 replayed sealFailed s) := by
  unfold execStampReq
  split <;> simp

/-- A link-local frame lands where its action does. -/
theorem State.takeLocal_lands (s : State) (p : PortRef) (raw : RawFrame) (act : State → State) (h : Lands k s.apart)
    (lands : ∀ t : State, Lands k t.apart → Lands k (act t).apart) : Lands k (s.takeLocal p raw act).apart := by
  rcases s.takeLocal_cases p raw act with same | same | same
  all_goals rw [same]
  · exact h
  · simpa using h
  · exact lands _ (by simpa using h)

theorem execStampRsp_lands (p : PortRef) (t2 t1 t3 : W64) (replayed sealFailed : Bool) (s : State) :
    LandsFrom s (execStampRsp p t2 t1 t3 replayed sealFailed s) := by
  refine State.takeLocal_lands s p _ _ (.refl _) fun t ht => ?_
  dsimp only
  split
  · exact ht
  · split
    · repeat' split
      all_goals simp [ht]
    · simp [ht]

theorem execLathReceive_lands (p : PortRef) (bytes : List Byte) (s : State) : LandsFrom s (execLathReceive p bytes s) := by
  unfold execLathReceive
  repeat' split
  all_goals simp

theorem execNak_lands (p : PortRef) (ack : BitVec 12) (s : State) : LandsFrom s (execNak p ack s) := by
  unfold execNak
  split <;> simp

theorem execArbitration_lands (p : PortRef) (s : State) : LandsFrom s (execArbitration p s) := by
  simp [execArbitration]

theorem execCredit_lands (p : PortRef) (counts : List W16) (s : State) : LandsFrom s (execCredit p counts s) := by
  simp [execCredit]

theorem execRetrain_lands (p : PortRef) (_cause : RetrainCause) (s : State) : LandsFrom s (execRetrain p _cause s) := by
  unfold execRetrain
  split <;> simp

theorem execRetrainRelock_lands (p : PortRef) (ident : Identity) (s : State) : LandsFrom s (execRetrainRelock p ident s) := by
  unfold execRetrainRelock
  repeat' split
  all_goals simp

theorem execRetrainTimeout_lands (p : PortRef) (s : State) : LandsFrom s (execRetrainTimeout p s) := by
  unfold execRetrainTimeout
  split <;> simp

theorem execPartnerDetected_lands (p : PortRef) (s : State) : LandsFrom s (execPartnerDetected p s) := by
  unfold execPartnerDetected
  split <;> simp

theorem execEqualiseDone_lands (p : PortRef) (s : State) : LandsFrom s (execEqualiseDone p s) := by
  unfold execEqualiseDone
  split <;> simp

theorem execEqualiseTimeout_lands (p : PortRef) (s : State) : LandsFrom s (execEqualiseTimeout p s) := by
  unfold execEqualiseTimeout
  repeat' split
  all_goals simp

theorem execLockDone_lands (p : PortRef) (s : State) : LandsFrom s (execLockDone p s) := by
  unfold execLockDone
  split <;> simp

theorem execLockTimeout_lands (p : PortRef) (s : State) : LandsFrom s (execLockTimeout p s) := by
  unfold execLockTimeout
  split <;> simp

theorem execIdentityRecord_lands (p : PortRef) (ident : Identity) (s : State) : LandsFrom s (execIdentityRecord p ident s) := by
  unfold execIdentityRecord
  dsimp only [landsFrom_next]
  repeat' split
  all_goals simp

theorem execNegotiate_lands (p : PortRef) (rev : Option (BitVec 2)) (feats : W16) (s : State) : LandsFrom s (execNegotiate p rev feats s) := by
  unfold execNegotiate
  repeat' split
  all_goals simp

theorem execInitialCreditGrant_lands (p : PortRef) (grants : List W16) (s : State) : LandsFrom s (execInitialCreditGrant p grants s) := by
  unfold execInitialCreditGrant
  repeat' split
  all_goals simp

theorem execPartnerIdle_lands (p : PortRef) (s : State) : LandsFrom s (execPartnerIdle p s) := by
  unfold execPartnerIdle
  split <;> simp

theorem execPrtCtrlRestart_lands (p : PortRef) (s : State) : LandsFrom s (execPrtCtrlRestart p s) := by
  unfold execPrtCtrlRestart
  split <;> simp

theorem execFrameRouting_lands (n : Fin 144) (raw : RawFrame) (s : State) : LandsFrom s (execFrameRouting n raw s) := by
  simp [execFrameRouting]

theorem execBundleResponse_lands (s : State) : LandsFrom s (execBundleResponse s) := by
  unfold execBundleResponse
  rw [landsFrom_next]
  split
  · exact .refl _
  · rename_i found
    rw [← State.dequeue_apart found]
    dsimp only
    split <;> simp

theorem execValleyAudit_lands (beat : W64) (s : State) : LandsFrom s (execValleyAudit beat s) := by
  unfold execValleyAudit
  dsimp only [landsFrom_next]
  repeat' split
  all_goals simp

theorem execPurLrtShadow_lands (who : Requester) (n : Byte) (value : W32) (s : State) : LandsFrom s (execPurLrtShadow who n value s) := by
  unfold execPurLrtShadow
  split <;> simp

theorem execPurEpochAt_lands (who : Requester) (value : W64) (s : State) : LandsFrom s (execPurEpochAt who value s) := by
  unfold execPurEpochAt
  split <;> simp

theorem execRouteEpoch_lands (beat : W64) (s : State) : LandsFrom s (execRouteEpoch beat s) := by
  unfold execRouteEpoch
  rw [landsFrom_next, ← s.toBeat_apart beat.toNat]
  split
  · exact .refl _
  · exact .refl _

theorem execPurNodeLostSet_lands (who : Requester) (value : W32) (s : State) : LandsFrom s (execPurNodeLostSet who value s) := by
  unfold execPurNodeLostSet
  split <;> simp

theorem execBatten_lands (h : BattenSel) (s : State) : LandsFrom s (execBatten h s) := by
  unfold execBatten
  split <;> simp

theorem execBattenAccept_lands (g : Fin 4) (s : State) : LandsFrom s (execBattenAccept g s) := by
  simp [execBattenAccept]

theorem execBattenCont_lands (h : BattenSel) (s : State) : LandsFrom s (execBattenCont h s) := by
  unfold execBattenCont
  split <;> simp

theorem execListIncomplete_lands (l : ListSel) (beat : W64) (s : State) : LandsFrom s (execListIncomplete l beat s) := by
  unfold execListIncomplete
  dsimp only [landsFrom_next]
  repeat' split
  all_goals simp

theorem execStackTrainingLost_lands (n : Fin 32) (s : State) : LandsFrom s (execStackTrainingLost n s) := by
  unfold execStackTrainingLost
  split <;> simp

theorem execHomeQueueStopped_lands (n : Fin 32) (beat : W64) (s : State) : LandsFrom s (execHomeQueueStopped n beat s) := by
  unfold execHomeQueueStopped
  dsimp only [landsFrom_next]
  repeat' split
  all_goals simp

theorem execDefine_lands (k : Fin 16) (s : State) : LandsFrom s (execDefine k s) := by
  unfold execDefine
  split <;> simp

theorem execSealRegion_lands (k : Fin 16) (s : State) : LandsFrom s (execSealRegion k s) := by
  unfold execSealRegion
  split <;> simp

theorem execReopen_lands (k : Fin 16) (s : State) : LandsFrom s (execReopen k s) := by
  unfold execReopen
  split <;> simp

theorem execSilver_lands (k : Fin 16) (s : State) : LandsFrom s (execSilver k s) := by
  unfold execSilver
  split <;> simp

theorem execAdvance_lands (k : Fin 16) (s : State) : LandsFrom s (execAdvance k s) := by
  unfold execAdvance
  split <;> simp

theorem execDeclareLost_lands (k : Fin 16) (s : State) : LandsFrom s (execDeclareLost k s) := by
  unfold execDeclareLost
  split <;> simp

theorem execDissolve_lands (k : Fin 16) (s : State) : LandsFrom s (execDissolve k s) := by
  unfold execDissolve
  split <;> simp

theorem execDigestDone_lands (k : Fin 16) (s : State) : LandsFrom s (execDigestDone k s) := by
  unfold execDigestDone
  dsimp only [landsFrom_next]
  repeat' split
  all_goals simp

theorem execTransfer_lands (t : Transfer) (s : State) : LandsFrom s (execTransfer t s) := by
  unfold execTransfer
  dsimp only [landsFrom_next]
  repeat' split
  all_goals simp

theorem execFence_lands (f : FenceReq) (s : State) : LandsFrom s (execFence f s) := by
  unfold execFence
  dsimp only [landsFrom_next]
  repeat' split
  all_goals simp

theorem execTransferIssue_lands (e : Byte) (s : State) : LandsFrom s (execTransferIssue e s) := by
  unfold execTransferIssue
  repeat' split
  all_goals simp

theorem execResponseArrival_lands (p : PortRef) (f : Frame) (s : State) : LandsFrom s (execResponseArrival p f s) := by
  unfold execResponseArrival
  repeat' split
  all_goals simp

theorem execJebInvTail_lands (value : W32) (entries : List HostRead) (s : State) : LandsFrom s (execJebInvTail value entries s) := by
  simp [execJebInvTail]

theorem execCopy_lands (data : HostRead) (s : State) : LandsFrom s (execCopy data s) := by
  unfold execCopy
  rw [landsFrom_next]
  split
  · exact .refl _
  · dsimp only
    split
    · rw [State.updJeb_apart _ _ rfl]
      simp
    · refine State.updJeb_lands _ (by simp) fun ok => ?_
      rw [Jeb.ringNext_mem]
      exact foldl_wf _ (fun _ _ => storeShingle_wf _ _ _) _ ok

theorem execInvalVa_lands (s : State) : LandsFrom s (execInvalVa s) := by
  unfold execInvalVa
  split <;> simp

theorem execInvalCtx_lands (s : State) : LandsFrom s (execInvalCtx s) := by
  unfold execInvalCtx
  split <;> simp

theorem execInvalAll_lands (s : State) : LandsFrom s (execInvalAll s) := by
  unfold execInvalAll
  split <;> simp

theorem execGen_lands (s : State) : LandsFrom s (execGen s) := by
  unfold execGen
  split <;> simp

theorem execGenComplete_lands (s : State) : LandsFrom s (execGenComplete s) := by
  unfold execGenComplete
  repeat' split
  all_goals simp

theorem execJebGenErr_lands (s : State) : LandsFrom s (execJebGenErr s) := by
  simp [execJebGenErr]

theorem execJebFltResume_lands (task : W16) (s : State) : LandsFrom s (execJebFltResume task s) := by
  simp [execJebFltResume]

theorem execJebFltHead_lands (value : W32) (s : State) : LandsFrom s (execJebFltHead value s) := by
  simp [execJebFltHead]

theorem execJebEpochAt_lands (who : Requester) (value : W64) (s : State) : LandsFrom s (execJebEpochAt who value s) := by
  unfold execJebEpochAt
  split <;> simp

theorem execJebRouteEpoch_lands (beat : W64) (s : State) : LandsFrom s (execJebRouteEpoch beat s) := by
  unfold execJebRouteEpoch
  dsimp only [landsFrom_next]
  repeat' split
  all_goals simp

theorem execMovedBucketUndrained_lands (beat : W64) (s : State) : LandsFrom s (execMovedBucketUndrained beat s) := by
  unfold execMovedBucketUndrained
  dsimp only [landsFrom_next]
  repeat' split
  all_goals simp

theorem execMovedBucketFatal_lands (beat : W64) (s : State) : LandsFrom s (execMovedBucketFatal beat s) := by
  unfold execMovedBucketFatal
  dsimp only [landsFrom_next]
  repeat' split
  all_goals simp

/-- What a SEG frame carries is written as it lands. -/
theorem landSeg_wf {m : Store} (a : Nat) (f : Frame) (h : Memory.wf m.mem = true) : Memory.wf (landSeg m a f).mem = true :=
  foldl_wf _ (fun _ _ => landShingle_wf _ _ _) _ h

theorem execSeg_lands (p : PortRef) (f : Frame) (s : State) : LandsFrom s (execSeg p f s) := by
  unfold execSeg
  rw [landsFrom_next]
  split
  · exact .refl _
  · dsimp only
    split
    · simp
    · have landed (a : Nat) : Lands s.apart ((s.jebTake p f).updJeb fun j => { j with mem := (landSeg j.store a f).mem }).apart :=
        State.updJeb_lands _ (by simp) (landSeg_wf (m := (s.jebTake p f).jeb.store) a f)
      split
      · rw [State.advance_apart]
        exact landed _
      · exact landed _

theorem execSignal_lands (p : PortRef) (f : Frame) (s : State) : LandsFrom s (execSignal p f s) := by
  unfold execSignal
  dsimp only [landsFrom_next]
  repeat' split
  all_goals simp

theorem execSendArm_lands (n : BitVec 10) (value : W64) (s : State) : LandsFrom s (execSendArm n value s) := by
  simp [execSendArm]

theorem execSendGo_lands (n : BitVec 10) (s : State) : LandsFrom s (execSendGo n s) := by
  simp [execSendGo]

theorem execSend_lands (n : BitVec 10) (s : State) : LandsFrom s (execSend n s) := by
  unfold execSend
  dsimp only [landsFrom_next]
  repeat' split
  all_goals simp

theorem execTdispError_lands (s : State) : LandsFrom s (execTdispError s) := by
  simp [execTdispError]

theorem execJebReset_lands (s : State) : LandsFrom s (execJebReset s) := by
  simp [execJebReset]

/-- A teardown's frame lands where its action does. -/
theorem State.jebTeardown_lands (s : State) (p : PortRef) (f : Frame) (act : Fin 18 → State → State) (h : Lands k s.apart)
    (lands : ∀ q t, Lands k t.apart → Lands k (act q t).apart) : Lands k (s.jebTeardown p f act).apart := by
  unfold State.jebTeardown
  split
  · exact h
  · dsimp only
    split
    · simp [h]
    · exact lands _ _ (by simp [h])
    · simp [h]

theorem execJebTeardown_lands (p : PortRef) (f : Frame) (s : State) : LandsFrom s (execJebTeardown p f s) := by
  unfold execJebTeardown
  rw [landsFrom_next]
  split
  · exact .refl _
  · exact s.jebTeardown_lands p f _ (.refl _) fun q t ht => t.jebStop_lands q _ ht

theorem execTeardownResume_lands (p : PortRef) (f : Frame) (s : State) : LandsFrom s (execTeardownResume p f s) := by
  unfold execTeardownResume
  rw [landsFrom_next]
  split
  · exact .refl _
  · exact s.jebTeardown_lands p f _ (.refl _) fun q t ht => by rwa [State.jebResume_apart]

theorem execKeyInstall_lands (p : PortRef) (f : Frame) (s : State) : LandsFrom s (execKeyInstall p f s) := by
  unfold execKeyInstall
  repeat' split
  all_goals simp

theorem execKeyActivate_lands (p : PortRef) (f : Frame) (s : State) : LandsFrom s (execKeyActivate p f s) := by
  unfold execKeyActivate
  repeat' split
  all_goals simp

theorem execKeyRetire_lands (p : PortRef) (f : Frame) (s : State) : LandsFrom s (execKeyRetire p f s) := by
  unfold execKeyRetire
  repeat' split
  all_goals simp

theorem execKeyDestroy_lands (p : PortRef) (f : Frame) (s : State) : LandsFrom s (execKeyDestroy p f s) := by
  unfold execKeyDestroy
  repeat' split
  all_goals simp

theorem execKeyAck_lands (p : PortRef) (f : Frame) (s : State) : LandsFrom s (execKeyAck p f s) := by
  unfold execKeyAck
  rw [landsFrom_next]
  split
  · exact .refl _
  · split
    · split
      · rename_i taken
        rw [State.agentTake_apart (.inr taken)]
        exact .refl _
      · rename_i taken
        rw [← State.agentTake_apart (.inl taken)]
        simp
    · simp
    · simp

theorem execKeyAckTimeout_lands (s : State) : LandsFrom s (execKeyAckTimeout s) := by
  unfold execKeyAckTimeout
  repeat' split
  all_goals simp

theorem execActivateRetry_lands (slot : BitVec 2) (s : State) : LandsFrom s (execActivateRetry slot s) := by
  unfold execActivateRetry
  split <;> simp

theorem execCtrlWr_lands (d : Dev) (p : PortRef) (f : Frame) (s : State) : LandsFrom s (execCtrlWr d p f s) := by
  simp [execCtrlWr]

theorem execCtrlRd_lands (d : Dev) (p : PortRef) (f : Frame) (s : State) : LandsFrom s (execCtrlRd d p f s) := by
  simp [execCtrlRd]

theorem execRelayRequest_lands (s : State) : LandsFrom s (execRelayRequest s) := by
  unfold execRelayRequest
  rw [landsFrom_next]
  split
  · exact .refl _
  · rename_i found
    rw [← State.soffitFirst_apart found]
    simp

theorem execRelayResponse_lands (s : State) : LandsFrom s (execRelayResponse s) := by
  unfold execRelayResponse
  rw [landsFrom_next]
  split
  · exact .refl _
  · rename_i found
    rw [← State.soffitFirst_apart found]
    split <;> simp

theorem execGutJebReport_lands (s : State) : LandsFrom s (execGutJebReport s) := by
  unfold execGutJebReport
  rw [landsFrom_next]
  split
  · exact .refl _
  · rename_i found
    rw [← State.soffitFirst_apart found]
    simp

theorem execTest_lands (p : PortRef) (f : Frame) (s : State) : LandsFrom s (execTest p f s) := by
  unfold execTest
  repeat' split
  all_goals simp

theorem execTestEcho_lands (p : PortRef) (f : Frame) (s : State) : LandsFrom s (execTestEcho p f s) := by
  unfold execTestEcho
  rw [landsFrom_next]
  split
  · exact .refl _
  · split
    · split
      · rename_i taken
        rw [State.agentTake_apart (.inr taken)]
        exact .refl _
      · rename_i taken
        rw [← State.agentTake_apart (.inl taken)]
        split <;> simp
    · simp

theorem execAdmitBay_lands (s : State) : LandsFrom s (execAdmitBay s) := by
  unfold execAdmitBay
  split <;> simp

theorem execHipAdmissionCheck_lands (expired : Bool) (s : State) : LandsFrom s (execHipAdmissionCheck expired s) := by
  unfold execHipAdmissionCheck
  repeat' split
  all_goals simp

theorem execMeasure_lands (s : State) : LandsFrom s (execMeasure s) := by
  unfold execMeasure
  split <;> simp

theorem execRelease_lands (s : State) : LandsFrom s (execRelease s) := by
  unfold execRelease
  split <;> simp

theorem execDestroyTimeout_lands (n : Fin 144) (s : State) : LandsFrom s (execDestroyTimeout n s) := by
  unfold execDestroyTimeout
  split <;> simp

theorem execSecWeight_lands (k : Fin 16) (value : W64) (s : State) : LandsFrom s (execSecWeight k value s) := by
  unfold execSecWeight
  split <;> simp

theorem execBayKeys_lands (requester : Nat) (r : KeyReq) (s : State) : LandsFrom s (execBayKeys requester r s) := by
  unfold execBayKeys
  dsimp only [landsFrom_next]
  repeat' split
  all_goals simp

theorem execRotate_lands (requester : Nat) (r : KeyReq) (s : State) : LandsFrom s (execRotate requester r s) := by
  unfold execRotate
  dsimp only [landsFrom_next]
  repeat' split
  all_goals simp

theorem execWeightKey_lands (requester : Nat) (slot : Byte) (zero : BitVec 24) (key : BitVec 256) (s : State) :
    LandsFrom s (execWeightKey requester slot zero key s) := by
  unfold execWeightKey
  dsimp only [landsFrom_next]
  repeat' split
  all_goals simp

theorem execWeightDestroy_lands (requester : Nat) (slot : Byte) (s : State) : LandsFrom s (execWeightDestroy requester slot s) := by
  unfold execWeightDestroy
  dsimp only [landsFrom_next]
  repeat' split
  all_goals simp

theorem execSignedMeasurements_lands (nonce : BitVec 256) (indices : List Nat) (s : State) :
    LandsFrom s (execSignedMeasurements nonce indices s) := by
  unfold execSignedMeasurements
  split <;> simp

theorem execSourceWindowClose_lands (n : Fin 23) (beat : W64) (s : State) : LandsFrom s (execSourceWindowClose n beat s) := by
  simp [execSourceWindowClose]

theorem execGutTdCtlStop_lands (who : Requester) (s : State) : LandsFrom s (execGutTdCtlStop who s) := by
  unfold execGutTdCtlStop
  split <;> simp

theorem execTeardownStop_lands (n : Fin 144) (f : Frame) (s : State) : LandsFrom s (execTeardownStop n f s) := by
  unfold execTeardownStop
  rw [landsFrom_next]
  split
  · exact .refl _
  · split
    · rename_i taken
      rw [State.agentTake_apart (.inr taken)]
      exact .refl _
    · rename_i taken
      rw [← State.agentTake_apart (.inl taken)]
      simp

theorem execStopAckTimeout_lands (n : Fin 144) (s : State) : LandsFrom s (execStopAckTimeout n s) := by
  unfold execStopAckTimeout
  dsimp only [landsFrom_next]
  repeat' split
  all_goals simp

theorem execQuiescent_lands (s : State) : LandsFrom s (execQuiescent s) := by
  unfold execQuiescent
  dsimp only [landsFrom_next]
  repeat' split
  all_goals simp

theorem execGutTdCtlRestart_lands (who : Requester) (s : State) : LandsFrom s (execGutTdCtlRestart who s) := by
  unfold execGutTdCtlRestart
  split <;> simp

theorem execResumeAcknowledged_lands (s : State) : LandsFrom s (execResumeAcknowledged s) := by
  unfold execResumeAcknowledged
  split <;> simp

theorem execGutTdCtlUnhold_lands (who : Requester) (s : State) : LandsFrom s (execGutTdCtlUnhold who s) := by
  unfold execGutTdCtlUnhold
  split <;> simp

theorem execGutFencePort_lands (who : Requester) (w : Fin 3) (value : W64) (s : State) : LandsFrom s (execGutFencePort who w value s) := by
  unfold execGutFencePort
  split <;> simp

theorem execGutFatalValid_lands (who : Requester) (s : State) : LandsFrom s (execGutFatalValid who s) := by
  unfold execGutFatalValid
  split <;> simp

theorem execGutCapStatusClear_lands (who : Requester) (s : State) : LandsFrom s (execGutCapStatusClear who s) := by
  unfold execGutCapStatusClear
  split <;> simp

theorem execJalemPoll_lands (beat : W64) (order : List (Fin 144)) (s : State) : LandsFrom s (execJalemPoll beat order s) := by
  unfold execJalemPoll
  dsimp only [landsFrom_next]
  repeat' split
  all_goals simp

theorem execMarginMeasurement_lands (o : MarginObj) (m : MarginMeas) (beat : W64) (s : State) : LandsFrom s (execMarginMeasurement o m beat s) := by
  unfold execMarginMeasurement
  dsimp only [landsFrom_next]
  repeat' split
  all_goals simp

theorem execContrib_lands (s : State) : LandsFrom s (execContrib s) := by
  unfold execContrib
  rw [landsFrom_next]
  split
  · exact .refl _
  · rename_i found
    rw [← State.dequeue_apart found]
    split <;> simp

theorem execStalled_lands (slot : Byte) (chunk : BitVec 10) (lo hi : Byte) (s : State) : LandsFrom s (execStalled slot chunk lo hi s) := by
  unfold execStalled
  dsimp only [landsFrom_next]
  repeat' split
  all_goals simp

theorem execGableAbandon_lands (slot : Byte) (beat : W64) (s : State) : LandsFrom s (execGableAbandon slot beat s) := by
  unfold execGableAbandon
  dsimp only [landsFrom_next]
  repeat' split
  all_goals simp

theorem execSlotFree_lands (s : State) : LandsFrom s (execSlotFree s) := by
  unfold execSlotFree
  split <;> simp

theorem execStart_lands (s : State) : LandsFrom s (execStart s) := by
  unfold execStart
  rw [landsFrom_next]
  split
  · exact .refl _
  · rename_i found
    rw [← State.trsTake_apart found]
    repeat' split
    all_goals simp

theorem execRunStart_lands (comm : BitVec 6) (beat : W64) (s : State) : LandsFrom s (execRunStart comm beat s) := by
  unfold execRunStart
  dsimp only [landsFrom_next]
  repeat' split
  all_goals simp

theorem execStepInstr_lands (ctx : BitVec 9) (beat : W64) (s : State) : LandsFrom s (execStepInstr ctx beat s) := by
  unfold execStepInstr
  dsimp only [landsFrom_next]
  repeat' split
  all_goals simp

theorem execSegment_lands (ctx : BitVec 9) (s : State) : LandsFrom s (execSegment ctx s) := by
  unfold execSegment
  dsimp only [landsFrom_next]
  repeat' split
  all_goals simp

theorem execSlotGrant_lands (slot : Byte) (s : State) : LandsFrom s (execSlotGrant slot s) := by
  unfold execSlotGrant
  dsimp only [landsFrom_next]
  repeat' split
  all_goals simp

theorem execSignalInstruction_lands (ctx : BitVec 9) (s : State) : LandsFrom s (execSignalInstruction ctx s) := by
  unfold execSignalInstruction
  split <;> simp

theorem execReduce_lands (ctx : BitVec 9) (s : State) : LandsFrom s (execReduce ctx s) := by
  unfold execReduce
  dsimp only [landsFrom_next]
  repeat' split
  all_goals simp

theorem execSendInstruction_lands (ctx : BitVec 9) (s : State) : LandsFrom s (execSendInstruction ctx s) := by
  unfold execSendInstruction
  rw [landsFrom_next]
  split
  · exact .refl _
  · dsimp only
    split
    · simp
    · split
      · rw [State.foldl_apart]
        · simp
        · intro t f
          repeat' split
          all_goals simp
      · simp

theorem execWait_lands (ctx : BitVec 9) (s : State) : LandsFrom s (execWait ctx s) := by
  unfold execWait
  repeat' split
  all_goals simp

theorem execRaise_lands (s : State) : LandsFrom s (execRaise s) := by
  unfold execRaise
  rw [landsFrom_next]
  split
  · exact .refl _
  · rename_i found
    rw [← State.trsTake_apart found]
    dsimp only
    repeat' split
    all_goals simp

theorem execRelay_lands (s : State) : LandsFrom s (execRelay s) := by
  unfold execRelay
  rw [landsFrom_next]
  split
  · exact .refl _
  · rename_i found
    rw [← State.trsTake_apart found]
    dsimp only
    repeat' split
    all_goals simp

theorem execReady_lands (s : State) : LandsFrom s (execReady s) := by
  unfold execReady
  rw [landsFrom_next]
  split
  · exact .refl _
  · rename_i found
    rw [← State.trsTake_apart found]
    split <;> simp

theorem execTrsProgDirValid_lands (who : Requester) (n : BitVec 4) (value : W64) (s : State) : LandsFrom s (execTrsProgDirValid who n value s) := by
  unfold execTrsProgDirValid
  split <;> simp

theorem execTrsCommCtlValid_lands (who : Requester) (n : BitVec 6) (value : W64) (s : State) : LandsFrom s (execTrsCommCtlValid who n value s) := by
  unfold execTrsCommCtlValid
  split <;> simp

theorem execWindowTableWrite_lands (d : Dev) (who : Requester) (n : Byte) (reg : BitVec 3) (v : W64) (s : State) :
    LandsFrom s (execWindowTableWrite d who n reg v s) := by
  unfold execWindowTableWrite
  split <;> simp

theorem execLogRead_lands (first : W64) (count : Byte) (s : State) : LandsFrom s (execLogRead first count s) := by
  simp [execLogRead]

theorem execCertRead_lands (s : State) : LandsFrom s (execCertRead s) := by
  simp [execCertRead]

theorem execGovernorInterval_lands (beat : W64) (meas : PwrMeas) (s : State) : LandsFrom s (execGovernorInterval beat meas s) := by
  unfold execGovernorInterval
  dsimp only [landsFrom_next]
  repeat' split
  all_goals simp

theorem execPwrCap_lands (who : Requester) (value : W32) (s : State) : LandsFrom s (execPwrCap who value s) := by
  unfold execPwrCap
  split <;> simp

theorem execRcLost_lands (beat : W64) (s : State) : LandsFrom s (execRcLost beat s) := by
  unfold execRcLost
  dsimp only [landsFrom_next]
  repeat' split
  all_goals simp

theorem execBrakeAssert_lands (lastBeatPower : W16) (s : State) : LandsFrom s (execBrakeAssert lastBeatPower s) := by
  unfold execBrakeAssert
  dsimp only [landsFrom_next]
  repeat' split
  all_goals simp

theorem execBrakeRelease_lands (beat : W64) (s : State) : LandsFrom s (execBrakeRelease beat s) := by
  unfold execBrakeRelease
  have raised : Lands s.apart (s.toBeat beat.toNat).apart := by simp
  rw [landsFrom_next]
  dsimp only
  split
  · rw [State.pace_apart, State.setPwr_apart]
    exact raised
  · exact raised

theorem execVinRange_lands (vin : W16) (s : State) : LandsFrom s (execVinRange vin s) := by
  unfold execVinRange
  dsimp only [landsFrom_next]
  repeat' split
  all_goals simp

theorem execInputLoss_lands (vin : W16) (s : State) : LandsFrom s (execInputLoss vin s) := by
  unfold execInputLoss
  dsimp only [landsFrom_next]
  repeat' split
  all_goals simp

theorem execInletHigh_lands (m : CoolMeas) (s : State) : LandsFrom s (execInletHigh m s) := by
  simp [execInletHigh]

theorem execThrottle_lands (m : CoolMeas) (s : State) : LandsFrom s (execThrottle m s) := by
  unfold execThrottle
  dsimp only [landsFrom_next]
  repeat' split
  all_goals simp

theorem execPumpLost_lands (m : CoolMeas) (s : State) : LandsFrom s (execPumpLost m s) := by
  unfold execPumpLost
  dsimp only [landsFrom_next]
  repeat' split
  all_goals simp

theorem execOrderlyShutdown_lands (m : CoolMeas) (pumpTenSeconds : Bool) (s : State) : LandsFrom s (execOrderlyShutdown m pumpTenSeconds s) := by
  unfold execOrderlyShutdown
  dsimp only [landsFrom_next]
  repeat' split
  all_goals simp

theorem execPwrEnHigh_lands (s : State) : LandsFrom s (execPwrEnHigh s) := by
  simp [execPwrEnHigh]

theorem execPwrEnLow_lands (s : State) : LandsFrom s (execPwrEnLow s) := by
  unfold execPwrEnLow
  dsimp only [landsFrom_next]
  repeat' split
  all_goals simp

theorem execResetNLow_lands (us : Nat) (s : State) : LandsFrom s (execResetNLow us s) := by
  unfold execResetNLow
  split
  · simp
  · split
    · trivial
    · simp

theorem execModuleStart_lands (coolTj flow : Byte) (slotId : BitVec 4) (stageOk : Bool) (s : State) :
    LandsFrom s (execModuleStart coolTj flow slotId stageOk s) := by
  unfold execModuleStart
  dsimp only [landsFrom_next]
  repeat' split
  all_goals simp

theorem execWatchdog_lands (beat : W64) (s : State) : LandsFrom s (execWatchdog beat s) := by
  unfold execWatchdog
  dsimp only [landsFrom_next]
  repeat' split
  all_goals simp

theorem execTrialTimeout_lands (s : State) : LandsFrom s (execTrialTimeout s) := by
  unfold execTrialTimeout
  split <;> simp

theorem execSofFwCtlCommit_lands (who : Requester) (s : State) : LandsFrom s (execSofFwCtlCommit who s) := by
  unfold execSofFwCtlCommit
  split <;> simp

theorem execSofFwCtlAdvance_lands (who : Requester) (s : State) : LandsFrom s (execSofFwCtlAdvance who s) := by
  unfold execSofFwCtlAdvance
  split <;> simp

theorem execFirmwareUpdate_lands (img : FwImage) (step : UpdateStep) (s : State) : LandsFrom s (execFirmwareUpdate img step s) := by
  unfold execFirmwareUpdate
  repeat' split
  all_goals simp

theorem execConfigurationUpdate_lands (img : CfgImage) (step : UpdateStep) (s : State) : LandsFrom s (execConfigurationUpdate img step s) := by
  unfold execConfigurationUpdate
  repeat' split
  all_goals simp

theorem execPrbs31_lands (n : Fin 144) (s : State) : LandsFrom s (execPrbs31 n s) := by
  simp [execPrbs31]

theorem execPrbs13q_lands (n : Fin 144) (s : State) : LandsFrom s (execPrbs13q n s) := by
  simp [execPrbs13q]

theorem execPatternOff_lands (n : Fin 144) (s : State) : LandsFrom s (execPatternOff n s) := by
  unfold execPatternOff
  split <;> simp

theorem execGenEn_lands (n : Fin 144) (s : State) : LandsFrom s (execGenEn n s) := by
  simp [execGenEn]

theorem execTdispStateChange_lands (st : BitVec 2) (ideBound : Bool) (s : State) : LandsFrom s (execTdispStateChange st ideBound s) := by
  unfold execTdispStateChange
  rw [landsFrom_next, State.updJeb_apart _ _ rfl]
  split <;> simp

theorem execStackRetraining_lands (n : Fin 32) (s : State) : LandsFrom s (execStackRetraining n s) := by
  unfold execStackRetraining
  split <;> simp

theorem execStackRetrained_lands (n : Fin 32) (s : State) : LandsFrom s (execStackRetrained n s) := by
  simp [execStackRetrained]

theorem execSecureSessionOpen_lands (session : Nat × Byte) (s : State) : LandsFrom s (execSecureSessionOpen session s) := by
  unfold execSecureSessionOpen
  split <;> simp

theorem execSecureSessionEnd_lands (i : Nat) (s : State) : LandsFrom s (execSecureSessionEnd i s) := by
  simp [execSecureSessionEnd]

theorem execAlertResponseAddress_lands (s : State) : LandsFrom s (execAlertResponseAddress s) := by
  simp [execAlertResponseAddress]

theorem execQspiServiceAccess_lands (access : QspiAccess) (s : State) : LandsFrom s (execQspiServiceAccess access s) := by
  unfold execQspiServiceAccess
  repeat' split
  all_goals simp

/-- Of the commands that do not work on the module's memory and are not Gauge's own, each leaves the module's memory, Gauge and the waiting
commands, and keeps the block's memory in its form. -/
theorem exec_lands (s : State) : ∀ c : Instr, memoryCommand c = false → gaugeCommand c = false → LandsFrom s (exec c s)
  | .registerWrite _ _ _ _ _, _, _ => execRegisterWrite_lands ..
  | .rcRead _ _ _ _, _, _ => execRcRead_lands ..
  | .lowerHalfWrite _ _ _ _, _, _ => execLowerHalfWrite_lands ..
  | .upperHalfWrite _ _ _ _, _, _ => execUpperHalfWrite_lands ..
  | .lowerHalfRead _ _ _, _, _ => execLowerHalfRead_lands ..
  | .upperHalfRead _ _ _, _, _ => execUpperHalfRead_lands ..
  | .epochMark _ _, _, _ => execEpochMark_lands ..
  | .refclkLost _, _, _ => execRefclkLost_lands ..
  | .refclkReturn _, _, _ => execRefclkReturn_lands ..
  | .freeRun _ _, _, _ => execFreeRun_lands ..
  | .stampExchange _ _, _, _ => execStampExchange_lands ..
  | .stampReq _ _ _ _, _, _ => execStampReq_lands ..
  | .stampRsp _ _ _ _ _ _, _, _ => execStampRsp_lands ..
  | .lathReceive _ _, _, _ => execLathReceive_lands ..
  | .nak _ _, _, _ => execNak_lands ..
  | .arbitration _, _, _ => execArbitration_lands ..
  | .credit _ _, _, _ => execCredit_lands ..
  | .retrain p cause, _, _ => execRetrain_lands p cause s
  | .retrainRelock _ _, _, _ => execRetrainRelock_lands ..
  | .retrainTimeout _, _, _ => execRetrainTimeout_lands ..
  | .partnerDetected _, _, _ => execPartnerDetected_lands ..
  | .equaliseDone _, _, _ => execEqualiseDone_lands ..
  | .equaliseTimeout _, _, _ => execEqualiseTimeout_lands ..
  | .lockDone _, _, _ => execLockDone_lands ..
  | .lockTimeout _, _, _ => execLockTimeout_lands ..
  | .identityRecord _ _, _, _ => execIdentityRecord_lands ..
  | .negotiate _ _ _, _, _ => execNegotiate_lands ..
  | .initialCreditGrant _ _, _, _ => execInitialCreditGrant_lands ..
  | .partnerIdle _, _, _ => execPartnerIdle_lands ..
  | .prtCtrlRestart _, _, _ => execPrtCtrlRestart_lands ..
  | .frameRouting _ _, _, _ => execFrameRouting_lands ..
  | .bundleResponse, _, _ => execBundleResponse_lands ..
  | .valleyAudit _, _, _ => execValleyAudit_lands ..
  | .purLrtShadow _ _ _, _, _ => execPurLrtShadow_lands ..
  | .purEpochAt _ _, _, _ => execPurEpochAt_lands ..
  | .routeEpoch _, _, _ => execRouteEpoch_lands ..
  | .purNodeLostSet _ _, _, _ => execPurNodeLostSet_lands ..
  | .load (.jalem p f), _, _ => s.jebPerform_lands p f _ (.refl _)
  | .store (.jalem p f), _, _ => s.jebPerform_lands p f _ (.refl _)
  | .atomic (.jalem p f), _, _ => s.jebPerform_lands p f _ (.refl _)
  | .fadd (.jalem p f), _, _ => s.jebPerform_lands p f _ (.refl _)
  | .widenLoad (.jalem p f), _, _ => s.jebPerform_lands p f _ (.refl _)
  | .put (.jalem p f), _, _ => s.jebPerform_lands p f _ (.refl _)
  | .get (.jalem p f), _, _ => s.jebPerform_lands p f _ (.refl _)
  | .batten _, _, _ => execBatten_lands ..
  | .battenAccept _, _, _ => execBattenAccept_lands ..
  | .battenCont _, _, _ => execBattenCont_lands ..
  | .listIncomplete _ _, _, _ => execListIncomplete_lands ..
  | .stackTrainingLost _, _, _ => execStackTrainingLost_lands ..
  | .homeQueueStopped _ _, _, _ => execHomeQueueStopped_lands ..
  | .define _, _, _ => execDefine_lands ..
  | .sealRegion _, _, _ => execSealRegion_lands ..
  | .reopen _, _, _ => execReopen_lands ..
  | .silver _, _, _ => execSilver_lands ..
  | .advance _, _, _ => execAdvance_lands ..
  | .declareLost _, _, _ => execDeclareLost_lands ..
  | .dissolve _, _, _ => execDissolve_lands ..
  | .digestDone _, _, _ => execDigestDone_lands ..
  | .transfer _, _, _ => execTransfer_lands ..
  | .fence _, _, _ => execFence_lands ..
  | .transferIssue _, _, _ => execTransferIssue_lands ..
  | .responseArrival _ _, _, _ => execResponseArrival_lands ..
  | .jebInvTail _ _, _, _ => execJebInvTail_lands ..
  | .copy _, _, _ => execCopy_lands ..
  | .invalVa, _, _ => execInvalVa_lands ..
  | .invalCtx, _, _ => execInvalCtx_lands ..
  | .invalAll, _, _ => execInvalAll_lands ..
  | .gen, _, _ => execGen_lands ..
  | .genComplete, _, _ => execGenComplete_lands ..
  | .jebGenErr, _, _ => execJebGenErr_lands ..
  | .jebFltResume _, _, _ => execJebFltResume_lands ..
  | .jebFltHead _, _, _ => execJebFltHead_lands ..
  | .jebEpochAt _ _, _, _ => execJebEpochAt_lands ..
  | .jebRouteEpoch _, _, _ => execJebRouteEpoch_lands ..
  | .movedBucketUndrained _, _, _ => execMovedBucketUndrained_lands ..
  | .movedBucketFatal _, _, _ => execMovedBucketFatal_lands ..
  | .seg _ _, _, _ => execSeg_lands ..
  | .signal _ _, _, _ => execSignal_lands ..
  | .sendArm _ _, _, _ => execSendArm_lands ..
  | .sendGo _, _, _ => execSendGo_lands ..
  | .send _, _, _ => execSend_lands ..
  | .tdispError, _, _ => execTdispError_lands ..
  | .jebReset, _, _ => execJebReset_lands ..
  | .jebTeardown _ _, _, _ => execJebTeardown_lands ..
  | .teardownResume _ _, _, _ => execTeardownResume_lands ..
  | .keyInstall _ _, _, _ => execKeyInstall_lands ..
  | .keyActivate _ _, _, _ => execKeyActivate_lands ..
  | .keyRetire _ _, _, _ => execKeyRetire_lands ..
  | .keyDestroy _ _, _, _ => execKeyDestroy_lands ..
  | .keyAck _ _, _, _ => execKeyAck_lands ..
  | .keyAckTimeout, _, _ => execKeyAckTimeout_lands ..
  | .activateRetry _, _, _ => execActivateRetry_lands ..
  | .ctrlWr _ _ _, _, _ => execCtrlWr_lands ..
  | .ctrlRd _ _ _, _, _ => execCtrlRd_lands ..
  | .relayRequest, _, _ => execRelayRequest_lands ..
  | .relayResponse, _, _ => execRelayResponse_lands ..
  | .gutJebReport, _, _ => execGutJebReport_lands ..
  | .test _ _, _, _ => execTest_lands ..
  | .testEcho _ _, _, _ => execTestEcho_lands ..
  | .admitBay, _, _ => execAdmitBay_lands ..
  | .hipAdmissionCheck _, _, _ => execHipAdmissionCheck_lands ..
  | .measure, _, _ => execMeasure_lands ..
  | .release, _, _ => execRelease_lands ..
  | .destroyTimeout _, _, _ => execDestroyTimeout_lands ..
  | .secWeight _ _, _, _ => execSecWeight_lands ..
  | .bayKeys _ _, _, _ => execBayKeys_lands ..
  | .rotate _ _, _, _ => execRotate_lands ..
  | .weightKey _ _ _ _, _, _ => execWeightKey_lands ..
  | .weightDestroy _ _, _, _ => execWeightDestroy_lands ..
  | .signedMeasurements _ _, _, _ => execSignedMeasurements_lands ..
  | .sourceWindowClose _ _, _, _ => execSourceWindowClose_lands ..
  | .gutTdCtlStop _, _, _ => execGutTdCtlStop_lands ..
  | .teardownStop _ _, _, _ => execTeardownStop_lands ..
  | .stopAckTimeout _, _, _ => execStopAckTimeout_lands ..
  | .quiescent, _, _ => execQuiescent_lands ..
  | .gutTdCtlRestart _, _, _ => execGutTdCtlRestart_lands ..
  | .resumeAcknowledged, _, _ => execResumeAcknowledged_lands ..
  | .gutTdCtlUnhold _, _, _ => execGutTdCtlUnhold_lands ..
  | .gutFencePort _ _ _, _, _ => execGutFencePort_lands ..
  | .gutFatalValid _, _, _ => execGutFatalValid_lands ..
  | .gutCapStatusClear _, _, _ => execGutCapStatusClear_lands ..
  | .jalemPoll _ _, _, _ => execJalemPoll_lands ..
  | .marginMeasurement _ _ _, _, _ => execMarginMeasurement_lands ..
  | .contrib, _, _ => execContrib_lands ..
  | .stalled _ _ _ _, _, _ => execStalled_lands ..
  | .gableAbandon _ _, _, _ => execGableAbandon_lands ..
  | .slotFree, _, _ => execSlotFree_lands ..
  | .start, _, _ => execStart_lands ..
  | .runStart _ _, _, _ => execRunStart_lands ..
  | .stepInstr _ _, _, _ => execStepInstr_lands ..
  | .segment _, _, _ => execSegment_lands ..
  | .slotGrant _, _, _ => execSlotGrant_lands ..
  | .signalInstruction _, _, _ => execSignalInstruction_lands ..
  | .reduce _, _, _ => execReduce_lands ..
  | .sendInstruction _, _, _ => execSendInstruction_lands ..
  | .wait _, _, _ => execWait_lands ..
  | .raise, _, _ => execRaise_lands ..
  | .relay, _, _ => execRelay_lands ..
  | .ready, _, _ => execReady_lands ..
  | .trsProgDirValid _ _ _, _, _ => execTrsProgDirValid_lands ..
  | .trsCommCtlValid _ _ _, _, _ => execTrsCommCtlValid_lands ..
  | .windowTableWrite _ _ _ _ _, _, _ => execWindowTableWrite_lands ..
  | .logRead _ _, _, _ => execLogRead_lands ..
  | .certRead, _, _ => execCertRead_lands ..
  | .governorInterval _ _, _, _ => execGovernorInterval_lands ..
  | .pwrCap _ _, _, _ => execPwrCap_lands ..
  | .rcLost _, _, _ => execRcLost_lands ..
  | .brakeAssert _, _, _ => execBrakeAssert_lands ..
  | .brakeRelease _, _, _ => execBrakeRelease_lands ..
  | .vinRange _, _, _ => execVinRange_lands ..
  | .inputLoss _, _, _ => execInputLoss_lands ..
  | .inletHigh _, _, _ => execInletHigh_lands ..
  | .throttle _, _, _ => execThrottle_lands ..
  | .pumpLost _, _, _ => execPumpLost_lands ..
  | .orderlyShutdown _ _, _, _ => execOrderlyShutdown_lands ..
  | .pwrEnHigh, _, _ => execPwrEnHigh_lands ..
  | .pwrEnLow, _, _ => execPwrEnLow_lands ..
  | .resetNLow _, _, _ => execResetNLow_lands ..
  | .moduleStart _ _ _ _, _, _ => execModuleStart_lands ..
  | .watchdog _, _, _ => execWatchdog_lands ..
  | .trialTimeout, _, _ => execTrialTimeout_lands ..
  | .sofFwCtlCommit _, _, _ => execSofFwCtlCommit_lands ..
  | .sofFwCtlAdvance _, _, _ => execSofFwCtlAdvance_lands ..
  | .firmwareUpdate _ _, _, _ => execFirmwareUpdate_lands ..
  | .configurationUpdate _ _, _, _ => execConfigurationUpdate_lands ..
  | .prbs31 _, _, _ => execPrbs31_lands ..
  | .prbs13q _, _, _ => execPrbs13q_lands ..
  | .patternOff _, _, _ => execPatternOff_lands ..
  | .genEn _, _, _ => execGenEn_lands ..
  | .tdispStateChange _ _, _, _ => execTdispStateChange_lands ..
  | .stackRetraining _, _, _ => execStackRetraining_lands ..
  | .stackRetrained _, _, _ => execStackRetrained_lands ..
  | .secureSessionOpen _, _, _ => execSecureSessionOpen_lands ..
  | .secureSessionEnd _, _, _ => execSecureSessionEnd_lands ..
  | .alertResponseAddress, _, _ => execAlertResponseAddress_lands ..
  | .qspiServiceAccess _, _, _ => execQspiServiceAccess_lands ..

/-! ### Gauge's own commands, and the commands that work on the module's memory -/

section
variable {s t : State}

/-- Gauge's own commands change none of the memories. -/
theorem exec_gauge {c : Instr} (gauge : gaugeCommand c = true) (h : exec c s = .next t) :
    t.eav.mem = s.eav.mem ∧ t.jeb.mem = s.jeb.mem ∧ t.pending = s.pending := by
  cases c
  case gaugeBeatItem | channelLost | interval | powerLoss | powerUp | tamper =>
    cases h
    repeat' split
    all_goals exact ⟨rfl, rfl, rfl⟩
  all_goals cases gauge

theorem State.MemOk.of_apart (ok : s.MemOk) (same : t.apart = s.apart) : t.MemOk := by
  obtain ⟨eav, rest⟩ := Prod.mk.inj same
  obtain ⟨jeb, -⟩ := Prod.mk.inj rest
  rw [State.MemOk, eav, jeb]
  exact ok

theorem State.MemOk.of_lands (ok : s.MemOk) (lands : Lands s.apart t.apart) : t.MemOk := by
  obtain ⟨eav, jeb, -⟩ := lands
  exact ⟨(congrArg Memory.wf eav).trans ok.1, jeb ok.2⟩

/-- A request performed at its eave is an operation of its home on the module's memory. -/
theorem State.MemOk.eavePerform (ok : s.MemOk) (n : Fin 32) (i : Nat) (op : Byte) (ledger : Bool) : (s.eavePerform n i op ledger).MemOk := by
  unfold State.eavePerform
  split
  · exact ok
  · have left : (s.leaveHome n i).MemOk := ok.of_apart (s.leaveHome_apart n i)
    dsimp only
    refine State.MemOk.of_apart ?_ ((State.settleLists_apart _).trans (State.serveGroup_apart _ _))
    split
    · exact left.of_apart (State.refuse_apart _ _ _ _)
    · refine State.MemOk.of_apart ?_ ((State.respond_apart _ _ _).trans (State.eaveMarks_apart _ _ _))
      exact ⟨homePerform_wf (m := Eav.store _) _ _ _ _ _ _ left.1, left.2⟩

/-- A request performed at its home, be it an eave or the Jalem block. -/
theorem State.MemOk.atHome (ok : s.MemOk) (h : HomeSel) (op : Byte) : (s.atHome h op).MemOk := by
  cases h with
  | eave n i => exact ok.eavePerform n i op false
  | jalem p f => exact ok.of_lands (s.jebPerform_lands p f op (.refl _))

/-- The patrol scrub writes the module's memory as the scrub of one shingle does. -/
theorem State.MemOk.scrubVisit (ok : s.MemOk) (n : Nat) (err : Shingle) : (s.scrubVisit n err).MemOk := by
  have written (i : Nat) : ({ s with eav := { s.eav with mem := (scrubShingle (s.eav.store.disturb i err) i).1.mem } } : State).MemOk :=
    ⟨scrubShingle_wf i (disturb_wf i err ok.1), ok.2⟩
  unfold State.scrubVisit
  dsimp only
  split
  · exact (written _).of_apart ((State.count_apart _ _).trans (State.setEave_apart _ _ _))
  · exact (written _).of_apart ((State.count_apart _ _).trans (State.setEave_apart _ _ _))
  · exact (written _).of_apart (State.setEave_apart _ _ _)

/-- The end of a zeroization keeps of the module's memory what the eaves that cannot serve still hold. -/
theorem State.MemOk.endZero (ok : s.MemOk) : s.endZero.MemOk := by
  unfold State.endZero
  refine State.MemOk.of_apart ?_ (State.setBay_apart _ _)
  have fenced : ((allPorts.filter fun n => decide (portRole n.val = .hip)).foldl (fun s n => s.updPort (.module n) Port.fence) s).MemOk :=
    ok.of_apart (State.foldl_apart _ (fun t n => t.updPort_apart _ _) _ s)
  exact ⟨Eav.endZero_wf _ fenced.1, fenced.2⟩

/-- A command that works on the module's memory keeps both memories in their form. -/
theorem exec_memory_memOk {c : Instr} (memory : memoryCommand c = true) (ok : s.MemOk) (h : exec c s = .next t) : t.MemOk := by
  cases c
  case load place | store place | atomic place | fadd place | widenLoad place | put place | get place =>
    cases h
    exact ok.atHome place _
  case faddLedger n i =>
    cases h
    exact ok.eavePerform n i _ _
  case patrolScrub n err corr =>
    have counted : (s.stackCorr n.val corr.toNat).MemOk := ok.of_apart (s.stackCorr_apart _ _)
    cases h
    split
    · exact counted
    · exact counted.scrubVisit _ _
  case zeroizationComplete =>
    cases h
    split
    · exact ok
    · split
      · refine State.MemOk.of_apart ?_ (State.foldl_apart _ State.unfinished_apart _ _)
        exact ⟨Eav.endZero_wf _ ok.1, ok.2⟩
      · exact ok.endZero
  all_goals cases memory
end

/-- The tick of REFCLK, which no command brings about, leaves the memories. -/
theorem State.tick_memOk {s : State} (ok : s.MemOk) : s.tick.MemOk := ok.of_apart s.tick_apart

/-- Settles O3: a command that works on the module's memory by `exec_memory_memOk`, one of Gauge's by `exec_gauge`, any other by `exec_lands`,
and the tick by `State.tick_memOk`. -/
theorem stepKeepsMemories : Obligations.StepKeepsMemories := by
  intro s t ok h
  unfold step at h
  split at h
  · cases h
    exact State.tick_memOk ok
  · rename_i c rest _
    have taken : ({ s with pending := rest } : State).MemOk := ok
    cases memory : memoryCommand c with
    | true => exact exec_memory_memOk memory taken h
    | false =>
      cases gauge : gaugeCommand c with
      | true =>
        obtain ⟨eav, jeb, -⟩ := exec_gauge gauge h
        rw [State.MemOk, eav, jeb]
        exact ok
      | false =>
        have lands := exec_lands { s with pending := rest } c memory gauge
        rw [h] at lands
        exact taken.of_lands lands

end Sys2Proof.Machine
end

section
/-! SUPPORT. The field of the codes (R41, R55) by its linearity, and codes as polynomials: what the division by a generator leaves makes a word
that every root of the generator annuls. -/
namespace Sys2Proof.Machine

open Sys2Proof

/-! ### The field GF(2^8) -/

/-- Of two sums the equal parts cancel. -/
theorem xor_cancel_mid (a b c : Byte) : a ^^^ c ^^^ (b ^^^ c) = a ^^^ b := by
  rw [show a ^^^ c ^^^ (b ^^^ c) = a ^^^ b ^^^ (c ^^^ c) by ac_rfl, BitVec.xor_self, BitVec.xor_zero]

theorem gfDouble_xor (a b : Byte) : gfDouble (a ^^^ b) = gfDouble a ^^^ gfDouble b := by
  unfold gfDouble
  rw [bitAt_xor, BitVec.shiftLeft_xor_distrib]
  cases bitAt a 7 <;> cases bitAt b 7
  case true.true => exact ((xor_cancel_mid _ _ _).trans (BitVec.xor_zero).symm).symm
  case false.false => simp
  all_goals
    simp
    ac_rfl

theorem gfMulBits_xor (a a' b : Byte) (n : Nat) (c c' : Byte) :
    gfMulBits (a ^^^ a') b n (c ^^^ c') = gfMulBits a b n c ^^^ gfMulBits a' b n c' := by
  induction n generalizing c c' with
  | zero => rfl
  | succ n ih =>
    rw [gfMulBits, gfMulBits, gfMulBits, ← ih, gfDouble_xor]
    cases bitAt b n
    · simp
    · congr 1
      simp only [if_true]
      ac_rfl

theorem gfMulBits_xor_right (a b b' : Byte) (n : Nat) (c c' : Byte) :
    gfMulBits a (b ^^^ b') n (c ^^^ c') = gfMulBits a b n c ^^^ gfMulBits a b' n c' := by
  induction n generalizing c c' with
  | zero => rfl
  | succ n ih =>
    rw [gfMulBits, gfMulBits, gfMulBits, ← ih, gfDouble_xor, bitAt_xor]
    congr 1
    cases bitAt b n <;> cases bitAt b' n
    case true.true => exact ((xor_cancel_mid _ _ _).trans (BitVec.xor_zero).symm).symm
    case false.false => simp
    all_goals
      simp
      ac_rfl

theorem gfMul_xor (a a' b : Byte) : gfMul (a ^^^ a') b = gfMul a b ^^^ gfMul a' b := gfMulBits_xor a a' b 8 0 0

theorem gfMul_xor_right (a b b' : Byte) : gfMul a (b ^^^ b') = gfMul a b ^^^ gfMul a b' := gfMulBits_xor_right a b b' 8 0 0

@[simp] theorem gfMul_zero (a : Byte) : gfMul a 0#8 = 0#8 := (gfMul_xor_right a 0 0).trans BitVec.xor_self

@[simp] theorem zero_gfMul (a : Byte) : gfMul 0#8 a = 0#8 := (gfMul_xor 0 0 a).trans BitVec.xor_self

theorem gfMul_comm (a b : Byte) : gfMul a b = gfMul b a := by
  have bits : ∀ i, i < 8 → ∀ j, j < 8 → gfMul (BitVec.twoPow 8 i) (BitVec.twoPow 8 j) = gfMul (BitVec.twoPow 8 j) (BitVec.twoPow 8 i) := by
    decide
  refine byte_linear (fun a => gfMul a b) (fun a => gfMul b a) (fun x y => gfMul_xor x y b) (fun x y => gfMul_xor_right b x y) (fun i hi => ?_) a
  exact byte_linear (fun b => gfMul (BitVec.twoPow 8 i) b) (fun b => gfMul b (BitVec.twoPow 8 i)) (fun x y => gfMul_xor_right _ x y)
    (fun x y => gfMul_xor x y _) (fun j hj => bits i hi j hj) b

@[simp] theorem gfMul_one (a : Byte) : gfMul a 1#8 = a :=
  byte_linear (fun a => gfMul a 1) id (fun x y => gfMul_xor x y 1) (fun _ _ => rfl) (by decide) a

@[simp] theorem one_gfMul (a : Byte) : gfMul 1#8 a = a := (gfMul_comm 1 a).trans (gfMul_one a)

/-- A map that respects sums and doubling passes through a multiplication. -/
theorem gfMulBits_map (F : Byte → Byte) (sum : ∀ a b, F (a ^^^ b) = F a ^^^ F b) (double : ∀ a, F (gfDouble a) = gfDouble (F a)) (a b : Byte)
    (n : Nat) (c : Byte) : F (gfMulBits a b n c) = gfMulBits (F a) b n (F c) := by
  have zero : F 0 = 0 := (sum 0 0).trans BitVec.xor_self
  induction n generalizing c with
  | zero => rfl
  | succ n ih =>
    rw [gfMulBits, gfMulBits, ih, sum, double, apply_ite F, zero]

theorem gfDouble_gfMul (a b : Byte) : gfDouble (gfMul a b) = gfMul (gfDouble a) b := gfMulBits_map gfDouble gfDouble_xor (fun _ => rfl) a b 8 0

theorem gfMul_assoc (a b c : Byte) : gfMul (gfMul a b) c = gfMul a (gfMul b c) := by
  have through := gfMulBits_map (fun x => gfMul x c) (fun x y => gfMul_xor x y c) (fun x => (gfDouble_gfMul x c).symm) b a 8 0
  have zero : gfMul 0 c = 0 := zero_gfMul c
  rw [zero] at through
  calc gfMul (gfMul a b) c = gfMul (gfMul b a) c := by rw [gfMul_comm a b]
    _ = gfMul (gfMul b c) a := through
    _ = gfMul a (gfMul b c) := gfMul_comm _ _

theorem gfMul_right_comm (a b c : Byte) : gfMul (gfMul a b) c = gfMul (gfMul a c) b := by rw [gfMul_assoc, gfMul_comm b c, gfMul_assoc]

theorem gfPow_add (a : Byte) (m n : Nat) : gfPow a (m + n) = gfMul (gfPow a m) (gfPow a n) := by
  induction m with
  | zero => simp [gfPow]
  | succ m ih => rw [Nat.succ_add, gfPow, ih, gfPow, gfMul_assoc]

theorem gfPow_mul (a : Byte) (m n : Nat) : gfPow a (m * n) = gfPow (gfPow a m) n := by
  induction n with
  | zero => rfl
  | succ n ih => rw [Nat.mul_succ, Nat.add_comm, gfPow_add, ih, gfPow]

/-! ### Words as polynomials, the coefficient of the highest degree first -/

/-- A word as a polynomial, at `x`. -/
def polyAt (x : Byte) (l : List Byte) : Byte := l.foldl (fun acc b => gfMul acc x ^^^ b) 0

/-- The evaluation begun with `a`: what stands before counts by the number of the coefficients that follow. -/
theorem foldl_polyAt (x : Byte) (l : List Byte) (a : Byte) :
    l.foldl (fun acc b => gfMul acc x ^^^ b) a = gfMul a (gfPow x l.length) ^^^ polyAt x l := by
  induction l generalizing a with
  | nil => simp [polyAt, gfPow]
  | cons b l ih =>
    rw [polyAt, List.foldl_cons, List.foldl_cons, ih, ih, List.length_cons, gfPow, gfMul_xor, gfMul_assoc]
    simp [BitVec.xor_assoc]

theorem polyAt_cons (x b : Byte) (l : List Byte) : polyAt x (b :: l) = gfMul b (gfPow x l.length) ^^^ polyAt x l := by
  rw [polyAt, List.foldl_cons, foldl_polyAt]
  simp

theorem polyAt_append (x : Byte) (l r : List Byte) : polyAt x (l ++ r) = gfMul (polyAt x l) (gfPow x r.length) ^^^ polyAt x r := by
  rw [polyAt, List.foldl_append, foldl_polyAt]
  rfl

theorem polyAt_append_zero (x : Byte) (l : List Byte) : polyAt x (l ++ [0]) = gfMul (polyAt x l) x := by
  rw [polyAt_append]
  simp [polyAt, gfPow]

/-- The sum of two words of one length, at `x`. -/
theorem polyAt_zipWith (x : Byte) (l r : List Byte) (h : l.length = r.length) :
    polyAt x (List.zipWith (· ^^^ ·) l r) = polyAt x l ^^^ polyAt x r := by
  induction l generalizing r with
  | nil =>
    cases r with
    | nil => exact BitVec.xor_self.symm
    | cons _ _ => cases h
  | cons a l ih =>
    cases r with
    | nil => cases h
    | cons b r =>
      have same : l.length = r.length := Nat.succ.inj h
      rw [List.zipWith_cons_cons, polyAt_cons, polyAt_cons, polyAt_cons, ih r same, List.length_zipWith, ← same, Nat.min_self, gfMul_xor]
      ac_rfl

/-- A multiple of a word, at `x`. -/
theorem polyAt_map (x t : Byte) (l : List Byte) : polyAt x (l.map (gfMul t)) = gfMul t (polyAt x l) := by
  induction l with
  | nil => exact (gfMul_zero t).symm
  | cons b l ih => rw [List.map_cons, polyAt_cons, polyAt_cons, ih, List.length_map, gfMul_xor_right, gfMul_assoc]

theorem polyAt_zeros (x : Byte) (n : Nat) : polyAt x (List.replicate n 0) = 0 := by
  induction n with
  | zero => rfl
  | succ n ih =>
    rw [List.replicate_succ, polyAt_cons, ih]
    simp

/-! ### Division by a generator -/

/-- One step of the division by the polynomial whose coefficients below the highest are `g`: the remainder takes in the next symbol. -/
def divStep (g r : List Byte) (d : Byte) : List Byte :=
  List.zipWith (· ^^^ ·) (r.drop 1 ++ [0]) (g.map (gfMul (d ^^^ r.headD 0)))

theorem divStep_length (g r : List Byte) (d : Byte) (h : r.length = g.length) (pos : 0 < g.length) : (divStep g r d).length = g.length := by
  simp only [divStep, List.length_zipWith, List.length_append, List.length_drop, List.length_map, List.length_singleton]
  omega

/-- At a root of the generator the step multiplies by `x` and adds the symbol at the generator's degree. -/
theorem polyAt_divStep (x : Byte) (g r : List Byte) (d : Byte) (h : r.length = g.length) (pos : 0 < g.length)
    (root : polyAt x g = gfPow x g.length) : polyAt x (divStep g r d) = gfMul (polyAt x r) x ^^^ gfMul d (gfPow x g.length) := by
  cases r with
  | nil => exact absurd h.symm (Nat.pos_iff_ne_zero.mp pos)
  | cons p r =>
    have next : gfMul (gfMul p (gfPow x r.length)) x = gfMul p (gfPow x g.length) := by
      rw [← h, List.length_cons, gfPow, gfMul_assoc, gfMul_comm x]
    rw [divStep, polyAt_zipWith _ _ _ (by simpa using h), polyAt_map, root, polyAt_cons, gfMul_xor, gfMul_xor, next]
    simp only [List.drop_succ_cons, List.drop_zero, List.headD_cons, polyAt_append_zero]
    rw [show gfMul p (gfPow x g.length) ^^^ gfMul (polyAt x r) x ^^^ gfMul d (gfPow x g.length) =
      gfMul (polyAt x r) x ^^^ (gfMul d (gfPow x g.length) ^^^ gfMul p (gfPow x g.length)) by ac_rfl]

/-- The remainder of `l`, begun from `r`, at a root of the generator. -/
theorem polyAt_foldl_divStep (x : Byte) (g l r : List Byte) (h : r.length = g.length) (pos : 0 < g.length)
    (root : polyAt x g = gfPow x g.length) :
    (l.foldl (divStep g) r).length = g.length ∧
      polyAt x (l.foldl (divStep g) r) = gfMul (polyAt x r) (gfPow x l.length) ^^^ gfMul (polyAt x l) (gfPow x g.length) := by
  induction l generalizing r with
  | nil => exact ⟨h, by simp [polyAt, gfPow]⟩
  | cons d l ih =>
    obtain ⟨len, at_⟩ := ih (divStep g r d) (divStep_length g r d h pos)
    refine ⟨len, ?_⟩
    rw [List.foldl_cons, at_, polyAt_divStep x g r d h pos root, polyAt_cons, List.length_cons, gfPow, gfMul_xor, gfMul_xor, gfMul_assoc,
      gfMul_right_comm d, BitVec.xor_assoc]

/-- A word followed by what the division of it leaves is annulled by every root of the generator (R41, R55). -/
theorem polyAt_append_remainder (x : Byte) (g l : List Byte) (pos : 0 < g.length) (root : polyAt x g = gfPow x g.length) :
    polyAt x (l ++ l.foldl (divStep g) (List.replicate g.length 0)) = 0 := by
  obtain ⟨len, at_⟩ := polyAt_foldl_divStep x g l (List.replicate g.length 0) (List.length_replicate ..) pos root
  rw [polyAt_append, len, at_, polyAt_zeros]
  simp

end Sys2Proof.Machine
end

section
/-! SUPPORT. The flashing code (R54 to R56): its encoder gives codewords, and one bad symbol shows in the syndromes which it is. -/
namespace Sys2Proof.Machine

open Sys2Proof

/-! ### The symbols of a word -/

/-- The symbols of a word, that of the highest degree first. -/
def codeSymbols (w : Shingle) : List Byte := (List.range 36).reverse.map (codeSymbol w)

theorem syndrome_eq (w : Shingle) (j : Nat) : syndrome w j = polyAt (alphaPow j) (codeSymbols w) := by
  rw [polyAt, codeSymbols, List.foldl_map]
  rfl

theorem getLsbD_codeword (c : BitVec 32) (d : BitVec 256) (i : Nat) :
    (c ++ d : BitVec 288).getLsbD i = if i < 256 then d.getLsbD i else c.getLsbD (i - 256) :=
  BitVec.getLsbD_append (x := c) (y := d)

theorem byte_append_low (c : BitVec 32) (d : BitVec 256) (k : Nat) (h : k < 32) :
    Shingle.byte (c ++ d : BitVec 288) k = (d >>> (8 * k)).truncate 8 := by
  apply BitVec.eq_of_getLsbD_eq
  intro i hi
  have inside : 8 * k + i < 256 := by omega
  simp [Shingle.byte, getLsbD_codeword, hi, inside]

theorem byte_append_high (c : BitVec 32) (d : BitVec 256) (k : Nat) (h : k < 4) :
    Shingle.byte (c ++ d : BitVec 288) (32 + k) = (c >>> (8 * k)).truncate 8 := by
  apply BitVec.eq_of_getLsbD_eq
  intro i hi
  have outside : ¬ 8 * (32 + k) + i < 256 := by omega
  have place : 8 * (32 + k) + i - 256 = 8 * k + i := by omega
  simp [Shingle.byte, getLsbD_codeword, hi, outside, place]

/-- The byte of a shingle in which a symbol stands (R54). -/
def symbolByte (i : Nat) : Nat := if i < 4 then 32 + i else i - 4

theorem codeSymbol_eq (w : Shingle) (i : Nat) : codeSymbol w i = Shingle.byte w (symbolByte i) := by
  unfold codeSymbol symbolByte
  split <;> rfl

/-- A symbol changed is changed alone. -/
theorem codeSymbol_fixSymbol (w : Shingle) (i k : Nat) (e : Byte) (hi : i < 36) (hk : k < 36) :
    codeSymbol (fixSymbol w i e) k = codeSymbol w k ^^^ (if k = i then e else 0) := by
  have place : symbolByte k = symbolByte i ↔ k = i := by
    unfold symbolByte
    split <;> split <;> omega
  have fixed : fixSymbol w i e = w ^^^ (BitVec.zeroExtend 288 e <<< (8 * symbolByte i)) := rfl
  have bound : symbolByte k < 36 ∧ symbolByte i < 36 := by
    unfold symbolByte
    constructor <;> split <;> omega
  rw [codeSymbol_eq, codeSymbol_eq, fixed]
  simp only [← place]
  generalize symbolByte k = m at *
  generalize symbolByte i = n at *
  apply BitVec.eq_of_getLsbD_eq
  intro b hb
  have inside : 8 * m + b < 288 := by omega
  by_cases same : m = n
  · subst same
    simp [Shingle.byte, hb, inside]
  · rcases Nat.lt_or_gt_of_ne same with less | more
    · have before : 8 * m + b < 8 * n := by omega
      simp [Shingle.byte, hb, inside, same, before]
    · have after : ¬ 8 * m + b < 8 * n := by omega
      have beyond : e.getLsbD (8 * m + b - 8 * n) = false := BitVec.getLsbD_of_ge _ _ (by omega)
      simp [Shingle.byte, hb, inside, same, after, beyond]

/-! ### The encoder (R54, R55) -/

/-- The coefficients of g(x) below the highest. -/
def flashGen : List Byte := [0x0F, 0x36, 0x78, 0x40]

/-- A remainder by degree, p3 first. -/
def remainderList (r : Byte × Byte × Byte × Byte) : List Byte := [r.1, r.2.1, r.2.2.1, r.2.2.2]

theorem remainderList_flashStep (r : Byte × Byte × Byte × Byte) (d : Byte) :
    divStep flashGen (remainderList r) d = remainderList (flashStep r d) := by
  simp [divStep, flashGen, remainderList, flashStep]

/-- The bytes of a word of four, the highest first. -/
theorem byte_quad (p3 p2 p1 p0 : Byte) :
    (List.range 4).reverse.map (fun k => ((p3 ++ p2 ++ p1 ++ p0 : BitVec 32) >>> (8 * k)).truncate 8) = [p3, p2, p1, p0] := by
  have bits (i : Nat) : (p3 ++ p2 ++ p1 ++ p0 : BitVec 32).getLsbD i = if i < 8 then p0.getLsbD i else if i - 8 < 8 then p1.getLsbD (i - 8)
      else if i - 8 - 8 < 8 then p2.getLsbD (i - 8 - 8) else p3.getLsbD (i - 8 - 8 - 8) :=
    (BitVec.getLsbD_append (x := p3 ++ p2 ++ p1) (y := p0)).trans (by rw [BitVec.getLsbD_append, BitVec.getLsbD_append])
  have byte (k : Nat) (p : Byte) (h : ∀ i, i < 8 → (p3 ++ p2 ++ p1 ++ p0 : BitVec 32).getLsbD (8 * k + i) = p.getLsbD i) :
      ((p3 ++ p2 ++ p1 ++ p0 : BitVec 32) >>> (8 * k)).truncate 8 = p := by
    refine BitVec.eq_of_getLsbD_eq fun i hi => ?_
    rw [BitVec.truncate_eq_setWidth, BitVec.getLsbD_setWidth, BitVec.getLsbD_ushiftRight, h i hi, decide_eq_true hi, Bool.true_and]
  have b0 := byte 0 p0 fun i hi => by rw [bits, if_pos (by omega), Nat.mul_zero, Nat.zero_add]
  have b1 := byte 1 p1 fun i hi => by rw [bits, if_neg (by omega), if_pos (by omega), Nat.mul_one, Nat.add_sub_cancel_left]
  have b2 := byte 2 p2 fun i hi => by
    rw [bits, if_neg (by omega), if_neg (by omega), if_pos (by omega), show 8 * 2 + i - 8 - 8 = i by omega]
  have b3 := byte 3 p3 fun i hi => by
    rw [bits, if_neg (by omega), if_neg (by omega), if_neg (by omega), show 8 * 3 + i - 8 - 8 - 8 = i by omega]
  rw [show (List.range 4).reverse = [3, 2, 1, 0] from rfl]
  simp only [List.map_cons, List.map_nil, b0, b1, b2, b3]

/-- The remainder of a division by g, packed. -/
def packRemainder (r : Byte × Byte × Byte × Byte) : W32 := (r.1 ++ r.2.1 ++ r.2.2.1 ++ r.2.2.2 : BitVec 32)

theorem flashCheck_eq (d : BitVec 256) : flashCheck d = packRemainder ((bytesOf d 32).reverse.foldl flashStep (0, 0, 0, 0)) := by
  rw [flashCheck]
  generalize (bytesOf d 32).reverse.foldl flashStep (0, 0, 0, 0) = r
  rfl

theorem bytes_packRemainder (r : Byte × Byte × Byte × Byte) :
    (List.range 4).reverse.map (fun k => (packRemainder r >>> (8 * k)).truncate 8) = remainderList r := byte_quad ..

theorem foldl_flashStep (l : List Byte) (r : Byte × Byte × Byte × Byte) :
    l.foldl (divStep flashGen) (remainderList r) = remainderList (l.foldl flashStep r) := by
  induction l generalizing r with
  | nil => rfl
  | cons d l ih => rw [List.foldl_cons, List.foldl_cons, remainderList_flashStep, ih]

/-- The symbols of a codeword: the data bytes, and what the division by g leaves of them. -/
theorem codeSymbols_encodeShingle (d : BitVec 256) :
    codeSymbols (encodeShingle d) = (bytesOf d 32).reverse ++ (bytesOf d 32).reverse.foldl (divStep flashGen) (List.replicate 4 0) := by
  have data : ((List.range 32).map (4 + ·)).reverse.map (codeSymbol (encodeShingle d)) = (bytesOf d 32).reverse := by
    rw [← List.map_reverse, List.map_map, bytesOf, ← List.map_reverse]
    refine List.map_congr_left fun k hk => ?_
    rw [List.mem_reverse, List.mem_range] at hk
    rw [Function.comp, codeSymbol_eq, symbolByte, if_neg (by omega), Nat.add_sub_cancel_left, encodeShingle, byte_append_low _ _ _ hk]
  have check : (List.range 4).reverse.map (codeSymbol (encodeShingle d)) = (bytesOf d 32).reverse.foldl (divStep flashGen) (List.replicate 4 0) := by
    rw [show List.replicate 4 (0 : Byte) = remainderList (0, 0, 0, 0) from rfl, foldl_flashStep, ← bytes_packRemainder, ← flashCheck_eq]
    refine List.map_congr_left fun k hk => ?_
    rw [List.mem_reverse, List.mem_range] at hk
    rw [codeSymbol_eq, symbolByte, if_pos hk, encodeShingle, byte_append_high _ _ _ hk]
  rw [codeSymbols, show List.range 36 = List.range 4 ++ (List.range 32).map (4 + ·) from rfl, List.reverse_append, List.map_append, data, check]

set_option maxRecDepth 4000 in
/-- Every codeword has the roots of g (R55). -/
theorem syndromes_encodeShingle (d : BitVec 256) : syndromes (encodeShingle d) = (0, 0, 0, 0) := by
  have roots : ∀ j, j < 4 → polyAt (alphaPow j) flashGen = gfPow (alphaPow j) 4 := by decide
  have zero (j : Nat) (hj : j < 4) : syndrome (encodeShingle d) j = 0 := by
    rw [syndrome_eq, codeSymbols_encodeShingle]
    exact polyAt_append_remainder _ flashGen _ (by decide) (roots j hj)
  rw [syndromes, zero 0 (by decide), zero 1 (by decide), zero 2 (by decide), zero 3 (by decide)]

@[simp] theorem dataBits_encodeShingle (d : BitVec 256) : Shingle.dataBits (encodeShingle d) = d := by
  apply BitVec.eq_of_getLsbD_eq
  intro i hi
  simp [Shingle.dataBits, encodeShingle, getLsbD_codeword, hi]

/-- A codeword is found clean (R56). -/
@[simp] theorem decodeShingle_encodeShingle (d : BitVec 256) : decodeShingle (encodeShingle d) = .clean (encodeShingle d) := by
  rw [decodeShingle, syndromes_encodeShingle]
  rfl

end Sys2Proof.Machine
end

section
/-! SUPPORT. The flashing code, continued: which symbol is bad and by what, from the syndromes of a word with one bad symbol (R56). -/
namespace Sys2Proof.Machine

open Sys2Proof

/-! ### Inverses -/

/-- The square of a field element. -/
def gfSquare (a : Byte) : Byte := gfMul a a

theorem gfSquare_xor (a b : Byte) : gfSquare (a ^^^ b) = gfSquare a ^^^ gfSquare b := by
  rw [gfSquare, gfMul_xor, gfMul_xor_right, gfMul_xor_right, gfMul_comm b a, ← BitVec.xor_assoc, BitVec.xor_assoc (gfMul a a), BitVec.xor_self,
    BitVec.xor_zero, gfSquare, gfSquare]

theorem iterate_gfSquare (a : Byte) (n : Nat) : gfSquare^[n] a = gfPow a (2 ^ n) := by
  induction n with
  | zero => simp [gfPow]
  | succ n ih => rw [Function.iterate_succ_apply', ih, gfSquare, Nat.pow_succ, Nat.mul_two, gfPow_add]

theorem iterate_gfSquare_xor (a b : Byte) (n : Nat) : gfSquare^[n] (a ^^^ b) = gfSquare^[n] a ^^^ gfSquare^[n] b := by
  induction n with
  | zero => rfl
  | succ n ih => rw [Function.iterate_succ_apply', ih, gfSquare_xor, Function.iterate_succ_apply', Function.iterate_succ_apply']

set_option maxRecDepth 4000 in
/-- The field's Frobenius map has order eight, which is checked on the eight bits. -/
theorem gfPow_256 (a : Byte) : gfPow a 256 = a :=
  (iterate_gfSquare a 8).symm.trans
    (byte_linear (fun a => gfSquare^[8] a) id (fun x y => iterate_gfSquare_xor x y 8) (fun _ _ => rfl) (by decide) a)

/-- Every element but 0 has an inverse: its 255th power is its own square and not 0, so it is 1. -/
theorem gfMul_gfInv (a : Byte) (h : a ≠ 0) : gfMul a (gfInv a) = 1 := by
  have idempotent : ∀ f : Byte, gfMul f f = f → f = 0 ∨ f = 1 := by decide
  have power : gfMul a (gfInv a) = gfPow a 255 := rfl
  have square : gfMul (gfPow a 255) (gfPow a 255) = gfPow a 255 := by
    rw [← gfPow_add, show 255 + 255 = 256 + 254 from rfl, gfPow_add, gfPow_256]
    rfl
  rw [power]
  refine (idempotent _ square).resolve_left fun none => h ?_
  rw [← gfPow_256 a, show 256 = 255 + 1 from rfl, gfPow, none]
  exact gfMul_zero a

/-- A factor other than 0 cancels. -/
theorem gfMul_left_cancel (a b c : Byte) (h : a ≠ 0) (same : gfMul a b = gfMul a c) : b = c := by
  have undone (d : Byte) : gfMul (gfInv a) (gfMul a d) = d := by
    rw [← gfMul_assoc, gfMul_comm (gfInv a), gfMul_gfInv a h]
    exact one_gfMul d
  rw [← undone b, same, undone]

/-! ### One bad symbol -/

/-- A word of one symbol `e` at the degree `i`, at `x`. -/
theorem polyAt_single (x e : Byte) (i n : Nat) :
    polyAt x ((List.range n).reverse.map fun k => if k = i then e else 0) = if i < n then gfMul e (gfPow x i) else 0 := by
  have zero (c : Byte) : gfMul 0 c = 0 := zero_gfMul c
  induction n with
  | zero => rfl
  | succ n ih =>
    rw [List.range_succ, List.reverse_append, List.reverse_singleton, List.map_append, List.map_singleton, List.singleton_append, polyAt_cons, ih,
      List.length_map, List.length_reverse, List.length_range]
    rcases Nat.lt_trichotomy i n with below | same | above
    · rw [if_neg (by omega), if_pos below, if_pos (by omega), zero]
      exact BitVec.zero_xor
    · rw [if_pos same.symm, if_neg (by omega), if_pos (by omega), same]
      exact BitVec.xor_zero
    · rw [if_neg (by omega), if_neg (by omega), if_neg (by omega), zero]
      exact BitVec.xor_self

theorem codeSymbols_fixSymbol (w : Shingle) (i : Nat) (e : Byte) (hi : i < 36) :
    codeSymbols (fixSymbol w i e) = List.zipWith (· ^^^ ·) (codeSymbols w) ((List.range 36).reverse.map fun k => if k = i then e else 0) := by
  rw [codeSymbols, codeSymbols, List.zipWith_map, List.zipWith_self]
  exact List.map_congr_left fun k hk => codeSymbol_fixSymbol w i k e hi (by simpa using hk)

theorem syndrome_fixSymbol (w : Shingle) (i j : Nat) (e : Byte) (hi : i < 36) :
    syndrome (fixSymbol w i e) j = syndrome w j ^^^ gfMul e (gfPow (alphaPow j) i) := by
  rw [syndrome_eq, syndrome_eq, codeSymbols_fixSymbol w i e hi, polyAt_zipWith _ _ _ (by simp [codeSymbols]), polyAt_single, if_pos hi]

/-- The place of a symbol in the code: α to its degree. -/
theorem gfPow_alphaPow (i j : Nat) (hi : i < 36) (hj : j < 4) : gfPow (alphaPow j) i = gfPow (alphaPow i) j := by
  rw [alphaPow, alphaPow, Nat.mod_eq_of_lt (by omega), Nat.mod_eq_of_lt (by omega), ← gfPow_mul, ← gfPow_mul, Nat.mul_comm]

/-- The syndromes of a codeword with one bad symbol. -/
theorem syndromes_bad (d : BitVec 256) (i : Nat) (e : Byte) (hi : i < 36) :
    syndromes (fixSymbol (encodeShingle d) i e) =
      (e, gfMul e (alphaPow i), gfMul (gfMul e (alphaPow i)) (alphaPow i), gfMul (gfMul (gfMul e (alphaPow i)) (alphaPow i)) (alphaPow i)) := by
  have clean := syndromes_encodeShingle d
  simp only [syndromes, Prod.mk.injEq] at clean
  obtain ⟨c0, c1, c2, c3⟩ := clean
  rw [syndromes, syndrome_fixSymbol _ _ _ _ hi, syndrome_fixSymbol _ _ _ _ hi, syndrome_fixSymbol _ _ _ _ hi, syndrome_fixSymbol _ _ _ _ hi,
    c0, c1, c2, c3, gfPow_alphaPow _ _ hi (by decide), gfPow_alphaPow _ _ hi (by decide), gfPow_alphaPow _ _ hi (by decide),
    gfPow_alphaPow _ _ hi (by decide)]
  simp [gfPow, gfMul_assoc]

/-- No two degrees of the shortened code have one place. -/
theorem alphaPow_ne (e : Byte) (k i : Nat) (he : e ≠ 0) (hk : k < i) (hi : i < 36) : gfMul e (alphaPow i) ≠ gfMul e (alphaPow k) := by
  have units : ∀ m, m < 36 → 0 < m → gfPow 2 m ≠ 1 ∧ gfPow 2 m ≠ 0 := by decide
  have nonzero : gfPow 2 k ≠ 0 := by
    rcases Nat.eq_zero_or_pos k with rfl | pos
    · decide
    · exact (units k (by omega) pos).2
  intro same
  have places := gfMul_left_cancel _ _ _ he same
  rw [alphaPow, alphaPow, Nat.mod_eq_of_lt (by omega), Nat.mod_eq_of_lt (by omega), ← Nat.add_sub_cancel' hk.le, gfPow_add] at places
  exact (units (i - k) (by omega) (by omega)).1 (gfMul_left_cancel _ _ 1 nonzero (places.trans (gfMul_one _).symm))

theorem fixSymbol_fixSymbol (w : Shingle) (i : Nat) (e : Byte) : fixSymbol (fixSymbol w i e) i e = w := by
  rw [fixSymbol, fixSymbol, BitVec.xor_assoc, BitVec.xor_self, BitVec.xor_zero]

/-- The correction of one bad symbol finds its degree: it fits no degree below. -/
theorem oneError_bad (d : BitVec 256) (i : Nat) (e : Byte) (hi : i < 36) (he : e ≠ 0) :
    oneError (fixSymbol (encodeShingle d) i e) (syndromes (fixSymbol (encodeShingle d) i e)) = some (encodeShingle d) := by
  have split : List.range 36 = List.range i ++ i :: List.range' (i + 1) (35 - i) := by
    have parts (m : Nat) : List.range i ++ List.range' i m = List.range (i + m) := by
      rw [List.range_eq_range', List.range_eq_range', ← List.range'_append_1, Nat.zero_add]
    rw [← List.range'_succ, parts, show i + (35 - i + 1) = 36 by omega]
  rw [syndromes_bad d i e hi, oneError, List.findSome?_eq_some_iff]
  refine ⟨_, i, _, split, ?_, fun k hk => ?_⟩
  · rw [if_pos ⟨he, rfl, rfl, rfl⟩, fixSymbol_fixSymbol]
  · rw [List.mem_range] at hk
    exact if_neg fun fits => alphaPow_ne e k i he hk hi fits.2.1

/-- Settles O9: the division leaves what every root of the generator annuls (R54, R55), and the syndromes of one bad symbol name its degree
and its error (R56). -/
theorem codewordsAndCorrection : Obligations.CodewordsAndCorrection := by
  refine ⟨fun d => ⟨dataBits_encodeShingle d, syndromes_encodeShingle d, decodeShingle_encodeShingle d⟩, fun d i e hi he => ?_⟩
  have bad : syndromes (fixSymbol (encodeShingle d) i e) ≠ (0, 0, 0, 0) := by
    rw [syndromes_bad d i e hi]
    exact fun zero => he (congrArg Prod.fst zero)
  exact ⟨decide_eq_true bad, by rw [decodeShingle, if_neg bad, oneError_bad d i e hi he]⟩

end Sys2Proof.Machine
end

section
/-! SUPPORT. The fields of a header (R59). -/
namespace Sys2Proof.Machine

open Sys2Proof

set_option maxRecDepth 4000 in
/-- The packing of the fields and their reading agree, field by field. -/
@[simp] theorem headerOf_headerBits (h : Header) : headerOf (headerBits h) = h := by
  have low {m n : Nat} (x : BitVec m) (y : BitVec n) : (x ++ y).extractLsb' 0 n = y := by
    rw [BitVec.extractLsb'_append_eq_of_add_le (by omega), BitVec.extractLsb'_eq_self]
  have high {m n : Nat} (x : BitVec m) (y : BitVec n) (start len : Nat) (above : n ≤ start) :
      (x ++ y).extractLsb' start len = x.extractLsb' (start - n) len := BitVec.extractLsb'_append_eq_of_le above
  obtain ⟨opcode, course, sub, len, poison, attr, fpa, srcNode, srcRack, srcEngine, tag, bayTag, status, aux, rsvd⟩ := h
  simp (disch := decide) only [headerOf, headerBits, high, low, Nat.reduceSub, BitVec.extractLsb'_eq_self]

/-- Settles O7: the code gives the bits back (R55), and the bits the fields (R59). -/
theorem headerRoundTrip : Obligations.HeaderRoundTrip := fun h => by
  rw [headerDecode, headerSlot, decodeShingle_encodeShingle, Decoded.data, dataBits_encodeShingle, Option.map_some, headerOf_headerBits]

end Sys2Proof.Machine
end

section
/-! SUPPORT. A lath as bytes (R38 to R42): the members of the four codewords, the parity, the scrambler as a sum with a key that depends linearly
on its seed, and the fields of the control word. -/
namespace Sys2Proof.Machine

open Sys2Proof

/-! ### The four codewords of a lath (R41) -/

/-- The places below `n` whose bytes belong to codeword `w`. -/
def memberPlaces (w n : Nat) : List Nat := (List.range n).filter fun j => decide (fecWord j = w)

theorem memberPlaces_succ (w n : Nat) : memberPlaces w (n + 1) = memberPlaces w n ++ if fecWord n = w then [n] else [] := by
  rw [memberPlaces, List.range_succ, List.filter_append, memberPlaces]
  congr 1
  by_cases h : fecWord n = w <;> simp [h]

theorem mem_memberPlaces (w n j : Nat) : j ∈ memberPlaces w n ↔ j < n ∧ fecWord j = w := by simp [memberPlaces]

/-- The place of a member in its codeword: the number of those before it. -/
theorem memberPlaces_ranks (w n : Nat) : (memberPlaces w n).map (fun j => (memberPlaces w j).length) = List.range (memberPlaces w n).length := by
  induction n with
  | zero => rfl
  | succ n ih =>
    rw [memberPlaces_succ, List.map_append, ih, List.length_append]
    split
    · simp [List.range_succ]
    · simp

theorem fecMembers_eq (w n : Nat) (l : List Byte) (h : n ≤ l.length) : fecMembers w n l = (memberPlaces w n).map fun j => l.getD j 0 := by
  have indexed : (l.take n).zipIdx = (List.range n).map fun j => (l.getD j 0, j) := by
    refine List.ext_getElem (by simpa using h) fun j h1 h2 => ?_
    have hj : j < l.length := by simp at h1; omega
    simp [hj]
  rw [fecMembers, indexed, List.filter_map, List.map_map]
  rfl

theorem fecMembers_length (w n : Nat) (l : List Byte) (h : n ≤ l.length) : (fecMembers w n l).length = (memberPlaces w n).length := by
  rw [fecMembers_eq w n l h, List.length_map]

theorem fecByteAt_eq (words : List (List Byte)) (i : Nat) :
    fecByteAt words i = (words.getD (fecWord i) []).getD (memberPlaces (fecWord i) i).length 0 := rfl

theorem map_getD_range {α : Type} (d : α) (l : List α) : (List.range l.length).map (fun k => l.getD k d) = l := by
  refine List.ext_getElem (by simp) fun k h1 h2 => ?_
  rw [List.getElem_map, List.getElem_range, List.getD_eq_getElem _ _ h2]

/-- The members of a codeword, each taken from its place there. -/
theorem map_fecByteAt (words : List (List Byte)) (w n : Nat) (h : (words.getD w []).length = (memberPlaces w n).length) :
    (memberPlaces w n).map (fecByteAt words) = words.getD w [] := by
  have ranks : (memberPlaces w n).map (fecByteAt words) =
      ((memberPlaces w n).map fun j => (memberPlaces w j).length).map fun k => (words.getD w []).getD k 0 := by
    rw [List.map_map]
    refine List.map_congr_left fun j hj => ?_
    rw [fecByteAt_eq, ((mem_memberPlaces w n j).mp hj).2]
    rfl
  rw [ranks, memberPlaces_ranks, ← h, map_getD_range]

/-- A place of a codeword that begins with given members. -/
theorem fecByteAt_member (words : List (List Byte)) (n i : Nat) (f : Nat → Byte) (rest : List Byte) (hi : i < n)
    (h : words.getD (fecWord i) [] = (memberPlaces (fecWord i) n).map f ++ rest) : fecByteAt words i = f i := by
  have ranks := memberPlaces_ranks (fecWord i) n
  obtain ⟨k, hk, at_⟩ := List.getElem_of_mem ((mem_memberPlaces (fecWord i) n i).mpr ⟨hi, rfl⟩)
  have rank : (memberPlaces (fecWord i) i).length = k := by
    have := congrArg (fun l => l[k]?) ranks
    simpa [hk, at_] using this
  rw [fecByteAt_eq, h, rank, List.getD_append _ _ _ _ (by simpa using hk), List.getD_eq_getElem _ _ (by simpa using hk), List.getElem_map, at_]

/-! ### The parity (R41) -/

theorem fecStep_eq (r : List Byte) (d : Byte) : fecStep r d = divStep (fecGen.drop 1) r d := by
  rw [fecStep, divStep, List.zipWith_map_right]

theorem fecGen_length : (fecGen.drop 1).length = 8 := by decide

theorem fecParity_eq (m : List Byte) : fecParity m = m.foldl (divStep (fecGen.drop 1)) (List.replicate (fecGen.drop 1).length 0) := by
  rw [fecParity, fecGen_length, show fecStep = divStep (fecGen.drop 1) from funext₂ fecStep_eq]

theorem foldl_divStep_length (g l r : List Byte) (h : r.length = g.length) (pos : 0 < g.length) : (l.foldl (divStep g) r).length = g.length := by
  induction l generalizing r with
  | nil => exact h
  | cons d l ih => exact ih _ (divStep_length g r d h pos)

theorem fecParity_length (m : List Byte) : (fecParity m).length = 8 := by
  rw [fecParity_eq, foldl_divStep_length _ _ _ (List.length_replicate ..) (by decide), fecGen_length]

set_option maxRecDepth 4000 in
/-- A codeword has the roots of the generator. -/
theorem fecSyndrome_codeword (m : List Byte) (j : Nat) (hj : j < 8) : fecSyndrome (m ++ fecParity m) j = 0 := by
  have roots : ∀ j, j < 8 → polyAt (alphaPow j) (fecGen.drop 1) = gfPow (alphaPow j) (fecGen.drop 1).length := by decide
  rw [fecParity_eq]
  exact polyAt_append_remainder _ _ m (by decide) (roots j hj)

theorem fecCorrect_codeword (m : List Byte) : fecCorrect (m ++ fecParity m) = some (m ++ fecParity m) := by
  have zero : ((List.range 8).map (fecSyndrome (m ++ fecParity m))).all (fun b => decide (b = 0)) = true := by
    simp only [List.all_map, List.all_eq_true, List.mem_range, Function.comp, decide_eq_true_eq]
    exact fecSyndrome_codeword m
  rw [fecCorrect, if_pos zero]

/-! ### Encoding and decoding -/

/-- The four codewords of the 580 bytes of a lath. -/
def fecWords (l : List Byte) : List (List Byte) := (List.range 4).map fun w => fecMembers w 580 l ++ fecParity (fecMembers w 580 l)

theorem fecWord_lt (i : Nat) : fecWord i < 4 := Nat.mod_lt _ (by decide)

theorem fecWords_getD (l : List Byte) (w : Nat) (h : w < 4) : (fecWords l).getD w [] = fecMembers w 580 l ++ fecParity (fecMembers w 580 l) := by
  rw [List.getD_eq_getElem _ _ (by simpa [fecWords] using h)]
  simp [fecWords]

theorem fecEncode_eq (l : List Byte) : fecEncode l = l ++ (upFrom 580 32).map (fecByteAt (fecWords l)) := rfl

theorem fecEncode_length (l : List Byte) (h : l.length = 580) : (fecEncode l).length = 612 := by
  rw [fecEncode_eq, List.length_append, h, List.length_map, upFrom_eq]
  simp

/-- Each codeword has eight of the 32 parity bytes. -/
theorem memberPlaces_parity (w : Nat) (h : w < 4) : (memberPlaces w 612).length = (memberPlaces w 580).length + 8 := by
  have parity : ∀ w, w < 4 → ((List.range' 580 32).filter fun j => decide (fecWord j = w)).length = 8 := by decide
  have parts : List.range 580 ++ List.range' 580 32 = List.range 612 := by
    rw [List.range_eq_range', List.range_eq_range']
    exact List.range'_append_1
  rw [memberPlaces, ← parts, List.filter_append, List.length_append, parity w h, memberPlaces]

theorem fecWords_length (l : List Byte) (w : Nat) (h : l.length = 580) (hw : w < 4) :
    ((fecWords l).getD w []).length = (memberPlaces w 612).length := by
  rw [fecWords_getD l w hw, List.length_append, fecMembers_length _ _ _ h.ge, fecParity_length, memberPlaces_parity w hw]

/-- The data bytes stand in their codewords. -/
theorem map_fecByteAt_data (l : List Byte) (h : l.length = 580) : (List.range 580).map (fecByteAt (fecWords l)) = l := by
  refine List.ext_getElem (by simp [h]) fun i h1 h2 => ?_
  have hi : i < 580 := by simpa using h1
  rw [List.getElem_map, List.getElem_range, fecByteAt_member (fecWords l) 580 i (fun j => l.getD j 0) (fecParity (fecMembers (fecWord i) 580 l)) hi
    (by rw [fecWords_getD l _ (fecWord_lt i), fecMembers_eq _ _ _ h.ge]), List.getD_eq_getElem _ _ h2]

/-- All bytes of an encoded lath, each from its codeword. -/
theorem fecEncode_bytes (l : List Byte) (h : l.length = 580) : (List.range 612).map (fecByteAt (fecWords l)) = fecEncode l := by
  have parts : List.range 612 = List.range 580 ++ upFrom 580 32 := by
    rw [upFrom_eq, ← List.range_add]
  rw [parts, List.map_append, map_fecByteAt_data l h, fecEncode_eq]

theorem fecMembers_fecEncode (l : List Byte) (w : Nat) (h : l.length = 580) (hw : w < 4) :
    fecMembers w 612 (fecEncode l) = fecMembers w 580 l ++ fecParity (fecMembers w 580 l) := by
  rw [fecMembers_eq _ _ _ (fecEncode_length l h).ge, ← fecWords_getD l w hw, ← map_fecByteAt (fecWords l) w 612 (fecWords_length l w h hw)]
  refine List.map_congr_left fun j hj => ?_
  have inside : j < 612 := ((mem_memberPlaces w 612 j).mp hj).1
  rw [← fecEncode_bytes l h, List.getD_eq_getElem _ _ (by simpa using inside), List.getElem_map, List.getElem_range]

/-- An encoded lath is decoded with no byte corrected (R42). -/
theorem fecDecode_fecEncode (l : List Byte) (h : l.length = 580) : fecDecode (fecEncode l) = some (l, 0) := by
  have words : (List.range 4).map (fun w => fecCorrect (fecMembers w 612 (fecEncode l))) = (fecWords l).map some := by
    rw [fecWords, List.map_map]
    refine List.map_congr_left fun w hw => ?_
    rw [fecMembers_fecEncode l w h (List.mem_range.mp hw), fecCorrect_codeword]
    rfl
  have good : ((fecWords l).map some).map (fun w => w.getD []) = fecWords l := by
    rw [List.map_map]
    exact List.map_id _
  have whole : ((fecWords l).map some).all Option.isSome = true := by simp
  have same : ((fecEncode l).zip (fecEncode l)).filter (fun p => decide (p.1 ≠ p.2)) = [] := by
    rw [List.zip, List.zipWith_self, List.filter_map]
    simp
  rw [fecDecode, if_neg (not_not.mpr (fecEncode_length l h))]
  simp only [words, good, whole, if_true, map_fecByteAt_data l h, fecEncode_bytes l h, same]
  rfl

/-! ### The scrambler (R40) -/

/-- The scrambler's bytes for a seed. -/
def prbsKey (s : BitVec 31) (n : Nat) : List Byte := prbsBytes s (List.replicate n 0)

theorem prbsBytes_length (s : BitVec 31) (l : List Byte) : (prbsBytes s l).length = l.length := by
  induction l generalizing s with
  | nil => rfl
  | cons b l ih => exact congrArg Nat.succ (ih _)

theorem prbsKey_length (s : BitVec 31) (n : Nat) : (prbsKey s n).length = n := by rw [prbsKey, prbsBytes_length, List.length_replicate]

/-- To scramble is to add the key. -/
theorem prbsBytes_eq (s : BitVec 31) (l : List Byte) : prbsBytes s l = List.zipWith (· ^^^ ·) l (prbsKey s l.length) := by
  induction l generalizing s with
  | nil => rfl
  | cons b l ih =>
    have key : prbsKey s (b :: l).length = (prbsByte s 8).1 :: prbsKey (prbsByte s 8).2 l.length :=
      congrArg (· :: _) (BitVec.zero_xor (x := (prbsByte s 8).1))
    rw [key, List.zipWith_cons_cons, ← ih]
    rfl

theorem zipWith_xor_twice (l k : List Byte) (h : l.length ≤ k.length) : List.zipWith (· ^^^ ·) (List.zipWith (· ^^^ ·) l k) k = l := by
  refine List.ext_getElem (by simpa using h) fun i h1 h2 => ?_
  rw [List.getElem_zipWith, List.getElem_zipWith, BitVec.xor_assoc, BitVec.xor_self, BitVec.xor_zero]

/-- The scrambler undoes itself. -/
theorem scramble_scramble (q : BitVec 12) (l : List Byte) : scramble q (scramble q l) = l := by
  rw [scramble, scramble, prbsBytes_eq _ (prbsBytes _ l), prbsBytes_length, prbsBytes_eq _ l]
  exact zipWith_xor_twice l _ (prbsKey_length ..).ge

theorem scramble_length (q : BitVec 12) (l : List Byte) : (scramble q l).length = l.length := prbsBytes_length ..

theorem prbsStep_xor (a b : BitVec 31) : prbsStep (a ^^^ b) = prbsStep a ^^^ prbsStep b := by
  have bit (x y : Bool) : BitVec.ofNat 31 (x ^^ y).toNat = BitVec.ofNat 31 x.toNat ^^^ BitVec.ofNat 31 y.toNat := by
    cases x <;> cases y <;> rfl
  have low (s : BitVec 31) (x : Bool) : s <<< 1 ||| BitVec.ofNat 31 x.toNat = s <<< 1 ^^^ BitVec.ofNat 31 x.toNat := by
    refine BitVec.eq_of_getLsbD_eq fun i hi => ?_
    cases x
    · simp
    · rcases i with - | i <;> simp
  have sum : (bitAt (a ^^^ b) 30 ^^ bitAt (a ^^^ b) 27) = ((bitAt a 30 ^^ bitAt a 27) ^^ (bitAt b 30 ^^ bitAt b 27)) := by
    rw [bitAt_xor, bitAt_xor]
    simp only [Bool.xor_assoc, Bool.xor_left_comm]
  rw [prbsStep, prbsStep, prbsStep, low, low, low, sum, bit, BitVec.shiftLeft_xor_distrib]
  ac_rfl

theorem prbsByte_xor (a b : BitVec 31) (n : Nat) :
    prbsByte (a ^^^ b) n = ((prbsByte a n).1 ^^^ (prbsByte b n).1, (prbsByte a n).2 ^^^ (prbsByte b n).2) := by
  have bit (x y : Bool) : BitVec.ofNat 8 (x ^^ y).toNat = BitVec.ofNat 8 x.toNat ^^^ BitVec.ofNat 8 y.toNat := by
    cases x <;> cases y <;> rfl
  have low (s : Byte) (x : Bool) : s <<< 1 ||| BitVec.ofNat 8 x.toNat = s <<< 1 ^^^ BitVec.ofNat 8 x.toNat := by
    refine BitVec.eq_of_getLsbD_eq fun i hi => ?_
    cases x
    · simp
    · rcases i with - | i <;> simp
  induction n generalizing a b with
  | zero => exact congrArg (·, a ^^^ b) BitVec.xor_self.symm
  | succ n ih =>
    simp only [prbsByte, prbsStep_xor, ih, low]
    rw [bitAt_xor, bit, BitVec.shiftLeft_xor_distrib]
    congr 1
    ac_rfl

/-- The key depends linearly on the seed. -/
theorem prbsKey_xor (a b : BitVec 31) (n : Nat) : prbsKey (a ^^^ b) n = List.zipWith (· ^^^ ·) (prbsKey a n) (prbsKey b n) := by
  have step (s : BitVec 31) (n : Nat) : prbsKey s (n + 1) = (prbsByte s 8).1 :: prbsKey (prbsByte s 8).2 n :=
    congrArg (· :: _) (BitVec.zero_xor (x := (prbsByte s 8).1))
  induction n generalizing a b with
  | zero => rfl
  | succ n ih => rw [step, step, step, List.zipWith_cons_cons, prbsByte_xor, ih]

/-- The number of a sum of byte strings. -/
theorem natOfBytes_zipWith (l k : List Byte) (h : l.length = k.length) :
    natOfBytes (List.zipWith (· ^^^ ·) l k) = natOfBytes l ^^^ natOfBytes k := by
  have digit (x y : Byte) (m n : Nat) : (x.toNat + 256 * m) ^^^ (y.toNat + 256 * n) = (x ^^^ y).toNat + 256 * (m ^^^ n) := by
    have join (z : Byte) (m : Nat) : z.toNat + 256 * m = 2 ^ 8 * m ||| z.toNat := by
      rw [← Nat.two_pow_add_eq_or_of_lt z.isLt, Nat.add_comm]
    rw [join, join, join, BitVec.toNat_xor]
    refine Nat.eq_of_testBit_eq fun i => ?_
    have hx := x.isLt
    have hy := y.isLt
    simp only [Nat.testBit_xor, Nat.testBit_or, Nat.testBit_two_pow_mul]
    by_cases hi : 8 ≤ i
    · have zx := Nat.testBit_lt_two_pow (lt_of_lt_of_le hx (Nat.pow_le_pow_right (by decide) hi))
      have zy := Nat.testBit_lt_two_pow (lt_of_lt_of_le hy (Nat.pow_le_pow_right (by decide) hi))
      simp [hi, zx, zy]
    · simp [hi]
  induction l generalizing k with
  | nil =>
    cases k with
    | nil => rfl
    | cons _ _ => cases h
  | cons x l ih =>
    cases k with
    | nil => cases h
    | cons y k =>
      have same : l.length = k.length := Nat.succ.inj h
      rw [List.zipWith_cons_cons, natOfBytes, natOfBytes, natOfBytes, ih k same, digit]

theorem ctlKeystream_eq (s : BitVec 31) : ctlKeystream s = BitVec.ofNat 32 (natOfBytes ((prbsKey s 580).drop 576)) := rfl

theorem ctlKeystream_xor (a b : BitVec 31) : ctlKeystream (a ^^^ b) = ctlKeystream a ^^^ ctlKeystream b := by
  rw [ctlKeystream_eq, prbsKey_xor, List.drop_zipWith, natOfBytes_zipWith _ _ (by simp [prbsKey_length]), BitVec.ofNat_xor, ctlKeystream_eq,
    ctlKeystream_eq]

/-- The control word of a scrambled lath, as received: its own plus the key. -/
theorem natOfBytes_ctlBytes (q : BitVec 12) (l : List Byte) (c : W32) (h : l.length = 576) :
    natOfBytes (ctlBytes (scramble q (l ++ bytesOf c 4))) = c.toNat ^^^ (ctlKeystream (prbsSeed q)).toNat := by
  have key := natOfBytes_lt ((prbsKey (prbsSeed q) 580).drop 576)
  have size : ((prbsKey (prbsSeed q) 580).drop 576).length = 4 := by rw [List.length_drop, prbsKey_length]
  have word := c.isLt
  rw [size] at key
  rw [ctlBytes, scramble, prbsBytes_eq, List.length_append, h, bytesOf_length, List.drop_zipWith,
    List.take_of_length_le (by simp [h, bytesOf_length]),
    List.drop_left' h, natOfBytes_zipWith _ _ (by rw [size, bytesOf_length]), natOfBytes_bytesOf, Nat.mod_eq_of_lt (by omega), ctlKeystream_eq,
    BitVec.toNat_ofNat, Nat.mod_eq_of_lt (by omega)]

/-! ### The recovery of SEQ -/

/-- The sum of the single bits of SEQ from the seed of SEQ 0. -/
def seedFrom (q : BitVec 12) (l : List Nat) : BitVec 31 :=
  (l.filter fun i => bitAt q i).foldl (fun s i => s ^^^ BitVec.ofNat 31 (2 ^ i)) (BitVec.ofNat 31 (2 ^ 30))

theorem seedFrom_range (q : BitVec 12) : seedFrom q (List.range 12) = prbsSeed q := by
  have bits (n : Nat) (hn : n ≤ 12) (k : Nat) (hk : k < 31) :
      (seedFrom q (List.range n)).getLsbD k = ((decide (k < n) && bitAt q k) || decide (k = 30)) := by
    induction n with
    | zero =>
      rw [show seedFrom q (List.range 0) = BitVec.twoPow 31 30 from rfl, BitVec.getLsbD_twoPow]
      by_cases h : k = 30 <;> simp [h, eq_comm]
    | succ n ih =>
      have single : BitVec.ofNat 31 (2 ^ n) = BitVec.twoPow 31 n := BitVec.eq_of_toNat_eq (by rw [BitVec.toNat_ofNat, BitVec.toNat_twoPow])
      rw [seedFrom, List.range_succ, List.filter_append, List.foldl_append, ← seedFrom]
      by_cases b : bitAt q n = true
      · rw [List.filter_singleton, b, cond_true, List.foldl_cons, List.foldl_nil, BitVec.getLsbD_xor, ih (by omega), single, BitVec.getLsbD_twoPow]
        by_cases h : k = n
        · subst h
          simp [b]
          omega
        · have other : (k < n + 1) ↔ k < n := by omega
          simp [other, Ne.symm h]
      · rw [Bool.not_eq_true] at b
        rw [List.filter_singleton, b, cond_false, List.foldl_nil, ih (by omega)]
        by_cases h : k = n
        · subst h
          simp [b]
        · have other : (k < n + 1) ↔ k < n := by omega
          simp [other]
  refine BitVec.eq_of_getLsbD_eq fun k hk => ?_
  have small (j : Nat) (h : 12 ≤ j) : q.toNat.testBit j = false :=
    Nat.testBit_lt_two_pow (lt_of_lt_of_le q.isLt (Nat.pow_le_pow_right (by decide) h))
  rw [bits 12 le_rfl k hk, prbsSeed, BitVec.getLsbD_ofNat, Nat.add_comm, decide_eq_true hk, Bool.true_and]
  rcases Nat.lt_or_ge k 30 with below | top
  · rw [Nat.testBit_two_pow_add_gt below]
    by_cases h : k < 12
    · simp [h, below.ne, bitAt, BitVec.testBit_toNat]
    · simp [h, below.ne, small k (by omega)]
  · obtain rfl : k = 30 := by omega
    rw [Nat.testBit_two_pow_add_eq, small 30 (by decide)]
    rfl

/-- The key that the receiver puts together for a candidate is that of its seed. -/
theorem ctlKeystream_seedFrom (q : BitVec 12) (n : Nat) (hn : n ≤ 12) :
    ((List.range n).filter fun i => bitAt q i).foldl
      (fun acc i => acc ^^^ ((List.range 12).map fun i => ctlKeystream (BitVec.ofNat 31 (2 ^ i))).getD i 0)
      (ctlKeystream (BitVec.ofNat 31 (2 ^ 30))) =
      ctlKeystream (seedFrom q (List.range n)) := by
  induction n with
  | zero => rfl
  | succ n ih =>
    have unit : ((List.range 12).map fun i => ctlKeystream (BitVec.ofNat 31 (2 ^ i))).getD n 0 = ctlKeystream (BitVec.ofNat 31 (2 ^ n)) := by
      have inside : n < ((List.range 12).map fun i => ctlKeystream (BitVec.ofNat 31 (2 ^ i))).length := by
        rw [List.length_map, List.length_range]
        omega
      rw [List.getD_eq_getElem _ _ inside, List.getElem_map, List.getElem_range]
    rw [seedFrom, List.range_succ (n := n), List.filter_append, List.foldl_append, List.foldl_append, ← seedFrom, ih (by omega),
      List.filter_singleton]
    cases bitAt q n
    · rfl
    · rw [cond_true, List.foldl_cons, List.foldl_nil, List.foldl_cons, List.foldl_nil, ctlKeystream_xor, unit]

theorem findSeq_scramble (q : BitVec 12) (l : List Byte) (c : W32) (h : l.length = 576) (seq : c.toNat % 4096 = q.toNat) :
    findSeq q (scramble q (l ++ bytesOf c 4)) = some q := by
  have first : (List.range 4096).map (fun d => q + BitVec.ofNat 12 d) = q :: ((List.range 4095).map Nat.succ).map fun d => q + BitVec.ofNat 12 d := by
    rw [show 4096 = 4095 + 1 from rfl, List.range_succ_eq_map, List.map_cons]
    congr 1
    exact BitVec.add_zero q
  have word : natOfBytes (ctlBytes (scramble q (l ++ bytesOf c 4))) ^^^ (ctlKeystream (prbsSeed q)).toNat = c.toNat := by
    rw [natOfBytes_ctlBytes q l c h, Nat.xor_assoc, Nat.xor_self, Nat.xor_zero]
  rw [findSeq, first, List.find?_cons_of_pos]
  simp only [ctlKeystream_seedFrom q 12 le_rfl, seedFrom_range, word]
  exact decide_eq_true seq

/-! ### The control word and the slots (R38, R39) -/

theorem LathCtl.toNat_toWord (c : LathCtl) :
    c.toWord.toNat = c.seq.toNat + c.ack.toNat * 2 ^ 12 + c.ltype.toNat * 2 ^ 24 + c.replayed.toNat * 2 ^ 27 + c.keyId.toNat * 2 ^ 28 := by
  have h1 := c.seq.isLt
  have h2 := c.ack.isLt
  have h3 := c.ltype.isLt
  have h4 := c.replayed.toNat_le
  have h5 := c.keyId.isLt
  rw [LathCtl.toWord, BitVec.toNat_ofNat, Nat.mod_eq_of_lt (by omega)]

@[simp] theorem LathCtl.ofWord_toWord (c : LathCtl) : LathCtl.ofWord c.toWord = c := by
  have word := c.toNat_toWord
  obtain ⟨seq, ack, ltype, replayed, keyId⟩ := c
  have h1 := seq.isLt
  have h2 := ack.isLt
  have h3 := ltype.isLt
  have h4 := replayed.toNat_le
  have h5 := keyId.isLt
  have back {n : Nat} (x : BitVec n) (v : Nat) (h : v = x.toNat) : BitVec.ofNat n v = x := by rw [h, BitVec.ofNat_toNat, BitVec.setWidth_eq]
  simp only [LathCtl.ofWord, fld, Nat.shiftRight_eq_div_pow, word, LathCtl.mk.injEq]
  refine ⟨back _ _ (by omega), back _ _ (by omega), back _ _ (by omega), ?_, back _ _ (by omega)⟩
  rw [bitAt, ← BitVec.testBit_toNat, word, Nat.testBit_eq_decide_div_mod_eq]
  cases replayed
  · simp only [Bool.toNat_false] at *
    exact decide_eq_false (by omega)
  · simp only [Bool.toNat_true] at *
    exact decide_eq_true (by omega)

theorem ofNat_natOfBytes_bytesOf (w : Shingle) : BitVec.ofNat 288 (natOfBytes (bytesOf w 36)) = w := by
  have := w.isLt
  apply BitVec.eq_of_toNat_eq
  rw [BitVec.toNat_ofNat, natOfBytes_bytesOf]
  omega

theorem flatMap_bytesOf_length (l : List Shingle) : (l.flatMap fun w => bytesOf w 36).length = 36 * l.length := by
  induction l with
  | nil => rfl
  | cons w l ih =>
    rw [List.flatMap_cons, List.length_append, ih, bytesOf_length, List.length_cons]
    omega

/-- The bytes of one slot among those of all. -/
theorem slot_bytes (l : List Shingle) (tail : List Byte) (i : Nat) (h : i < l.length) :
    (((l.flatMap fun w => bytesOf w 36) ++ tail).drop (36 * i)).take 36 = bytesOf l[i] 36 := by
  induction l generalizing i with
  | nil => exact absurd h (Nat.not_lt_zero _)
  | cons w l ih =>
    rw [List.flatMap_cons, List.append_assoc]
    cases i with
    | zero => rw [Nat.mul_zero, List.drop_zero, List.take_left' (bytesOf_length w 36), List.getElem_cons_zero]
    | succ i =>
      rw [Nat.mul_succ, Nat.add_comm, ← List.drop_drop, List.drop_left' (bytesOf_length w 36), List.getElem_cons_succ]
      exact ih i (Nat.lt_of_succ_lt_succ h)

/-- The slots of a lath: those given, filled with zero slots up to sixteen. -/
def lathSlots (slots : List Shingle) : List Shingle := (slots ++ List.replicate 16 0).take 16

theorem lathSlots_length (slots : List Shingle) : (lathSlots slots).length = 16 := by simp [lathSlots]

theorem slotBytes_eq (slots : List Shingle) : slotBytes slots = (lathSlots slots).flatMap fun w => bytesOf w 36 := rfl

theorem slotBytes_length (slots : List Shingle) : (slotBytes slots).length = 576 := by
  rw [slotBytes_eq, flatMap_bytesOf_length, lathSlots_length]

theorem slotsOfBytes_slotBytes (slots : List Shingle) (tail : List Byte) : slotsOfBytes (slotBytes slots ++ tail) = lathSlots slots := by
  refine List.ext_getElem (by simp [slotsOfBytes, lathSlots_length]) fun i h1 h2 => ?_
  simp only [slotsOfBytes, List.getElem_map, List.getElem_range, slotBytes_eq, slot_bytes _ tail i h2, ofNat_natOfBytes_bytesOf]

/-- Settles O8: the parity leaves the bytes clean (R41, R42), the scrambler undoes itself (R40) once SEQ is known, which the sum of the received
control word and the key shows, and the bytes give the word and the slots back (R38, R39). -/
theorem lathRoundTrip : Obligations.LathRoundTrip := by
  intro c slots
  have size : (scramble c.seq (slotBytes slots ++ bytesOf c.toWord 4)).length = 580 := by
    rw [scramble_length, List.length_append, slotBytes_length, bytesOf_length]
  have seq : c.toWord.toNat % 4096 = c.seq.toNat := by
    have := c.seq.isLt
    rw [c.toNat_toWord]
    omega
  have word : BitVec.ofNat 32 (natOfBytes (bytesOf c.toWord 4)) = c.toWord := by
    have := c.toWord.isLt
    apply BitVec.eq_of_toNat_eq
    rw [BitVec.toNat_ofNat, natOfBytes_bytesOf]
    omega
  refine ⟨fecEncode_length _ size, ?_⟩
  rw [lathOfBytes, lathBytes, fecDecode_fecEncode _ size]
  simp only [findSeq_scramble c.seq _ _ (slotBytes_length slots) seq, scramble_scramble, List.drop_left' (slotBytes_length slots), word,
    LathCtl.ofWord_toWord, slotsOfBytes_slotBytes]
  rfl

end Sys2Proof.Machine
end

section
/-! SUPPORT. What a lost link brings about at its device (R45, R124, R126) leaves every port's training and retransmission. -/
namespace Sys2Proof.Machine

open Sys2Proof

/-- What a port's link has of its own: the port's training and its retransmission. -/
def State.lines (s : State) (p : PortRef) : Train × Retry := ((s.port p).train, (s.port p).retry)

section
variable (s : State)

theorem State.lines_of_ports {s t : State} (module : t.ports = s.ports) (block : t.jeb.ports = s.jeb.ports) : t.lines = s.lines := by
  funext p
  cases p <;> simp only [State.lines, State.port, module, block]

theorem State.updPort_lines (p : PortRef) (f : Port → Port) (train : (f (s.port p)).train = (s.port p).train)
    (retry : (f (s.port p)).retry = (s.port p).retry) : (s.updPort p f).lines = s.lines := by
  funext q
  by_cases here : q = p
  · subst here
    rw [State.lines, State.port_updPort_same, train, retry, State.lines]
  · rw [State.lines, State.port_updPort_ne _ _ _ _ here, State.lines]

/-! ### At a module -/

theorem State.freeSlots_lines (n : Fin 144) (vc k : Nat) : (s.freeSlots n vc k).lines = s.lines := s.updPort_lines _ _ rfl rfl

theorem State.link_lines (f : Frame) (q : Nat) (a : Arrive) : (s.link f q a).lines = s.lines := by
  unfold State.link
  dsimp only
  split
  · split
    · exact State.freeSlots_lines _ _ _ _
    · rfl
  · rfl

theorem State.unlink_lines (q : Nat) (e : Entry) : (s.unlink q e).lines = s.lines := by
  unfold State.unlink
  dsimp only
  split
  · split
    · rfl
    · exact State.freeSlots_lines _ _ _ _
  · rfl

theorem State.count_lines (e : Event) : (s.count e).lines = s.lines :=
  State.lines_of_ports (s.count_ports e) (congrArg Jeb.ports (s.count_jeb e))

theorem State.severe_lines (e : Event) : (s.severe e).lines = s.lines :=
  State.lines_of_ports (s.severe_ports e) (congrArg Jeb.ports (s.note_jeb e 1 0))

theorem State.fatal_lines (code : Nat) (o : FaultObj) (e : Event) : (s.fatal code o e).lines = s.lines :=
  State.lines_of_ports (s.fatal_ports code o e) (congrArg Jeb.ports (s.fatal_jeb code o e))

theorem State.respondTo_lines (spar src : Nat) (f : Frame) : (s.respondTo spar src f).lines = s.lines := by
  have counted : (if f.hdr.status = stPoisoned then s.count (requestEvent 1 f.hdr) else s).lines = s.lines := by
    split
    · exact s.count_lines _
    · rfl
  unfold State.respondTo
  dsimp only
  rw [← counted]
  split
  · exact State.link_lines _ _ _ _
  · split
    · exact State.link_lines _ _ _ _
    · rfl
  · exact State.count_lines _ _

theorem State.purge_lines (q : Nat) (test : Entry → Bool) : (s.purge q test).2.lines = s.lines :=
  State.foldl_keeps State.lines _ (fun s e => s.unlink_lines q e) _ _

theorem State.answerLost_lines (n : Fin 144) : (s.answerLost n).lines = s.lines := by
  have answered (l : List Pend) (t : State) : (l.foldl (fun s e => s.respondError (agentSource agSoffit) e.hdr stTargetLost) t).lines = t.lines :=
    State.foldl_keeps State.lines _ (fun s e => s.respondTo_lines _ _ _) l t
  unfold State.answerLost
  dsimp only
  rw [State.foldl_keeps State.lines _ (fun t v => ?_), answered]
  · exact s.updPort_lines _ _ rfl rfl
  · refine (State.foldl_keeps State.lines _ (fun t e => ?_) _ _).trans (t.purge_lines _ _)
    split
    · exact t.count_lines _
    · exact t.respondTo_lines _ _ _

theorem State.moduleDown_lines (n : Fin 144) : (s.moduleDown n).lines = s.lines := by
  unfold State.moduleDown State.declareLost
  split
  · split
    · rfl
    · exact (State.answerLost_lines _ _).trans (State.fatal_lines _ _ _ _)
  · split
    · exact s.fatal_lines _ _ _
    · exact (State.answerLost_lines _ _).trans (s.severe_lines _)

end

/-! ### At a Jalem block -/

/-- The block's ports, and whether it is stopped. -/
def State.blockLines (s : State) : Tab Port × Bool := (s.jeb.ports, s.jeb.stopped)

section
variable (s : State)

theorem State.endReq_blockLines (r : Req) (st : Byte) : (s.endReq r st).blockLines = s.blockLines := by
  have drained (j : Jeb) : (j.drain.ports, j.drain.stopped) = (j.ports, j.stopped) := by
    unfold Jeb.drain
    split <;> rfl
  unfold State.endReq
  dsimp only
  split
  · exact drained _
  · exact drained _

theorem State.advance_blockLines (c : Nat) : (s.advance c).blockLines = s.blockLines := by
  unfold State.advance State.endWaits
  exact State.foldl_keeps State.blockLines (fun s (w : Nat × W32) => s.emit (.waitOver w.1 w.2)) (fun _ _ => rfl) _ _

theorem State.finish_blockLines (e : Byte) (id : Nat) (comp : Option (BitVec 12)) (code : Byte) (value : W64) :
    (s.finish e id comp code value).blockLines = s.blockLines := by
  unfold State.finish
  cases comp with
  | none => rfl
  | some c => exact State.advance_blockLines _ _

theorem State.landFrame_blockLines (r : Req) (x : Xfer) (f : Frame) : (s.landFrame r x f).1.blockLines = s.blockLines := by
  unfold State.landFrame
  dsimp only
  split
  · dsimp only
    split <;> rfl
  · split
    · split <;> rfl
    · split <;> rfl

theorem State.takeResponse_blockLines (r : Req) (f : Frame) : (s.takeResponse r f).blockLines = s.blockLines := by
  unfold State.takeResponse
  split
  · exact s.endReq_blockLines _ _
  · next x _ =>
    rw [← s.landFrame_blockLines r x f]
    dsimp only
    split
    · exact State.endReq_blockLines _ _ _
    · split <;> rfl

theorem State.completeXfer_blockLines (e : Byte) (x : Xfer) (code : Byte) : (s.completeXfer e x code).blockLines = s.blockLines := by
  unfold State.completeXfer State.endTransfer
  dsimp only
  rw [State.finish_blockLines]
  split <;> rfl

theorem State.settle_blockLines (e : Byte) (n : Nat) : (s.settle e n).blockLines = s.blockLines := by
  induction n generalizing s with
  | zero => rfl
  | succ n ih =>
    unfold State.settle
    split
    · dsimp only
      rw [ih]
      exact State.foldl_keeps State.blockLines _ (fun t f => t.takeResponse_blockLines _ f) _ _
    · split
      · rw [ih, State.completeXfer_blockLines]
      · split
        · dsimp only
          rw [ih, State.finish_blockLines]
          split <;> rfl
        · rfl

/-- A block that is not stopped acknowledges no STOP. -/
theorem State.ackStops_running (h : s.jeb.stopped = false) : s.ackStops = s := if_neg (by simp [h])

theorem State.loseReq_blockLines (r : Req) (h : s.jeb.stopped = false) : (s.loseReq r).blockLines = s.blockLines := by
  have settled : ((s.endReq r stTargetLost).settleAll r.hdr.srcEngine).blockLines = s.blockLines :=
    (State.settle_blockLines _ _ _).trans (s.endReq_blockLines r _)
  have running := (congrArg Prod.snd settled).trans h
  rw [State.loseReq, State.ackStops_running _ running, settled]

theorem State.loseReqs_blockLines (l : List Req) (h : s.jeb.stopped = false) : (l.foldl (fun s r => s.loseReq r) s).blockLines = s.blockLines := by
  induction l generalizing s with
  | nil => rfl
  | cons r l ih =>
    have lost := s.loseReq_blockLines r h
    exact (ih (s.loseReq r) ((congrArg Prod.snd lost).trans h)).trans lost

theorem State.linkLost_port (q : Fin 18) (p : PortRef) (block : portDev p = .jalem) (h : s.jeb.stopped = false) :
    (s.linkLost q).lines p = s.lines p := by
  have lost := (s.updPort (.rafter q) fun x => { x with txq := [] }).loseReqs_blockLines
    (s.jeb.reqs.filter fun r => decide (r.link = some q) && !r.answered) h
  have kept := congrFun (s.updPort_lines (.rafter q) (fun x => { x with txq := [] }) rfl rfl) p
  unfold State.linkLost
  dsimp only
  rw [State.ackStops_running, ← kept]
  case h => exact (congrArg Prod.snd lost).trans h
  have ports := congrArg Prod.fst lost
  cases p with
  | module n => cases block
  | rafter r => exact congrArg (fun t => ((Tab.get Port.reset t r.val).train, (Tab.get Port.reset t r.val).retry)) ports
  | tray r => exact congrArg (fun t => ((Tab.get Port.reset t (18 + r.val)).train, (Tab.get Port.reset t (18 + r.val)).retry)) ports

end

end Sys2Proof.Machine
end

section
/-! SUPPORT. The training of a port up to NEGOTIATE (R46, R47), and what stands at a port that goes DOWN (R45). -/
namespace Sys2Proof.Machine

open Sys2Proof

/-- A command completes with the state that its text comes to. -/
theorem completes_of_eq {c : Instr} {s t u : State} {P : State → Prop} (next : exec c s = .next u) (comes : u = t) (holds : P t) :
    Completes c s P :=
  ⟨t, next.trans (congrArg _ comes), holds⟩

/-- A port that has trained its lanes (R46, R47). -/
def Port.equalised (x : Port) : Port := { x with train := { x.train with state := .lock, width := x.train.tryWidth, eqFails := 0 } }

section
variable (s : State) (p : PortRef)

theorem State.pstate_updPort (f : Port → Port) : (s.updPort p f).pstate p = (f (s.port p)).train.state := by
  rw [State.pstate, State.port_updPort_same]

/-- A change of the training of one port alone. -/
theorem onlyTrain_updPort (f : Port → Port) (hf : f (s.port p) = { s.port p with train := (f (s.port p)).train }) :
    OnlyTrain p s (s.updPort p f) [] := (OnlyTrain.refl p s).updPort f hf

/-- What a link lost leaves of its port. -/
theorem State.linkDown_lines (running : portDev p = .module ∨ s.jeb.stopped = false) : (s.linkDown p).lines p = s.lines p := by
  cases p with
  | module n => exact congrFun (s.moduleDown_lines n) _
  | rafter q => exact s.linkLost_port q (.rafter q) rfl (running.resolve_left nofun)
  | tray t => exact congrFun (s.updPort_lines (.tray t) (fun x => { x with txq := [] }) rfl rfl) _

/-- A port that goes DOWN, or HELD in its place: its training says so and why, and nothing waits for retransmission (R45). -/
theorem State.portDown_lines (st : PState) (fail : BitVec 4) (running : portDev p = .module ∨ s.jeb.stopped = false) :
    (s.portDown p st fail).lines p =
      ({ (s.port p).train with state := st, fail := fail, width := 0, bayDown := s.inBay p, asDown := decide (st = .held) }, Port.reset.retry) := by
  have stopped (f : Port → Port) : (s.updPort p f).jeb.stopped = s.jeb.stopped := by cases p <;> rfl
  rw [State.portDown, State.linkDown_lines _ _ (running.imp_right (stopped _).trans), State.lines, State.port_updPort_same]
  rfl

theorem State.pstate_of_lines {s : State} {p : PortRef} {t : Train} {r : Retry} (h : s.lines p = (t, r)) :
    s.pstate p = t.state ∧ (s.port p).train = t ∧ (s.port p).retry = r :=
  have train := congrArg Prod.fst h
  ⟨congrArg Train.state train, train, congrArg Prod.snd h⟩

/-- The training lath of a port in LOCK has the form of a lath without a SEQ of its own, at the width just reached. -/
theorem State.trainingLath_eq (t : State) (retry : (t.port p).retry = (s.port p).retry) :
    t.trainingLath p = t.emit (s.bareLath p (t.port p).train.width 3) := by
  rw [State.trainingLath, State.putLath, State.bareLath, retry]

/-- A port's identity record names its role, and offers its mask. -/
theorem State.ownIdentity_updPort (f : Port → Port) (role : (f (s.port p)).train.role = (s.port p).train.role)
    (cfg : (f (s.port p)).cfg = (s.port p).cfg) : (s.updPort p f).ownIdentity p = s.ownIdentity p := by
  unfold State.ownIdentity
  rw [State.port_updPort_same]
  dsimp only
  rw [role, cfg]
  cases p <;> rfl

end

/-- Settles O16: each command by its own text, which changes the training of its port alone (`OnlyTrain.updPort`); for the third failure
`portDown_lines`. -/
theorem trainingMoves : Obligations.TrainingMoves := by
  refine fun s p => ⟨fun detect => ?detected, fun equalise => ?done, fun equalise few => ?failed, fun equalise third running => ?down,
    fun lock => ?locked, fun lock => ?lost, fun early => ?gone⟩
  case detected =>
    exact completes_of_eq rfl (if_pos detect) ⟨s.pstate_updPort p _, onlyTrain_updPort s p _ rfl⟩
  case done =>
    have here := s.port_updPort_same p Port.equalised
    have sent := s.trainingLath_eq p (s.updPort p Port.equalised) (by rw [here]; rfl)
    rw [here] at sent
    refine completes_of_eq rfl ((if_pos equalise).trans sent) ⟨?_, ?_, ?_, (onlyTrain_updPort s p Port.equalised rfl).emit _⟩
    · exact s.pstate_updPort p Port.equalised
    · exact congrArg (fun x => x.train.width) here
    · exact congrArg (fun x => x.train.eqFails) here
  case failed =>
    have here := s.port_updPort_same p Port.equaliseFailed
    refine completes_of_eq rfl ((if_neg (not_not.mpr equalise)).trans (if_neg (Nat.not_le.mpr few))) ⟨?_, ?_, ?_, onlyTrain_updPort s p _ rfl⟩
    · exact s.pstate_updPort p Port.equaliseFailed
    · exact congrArg (fun x => x.train.eqFails) here
    · exact congrArg (fun x => x.train.width) here
  case down =>
    obtain ⟨state, train, -⟩ := State.pstate_of_lines (s.portDown_lines p .down 4 running)
    exact completes_of_eq rfl ((if_neg (not_not.mpr equalise)).trans (if_pos third)) ⟨state, congrArg Train.fail train⟩
  case locked =>
    have sent : (s.setPState p .identify).sendIdentity p = (s.setPState p .identify).emit (.identity p (s.ownIdentity p)) :=
      congrArg (fun i => (s.setPState p .identify).emit (.identity p i)) (s.ownIdentity_updPort p _ rfl rfl)
    exact completes_of_eq rfl ((if_pos lock).trans sent) ⟨s.pstate_updPort p _, (onlyTrain_updPort s p _ rfl).emit _⟩
  case lost =>
    have here := s.port_updPort_same p fun x => { x with train := { x.train with state := .equalise, width := 0 } }
    exact completes_of_eq rfl (if_pos lock) ⟨s.pstate_updPort p _, (congrArg (fun x => x.train.width) here :), onlyTrain_updPort s p _ rfl⟩
  case gone =>
    have here := s.port_updPort_same p Port.partnerGone
    exact completes_of_eq rfl (if_pos early) ⟨s.pstate_updPort p _, (congrArg (fun x => x.train.width) here :),
      (congrArg (fun x => x.train.tryWidth) here :), onlyTrain_updPort s p _ rfl⟩

end Sys2Proof.Machine
end

section
/-! SUPPORT. Retraining and restart of a port (R44 to R46): the lath that a port sends without a new SEQ, and what each end of RETRAIN leaves. -/
namespace Sys2Proof.Machine

open Sys2Proof

section
variable (s : State) (p : PortRef)

/-! ### The key of the transmitter, and a lath without a new SEQ -/

theorem State.portKey_updPort (f : Port → Port) (slot : BitVec 2) (sealing : (f (s.port p)).sealing.gone = (s.port p).sealing.gone) :
    (s.updPort p f).portKey p slot = s.portKey p slot := by
  cases p with
  | module n =>
    have gone : ((s.updPort (.module n) f).mport n.val).sealing.gone = (s.mport n.val).sealing.gone := by
      rw [State.mport_eq, State.port_updPort_same, sealing, ← State.mport_eq]
    rw [State.portKey, gone, State.updPort_sec]
    rfl
  | rafter q => rfl
  | tray t => rfl

theorem State.txKey_updPort (f : Port → Port) (sealing : (f (s.port p)).sealing = (s.port p).sealing) : (s.updPort p f).txKey p = s.txKey p := by
  rw [State.txKey, State.port_updPort_same, sealing, State.portKey_updPort _ _ _ _ (by rw [sealing])]
  rfl

/-- The lath leaves the block, and nothing but it: on a link that is not sealed in its idle form, on a sealed one with sixteen free slots. -/
theorem State.spareLath_eq (ltype : BitVec 3) : ∃ o k, s.spareLath p ltype = (s.emit o).spend k ∧
    (s.txKey p = none → o = s.bareLath p (s.port p).train.width ltype) ∧
    (s.txKey p ≠ none → ∃ slots : List Shingle, slots.length = 16 ∧ o = .lath p (lathLanes (s.port p).train.width (lathBytes
      { seq := (s.port p).retry.txSeq - 1, ack := (s.port p).retry.rxLast, ltype := ltype, replayed := false
        keyId := (s.port p).sealing.active } slots))) := by
  refine ⟨_, _, rfl, fun unsealed => ?_, fun sealed_ => ⟨(List.range 16).map s.freeSlot, by simp, ?_⟩⟩
  · rw [unsealed]
    rfl
  · obtain ⟨key, on⟩ := Option.ne_none_iff_exists'.mp sealed_
    rw [on]
    rfl

/-! ### RETRAIN -/

/-- A port that is to retrain, counted (R44). -/
def Port.retraining (x : Port) : Port :=
  { x with train := { x.train with state := .retrain }, err := { x.err with lathErr := satFld x.err.lathErr 16 8 1 } }

theorem State.enterRetrain_eq : s.enterRetrain p =
    match p with
    | .module n => ((s.updPort p Port.retraining).spareLath p 3).count (linkEvent 3 n.val)
    | _ => (s.updPort p Port.retraining).spareLath p 3 := rfl

/-- A port enters RETRAIN: its state and its counter, one lath, and at a module an event of source 3. -/
theorem State.enterRetrain_spec : ∃ o k, (s.updPort p Port.retraining).spareLath p 3 = ((s.updPort p Port.retraining).emit o).spend k ∧
    (s.enterRetrain p).port p = (s.port p).retraining ∧ (s.enterRetrain p).outputs = s.outputs ++ [o] ∧
    (s.enterRetrain p).pur = s.pur ∧ (s.enterRetrain p).sec = s.sec ∧ (portDev p = .module → Counted s (s.enterRetrain p) 3 1) := by
  obtain ⟨o, k, sent, -⟩ := (s.updPort p Port.retraining).spareLath_eq p 3
  refine ⟨o, k, sent, ?_⟩
  have here : (((s.updPort p Port.retraining).emit o).spend k).port p = (s.port p).retraining := s.port_updPort_same p Port.retraining
  rw [State.enterRetrain_eq]
  cases p with
  | module n =>
    dsimp only
    rw [sent]
    refine ⟨(State.count_port _ _ _).trans here, ?_, ?_, ?_, fun _ => ?_⟩
    · exact State.count_outputs _ _
    · exact State.count_pur _ _
    · exact State.count_sec _ _
    · exact (((s.updPort (.module n) Port.retraining).emit o).spend k).count_total (linkEvent 3 n.val) Nat.one_ne_zero
  | rafter q =>
    dsimp only
    rw [sent]
    exact ⟨here, rfl, rfl, rfl, nofun⟩
  | tray t =>
    dsimp only
    rw [sent]
    exact ⟨here, rfl, rfl, rfl, nofun⟩

/-- What leaves the block as a port enters RETRAIN. -/
theorem State.enterRetrain_outputs :
    (s.txKey p = none → (s.enterRetrain p).outputs = s.outputs ++ [s.bareLath p (s.port p).train.width 3]) ∧
    (s.txKey p ≠ none → ∃ slots : List Shingle, slots.length = 16 ∧ (s.enterRetrain p).outputs = s.outputs ++ [.lath p
      (lathLanes (s.port p).train.width (lathBytes
        { seq := (s.port p).retry.txSeq - 1, ack := (s.port p).retry.rxLast, ltype := 3, replayed := false
          keyId := (s.port p).sealing.active } slots))]) := by
  obtain ⟨o, k, sent, -, outputs, -⟩ := s.enterRetrain_spec p
  obtain ⟨o', k', sent', bare, crypt⟩ := (s.updPort p Port.retraining).spareLath_eq p 3
  have same : [o] = [o'] := List.append_cancel_left (congrArg State.outputs (sent.symm.trans sent'))
  rw [outputs, same]
  have here := s.port_updPort_same p Port.retraining
  rw [State.txKey_updPort s p Port.retraining rfl] at bare crypt
  rw [State.bareLath, here] at bare
  rw [here] at crypt
  refine ⟨fun unsealed => by rw [bare unsealed]; rfl, fun sealed_ => ?_⟩
  obtain ⟨slots, sixteen, lath⟩ := crypt sealed_
  exact ⟨slots, sixteen, by rw [lath]; rfl⟩

end

/-- Settles O18: RETRAIN entered by `enterRetrain_spec`, left for DOWN or HELD by `portDown_lines`; a fenced port and one whose lanes are idle fail
RESTART's condition. -/
theorem retrainOutcomes : Obligations.RetrainOutcomes := by
  refine fun s p => ⟨fun active c => ?enters, fun retrain i j partner same => ?returns, fun retrain running i j partner other => ?changed,
    fun retrain running => ?times, fun held unfenced used lanes served => ?restarts, fun n module fenced => ?fenced, fun idle => ?idle⟩
  case enters =>
    obtain ⟨-, -, -, here, -, pur, sec, counted⟩ := s.enterRetrain_spec p
    obtain ⟨bare, crypt⟩ := s.enterRetrain_outputs p
    exact completes_of_eq rfl (if_pos active)
      ⟨congrArg (fun x => x.train.state) here, congrArg (fun x => x.err.lathErr) here, pur, sec, bare, crypt, counted⟩
  case returns =>
    have known : (s.port p).train.partner.any (samePartner i) = true := by rw [partner]; exact same
    have left := (s.sendIdentity p).updPort_eq p fun x =>
      { x with train := { x.train with state := .active }, retry := { x.retry with resume := true } }
    exact completes_of_eq rfl ((if_neg (not_not.mpr retrain)).trans (if_pos known)) ⟨State.pstate_updPort _ p _, left⟩
  case changed =>
    have unknown : ¬ (s.port p).train.partner.any (samePartner i) = true := by
      rw [partner]
      exact Bool.eq_false_iff.mp other
    have kept : ((s.sendIdentity p).cabling p).jeb = s.jeb := State.count_jeb _ _
    obtain ⟨state, train, -⟩ := State.pstate_of_lines
      (((s.sendIdentity p).cabling p).portDown_lines p .held 1 (running.imp_right (congrArg Jeb.stopped kept).trans))
    exact completes_of_eq rfl ((if_neg (not_not.mpr retrain)).trans (if_neg unknown)) ⟨state, congrArg Train.asDown train⟩
  case times =>
    obtain ⟨state, -, retry⟩ := State.pstate_of_lines (s.portDown_lines p .down 5 running)
    exact completes_of_eq rfl (if_pos retrain) ⟨state, congrArg Retry.replay retry⟩
  case restarts =>
    have here : ¬ (portDev p = .module ∧ !s.served) := fun h => absurd (served h.1) (by simpa using h.2)
    have restart : s.restartPort p = s.updPort p Port.toDetect := by
      refine if_pos ⟨held.imp_right Or.inl, by rw [lanes]; rfl, ?_, used⟩
      cases p with
      | module n => exact congrArg (!·) (unfenced n rfl)
      | rafter _ => rfl
      | tray _ => rfl
    exact completes_of_eq rfl ((if_neg here).trans restart) ⟨State.pstate_updPort s p _, s.updPort_eq p _⟩
  case fenced =>
    subst module
    have stays : s.restartPort (.module n) = s := if_neg fun ⟨_, _, free, _⟩ => absurd fenced (by simpa using free)
    refine congrArg Host.Outcome.next ?_
    split
    · rfl
    · exact stays
  case idle =>
    have stays : s.restartPort p = s := if_neg fun ⟨_, lanes, _⟩ => absurd idle (by simpa using lanes)
    refine congrArg Host.Outcome.next ?_
    split
    · rfl
    · exact stays

end Sys2Proof.Machine
end

section
/-! SUPPORT. Acknowledgements and resending (R40, R43): what an ACK frees, what a NAK counts, and the laths that go again. -/
namespace Sys2Proof.Machine

open Sys2Proof

section
variable (s : State) (p : PortRef)

/-! ### Retired slots of the keys (R273) -/

theorem Port.retireDone_eq (x : Port) : ∃ r g, x.retireDone = { x with sealing := { x.sealing with retiring := r, gone := g } } := by
  unfold Port.retireDone
  split
  · split
    · exact ⟨_, _, rfl⟩
    · exact ⟨_, _, rfl⟩
  · exact ⟨_, _, rfl⟩

theorem State.dropRetired_eq : ∃ k r, s.dropRetired = { s with sec := { s.sec with linkKeys := k, retiring := r } } := by
  have dropped (l : List (BitVec 2)) (t : State) :
      ∃ k r, l.foldl (fun s k => (s.dropKey k).setSec fun x => { x with retiring := x.retiring.erase k }) t =
        { t with sec := { t.sec with linkKeys := k, retiring := r } } := by
    induction l generalizing t with
    | nil => exact ⟨t.sec.linkKeys, t.sec.retiring, rfl⟩
    | cons k l ih =>
      obtain ⟨keys, left, rest⟩ := ih ((t.dropKey k).setSec fun x => { x with retiring := x.retiring.erase k })
      exact ⟨keys, left, rest⟩
  exact dropped _ s

/-- Keys retired at a port change the ports' sealing and the keys. -/
theorem State.retireDone_eq : ∃ a k r c d, s.retireDone p =
    { s with ports := a, sec := { s.sec with linkKeys := k, retiring := r }, jeb := { s.jeb with ports := c, keys := d } } := by
  have block (j : Jeb) : ∃ c d, j.retireDone = { j with ports := c, keys := d } := by
    unfold Jeb.retireDone
    dsimp only
    split
    · exact ⟨_, _, rfl⟩
    · exact ⟨_, _, rfl⟩
  cases p with
  | module n =>
    obtain ⟨k, r, dropped⟩ := (s.updPort (.module n) Port.retireDone).dropRetired_eq
    exact ⟨_, k, r, _, _, dropped⟩
  | rafter q =>
    obtain ⟨c, d, retired⟩ := block s.jeb
    exact ⟨_, _, _, c, d, congrArg (fun j => { s with jeb := j }) retired⟩
  | tray q =>
    obtain ⟨c, d, retired⟩ := block s.jeb
    exact ⟨_, _, _, c, d, congrArg (fun j => { s with jeb := j }) retired⟩

/-- A port of the block as its retired slots are destroyed. -/
theorem Jeb.retireDone_get (j : Jeb) (i : Nat) : ∃ r, Tab.get Port.reset j.retireDone.ports i =
    { Tab.get Port.reset j.ports i with sealing := { (Tab.get Port.reset j.ports i).sealing with retiring := r } } := by
  unfold Jeb.retireDone
  dsimp only
  split
  · exact ⟨_, rfl⟩
  · dsimp only
    rw [Tab.get_mapAll _ _ _ _ rfl]
    split
    · exact ⟨_, rfl⟩
    · exact ⟨_, rfl⟩

theorem State.retireDone_port : ∃ r g, (s.retireDone p).port p =
    { s.port p with sealing := { (s.port p).sealing with retiring := r, gone := g } } := by
  cases p with
  | module n =>
    obtain ⟨_, _, dropped⟩ := (s.updPort (.module n) Port.retireDone).dropRetired_eq
    obtain ⟨r, g, here⟩ := (s.port (.module n)).retireDone_eq
    refine ⟨r, g, ?_⟩
    rw [State.retireDone, dropped, ← here]
    exact s.port_updPort_same (.module n) Port.retireDone
  | rafter q =>
    obtain ⟨r, here⟩ := s.jeb.retireDone_get q.val
    exact ⟨r, _, here⟩
  | tray q =>
    obtain ⟨r, here⟩ := s.jeb.retireDone_get (18 + q.val)
    exact ⟨r, _, here⟩

/-! ### Acknowledgements and NAKs -/

/-- A port after an ACK. -/
theorem State.takeAck_port (ack : BitVec 12) : ∃ r g, (s.takeAck p ack).port p =
    { s.port p with retry := { (s.port p).retry with replay := freeAcked (s.port p).retry.replay ack }
                    sealing := { (s.port p).sealing with retiring := r, gone := g } } := by
  obtain ⟨r, g, here⟩ :=
    (s.updPort p fun x => { x with retry := { x.retry with replay := freeAcked x.retry.replay ack } }).retireDone_port p
  rw [State.port_updPort_same] at here
  exact ⟨r, g, here⟩

/-- What an ACK changes: ports, and keys that no port needs any more. -/
theorem State.takeAck_eq (ack : BitVec 12) : ∃ a k r c d, s.takeAck p ack =
    { s with ports := a, sec := { s.sec with linkKeys := k, retiring := r }, jeb := { s.jeb with ports := c, keys := d } } := by
  obtain ⟨a, k, r, c, d, retired⟩ :=
    (s.updPort p fun x => { x with retry := { x.retry with replay := freeAcked x.retry.replay ack } }).retireDone_eq p
  refine ⟨a, k, r, c, d, retired.trans ?_⟩
  cases p <;> rfl

/-- A port that has counted a NAK in the beat `b`. -/
def Port.nakCounted (b : Nat) (x : Port) : Port :=
  { x with retry := { x.retry with nakBeat := b, nakCount := if x.retry.nakBeat = b then x.retry.nakCount + 1 else 1 } }

/-- Up to 64 NAKs in a beat are counted and do no more (R44). -/
theorem State.countNak_few (few : (s.port p).retry.nakBeat = (s.portTime p).beat → (s.port p).retry.nakCount < 64) :
    s.countNak p = s.updPort p (Port.nakCounted (s.portTime p).beat) := by
  have count : ((s.updPort p (Port.nakCounted (s.portTime p).beat)).port p).retry.nakCount ≤ 64 := by
    rw [State.port_updPort_same, Port.nakCounted]
    dsimp only
    split
    · next same =>
      have := few same
      omega
    · omega
  exact if_neg fun many => absurd many.1 (Nat.not_lt.mpr count)

/-! ### Resending (R40, R43) -/

/-- A lath of the replay buffer as it goes again. -/
def KeptLath.again (p : PortRef) (width : BitVec 2) (ack : BitVec 12) (k : KeptLath) : Output :=
  .lath p (lathLanes width (lathBytes { seq := k.seq, ack := ack, ltype := 0, replayed := true, keyId := k.keyId } k.slots))

theorem State.putLaths_eq (l : List KeptLath) (ack : BitVec 12) :
    l.foldl (fun s k => s.putLath p { seq := k.seq, ack := ack, ltype := 0, replayed := true, keyId := k.keyId } k.slots) s =
      { s with outputs := s.outputs ++ l.map (KeptLath.again p (s.port p).train.width ack) } := by
  induction l generalizing s with
  | nil => rw [List.map_nil, List.append_nil, List.foldl_nil]
  | cons k l ih =>
    rw [List.foldl_cons, ih, List.map_cons, ← List.singleton_append, ← List.append_assoc]
    rfl

/-- A port that sends its whole replay buffer again. -/
def Port.resent (x : Port) : Port :=
  { x with retry := { x.retry with replay := x.retry.replay.map fun k => { k with tries := k.tries + 1 } }
           err := { x.err with retry := satFld x.err.retry 16 16 x.retry.replay.length } }

theorem State.resend_all : s.resend p (fun _ => true) = { s.updPort p Port.resent with
    outputs := s.outputs ++ (s.port p).retry.replay.map (KeptLath.again p (s.port p).train.width (s.port p).retry.rxLast) } := by
  have again := (s.updPort p Port.resent).putLaths_eq p (s.port p).retry.replay (s.port p).retry.rxLast
  rw [State.port_updPort_same, State.updPort_outputs] at again
  unfold State.resend
  dsimp only
  rw [List.filter_true]
  exact again

theorem State.resend_all_spec : (s.resend p fun _ => true).port p = (s.port p).resent ∧
    (s.resend p fun _ => true).outputs = s.outputs ++
      (s.port p).retry.replay.map (KeptLath.again p (s.port p).train.width (s.port p).retry.rxLast) ∧
    (s.resend p fun _ => true).gut = s.gut ∧ (s.resend p fun _ => true).pur = s.pur := by
  rw [State.resend_all]
  exact ⟨s.port_updPort_same p Port.resent, rfl, State.updPort_gut _ _ _, State.updPort_pur _ _ _⟩

/-- A NAK that resends the whole of what is not acknowledged. -/
theorem State.nakReceived_all (ack : BitVec 12) (active : s.pstate p = .active)
    (whole : bitAt (s.port p).train.features featSelRetry = false) (few : ∀ k ∈ (s.port p).retry.replay, k.tries < 4)
    (first : (s.port p).retry.nakBeat ≠ (s.portTime p).beat) :
    s.nakReceived p ack = ((s.takeAck p ack).updPort p (Port.nakCounted (s.portTime p).beat)).resend p fun _ => true := by
  obtain ⟨_, _, _, _, _, acked⟩ := s.takeAck_eq p ack
  obtain ⟨r, g, here⟩ := s.takeAck_port p ack
  have time : (s.takeAck p ack).portTime p = s.portTime p := by
    rw [acked]
    rfl
  have counted := (s.takeAck p ack).countNak_few p (fun same => absurd (by rw [here, time] at same; exact same) first)
  rw [time] at counted
  have port := (s.takeAck p ack).port_updPort_same p (Port.nakCounted (s.portTime p).beat)
  rw [here] at port
  have kept (k : KeptLath) (mem : k ∈ freeAcked (s.port p).retry.replay ack) : k ∈ (s.port p).retry.replay := by
    unfold freeAcked at mem
    split at mem
    · exact (List.dropWhile_sublist _).subset (List.mem_of_mem_drop mem)
    · exact mem
  have goes : ∀ k : KeptLath, (!bitAt (s.port p).train.features featSelRetry || decide (k.seq = ack + 1)) = true := fun k => by rw [whole]; rfl
  unfold State.nakReceived
  rw [counted]
  have still : ((s.takeAck p ack).updPort p (Port.nakCounted (s.portTime p).beat)).pstate p = .active :=
    (congrArg (fun x => x.train.state) port).trans active
  dsimp only
  rw [if_neg (not_not.mpr still), port]
  have none4 : ¬ ((freeAcked (s.port p).retry.replay ack).any fun k =>
      (!bitAt (s.port p).train.features featSelRetry || decide (k.seq = ack + 1)) && decide (4 ≤ k.tries)) = true := by
    rw [List.any_eq_true]
    rintro ⟨k, mem, tired⟩
    have := few k (kept k mem)
    simp only [Bool.and_eq_true, decide_eq_true_eq] at tired
    omega
  exact (if_neg none4).trans (congrArg _ (funext goes))

end

/-- Settles O19: a NAK by `nakReceived_all` and `resend_all`; a CREDIT frame by the three things that a link-local frame can do. -/
theorem nakAndCredit : Obligations.NakAndCredit := by
  refine ⟨fun s p ack active whole few first => ?nak, fun s p c twelve active lane => ?taken, fun s p c idle lane => ?refused,
    fun s n c fenced => ?fenced⟩
  case nak =>
    obtain ⟨_, _, _, _, _, acked⟩ := s.takeAck_eq p ack
    obtain ⟨r, g, here⟩ := s.takeAck_port p ack
    have port := (s.takeAck p ack).port_updPort_same p (Port.nakCounted (s.portTime p).beat)
    rw [here] at port
    obtain ⟨after, outputs, gut, pur⟩ := ((s.takeAck p ack).updPort p (Port.nakCounted (s.portTime p).beat)).resend_all_spec p
    rw [port] at after outputs
    rw [State.updPort_outputs, acked] at outputs
    rw [State.updPort_gut, acked] at gut
    rw [State.updPort_pur, acked] at pur
    refine completes_of_eq rfl ((if_pos active).trans (s.nakReceived_all p ack active whole few first)) ⟨?_, ?_, ?_, ?_, ?_, ?_⟩
    · rw [acked]
      exact outputs
    · rw [after]
      exact List.map_map ..
    · exact congrArg (fun x => x.err.retry) after
    · exact (congrArg (fun x => x.train.state) after).trans active
    · rw [acked]
      exact gut
    · rw [acked]
      exact pur
  case taken =>
    have counts : (List.range 12).map (fun v => c.getD v 0) = c := by
      rw [← twelve]
      exact map_getD_range 0 c
    refine completes_of_eq rfl (s.takeLocal_active p (creditFrame c) _ active lane) ⟨?_, fun q other => ?_, ?_⟩
    · rw [State.port_updPort_same, State.takeRx_port, counts]
    · rw [State.port_updPort_ne _ _ _ _ other, State.takeRx, State.port_updPort_ne _ _ _ _ other]
    · cases p <;> rfl
  case refused =>
    have carries : s.carries p (creditFrame c) = false := by
      simp only [List.mem_cons, List.not_mem_nil, or_false, not_or] at idle
      simp [State.carries, idle.1, idle.2]
    refine congrArg Host.Outcome.next ((if_neg (by simp [lane])).trans (if_neg (by simp [carries])))
  case fenced =>
    obtain ⟨counted, ports, -, -, jeb⟩ := s.fenceViolation n (creditFrame c)
    refine completes_of_eq rfl (s.takeLocal_fenced (.module n) (creditFrame c) _ fenced) ⟨counted, ?_, fun q other => ?_, jeb⟩
    · rw [State.mport_eq, State.count_port, State.takeRx_port]
      rfl
    · exact (ports q).trans (s.port_updPort_ne _ _ _ other)

end Sys2Proof.Machine
end

section
/-! SUPPORT. Laths sent (R43, R61) and the pick of the arbiter (R65, R66): what one lath leaves of its port, on a link that is not sealed and on a
sealed one, and what a frame that leaves its queue changes of the port. -/
namespace Sys2Proof.Machine

open Sys2Proof

section
variable (s : State) (p : PortRef)

/-! ### One lath -/

/-- The slots of the coming lath: as given, with idle slots up to its room. -/
def State.lathPlain (s : State) (p : PortRef) (plain : List Shingle) : List Shingle := (plain ++ List.replicate 16 0).take (s.slotRoom p)

/-- The control word of the coming lath. -/
def State.lathCtl (s : State) (p : PortRef) : LathCtl :=
  { seq := (s.port p).retry.txSeq, ack := (s.port p).retry.rxLast, ltype := 0, replayed := false
    keyId := if (s.txKey p).isSome then (s.port p).sealing.active else 0 }

/-- The slots of the coming lath as they go: under the keystream of the group, and the tag behind the last (R61). -/
def State.lathSent (s : State) (p : PortRef) (plain : List Shingle) : List Shingle :=
  match s.txKey p with
  | some key =>
    let nonce := groupNonce (s.txSalt p) (s.port p).sealing.txGroup
    let c := groupCrypt key nonce ((s.port p).retry.txSeq.toNat % 8) (s.lathPlain p plain)
    if (s.port p).retry.txSeq.toNat % 8 = 7 then
      c ++ [BitVec.ofNat 288 (natOfBytes (groupTag key nonce ((s.port p).sealing.txLaths ++ [((s.lathCtl p).toWord, c)])))]
    else c
  | none => s.lathPlain p plain

/-- The sealing of the port with the lath in its group. -/
def State.lathSeal (s : State) (p : PortRef) (plain : List Shingle) : SealSt :=
  { (s.port p).sealing with
    txLaths := if decide ((s.port p).retry.txSeq.toNat % 8 = 7) ∨ s.txKey p = none then []
      else (s.port p).sealing.txLaths ++ [((s.lathCtl p).toWord, s.lathSent p plain)]
    txGroup := if decide ((s.port p).retry.txSeq.toNat % 8 = 7) then (s.port p).sealing.txGroup + 1 else (s.port p).sealing.txGroup }

/-- The port once the lath has gone. -/
def State.lathPort (s : State) (p : PortRef) (plain : List Shingle) : Port :=
  Port.refill { s.port p with
    sealing := if decide ((s.port p).retry.txSeq.toNat % 8 = 7) then (s.lathSeal p plain).turnOver else s.lathSeal p plain
    retry := { (s.port p).retry with
      txSeq := (s.port p).retry.txSeq + 1, txSlots := []
      replay := (s.port p).retry.replay ++
        [{ seq := (s.port p).retry.txSeq, keyId := (s.lathCtl p).keyId, slots := s.lathSent p plain, tries := 0 }] } }

/-- A lath goes onto the pins, and its port moves on. -/
theorem State.sendLath_eq (plain : List Shingle) : s.sendLath p plain =
    (s.setPort p (s.lathPort p plain)).emit (.lath p (lathLanes (s.port p).train.width (lathBytes (s.lathCtl p) (s.lathSent p plain)))) := by
  have width : ((s.setPort p (s.lathPort p plain)).port p).train.width = (s.port p).train.width := by
    rw [State.port_setPort_same]
    rfl
  rw [← width]
  rfl

theorem SealSt.turnOver_group (x : SealSt) : x.turnOver.txGroup = x.txGroup ∧ x.turnOver.txLaths = x.txLaths := by
  unfold SealSt.turnOver
  split
  · split
    · exact ⟨rfl, rfl⟩
    · exact ⟨rfl, rfl⟩
  · exact ⟨rfl, rfl⟩

theorem State.lathPort_sealing (plain : List Shingle) :
    (s.lathPort p plain).sealing.txGroup = (s.lathSeal p plain).txGroup ∧ (s.lathPort p plain).sealing.txLaths = (s.lathSeal p plain).txLaths := by
  have whole : (s.lathPort p plain).sealing =
    if decide ((s.port p).retry.txSeq.toNat % 8 = 7) then (s.lathSeal p plain).turnOver else s.lathSeal p plain := rfl
  rw [whole]
  split
  · exact (s.lathSeal p plain).turnOver_group
  · exact ⟨rfl, rfl⟩

end

end Sys2Proof.Machine
end

section
/-! SUPPORT. The arbiter at a frame boundary (R43, R58, R61, R65): an idle lath, and a picked frame put behind the slots that wait. -/
namespace Sys2Proof.Machine

open Sys2Proof

section
variable (s : State) (p : PortRef)

theorem State.emit_port (o : Output) (q : PortRef) : (s.emit o).port q = s.port q := by cases q <;> rfl

theorem State.spend_port (n : Nat) (q : PortRef) : (s.spend n).port q = s.port q := by cases q <;> rfl

/-! ### What the coming lath depends on -/

theorem State.slotRoom_pos : 0 < s.slotRoom p ∧ s.slotRoom p ≤ 16 := by
  unfold State.slotRoom
  split <;> decide

/-- The salt is that of the device and of its partners. -/
theorem State.txSalt_updPort (q : PortRef) (f : Port → Port) (train : (f (s.port q)).train = (s.port q).train) :
    (s.updPort q f).txSalt p = s.txSalt p := by
  have trains (r : PortRef) : ((s.updPort q f).port r).train = (s.port r).train := by
    by_cases here : r = q
    · subst here
      rw [State.port_updPort_same, train]
    · rw [State.port_updPort_ne _ _ _ _ here]
  have rack : (s.updPort q f).jebRack = s.jebRack := by
    unfold State.jebRack State.rport
    simp only [trains]
  have node : (s.updPort q f).jeb.node = s.jeb.node := by cases q <;> rfl
  unfold State.txSalt
  rw [rack, node]
  cases p <;> cases q <;> rfl

/-- Slots that wait are no matter of the coming lath's form. -/
theorem State.lathSent_updPort (f : Port → Port) (plain : List Shingle) (train : (f (s.port p)).train = (s.port p).train)
    (sealing : (f (s.port p)).sealing = (s.port p).sealing) (seq : (f (s.port p)).retry.txSeq = (s.port p).retry.txSeq)
    (last : (f (s.port p)).retry.rxLast = (s.port p).retry.rxLast) :
    (s.updPort p f).slotRoom p = s.slotRoom p ∧ (s.updPort p f).lathCtl p = s.lathCtl p ∧
      (s.updPort p f).lathSent p plain = s.lathSent p plain := by
  have key := s.txKey_updPort p f sealing
  have room : (s.updPort p f).slotRoom p = s.slotRoom p := by
    rw [State.slotRoom, key, State.port_updPort_same, seq, State.slotRoom]
  have ctl : (s.updPort p f).lathCtl p = s.lathCtl p := by
    rw [State.lathCtl, key, State.port_updPort_same, seq, last, sealing, State.lathCtl]
  refine ⟨room, ctl, ?_⟩
  have body : (s.updPort p f).lathPlain p plain = s.lathPlain p plain := by rw [State.lathPlain, room, State.lathPlain]
  unfold State.lathSent
  rw [key, ctl, body, State.txSalt_updPort s p p f train, State.port_updPort_same, sealing, seq]

/-! ### Slots put behind those that wait -/

/-- A port with slots put behind those that wait. -/
def Port.filling (l : List Shingle) (isLocal : Bool) (x : Port) : Port :=
  { x with retry := { x.retry with txSlots := x.retry.txSlots ++ l }
           arb := { x.arb with sinceLocal := if isLocal then 1 else min 16 (x.arb.sinceLocal + l.length) } }

/-- Slots that do not fill the lath wait. -/
theorem State.fillLaths_wait (n : Nat) (h : (s.port p).retry.txSlots.length < s.slotRoom p) : s.fillLaths p n = s := by
  cases n with
  | zero => rfl
  | succ n => exact if_pos h

/-- A port with no slots that wait. -/
def Port.emptied (x : Port) : Port := { x with retry := { x.retry with txSlots := [] } }

/-- A port after its arbiter has counted the laths for which requests have waited. -/
def Port.aged (w : List Nat) (x : Port) : Port := { x with arb := { x.arb with waited := w } }

/-- Slots that fill the lath go with it. -/
theorem State.fillLaths_full (n : Nat) (h : (s.port p).retry.txSlots.length = s.slotRoom p) : s.fillLaths p (n + 1) =
    (s.sendLath p (s.port p).retry.txSlots).updPort p Port.emptied := by
  have all : (s.port p).retry.txSlots.take (s.slotRoom p) = (s.port p).retry.txSlots := List.take_of_length_le h.le
  have rest : (s.port p).retry.txSlots.drop (s.slotRoom p) = [] := List.drop_of_length_le h.le
  refine (if_neg (by omega)).trans ?_
  rw [all, rest]
  refine State.fillLaths_wait _ p n ?_
  rw [State.port_updPort_same]
  exact (State.slotRoom_pos _ p).1

/-- Slots that with those that wait fill the lath. -/
theorem State.sendSlots_full (l : List Shingle) (isLocal : Bool) (picked : Option Nat)
    (h : ((s.port p).retry.txSlots ++ l).length = s.slotRoom p) : ∃ w, s.sendSlots p l isLocal picked =
      (((s.updPort p (Port.filling l isLocal)).sendLath p ((s.port p).retry.txSlots ++ l)).updPort p Port.emptied).updPort p (Port.aged w) := by
  have waiting : ((s.updPort p (Port.filling l isLocal)).port p).retry.txSlots = (s.port p).retry.txSlots ++ l := by
    rw [State.port_updPort_same]
    rfl
  have room := (s.lathSent_updPort p (Port.filling l isLocal) [] rfl rfl rfl rfl).1
  have goes := (s.updPort p (Port.filling l isLocal)).fillLaths_full p 2 (by rw [waiting, room, h])
  rw [waiting] at goes
  exact ⟨_, congrArg (fun t : State => t.ageRequests p picked ((t.port p).retry.txSeq - (s.port p).retry.txSeq).toNat) goes⟩

/-- Slots that with those that wait do not fill the lath. -/
theorem State.sendSlots_wait (l : List Shingle) (isLocal : Bool) (picked : Option Nat)
    (h : ((s.port p).retry.txSlots ++ l).length < s.slotRoom p) : ∃ w, s.sendSlots p l isLocal picked =
      (s.updPort p (Port.filling l isLocal)).updPort p (Port.aged w) := by
  have waiting : ((s.updPort p (Port.filling l isLocal)).port p).retry.txSlots = (s.port p).retry.txSlots ++ l := by
    rw [State.port_updPort_same]
    rfl
  have room := (s.lathSent_updPort p (Port.filling l isLocal) [] rfl rfl rfl rfl).1
  have stays := (s.updPort p (Port.filling l isLocal)).fillLaths_wait p 3 (by rw [waiting, room]; exact h)
  exact ⟨_, congrArg (fun t : State => t.ageRequests p picked ((t.port p).retry.txSeq - (s.port p).retry.txSeq).toNat) stays⟩

theorem State.afterSending_calm (h : s.gut.phase ≠ .stopping) : s.afterSending p = s := if_neg fun stops => h stops.2

/-! ### An idle lath -/

theorem State.arbitrate_nothing (active : s.pstate p = .active) (room : (s.port p).retry.replay.length < 512) (pick : s.pick p = .nothing) :
    s.arbitrate p =
      ((s.sendSlots p (List.replicate (s.slotRoom p - (s.port p).retry.txSlots.length) 0) false none).spend 1).afterSending p := by
  unfold State.arbitrate
  rw [if_neg (not_not.mpr active), if_neg (by omega), pick]

/-- With nothing to send, one lath goes whose slots are idle. -/
theorem State.arbitrate_idle (active : s.pstate p = .active) (room : (s.port p).retry.replay.length < 512) (calm : s.gut.phase ≠ .stopping)
    (pick : s.pick p = .nothing) (empty : (s.port p).retry.txSlots = []) :
    (s.arbitrate p).outputs = s.outputs ++ [.lath p (lathLanes (s.port p).train.width
        (lathBytes (s.lathCtl p) (s.lathSent p (List.replicate (s.slotRoom p) 0))))] ∧
      ((s.arbitrate p).port p).retry.txSeq = (s.port p).retry.txSeq + 1 ∧
      ((s.arbitrate p).port p).retry.replay.length = (s.port p).retry.replay.length + 1 ∧
      ((s.arbitrate p).port p).sealing.txGroup = (s.lathSeal p (List.replicate (s.slotRoom p) 0)).txGroup ∧
      ((s.arbitrate p).port p).sealing.txLaths = (s.lathSeal p (List.replicate (s.slotRoom p) 0)).txLaths ∧
      (s.arbitrate p).pur = s.pur ∧ (s.arbitrate p).gut = s.gut := by
  obtain ⟨w, sent⟩ := s.sendSlots_full p (List.replicate (s.slotRoom p) 0) false none (by rw [empty]; simp)
  have filled := s.port_updPort_same p (Port.filling (List.replicate (s.slotRoom p) 0) false)
  obtain ⟨-, ctl, slots⟩ := s.lathSent_updPort p (Port.filling (List.replicate (s.slotRoom p) 0) false)
    (List.replicate (s.slotRoom p) 0) rfl rfl rfl rfl
  have key := s.txKey_updPort p (Port.filling (List.replicate (s.slotRoom p) 0) false) rfl
  have sealing : (s.updPort p (Port.filling (List.replicate (s.slotRoom p) 0) false)).lathSeal p (List.replicate (s.slotRoom p) 0) =
      s.lathSeal p (List.replicate (s.slotRoom p) 0) := by
    rw [State.lathSeal, ctl, slots, key, filled]
    rfl
  obtain ⟨group, laths⟩ := (s.updPort p (Port.filling (List.replicate (s.slotRoom p) 0) false)).lathPort_sealing p
    (List.replicate (s.slotRoom p) 0)
  rw [sealing] at group laths
  rw [State.sendLath_eq, empty, List.nil_append, ctl, slots, filled] at sent
  have quiet : (s.sendSlots p (List.replicate (s.slotRoom p) 0) false none).gut = s.gut := by
    rw [sent]
    simp
  have idle : s.arbitrate p = (s.sendSlots p (List.replicate (s.slotRoom p) 0) false none).spend 1 := by
    rw [s.arbitrate_nothing p active room pick, empty, List.length_nil, Nat.sub_zero]
    exact State.afterSending_calm _ p (by rw [State.spend_gut, quiet]; exact calm)
  have after : ((s.sendSlots p (List.replicate (s.slotRoom p) 0) false none).spend 1).port p = Port.aged w (Port.emptied
      ((s.updPort p (Port.filling (List.replicate (s.slotRoom p) 0) false)).lathPort p (List.replicate (s.slotRoom p) 0))) := by
    rw [sent, State.spend_port, State.port_updPort_same, State.port_updPort_same, State.emit_port, State.port_setPort_same]
  rw [idle, after]
  refine ⟨?_, ?_, ?_, group, laths, ?_, quiet⟩
  · rw [sent, State.spend_outputs, State.updPort_outputs, State.updPort_outputs, State.emit, State.setPort_outputs, State.updPort_outputs]
    rfl
  · exact congrArg (fun x => x.retry.txSeq + 1) filled
  · have longer (l : List KeptLath) (k : KeptLath) : (l ++ [k]).length = l.length + 1 := by simp
    exact (longer _ _).trans (congrArg (fun x => x.retry.replay.length + 1) filled)
  · rw [sent]
    simp

end

end Sys2Proof.Machine
end

section
/-! SUPPORT. A picked frame leaves its queue and goes behind the slots that wait (R56, R58, R65), and the order of the picks (R65, R66). -/
namespace Sys2Proof.Machine

open Sys2Proof

section
variable (s : State) (p : PortRef)

/-- The transmitter's key is that of the port's sealing and of the device's slots. -/
theorem State.txKey_congr {s t : State} {p : PortRef} (sealing : (t.port p).sealing = (s.port p).sealing) (sec : t.sec = s.sec)
    (keys : t.jeb.keys = s.jeb.keys) : t.txKey p = s.txKey p := by
  have key (slot : BitVec 2) : t.portKey p slot = s.portKey p slot := by
    cases p with
    | module n => rw [State.portKey, State.portKey, State.mport_eq, State.mport_eq, sealing, sec]
    | rafter q => exact congrArg (fun t => Tab.get none t slot.toNat) keys
    | tray q => exact congrArg (fun t => Tab.get none t slot.toNat) keys
  rw [State.txKey, State.txKey, sealing, key]

/-! ### A frame leaves its queue -/

/-- Slots freed at a port are counted for its credit return alone. -/
theorem State.freeSlots_port (n : Fin 144) (vc k : Nat) (q : PortRef) :
    ∃ c, (s.freeSlots n vc k).port q = { s.port q with cred := { (s.port q).cred with rxFreed := c } } := by
  by_cases here : q = .module n
  · subst here
    exact ⟨_, s.port_updPort_same (.module n) _⟩
  · exact ⟨_, s.port_updPort_ne (.module n) q _ here⟩

theorem State.dequeued_port (q : Nat) (e : Entry) (rest : List Entry) (r : PortRef) :
    ∃ c, (s.dequeued q e rest).port r = { s.port r with cred := { (s.port r).cred with rxFreed := c } } := by
  have read : (s.readEntry e).port r = s.port r := by
    unfold State.readEntry
    split
    · cases r <;> rfl
    · rfl
  unfold State.dequeued State.unlink
  rw [← read]
  dsimp only
  split
  · split
    · exact ⟨_, rfl⟩
    · exact State.freeSlots_port ..
  · exact ⟨_, rfl⟩

/-- A frame that leaves its queue leaves what its port sends: what waits there, its sealing, what it has sent. -/
theorem State.leave_spec (v : Nat) (f : Frame) :
    ((s.leave p v f).port p).retry = (s.port p).retry ∧ ((s.leave p v f).port p).sealing = (s.port p).sealing ∧
      ((s.leave p v f).port p).cred.txSent = (s.port p).cred.txSent ∧ (s.leave p v f).outputs = s.outputs ∧ (s.leave p v f).gut = s.gut ∧
      (s.leave p v f).sec = s.sec ∧ (s.leave p v f).jeb.keys = s.jeb.keys := by
  cases p with
  | rafter q =>
    have here := s.port_updPort_same (.rafter q) fun x => { x with txq := x.txq.eraseP fun g => decide (vcOf g.hdr = v) }
    exact ⟨congrArg (fun x => x.retry) here, congrArg (fun x => x.sealing) here, congrArg (fun x => x.cred.txSent) here, rfl, rfl, rfl, rfl⟩
  | tray q =>
    have here := s.port_updPort_same (.tray q) fun x => { x with txq := x.txq.eraseP fun g => decide (vcOf g.hdr = v) }
    exact ⟨congrArg (fun x => x.retry) here, congrArg (fun x => x.sealing) here, congrArg (fun x => x.cred.txSent) here, rfl, rfl, rfl, rfl⟩
  | module n =>
    unfold State.leave
    dsimp only
    cases items : (s.queue (portQueue n.val v)).items with
    | nil =>
      rw [(s.dequeue_none _).mpr items]
      exact ⟨rfl, rfl, rfl, rfl, rfl, rfl, rfl⟩
    | cons e rest =>
      rw [s.dequeue_cons _ e rest items]
      obtain ⟨c, here⟩ := s.dequeued_port (portQueue n.val v) e rest (.module n)
      have only := s.dequeued_eq (portQueue n.val v) e rest
      have counted : ((s.dequeued (portQueue n.val v) e rest).countBundle e).port (.module n) =
          { s.port (.module n) with cred := { (s.port (.module n)).cred with rxFreed := c } } := by
        rw [State.port, State.countBundle_ports]
        exact here
      have outputs : ((s.dequeued (portQueue n.val v) e rest).countBundle e).outputs = s.outputs := by rw [State.countBundle_outputs, only]
      have gut : ((s.dequeued (portQueue n.val v) e rest).countBundle e).gut = s.gut := by rw [State.countBundle_gut, only]
      have sec : ((s.dequeued (portQueue n.val v) e rest).countBundle e).sec = s.sec := by rw [State.countBundle_sec, only]
      have jeb : ((s.dequeued (portQueue n.val v) e rest).countBundle e).jeb = s.jeb := by rw [State.countBundle_jeb, only]
      dsimp only
      split
      · rw [State.port_updPort_same, counted]
        exact ⟨rfl, rfl, rfl, outputs, gut, sec, congrArg Jeb.keys jeb⟩
      · rw [counted]
        exact ⟨rfl, rfl, rfl, outputs, gut, sec, congrArg Jeb.keys jeb⟩

/-! ### A picked frame -/

/-- A port whose arbiter has picked a frame: its slots count as sent (R63). -/
def Port.picked (f : Frame) (v : Nat) (a : Arb) (now : Nat) (x : Port) : Port :=
  { x with arb := a, cred := { x.cred with txSent := listUpd x.cred.txSent v (· + BitVec.ofNat 16 (frameSlots f)) }, spar := x.spar.sent f.hdr now }

theorem State.arbitrate_picked (active : s.pstate p = .active) (room : (s.port p).retry.replay.length < 512) (f : Frame) (v : Nat) (a : Arb)
    (pick : s.pick p = .frame f v a) : s.arbitrate p =
      ((match ((s.updPort p (Port.picked f v a (s.portTime p).ns)).leave p v f).sendAs p f with
        | (f, s) => s.sendSlots p ((rawOf f).hdr :: f.data) false (some v)).spend 1).afterSending p := by
  unfold State.arbitrate
  rw [if_neg (not_not.mpr active), if_neg (by omega), pick]
  rfl

theorem State.arbitrate_frame (active : s.pstate p = .active) (room : (s.port p).retry.replay.length < 512) (f : Frame) (v : Nat) (a : Arb)
    (pick : s.pick p = .frame f v a) (calm : s.gut.phase ≠ .stopping) (unsealed : s.txKey p = none)
    (short : (s.port p).retry.txSlots.length + 1 + f.data.length < 16) (plain : (s.port p).sealing.dueFor f.hdr = none) :
    ((s.arbitrate p).port p).retry.txSlots = (s.port p).retry.txSlots ++ (rawOf f).hdr :: f.data ∧
      ((s.arbitrate p).port p).cred.txSent = listUpd (s.port p).cred.txSent v (· + BitVec.ofNat 16 (frameSlots f)) ∧
      (s.arbitrate p).outputs = s.outputs ∧ (s.arbitrate p).gut = s.gut := by
  have picked := s.port_updPort_same p (Port.picked f v a (s.portTime p).ns)
  obtain ⟨retry, sealing, sent, outputs, gut, sec, keys⟩ := (s.updPort p (Port.picked f v a (s.portTime p).ns)).leave_spec p v f
  have key : ((s.updPort p (Port.picked f v a (s.portTime p).ns)).leave p v f).txKey p = none :=
    (State.txKey_congr sealing sec keys).trans ((s.txKey_updPort p _ rfl).trans unsealed)
  rw [picked] at retry sealing sent
  have same : ((s.updPort p (Port.picked f v a (s.portTime p).ns)).leave p v f).sendAs p f =
      (f, (s.updPort p (Port.picked f v a (s.portTime p).ns)).leave p v f) := by
    rw [State.sendAs, sealing]
    have : (Port.picked f v a (s.portTime p).ns (s.port p)).sealing.dueFor f.hdr = none := plain
    rw [this]
  obtain ⟨w, waits⟩ := ((s.updPort p (Port.picked f v a (s.portTime p).ns)).leave p v f).sendSlots_wait p ((rawOf f).hdr :: f.data) false (some v)
    (by
      have room : ((s.port p).retry.txSlots ++ (rawOf f).hdr :: f.data).length < 16 := by
        rw [List.length_append, List.length_cons]
        omega
      rw [State.slotRoom, key, retry]
      exact room)
  have goes : s.arbitrate p = (((((s.updPort p (Port.picked f v a (s.portTime p).ns)).leave p v f).updPort p
      (Port.filling ((rawOf f).hdr :: f.data) false)).updPort p (Port.aged w)).spend 1).afterSending p := by
    rw [s.arbitrate_picked p active room f v a pick, same]
    dsimp only
    rw [waits]
  have quiet : (((((s.updPort p (Port.picked f v a (s.portTime p).ns)).leave p v f).updPort p
      (Port.filling ((rawOf f).hdr :: f.data) false)).updPort p (Port.aged w)).spend 1).gut = s.gut := by
    rw [State.spend_gut, State.updPort_gut, State.updPort_gut, gut, State.updPort_gut]
  rw [goes, State.afterSending_calm _ p (by rw [quiet]; exact calm), State.spend_port, State.port_updPort_same, State.port_updPort_same]
  refine ⟨?_, sent, ?_, quiet⟩
  · rw [Port.aged, Port.filling, retry]
    rfl
  · rw [State.spend_outputs, State.updPort_outputs, State.updPort_outputs, outputs, State.updPort_outputs]

end

/-- Settles O21: an idle lath by `arbitrate_idle`, in its form by whether the link is sealed; a picked frame by `arbitrate_frame`; the order by the
text of the pick. -/
theorem arbitration : Obligations.Arbitration := by
  refine ⟨fun s p active room unsealed calm => ⟨fun pick empty => ?idle, fun f v a pick short _ plain => ?frame⟩,
    fun s p f v notLocal => ⟨fun head tokens => ?four, fun none4 head cap tokens => ?zero, fun c g h req rsp => ?turns⟩,
    fun s p key active room sealed_ calm pick empty => ?sealed_⟩
  case idle =>
    obtain ⟨outputs, seq, longer, -, -, pur, gut⟩ := s.arbitrate_idle p active room calm pick empty
    have sixteen : s.slotRoom p = 16 := by rw [State.slotRoom, unsealed]; rfl
    have ctl : s.lathCtl p = ⟨(s.port p).retry.txSeq, (s.port p).retry.rxLast, 0, false, 0⟩ := by rw [State.lathCtl, unsealed]; rfl
    have slots : s.lathSent p (List.replicate 16 0) = List.replicate 16 0 := by
      rw [State.lathSent, unsealed, State.lathPlain, sixteen]
      rfl
    rw [sixteen, ctl, slots] at outputs
    exact ⟨_, rfl, outputs, seq, longer, pur, gut⟩
  case frame =>
    exact ⟨_, rfl, s.arbitrate_frame p active room f v a pick calm unsealed short plain⟩
  case four =>
    exact ⟨_, by rw [State.pick, notLocal, head]; exact if_pos tokens⟩
  case zero =>
    exact ⟨_, by rw [State.pick, notLocal, none4, head]; exact if_pos ⟨cap, tokens⟩⟩
  case turns =>
    rw [State.courseHead, req, rsp]
    rfl
  case sealed_ =>
    obtain ⟨outputs, seq, -, group, laths, pur, gut⟩ := s.arbitrate_idle p active room calm pick empty
    have places : s.slotRoom p = if (s.port p).retry.txSeq.toNat % 8 = 7 then 15 else 16 := by
      rw [State.slotRoom, sealed_]
      simp
    have body : s.lathPlain p (List.replicate (s.slotRoom p) 0) = List.replicate (s.slotRoom p) 0 := by
      rw [State.lathPlain, List.take_left' List.length_replicate]
    have ctl : s.lathCtl p = ⟨(s.port p).retry.txSeq, (s.port p).retry.rxLast, 0, false, (s.port p).sealing.active⟩ := by
      rw [State.lathCtl, sealed_]; rfl
    refine ⟨_, rfl, ?_, seq, ?_, ?_, pur, gut⟩
    · rw [outputs, State.lathSent, sealed_, body, ctl, places]
    · rw [group]
      exact if_congr decide_eq_true_iff rfl rfl
    · rw [laths, State.lathSeal, State.lathSent, sealed_, body, ctl, places]
      by_cases last : (s.port p).retry.txSeq.toNat % 8 = 7
      · simp [last]
      · simp [last]

end Sys2Proof.Machine
end

section
/-! SUPPORT. Counter mode over the slots of a lath (R61) undoes itself: it adds a stream that depends on the length alone. -/
namespace Sys2Proof.Machine

open Sys2Proof

section
variable (keys : List (List Byte)) (nonce : List Byte) (block : Nat)

/-- The block of the stream with a number. -/
def ctrBlock (keys : List (List Byte)) (nonce : List Byte) (block i : Nat) : List Byte := aesBlock keys (nonce ++ bigEndian 4 (i + 2 + block))

/-- The blocks of the stream from the one with number `i` on. -/
def ctrStream (keys : List (List Byte)) (nonce : List Byte) (block i n : Nat) : List Byte := (upFrom i n).flatMap (ctrBlock keys nonce block)

theorem ctrBlock_length (shape : (keys.getD 14 []).length = 16) (i : Nat) : (ctrBlock keys nonce block i).length = 16 := by
  have last : ∀ b, aesBlock keys b = xorBytes (aesShiftRows ((((keys.drop 1).take 13).foldl aesRound (xorBytes b (keys.headD []))).map aesSub))
    (keys.getD 14 []) := fun _ => rfl
  rw [ctrBlock, last, xorBytes_length, aesShiftRows_length, shape]
  rfl

theorem ctrStream_length (whole : ∀ i, (ctrBlock keys nonce block i).length = 16) (i n : Nat) :
    (ctrStream keys nonce block i n).length = 16 * n := by
  induction n generalizing i with
  | zero => rfl
  | succ n ih =>
    have next : ctrStream keys nonce block i (n + 1) = ctrBlock keys nonce block i ++ ctrStream keys nonce block (i + 1) n := rfl
    rw [next, List.length_append, whole, ih]
    omega

/-- The blocks of `l` under the stream's, from a number on. -/
theorem blocks_xor (whole : ∀ i, (ctrBlock keys nonce block i).length = 16) (n i : Nat) (l : List Byte) (h : l.length ≤ 16 * n) :
    ((((blocks16 n l).zipIdx i).map fun p => xorBytes p.1 (ctrBlock keys nonce block p.2)).flatten).take l.length =
      List.zipWith (· ^^^ ·) l (ctrStream keys nonce block i n) := by
  induction n generalizing i l with
  | zero =>
    obtain rfl : l = [] := List.length_eq_zero_iff.mp (by omega)
    rfl
  | succ n ih =>
    have next : ctrStream keys nonce block i (n + 1) = ctrBlock keys nonce block i ++ ctrStream keys nonce block (i + 1) n := rfl
    cases empty : l.isEmpty with
    | true =>
      obtain rfl := List.isEmpty_iff.mp empty
      rfl
    | false =>
      have blocks : blocks16 (n + 1) l = (l ++ List.replicate 15 0).take 16 :: blocks16 n (l.drop 16) := if_neg (by simp [empty])
      rw [blocks, next, List.zipIdx_cons, List.map_cons, List.flatten_cons]
      rcases Nat.lt_or_ge l.length 16 with short | long
      · have beyond : blocks16 n (l.drop 16) = [] := by
          rw [List.drop_of_length_le short.le]
          cases n <;> rfl
        have first : ((l ++ List.replicate 15 0).take 16).take l.length = l := by
          rw [List.take_take, Nat.min_eq_left short.le, List.take_left' rfl]
        have own : (List.zipWith (· ^^^ ·) l (ctrBlock keys nonce block i ++ ctrStream keys nonce block (i + 1) n)).length ≤ l.length := by
          rw [List.length_zipWith]
          exact Nat.min_le_left ..
        rw [beyond, ← List.take_of_length_le own, List.take_zipWith, List.take_of_length_le (Nat.le_refl l.length)]
        simp only [List.zipIdx_nil, List.map_nil, List.flatten_nil, List.append_nil, xorBytes]
        rw [List.take_zipWith, first, List.take_append_of_le_length (by rw [whole]; exact short.le)]
      · have first : (l ++ List.replicate 15 0).take 16 = l.take 16 := List.take_append_of_le_length long
        have width : (xorBytes (l.take 16) (ctrBlock keys nonce block i)).length = 16 := by
          rw [xorBytes_length, whole, List.length_take, Nat.min_eq_left long]
          rfl
        have rest := ih (i + 1) (l.drop 16) (by rw [List.length_drop]; omega)
        rw [List.length_drop] at rest
        conv_rhs => rw [← List.take_append_drop 16 l, List.zipWith_append (by rw [whole, List.length_take, Nat.min_eq_left long])]
        rw [first, List.take_append, width, rest, List.take_of_length_le (by rw [width]; exact long)]
        rfl

/-- Counter mode adds the stream. -/
theorem ctrFrom_eq (whole : ∀ i, (ctrBlock keys nonce block i).length = 16) (l : List Byte) :
    ctrFrom keys nonce block l = List.zipWith (· ^^^ ·) l (ctrStream keys nonce block 0 (l.length / 16 + 1)) :=
  blocks_xor keys nonce block whole _ 0 l (by omega)

theorem ctrFrom_length (whole : ∀ i, (ctrBlock keys nonce block i).length = 16) (l : List Byte) :
    (ctrFrom keys nonce block l).length = l.length := by
  rw [ctrFrom_eq keys nonce block whole, List.length_zipWith, ctrStream_length keys nonce block whole]
  omega

theorem ctrFrom_ctrFrom (whole : ∀ i, (ctrBlock keys nonce block i).length = 16) (l : List Byte) :
    ctrFrom keys nonce block (ctrFrom keys nonce block l) = l := by
  rw [ctrFrom_eq keys nonce block whole (ctrFrom keys nonce block l), ctrFrom_length keys nonce block whole, ctrFrom_eq keys nonce block whole l]
  refine zipWith_xor_twice l _ ?_
  rw [ctrStream_length keys nonce block whole]
  omega

end

/-! ### The slots of a lath under the stream -/

/-- The slots that some bytes hold. -/
def slotsIn (n : Nat) (l : List Byte) : List Shingle := (List.range n).map fun i => BitVec.ofNat 288 (natOfBytes ((l.drop (36 * i)).take 36))

theorem groupCrypt_eq (key : BitVec 256) (nonce : List Byte) (k : Nat) (slots : List Shingle) : groupCrypt key nonce k slots =
    slotsIn slots.length (ctrFrom (aesKeys (keyBytes key)) nonce (36 * k) (slots.flatMap fun w => bytesOf w 36)) := rfl

theorem slotsIn_length (n : Nat) (l : List Byte) : (slotsIn n l).length = n := by simp [slotsIn]

theorem slotsIn_bytes (slots : List Shingle) : slotsIn slots.length (slots.flatMap fun w => bytesOf w 36) = slots := by
  refine List.ext_getElem (by rw [slotsIn_length]) fun i h1 h2 => ?_
  have here := slot_bytes slots [] i h2
  rw [List.append_nil] at here
  simp only [slotsIn, List.getElem_map, List.getElem_range, here, ofNat_natOfBytes_bytesOf]

/-- Whole slots give their bytes back. -/
theorem bytes_slotsIn (n : Nat) (l : List Byte) (h : l.length = 36 * n) : ((slotsIn n l).flatMap fun w => bytesOf w 36) = l := by
  induction n generalizing l with
  | zero => exact (List.length_eq_zero_iff.mp h).symm
  | succ n ih =>
    have first : slotsIn (n + 1) l = BitVec.ofNat 288 (natOfBytes (l.take 36)) :: slotsIn n (l.drop 36) := by
      rw [slotsIn, List.range_succ_eq_map, List.map_cons, List.map_map]
      congr 1
      refine List.map_congr_left fun i _ => ?_
      simp only [Function.comp, List.drop_drop]
      rw [show 36 * i.succ = 36 + 36 * i by omega]
    have width : (l.take 36).length = 36 := by
      rw [List.length_take]
      omega
    rw [first, List.flatMap_cons, ih (l.drop 36) (by rw [List.length_drop]; omega), bytesOf_natOfBytes (l.take 36) 36 width, List.take_append_drop]

/-- Keystream upon keystream gives the plain slots (R61). -/
theorem groupCrypt_groupCrypt (key : BitVec 256) (nonce : List Byte) (k : Nat) (slots : List Shingle) :
    groupCrypt key nonce k (groupCrypt key nonce k slots) = slots := by
  have shape := aesKeys_shape (keyBytes key) (bytesOf_length _ _)
  have whole (i : Nat) : (ctrBlock (aesKeys (keyBytes key)) nonce (36 * k) i).length = 16 := ctrBlock_length _ _ _ (shape.2 _ (by
    rw [List.getD_eq_getElem _ _ (by rw [shape.1]; decide)]
    exact List.getElem_mem _)) i
  have bytes := flatMap_bytesOf_length slots
  rw [groupCrypt_eq _ _ _ (groupCrypt _ _ _ _), groupCrypt_eq, slotsIn_length,
    bytes_slotsIn _ _ (by rw [ctrFrom_length _ _ _ whole, bytes]), ctrFrom_ctrFrom _ _ _ whole, slotsIn_bytes]

end Sys2Proof.Machine
end

section
/-! SUPPORT. Frames delivered to a port (R58), a NAK sent (R43), and what stands at a port as a data lath comes in turn (R39, R43). -/
namespace Sys2Proof.Machine

open Sys2Proof

section
variable (s : State) (p : PortRef)

/-! ### Frames delivered -/

theorem State.countFlash_port (k : Nat) : (s.countFlash p k).port p =
    { s.port p with err := { (s.port p).err with flashErr := satAdd (s.port p).err.flashErr k } } :=
  (State.count_port _ _ p).trans (s.port_updPort_same p _)

/-- A port to which a lath has brought frames, and slots of a frame not yet whole. -/
def Port.delivers (came : Nat) (op : Byte) (fs : List RawFrame) (rest : List Shingle) (x : Port) : Port :=
  { x with spar := x.spar.arrived fs came, retry := { x.retry with
      rx := x.retry.rx ++ fs, rxSlots := rest
      reqAt := if op = opStampReq then came else x.retry.reqAt, rspAt := if op = opStampRsp then came else x.retry.rspAt } }

/-- The slots of a lath delivered: the frames that they complete wait, and their syndromes are counted. -/
theorem State.deliver_spec (came : Nat) (slots : List Shingle) : ∃ y a b, (s.deliver p came slots).port p = { s.port p with
      spar := y
      retry := { (s.port p).retry with
        rx := (delivered p ((s.port p).retry.rx, (s.port p).retry.rxSlots) slots).1
        rxSlots := (delivered p ((s.port p).retry.rx, (s.port p).retry.rxSlots) slots).2, reqAt := a, rspAt := b }
      err := { (s.port p).err with
        flashErr := satAdd (s.port p).err.flashErr (arrivals (decide (portDev p = .jalem)) ((s.port p).retry.rxSlots ++ slots)).2.1 } } ∧
    (s.deliver p came slots).outputs = s.outputs ∧ (s.deliver p came slots).pur = s.pur := by
  unfold State.deliver delivered
  dsimp only
  rcases arrivals (decide (portDev p = .jalem)) ((s.port p).retry.rxSlots ++ slots) with ⟨fs, bad, rest⟩
  have here := State.countFlash_port
    (s.updPort p (Port.delivers came (if (s.port p).retry.rxSlots = [] then slotOpcode (slots.headD 0) else 0) fs rest)) p bad
  rw [State.port_updPort_same] at here
  refine ⟨_, _, _, here, ?_, ?_⟩
  · exact (State.countFlash_outputs _ p bad).trans (s.updPort_outputs p _)
  · exact (State.countFlash_pur _ p bad).trans (s.updPort_pur p _)

/-- What laths delivered one after the other leave of a port. -/
def HandsOver (s t : State) (p : PortRef) (laths : List (List Shingle)) : Prop :=
  ((t.port p).retry.rx, (t.port p).retry.rxSlots) = laths.foldl (delivered p) ((s.port p).retry.rx, (s.port p).retry.rxSlots) ∧
    (t.port p).retry.rxLast = (s.port p).retry.rxLast ∧ (t.port p).retry.rxKept = (s.port p).retry.rxKept ∧
    (t.port p).sealing = (s.port p).sealing ∧ t.outputs = s.outputs ∧ t.pur = s.pur

theorem State.deliverAll_handed (came : List Nat) (laths : List (List Shingle)) : HandsOver s (s.deliverAll p came laths) p laths := by
  have one_by_one (l : List (List Shingle × Nat)) (s : State) :
      HandsOver s (l.foldl (fun s q => s.deliver p (came.getD q.2 0) q.1) s) p (l.map Prod.fst) := by
    induction l generalizing s with
    | nil => exact ⟨rfl, rfl, rfl, rfl, rfl, rfl⟩
    | cons q l ih =>
      obtain ⟨_, _, _, here, outputs, pur⟩ := s.deliver_spec p (came.getD q.2 0) q.1
      obtain ⟨frames, last, kept, sealing, outputs', pur'⟩ := ih (s.deliver p (came.getD q.2 0) q.1)
      rw [here] at frames last kept sealing
      exact ⟨frames, last, kept, sealing, outputs'.trans outputs, pur'.trans pur⟩
  have all := one_by_one laths.zipIdx s
  rw [List.zipIdx_map_fst] at all
  exact all

/-! ### A NAK sent -/

/-- A port that has sent a NAK in the beat `b`. -/
def Port.nakSent (b : Nat) (x : Port) : Port := Port.nakCounted b { x with err := { x.err with retry := satFld x.err.retry 0 16 1 } }

/-- A NAK sent, up to 64 in a beat: it leaves the block, and is counted at the port. -/
theorem State.sendNak_spec (few : (s.port p).retry.nakBeat = (s.portTime p).beat → (s.port p).retry.nakCount < 64) :
    (s.sendNak p).port p = (s.port p).nakSent (s.portTime p).beat ∧
    (∃ lanes, (s.sendNak p).outputs = s.outputs ++ [.lath p lanes]) ∧
    (s.txKey p = none → (s.sendNak p).outputs = s.outputs ++ [s.bareLath p (s.port p).train.width 1]) ∧
    (s.sendNak p).gut = s.gut ∧ (s.sendNak p).pur = s.pur ∧ (s.sendNak p).sec = s.sec ∧ (s.sendNak p).eav = s.eav := by
  obtain ⟨o, k, sent, bare, crypt⟩ := s.spareLath_eq p 1
  have here : (((s.emit o).spend k).updPort p fun x => { x with err := { x.err with retry := satFld x.err.retry 0 16 1 } }).port p =
      { s.port p with err := { (s.port p).err with retry := satFld (s.port p).err.retry 0 16 1 } } := by
    rw [State.port_updPort_same, State.spend_port, State.emit_port]
  have time : (((s.emit o).spend k).updPort p fun x => { x with err := { x.err with retry := satFld x.err.retry 0 16 1 } }).portTime p =
      s.portTime p := by cases p <;> rfl
  have counted := (((s.emit o).spend k).updPort p fun x => { x with err := { x.err with retry := satFld x.err.retry 0 16 1 } }).countNak_few p
    (by rw [here, time]; exact few)
  rw [State.sendNak, sent, counted, time]
  have outputs : ((((s.emit o).spend k).updPort p fun x => { x with err := { x.err with retry := satFld x.err.retry 0 16 1 } }).updPort p
      (Port.nakCounted (s.portTime p).beat)).outputs = s.outputs ++ [o] := by
    rw [State.updPort_outputs, State.updPort_outputs]
    rfl
  have lath : ∃ lanes, o = .lath p lanes := by
    cases key : s.txKey p with
    | none => exact ⟨_, bare key⟩
    | some key' =>
      obtain ⟨_, _, lath⟩ := crypt (by simp [key])
      exact ⟨_, lath⟩
  rw [outputs]
  obtain ⟨lanes, lath⟩ := lath
  refine ⟨?_, ⟨lanes, by rw [lath]⟩, fun unsealed => by rw [bare unsealed], ?_, ?_, ?_, ?_⟩
  · rw [State.port_updPort_same, here, Port.nakSent]
  · simp
  · simp
  · simp
  · simp

/-! ### A lath that the FEC cannot correct -/

/-- A port that has discarded a lath (R42). -/
def Port.lathLost (x : Port) : Port := { x with err := { x.err with lathErr := satFld x.err.lathErr 0 16 1 } }

/-- A port that waits for a retransmission (R43). -/
def Port.discards (x : Port) : Port := { x with retry := { x.retry with discarding := true } }

/-- The lath counted, at a module in source 2 too. -/
def State.lathLost (s : State) (p : PortRef) : State :=
  match p with
  | .module n => (s.updPort p Port.lathLost).count (linkEvent 2 n.val)
  | _ => s.updPort p Port.lathLost

theorem State.badLath_eq : s.badLath p = ((s.lathLost p).updPort p Port.discards).sendNak p := by cases p <;> rfl

theorem State.lathLost_spec : (s.lathLost p).port p = (s.port p).lathLost ∧ (s.lathLost p).outputs = s.outputs ∧ (s.lathLost p).pur = s.pur ∧
    (s.lathLost p).portTime p = s.portTime p ∧ (s.lathLost p).sec = s.sec ∧ (s.lathLost p).jeb.keys = s.jeb.keys ∧
    (portDev p = .module → Counted s (s.lathLost p) 2 1) := by
  have here := s.port_updPort_same p Port.lathLost
  cases p with
  | module n =>
    refine ⟨(State.count_port _ _ _).trans here, State.count_outputs _ _, State.count_pur _ _, ?_, State.count_sec _ _, ?_, fun _ => ?_⟩
    · exact State.count_tim _ _
    · exact congrArg Jeb.keys (State.count_jeb _ _)
    · exact (s.updPort (.module n) Port.lathLost).count_total (linkEvent 2 n.val) Nat.one_ne_zero
  | rafter q => exact ⟨here, rfl, rfl, rfl, rfl, rfl, nofun⟩
  | tray q => exact ⟨here, rfl, rfl, rfl, rfl, rfl, nofun⟩

/-- A lath that the FEC cannot correct is counted and asked for again (R42, R43). -/
theorem State.badLath_spec (unsealed : s.txKey p = none)
    (few : (s.port p).retry.nakBeat = (s.portTime p).beat → (s.port p).retry.nakCount < 64) :
    (s.badLath p).port p = (s.port p).lathLost.discards.nakSent (s.portTime p).beat ∧ (s.badLath p).pur = s.pur ∧
      (portDev p = .module → Counted s (s.badLath p) 2 1) ∧
      (s.badLath p).outputs = s.outputs ++ [s.bareLath p (s.port p).train.width 1] := by
  obtain ⟨lost, outputs, pur, time, sec, keys, counted⟩ := s.lathLost_spec p
  have here := (s.lathLost p).port_updPort_same p Port.discards
  rw [lost] at here
  have later : ((s.lathLost p).updPort p Port.discards).portTime p = s.portTime p := Eq.trans (by cases p <;> rfl) time
  have key : ((s.lathLost p).updPort p Port.discards).txKey p = none :=
    ((s.lathLost p).txKey_updPort p Port.discards rfl).trans ((State.txKey_congr (by rw [lost]; rfl) sec keys).trans unsealed)
  obtain ⟨port, -, sent, gut, pur', -, -⟩ := ((s.lathLost p).updPort p Port.discards).sendNak_spec p (by rw [here, later]; exact few)
  have form : ((s.lathLost p).updPort p Port.discards).bareLath p (s.port p).train.width 1 = s.bareLath p (s.port p).train.width 1 := by
    rw [State.bareLath, here, State.bareLath]
    rfl
  have bare := sent key
  rw [State.updPort_outputs, outputs, here] at bare
  rw [State.badLath_eq]
  refine ⟨by rw [port, here, later], ?_, fun module => ?_, bare.trans (by rw [← form]; rfl)⟩
  · rw [pur', State.updPort_pur, pur]
  · rw [Counted, gut, State.updPort_gut]
    exact counted module

/-! ### A data lath in turn -/

/-- A port that has taken a lath with `n` symbols corrected (R42). -/
def Port.corrected (n : Nat) (x : Port) : Port := { x with err := { x.err with fecCorr := satFld x.err.fecCorr 0 48 n } }

/-- The port as a good data lath is looked at: its symbols counted, and its ACK taken (R39, R43). -/
def State.lathAcked (s : State) (p : PortRef) (ack : BitVec 12) (n : Nat) : State := (s.updPort p (Port.corrected n)).takeAck p ack

theorem State.lathAcked_port (ack : BitVec 12) (n : Nat) : ∃ r g, (s.lathAcked p ack n).port p = { (s.port p).corrected n with
    retry := { (s.port p).retry with replay := freeAcked (s.port p).retry.replay ack }
    sealing := { (s.port p).sealing with retiring := r, gone := g } } := by
  obtain ⟨r, g, here⟩ := (s.updPort p (Port.corrected n)).takeAck_port p ack
  rw [State.port_updPort_same] at here
  exact ⟨r, g, here⟩

theorem State.lathAcked_eq (ack : BitVec 12) (n : Nat) : ∃ a k r c d, s.lathAcked p ack n =
    { s with ports := a, sec := { s.sec with linkKeys := k, retiring := r }, jeb := { s.jeb with ports := c, keys := d } } := by
  obtain ⟨a, k, r, c, d, acked⟩ := (s.updPort p (Port.corrected n)).takeAck_eq p ack
  refine ⟨a, k, r, c, d, acked.trans ?_⟩
  cases p <;> rfl

/-- Without laths kept none comes into turn. -/
theorem State.acceptKept_none (n : Nat) (h : (s.port p).retry.rxKept = []) : s.acceptKept p n = s := by
  cases n with
  | zero => rfl
  | succ n =>
    rw [State.acceptKept, h]
    rfl

/-- A data lath in turn, with nothing to resume and no lath kept, is accepted. -/
theorem exec_lathReceive_turn (bytes : List Byte) (ctl : LathCtl) (slots : List Shingle) (n : Nat) (active : s.pstate p = .active)
    (good : lathOfBytes ((s.port p).retry.rxLast + 1) bytes = some (ctl, slots, n)) (data : ctl.ltype = 0)
    (next : ctl.seq = (s.port p).retry.rxLast + 1) (going : (s.port p).retry.resume = false) (none_ : (s.port p).retry.rxKept = []) :
    exec (.lathReceive p bytes) s = .next
      (((s.lathAcked p ctl.ack n).acceptLath p ctl slots ((s.lathAcked p ctl.ack n).portTime p).fifths).acceptKept p 1) := by
  obtain ⟨r, g, here⟩ := s.lathAcked_port p ctl.ack n
  have whole : exec (.lathReceive p bytes) s = .next ((s.updPort p (Port.corrected n)).goodLath p ctl slots) := by
    refine congrArg Host.Outcome.next ((if_neg (not_not.mpr active)).trans ?_)
    rw [good]
    rfl
  have resume : ((s.lathAcked p ctl.ack n).port p).retry.resume = false := (congrArg (fun x => x.retry.resume) here).trans going
  have kept : ((s.lathAcked p ctl.ack n).port p).retry.rxKept = [] := (congrArg (fun x => x.retry.rxKept) here).trans none_
  have ahead : (ctl.seq - (((s.lathAcked p ctl.ack n).port p).retry.rxLast + 1)).toNat = 0 := by
    rw [here]
    show (ctl.seq - ((s.port p).retry.rxLast + 1)).toNat = 0
    rw [← next, BitVec.sub_self]
    rfl
  have taken : (s.updPort p (Port.corrected n)).goodLath p ctl slots = (s.lathAcked p ctl.ack n).dataLath p ctl slots := by
    unfold State.goodLath
    rw [data]
    exact congrArg (fun t : State => t.dataLath p ctl slots) (if_neg (by rw [← State.lathAcked, resume]; decide))
  rw [whole, taken]
  unfold State.dataLath
  dsimp only
  rw [if_pos ahead, kept]
  rfl

end

end Sys2Proof.Machine
end

section
/-! SUPPORT. What counting the corrected symbols of a lath leaves alone (R39, R273): the keys that its ACK retires, and the salts of the link. -/
namespace Sys2Proof.Machine

open Sys2Proof

/-! ### Tables with one entry replaced -/

section
variable {α : Type}

/-- The entry last put at an index is the one that stands. -/
theorem Tab.ins_ins (t : Tab α) (i : Nat) (v w : α) : Tab.ins (Tab.ins t i v) i w = Tab.ins t i w := by
  induction t with
  | nil => simp [Tab.ins]
  | cons e t ih =>
    obtain ⟨k, u⟩ := e
    rcases Nat.lt_trichotomy i k with below | here | above
    · simp [Tab.ins, below]
    · simp [Tab.ins, here]
    · simp [Tab.ins, Nat.not_lt.mpr above.le, above.ne', ih]

theorem Tab.put_ne [DecidableEq α] (d : α) (t : Tab α) (i : Nat) (v : α) (h : v ≠ d) : Tab.put d t i v = Tab.ins t i v := if_neg h

/-- A test of the entries sees of the one put what it tests. -/
theorem Tab.any_ins (t : Tab α) (i : Nat) (v w : α) (f : α → Bool) (h : f v = f w) :
    ((Tab.ins t i v).any fun e => f e.2) = (Tab.ins t i w).any fun e => f e.2 := by
  induction t with
  | nil => simp [Tab.ins, h]
  | cons e t ih =>
    obtain ⟨k, u⟩ := e
    rcases Nat.lt_trichotomy i k with below | here | above
    · simp [Tab.ins, below, h]
    · simp [Tab.ins, here, h]
    · simp [Tab.ins, Nat.not_lt.mpr above.le, above.ne', ih]

theorem Tab.all_ins (t : Tab α) (i : Nat) (v w : α) (f : α → Bool) (h : f v = f w) :
    ((Tab.ins t i v).all fun e => f e.2) = (Tab.ins t i w).all fun e => f e.2 := by
  have none (u : α) : ((Tab.ins t i u).all fun e => f e.2) = !(Tab.ins t i u).any fun e => !f e.2 := by
    rw [List.not_any_eq_all_not]
    simp
  rw [none, none, Tab.any_ins t i v w (fun x => !f x) (by rw [h])]

end

/-! ### The keys that an ACK retires -/

/-- Two ports differ in their counters of errors alone. -/
def Port.Alike (x y : Port) : Prop := y = { x with err := y.err }

theorem Port.Alike.needs {x y : Port} (h : x.Alike y) (slot : BitVec 2) : y.needs slot = x.needs slot := by
  rw [h]
  rfl

theorem Port.Alike.retireDone {x y : Port} (h : x.Alike y) : x.retireDone.Alike y.retireDone := by
  have needs (k : BitVec 2) := h.needs k
  rw [Port.Alike] at h
  have retiring : y.sealing.retiring = x.sealing.retiring := by rw [h]
  unfold Port.retireDone
  rw [retiring]
  cases x.sealing.retiring with
  | none => exact h
  | some k =>
    dsimp only
    rw [needs k]
    split
    · exact h
    · rw [Port.Alike, Port.onSeal, Port.onSeal, h]

/-- The module's keys once those retired that none of the ports needs are dropped. -/
def Sec.withoutRetired (x : Sec) (ports : Tab Port) : Sec :=
  (x.retiring.filter fun k => !ports.any fun p => p.2.needs k).foldl
    (fun x k => { x with linkKeys := Tab.put none x.linkKeys k.toNat none, retiring := x.retiring.erase k }) x

theorem State.dropRetired_sec (s : State) : s.dropRetired.sec = s.sec.withoutRetired s.ports := by
  have dropped (l : List (BitVec 2)) (t : State) :
      (l.foldl (fun s k => (s.dropKey k).setSec fun x => { x with retiring := x.retiring.erase k }) t).sec =
        l.foldl (fun x k => { x with linkKeys := Tab.put none x.linkKeys k.toNat none, retiring := x.retiring.erase k }) t.sec := by
    induction l generalizing t with
    | nil => rfl
    | cons k l ih => exact ih _
  exact dropped _ s

theorem Sec.withoutRetired_ins (c : Sec) (t : Tab Port) (i : Nat) (x y : Port) (h : x.Alike y) :
    c.withoutRetired (Tab.ins t i y) = c.withoutRetired (Tab.ins t i x) := by
  have needs (k : BitVec 2) := Tab.any_ins t i y x (fun p => p.needs k) (h.needs k)
  unfold Sec.withoutRetired
  simp only [needs]

/-- The slots of the block that fall to an acknowledgement. -/
def Jeb.slotsDue (ports : Tab Port) : List Nat :=
  (List.range 4).filter fun i =>
    (ports.any fun p => decide (p.2.sealing.retiring = some (BitVec.ofNat 2 i))) && ports.all fun p => !p.2.needs (BitVec.ofNat 2 i)

theorem Jeb.retireDone_keys (j : Jeb) : j.retireDone.keys = (Jeb.slotsDue j.ports).foldl (fun t i => Tab.put none t i none) j.keys := by
  unfold Jeb.retireDone
  rw [← Jeb.slotsDue]
  dsimp only
  split
  · next empty => rw [empty, List.foldl_nil]
  · rfl

theorem Jeb.slotsDue_ins (t : Tab Port) (i : Nat) (x y : Port) (h : x.Alike y) : Jeb.slotsDue (Tab.ins t i y) = Jeb.slotsDue (Tab.ins t i x) := by
  have retiring : y.sealing.retiring = x.sealing.retiring := by rw [h]
  unfold Jeb.slotsDue
  refine List.filter_congr fun k _ => ?_
  rw [Tab.any_ins t i y x (fun p => decide (p.sealing.retiring = some (BitVec.ofNat 2 k))) (by rw [retiring]),
    Tab.all_ins t i y x (fun p => !p.needs (BitVec.ofNat 2 k)) (by rw [h.needs])]

section
variable (s : State) (p : PortRef)

/-- The table in which a port stands, and its place there. -/
def State.shelf (s : State) (p : PortRef) : Tab Port :=
  match p with
  | .module _ => s.ports
  | _ => s.jeb.ports

def portPlace : PortRef → Nat
  | .module n => n.val
  | .rafter q => q.val
  | .tray t => 18 + t.val

/-- An ACTIVE port is listed. -/
theorem State.updPort_shelf (f : Port → Port) (active : (f (s.port p)).train.state = .active) :
    (s.updPort p f).shelf p = Tab.ins (s.shelf p) (portPlace p) (f (s.port p)) := by
  have listed : f (s.port p) ≠ Port.reset := fun none => by
    rw [none] at active
    exact absurd active (by decide)
  cases p with
  | module n => exact Tab.put_ne _ _ _ _ listed
  | rafter q => exact Tab.put_ne _ _ _ _ listed
  | tray q => exact Tab.put_ne _ _ _ _ listed

/-- A port changed twice. -/
theorem State.updPort_updPort_shelf (f g : Port → Port) (first : (f (s.port p)).train.state = .active)
    (second : (g (f (s.port p))).train.state = .active) :
    ((s.updPort p f).updPort p g).shelf p = Tab.ins (s.shelf p) (portPlace p) (g (f (s.port p))) := by
  rw [State.updPort_shelf _ _ _ (by rw [State.port_updPort_same]; exact second), State.updPort_shelf _ _ _ first, State.port_updPort_same,
    Tab.ins_ins]

/-- The key in a slot of a module's port once retired slots are dropped. -/
theorem State.retireDone_portKey_module (n : Fin 144) (slot : BitVec 2) : (s.retireDone (.module n)).portKey (.module n) slot =
    if bitAt (s.port (.module n)).retireDone.sealing.gone slot.toNat then none
    else Tab.get none (s.sec.withoutRetired (s.updPort (.module n) Port.retireDone).ports).linkKeys slot.toNat := by
  have sec := (s.updPort (.module n) Port.retireDone).dropRetired_sec
  obtain ⟨_, _, dropped⟩ := (s.updPort (.module n) Port.retireDone).dropRetired_eq
  have port : (s.updPort (.module n) Port.retireDone).dropRetired.port (.module n) = (s.port (.module n)).retireDone := by
    rw [dropped]
    exact s.port_updPort_same (.module n) Port.retireDone
  rw [State.updPort_sec] at sec
  rw [State.retireDone, State.portKey, State.mport_eq, port, sec]

/-- The key in a slot of a block's port once retired slots are dropped. -/
theorem State.retireDone_portKey_block (slot : BitVec 2) (block : portDev p = .jalem) : (s.retireDone p).portKey p slot =
    Tab.get none ((Jeb.slotsDue (s.shelf p)).foldl (fun t i => Tab.put none t i none) s.jeb.keys) slot.toNat := by
  cases p with
  | module n => cases block
  | rafter q => exact congrArg (fun t => Tab.get none t slot.toNat) s.jeb.retireDone_keys
  | tray q => exact congrArg (fun t => Tab.get none t slot.toNat) s.jeb.retireDone_keys

/-- A port whose partner has acknowledged. -/
def Port.acked (ack : BitVec 12) (x : Port) : Port := { x with retry := { x.retry with replay := freeAcked x.retry.replay ack } }

theorem Port.acked_alike (ack : BitVec 12) (n : Nat) (x : Port) : (x.acked ack).Alike ((x.corrected n).acked ack) := rfl

theorem Port.retireDone_train (x : Port) : x.retireDone.train = x.train := by
  obtain ⟨_, _, retired⟩ := x.retireDone_eq
  rw [retired]

/-- The errors that a port has counted are no matter of the keys that an ACK leaves. -/
theorem State.lathAcked_portKey (ack : BitVec 12) (n : Nat) (slot : BitVec 2) (active : s.pstate p = .active) :
    (s.lathAcked p ack n).portKey p slot = (s.takeAck p ack).portKey p slot := by
  have alike := (s.port p).acked_alike ack n
  have before := s.updPort_shelf p (Port.acked ack) active
  have after := s.updPort_updPort_shelf p (Port.corrected n) (Port.acked ack) active active
  show (((s.updPort p (Port.corrected n)).updPort p (Port.acked ack)).retireDone p).portKey p slot =
    ((s.updPort p (Port.acked ack)).retireDone p).portKey p slot
  cases dev : portDev p with
  | jalem =>
    have keys (f : Port → Port) (u : State) : (u.updPort p f).jeb.keys = u.jeb.keys := by cases p <;> rfl
    rw [State.retireDone_portKey_block _ _ _ dev, State.retireDone_portKey_block _ _ _ dev, before, after, keys, keys, keys,
      Jeb.slotsDue_ins _ _ _ _ alike]
  | module =>
    cases p with
    | rafter q => cases dev
    | tray q => cases dev
    | module m =>
      have retired := alike.retireDone
      have gone : (((s.port (.module m)).corrected n).acked ack).retireDone.sealing.gone =
          ((s.port (.module m)).acked ack).retireDone.sealing.gone := by
        rw [retired]
      have ports1 := (s.updPort (.module m) (Port.acked ack)).updPort_shelf (.module m) Port.retireDone
        (by rw [Port.retireDone_train, State.port_updPort_same]; exact active)
      have ports2 := ((s.updPort (.module m) (Port.corrected n)).updPort (.module m) (Port.acked ack)).updPort_shelf (.module m) Port.retireDone
        (by rw [Port.retireDone_train, State.port_updPort_same, State.port_updPort_same]; exact active)
      rw [before, Tab.ins_ins, State.port_updPort_same] at ports1
      rw [after, Tab.ins_ins, State.port_updPort_same, State.port_updPort_same] at ports2
      have sec : (s.sec.withoutRetired (((s.updPort (.module m) (Port.corrected n)).updPort (.module m) (Port.acked ack)).updPort (.module m)
            Port.retireDone).ports) =
          s.sec.withoutRetired ((s.updPort (.module m) (Port.acked ack)).updPort (.module m) Port.retireDone).ports :=
        (congrArg s.sec.withoutRetired ports2).trans
          ((s.sec.withoutRetired_ins _ _ _ _ retired).trans (congrArg s.sec.withoutRetired ports1).symm)
      rw [State.retireDone_portKey_module, State.retireDone_portKey_module, State.port_updPort_same, State.port_updPort_same,
        State.port_updPort_same, gone, State.updPort_sec, State.updPort_sec, State.updPort_sec, sec]

/-! ### The salts of the link -/

theorem State.updPort_train (f : Port → Port) (train : (f (s.port p)).train = (s.port p).train) (q : PortRef) :
    ((s.updPort p f).port q).train = (s.port q).train := by
  by_cases here : q = p
  · subst here
    rw [State.port_updPort_same, train]
  · rw [State.port_updPort_ne _ _ _ _ here]

theorem State.retireDone_train (q : PortRef) : ((s.retireDone p).port q).train = (s.port q).train := by
  have block (r : PortRef) (dev : portDev r = .jalem) : ((s.updJeb Jeb.retireDone).port q).train = (s.port q).train := by
    cases q with
    | module n => rfl
    | rafter k =>
      obtain ⟨_, here⟩ := s.jeb.retireDone_get k.val
      exact (congrArg Port.train here :)
    | tray k =>
      obtain ⟨_, here⟩ := s.jeb.retireDone_get (18 + k.val)
      exact (congrArg Port.train here :)
  cases p with
  | module n =>
    obtain ⟨_, _, dropped⟩ := (s.updPort (.module n) Port.retireDone).dropRetired_eq
    rw [State.retireDone, dropped]
    refine Eq.trans ?_ (s.updPort_train (.module n) Port.retireDone (Port.retireDone_train _) q)
    cases q <;> rfl
  | rafter r => exact block (.rafter r) rfl
  | tray r => exact block (.tray r) rfl

/-- A lath's ACK leaves every port's training. -/
theorem State.lathAcked_train (ack : BitVec 12) (n : Nat) (q : PortRef) : ((s.lathAcked p ack n).port q).train = (s.port q).train :=
  (State.retireDone_train _ p q).trans
    ((State.updPort_train _ p (Port.acked ack) rfl q).trans (s.updPort_train p (Port.corrected n) rfl q))

/-- The salt of the partner is that of the device's place and of its partners. -/
theorem State.rxSalt_congr {s t : State} (sof : t.sof = s.sof) (node : t.jeb.node = s.jeb.node) (trains : ∀ q, (t.port q).train = (s.port q).train)
    (p : PortRef) : t.rxSalt p = s.rxSalt p := by
  have rack : t.jebRack = s.jebRack := by
    unfold State.jebRack State.rport
    simp only [trains]
  have index : t.index = s.index := by rw [State.index, sof, State.index]
  have coord : t.coord = s.coord := by rw [State.coord, sof, State.coord]
  cases p with
  | module n =>
    unfold State.rxSalt State.partnerNode State.node
    dsimp only
    rw [index, coord, sof, State.mport_eq, State.mport_eq, trains]
  | rafter q =>
    unfold State.rxSalt
    dsimp only
    rw [rack, node]
  | tray q =>
    unfold State.rxSalt Jeb.trayPartner
    dsimp only
    rw [rack, node]

end

end Sys2Proof.Machine
end

section
/-! SUPPORT. A data lath accepted (R43, R61, R272): delivered at once, held with its group, or the last of its group, whose tag opens the slots of all
eight or fails. -/
namespace Sys2Proof.Machine

open Sys2Proof

section
variable (s : State) (p : PortRef)

/-! ### The lath at its port -/

/-- A port that has taken a lath in turn. -/
def Port.took (seq : BitVec 12) (x : Port) : Port := { x with retry := { x.retry with rxLast := seq, discarding := false } }

/-- A port that has counted the lath in its unsealed group. -/
def Port.groupCounted (last : Bool) (x : Port) : Port :=
  { x with sealing := { x.sealing with rxCount := if last then x.sealing.rxCount + 1 else x.sealing.rxCount } }

/-- A port that holds the lath with its sealed group. -/
def Port.grouped (ctl : LathCtl) (slots : List Shingle) (came : Nat) (x : Port) : Port :=
  { x with sealing := { x.sealing with rxGroup := x.sealing.rxGroup ++ [(ctl.toWord, slots)], rxAt := x.sealing.rxAt ++ [came] } }

theorem State.acceptLath_plain (ctl : LathCtl) (slots : List Shingle) (came : Nat) (plain : (s.port p).sealing.rxSealed = false) :
    s.acceptLath p ctl slots came =
      ((s.updPort p (Port.took ctl.seq)).updPort p (Port.groupCounted (decide (ctl.seq.toNat % 8 = 7)))).deliver p came slots := by
  refine if_neg ?_
  rw [State.port_updPort_same]
  exact Bool.eq_false_iff.mp plain

theorem State.acceptLath_sealed (ctl : LathCtl) (slots : List Shingle) (came : Nat) (sealed_ : (s.port p).sealing.rxSealed = true) :
    s.acceptLath p ctl slots came =
      if ctl.seq.toNat % 8 = 7 then ((s.updPort p (Port.took ctl.seq)).updPort p (Port.grouped ctl slots came)).openGroup p
      else (s.updPort p (Port.took ctl.seq)).updPort p (Port.grouped ctl slots came) := by
  refine (if_pos ?_).trans (if_congr decide_eq_true_iff rfl rfl)
  rw [State.port_updPort_same]
  exact sealed_

/-! ### The end of a sealed group -/

/-- A port whose group has been opened. -/
def Port.opened (x : Port) : Port := { x with sealing := { x.sealing with
  rxOn := true, anew := false, rxFirst := none, rxGroup := [], rxAt := [], rxCount := x.sealing.rxCount + 1, failed := none } }

/-- The KEY_ID of a group, and the SEQ of its first lath: those of the first control word. -/
def firstCtl (laths : List (W32 × List Shingle)) : LathCtl := LathCtl.ofWord (laths.headD (0, [])).1

/-- The tag that came with a group. -/
def groupTagSlot (laths : List (W32 × List Shingle)) : List Byte := bytesOf (((laths.getLast?.map Prod.snd).getD []).getD 15 0) 16

/-- The slots of a group, opened. -/
def groupBody (key : BitVec 256) (nonce : List Byte) (laths : List (W32 × List Shingle)) : List (List Shingle) :=
  laths.zipIdx.map fun q => groupCrypt key nonce q.2 (if q.2 = 7 then q.1.2.take 15 else q.1.2)

theorem State.openGroup_good (k : LinkKey) (key : s.portKey p (firstCtl (s.port p).sealing.rxGroup).keyId = some k)
    (tag : groupTagSlot (s.port p).sealing.rxGroup =
      groupTag k.key (groupNonce (s.rxSalt p) (s.port p).sealing.rxCount) (s.port p).sealing.rxGroup) :
    s.openGroup p = (s.updPort p Port.opened).deliverAll p (s.port p).sealing.rxAt
      (groupBody k.key (groupNonce (s.rxSalt p) (s.port p).sealing.rxCount) (s.port p).sealing.rxGroup) := by
  rw [firstCtl] at key
  unfold State.openGroup
  dsimp only
  rw [key]
  exact if_pos tag

theorem State.openGroup_bad (bad : ∀ k, s.portKey p (firstCtl (s.port p).sealing.rxGroup).keyId = some k →
      groupTagSlot (s.port p).sealing.rxGroup ≠
        groupTag k.key (groupNonce (s.rxSalt p) (s.port p).sealing.rxCount) (s.port p).sealing.rxGroup) :
    s.openGroup p = s.badGroup p (firstCtl (s.port p).sealing.rxGroup).seq := by
  rw [firstCtl] at bad
  unfold State.openGroup
  dsimp only
  cases key : s.portKey p (LathCtl.ofWord ((s.port p).sealing.rxGroup.headD (0, [])).1).keyId with
  | none => rfl
  | some k => exact if_neg (bad k key)

/-! ### A group that fails -/

/-- A port that has discarded its group (R61). -/
def Port.groupFailed (first : BitVec 12) (x : Port) : Port :=
  { x with err := { x.err with lathErr := satFld x.err.lathErr 24 8 1 }
           retry := { x.retry with rxLast := first - 1, discarding := true, rxKept := [] }
           sealing := { x.sealing with rxGroup := [], rxAt := [], failed := some x.sealing.rxCount } }

/-- The first failure of a group: counted, and asked for again. -/
theorem State.sealFailed_first (first : BitVec 12) (once : (s.port p).sealing.failed ≠ some (s.port p).sealing.rxCount)
    (few : (s.port p).retry.nakBeat = (s.portTime p).beat → (s.port p).retry.nakCount < 64) :
    (s.sealFailed p first).port p = ((s.port p).groupFailed first).nakSent (s.portTime p).beat ∧
      (∃ lanes, (s.sealFailed p first).outputs = s.outputs ++ [.lath p lanes]) ∧ Counted s (s.sealFailed p first) 4 1 ∧
      (s.sealFailed p first).pur = s.pur := by
  have whole : s.sealFailed p first =
      ((s.updPort p (Port.groupFailed first)).count ((s.updPort p (Port.groupFailed first)).portEvent 4 p)).sendNak p :=
    congrArg (fun t : State => t.sendNak p) (if_neg (by simpa using once))
  obtain ⟨source, one⟩ : ((s.updPort p (Port.groupFailed first)).portEvent 4 p).src = 4 ∧
      ((s.updPort p (Port.groupFailed first)).portEvent 4 p).count = 1 := by cases p <;> exact ⟨rfl, rfl⟩
  have here : ((s.updPort p (Port.groupFailed first)).count ((s.updPort p (Port.groupFailed first)).portEvent 4 p)).port p =
      (s.port p).groupFailed first := (State.count_port _ _ p).trans (s.port_updPort_same p _)
  have time : ((s.updPort p (Port.groupFailed first)).count ((s.updPort p (Port.groupFailed first)).portEvent 4 p)).portTime p = s.portTime p := by
    rw [State.portTime, State.count_tim, State.count_jeb]
    cases p <;> rfl
  obtain ⟨port, lath, -, gut, pur, -, -⟩ :=
    ((s.updPort p (Port.groupFailed first)).count ((s.updPort p (Port.groupFailed first)).portEvent 4 p)).sendNak_spec p
      (by rw [here, time]; exact few)
  have counted := (s.updPort p (Port.groupFailed first)).count_total ((s.updPort p (Port.groupFailed first)).portEvent 4 p) (by rw [one]; decide)
  rw [source, one, State.updPort_gut] at counted
  rw [State.count_outputs, State.updPort_outputs] at lath
  rw [whole]
  refine ⟨by rw [port, here, time], lath, by rw [Counted, gut]; exact counted, ?_⟩
  rw [pur, State.count_pur, State.updPort_pur]

/-- The mark of a second failure is a matter of a port's training. -/
theorem State.markSealFault_eq (o : FaultObj) : (s.markSealFault o).gut = s.gut ∧ (s.markSealFault o).sec = s.sec ∧
    (s.markSealFault o).eav = s.eav ∧ (s.markSealFault o).tim = s.tim ∧ (s.markSealFault o).jeb = s.jeb ∧
    ∀ q, ((s.markSealFault o).port q).retry = (s.port q).retry := by
  cases o with
  | port n =>
    refine ⟨rfl, rfl, rfl, rfl, rfl, fun q => ?_⟩
    by_cases here : q = .module n
    · subst here
      rw [State.markSealFault, State.port_updPort_same]
    · exact congrArg Port.retry (s.port_updPort_ne (.module n) q _ here)
  | nothing => exact ⟨rfl, rfl, rfl, rfl, rfl, fun _ => rfl⟩
  | node n => exact ⟨rfl, rfl, rfl, rfl, rfl, fun _ => rfl⟩
  | module => exact ⟨rfl, rfl, rfl, rfl, rfl, fun _ => rfl⟩

theorem State.fatal_port (code : Nat) (o : FaultObj) (e : Event) (q : PortRef) : (s.fatal code o e).port q = s.port q := by
  cases q <;> simp only [State.port, State.fatal_ports, State.fatal_jeb]

/-- The state with a group's second failure made fatal. -/
def State.sealFatal (s : State) (p : PortRef) (first : BitVec 12) : State :=
  ((s.updPort p (Port.groupFailed first)).markSealFault ((s.updPort p (Port.groupFailed first)).facing p)).fatal 6
    ((s.updPort p (Port.groupFailed first)).facing p) ((s.updPort p (Port.groupFailed first)).portEvent 4 p)

/-- The second failure of a group in an admitted bay: fatal with code 6 (R61, R291). -/
theorem State.sealFailed_again (first : BitVec 12) (twice : (s.port p).sealing.failed = some (s.port p).sealing.rxCount)
    (few : (s.port p).retry.nakBeat = (s.portTime p).beat → (s.port p).retry.nakCount < 64) (bay : s.admitted = true)
    (calm : s.gut.phase = .none) :
    TornDown (s.sealFailed p first) 6 ∧ (s.sealFailed p first).eav = s.eav ∧ ((s.sealFailed p first).port p).retry.rxKept = [] := by
  have whole : s.sealFailed p first = (s.sealFatal p first).sendNak p :=
    congrArg (fun t : State => t.sendNak p) (if_pos (decide_eq_true twice))
  obtain ⟨gut, sec, eav, tim, jeb, retry⟩ :=
    (s.updPort p (Port.groupFailed first)).markSealFault_eq ((s.updPort p (Port.groupFailed first)).facing p)
  have marked : ((s.sealFatal p first).port p).retry = ((s.port p).groupFailed first).retry := by
    rw [State.sealFatal, State.fatal_port, retry, State.port_updPort_same]
  have time : (s.sealFatal p first).portTime p = s.portTime p := by
    rw [State.portTime, State.sealFatal, State.fatal_tim, State.fatal_jeb, tim, jeb]
    cases p <;> rfl
  have torn : TornDown (s.sealFatal p first) 6 := by
    refine State.fatal_torn _ 6 _ _ (by decide) ?_ ?_
    · rw [State.admitted, sec, State.updPort_sec]
      exact bay
    · rw [gut, State.updPort_gut]
      exact calm
  obtain ⟨port, -, -, gut', -, sec', eav'⟩ := (s.sealFatal p first).sendNak_spec p (by rw [marked, time]; exact few)
  rw [whole]
  refine ⟨?_, ?_, ?_⟩
  · rw [TornDown, gut', sec']
    exact torn
  · rw [eav', State.sealFatal, State.fatal_eav, eav, State.updPort_eav]
  · rw [port]
    exact congrArg Retry.rxKept marked

end

end Sys2Proof.Machine
end

section
/-! SUPPORT. LATH_RECEIVE as a whole (R39 to R43, R61, R272): a lath in turn of an unsealed and of a sealed group, and one that is discarded. -/
namespace Sys2Proof.Machine

open Sys2Proof

section
variable (s : State) (p : PortRef) (ctl : LathCtl) (slots : List Shingle) (n : Nat)

/-! ### A lath of a sealed group, held -/

/-- The state with a lath in turn held with its sealed group. -/
def State.lathHeld (s : State) (p : PortRef) (ctl : LathCtl) (slots : List Shingle) (n : Nat) : State :=
  ((s.lathAcked p ctl.ack n).updPort p (Port.took ctl.seq)).updPort p
    (Port.grouped ctl slots ((s.lathAcked p ctl.ack n).portTime p).fifths)

/-- The group with the lath. -/
def State.rxGroupWith (s : State) (p : PortRef) (ctl : LathCtl) (slots : List Shingle) : List (W32 × List Shingle) :=
  (s.port p).sealing.rxGroup ++ [(ctl.toWord, slots)]

theorem State.lathHeld_port : ∃ r g l, (s.lathHeld p ctl slots n).port p = { (s.port p).corrected n with
    retry := { (s.port p).retry with
      replay := freeAcked (s.port p).retry.replay ctl.ack, rxLast := ctl.seq, discarding := false }
    sealing := { (s.port p).sealing with retiring := r, gone := g, rxGroup := s.rxGroupWith p ctl slots, rxAt := l } } := by
  obtain ⟨r, g, here⟩ := s.lathAcked_port p ctl.ack n
  refine ⟨r, g, (s.port p).sealing.rxAt ++ [((s.lathAcked p ctl.ack n).portTime p).fifths], ?_⟩
  rw [State.lathHeld, State.port_updPort_same, State.port_updPort_same, here]
  rfl

theorem State.lathHeld_eq : ∃ a k r c d, s.lathHeld p ctl slots n =
    { s with ports := a, sec := { s.sec with linkKeys := k, retiring := r }, jeb := { s.jeb with ports := c, keys := d } } := by
  obtain ⟨a, k, r, c, d, acked⟩ := s.lathAcked_eq p ctl.ack n
  have held (f g : Port → Port) (t : State) : (t.updPort p f).updPort p g = { t with
      ports := ((t.updPort p f).updPort p g).ports, jeb := { t.jeb with ports := ((t.updPort p f).updPort p g).jeb.ports } } := by cases p <;> rfl
  rw [State.lathHeld, held, acked]
  exact ⟨_, k, r, _, d, rfl⟩

theorem State.lathHeld_portKey (slot : BitVec 2) (active : s.pstate p = .active) :
    (s.lathHeld p ctl slots n).portKey p slot = (s.takeAck p ctl.ack).portKey p slot := by
  rw [State.lathHeld, State.portKey_updPort _ _ _ _ rfl, State.portKey_updPort _ _ _ _ rfl, s.lathAcked_portKey p ctl.ack n slot active]

theorem State.lathHeld_rxSalt : (s.lathHeld p ctl slots n).rxSalt p = s.rxSalt p := by
  obtain ⟨_, _, _, _, _, held⟩ := s.lathHeld_eq p ctl slots n
  refine State.rxSalt_congr (by rw [held]) (by rw [held]) (fun q => ?_) p
  rw [State.lathHeld, State.updPort_train _ _ _ rfl, State.updPort_train _ _ _ rfl, State.lathAcked_train]

/-- What the held lath leaves of the rest of the state. -/
theorem State.lathHeld_rest : (s.lathHeld p ctl slots n).outputs = s.outputs ∧ (s.lathHeld p ctl slots n).pur = s.pur ∧
    (s.lathHeld p ctl slots n).gut = s.gut ∧ (s.lathHeld p ctl slots n).eav = s.eav ∧
    (s.lathHeld p ctl slots n).admitted = s.admitted ∧ (s.lathHeld p ctl slots n).portTime p = s.portTime p := by
  obtain ⟨_, _, _, _, _, held⟩ := s.lathHeld_eq p ctl slots n
  rw [held]
  exact ⟨rfl, rfl, rfl, rfl, rfl, rfl⟩

/-- A data lath in turn of a sealed group. -/
theorem exec_lathReceive_sealed (bytes : List Byte) (active : s.pstate p = .active)
    (good : lathOfBytes ((s.port p).retry.rxLast + 1) bytes = some (ctl, slots, n)) (data : ctl.ltype = 0)
    (next : ctl.seq = (s.port p).retry.rxLast + 1) (going : (s.port p).retry.resume = false) (none_ : (s.port p).retry.rxKept = [])
    (sealed_ : (s.port p).sealing.rxSealed = true) : exec (.lathReceive p bytes) s = .next
      ((if ctl.seq.toNat % 8 = 7 then (s.lathHeld p ctl slots n).openGroup p else s.lathHeld p ctl slots n).acceptKept p 1) := by
  obtain ⟨r, g, here⟩ := s.lathAcked_port p ctl.ack n
  rw [exec_lathReceive_turn s p bytes ctl slots n active good data next going none_, State.acceptLath_sealed]
  · rfl
  · rw [here]
    exact sealed_

end

/-! ### The clauses -/

section
variable {s : State} {p : PortRef} {bytes : List Byte} {ctl : LathCtl} {slots : List Shingle} {n : Nat}

/-- A data lath in turn of an unsealed group is taken and delivered (R39, R43). -/
theorem completes_lathReceive_plain (active : s.pstate p = .active)
    (good : lathOfBytes ((s.port p).retry.rxLast + 1) bytes = some (ctl, slots, n)) (data : ctl.ltype = 0)
    (next : ctl.seq = (s.port p).retry.rxLast + 1) (going : (s.port p).retry.resume = false) (none_ : (s.port p).retry.rxKept = [])
    (plain : (s.port p).sealing.rxSealed = false) : Completes (.lathReceive p bytes) s fun t =>
      (t.port p).retry.rxLast = ctl.seq ∧ (t.port p).err.fecCorr = satFld (s.port p).err.fecCorr 0 48 n ∧
      ((t.port p).retry.rx, (t.port p).retry.rxSlots) = delivered p ((s.port p).retry.rx, (s.port p).retry.rxSlots) slots ∧
      (t.port p).err.flashErr = satAdd (s.port p).err.flashErr
        (arrivals (decide (portDev p = .jalem)) ((s.port p).retry.rxSlots ++ slots)).2.1 ∧
      t.outputs = s.outputs ∧ t.pur = s.pur := by
  obtain ⟨r, g, acked⟩ := s.lathAcked_port p ctl.ack n
  obtain ⟨_, _, _, _, _, rest⟩ := s.lathAcked_eq p ctl.ack n
  have before := ((s.lathAcked p ctl.ack n).updPort p (Port.took ctl.seq)).port_updPort_same p
    (Port.groupCounted (decide (ctl.seq.toNat % 8 = 7)))
  rw [(s.lathAcked p ctl.ack n).port_updPort_same p (Port.took ctl.seq), acked] at before
  obtain ⟨_, _, _, here, outputs, pur⟩ := (((s.lathAcked p ctl.ack n).updPort p (Port.took ctl.seq)).updPort p
    (Port.groupCounted (decide (ctl.seq.toNat % 8 = 7)))).deliver_spec p ((s.lathAcked p ctl.ack n).portTime p).fifths slots
  rw [before] at here
  rw [State.updPort_outputs, State.updPort_outputs, rest] at outputs
  rw [State.updPort_pur, State.updPort_pur, rest] at pur
  have kept := congrArg (fun x => x.retry.rxKept) here
  have accepted := (s.lathAcked p ctl.ack n).acceptLath_plain p ctl slots ((s.lathAcked p ctl.ack n).portTime p).fifths
    (by rw [acked]; exact plain)
  refine completes_of_eq (exec_lathReceive_turn s p bytes ctl slots n active good data next going none_)
    ((congrArg (fun t : State => t.acceptKept p 1) accepted).trans (State.acceptKept_none _ p 1 (kept.trans none_))) ?_
  rw [here]
  refine ⟨rfl, rfl, rfl, rfl, ?_, ?_⟩
  · rw [rest]
    exact outputs
  · rw [rest]
    exact pur

/-- A lath that the FEC cannot correct, on a link that is not sealed (R42, R43). -/
theorem completes_lathReceive_bad (active : s.pstate p = .active) (bad : lathOfBytes ((s.port p).retry.rxLast + 1) bytes = none)
    (unsealed : s.txKey p = none) (few : (s.port p).retry.nakBeat = (s.portTime p).beat → (s.port p).retry.nakCount < 64) :
    Completes (.lathReceive p bytes) s fun t =>
      (t.port p).retry.discarding = true ∧ (t.port p).retry.rx = (s.port p).retry.rx ∧ t.pur = s.pur ∧ t.pstate p = .active ∧
      (t.port p).err.lathErr = satFld (s.port p).err.lathErr 0 16 1 ∧ (portDev p = .module → Counted s t 2 1) ∧
      t.outputs = s.outputs ++ [s.bareLath p (s.port p).train.width 1] := by
  obtain ⟨here, pur, counted, outputs⟩ := s.badLath_spec p unsealed few
  have whole : exec (.lathReceive p bytes) s = .next (s.badLath p) := by
    refine congrArg Host.Outcome.next ((if_neg (not_not.mpr active)).trans ?_)
    rw [bad]
  refine completes_of_eq whole rfl ⟨?_, ?_, pur, ?_, ?_, counted, outputs⟩
  · exact congrArg (fun x => x.retry.discarding) here
  · exact congrArg (fun x => x.retry.rx) here
  · exact (congrArg (fun x => x.train.state) here).trans active
  · exact congrArg (fun x => x.err.lathErr) here

/-- A lath of a sealed group before the last: held, with nothing of it used. -/
theorem completes_lathReceive_held (active : s.pstate p = .active)
    (good : lathOfBytes ((s.port p).retry.rxLast + 1) bytes = some (ctl, slots, n)) (data : ctl.ltype = 0)
    (next : ctl.seq = (s.port p).retry.rxLast + 1) (going : (s.port p).retry.resume = false) (none_ : (s.port p).retry.rxKept = [])
    (sealed_ : (s.port p).sealing.rxSealed = true) (early : ctl.seq.toNat % 8 ≠ 7) : Completes (.lathReceive p bytes) s fun t =>
      (t.port p).sealing.rxGroup = s.rxGroupWith p ctl slots ∧ (t.port p).retry.rxLast = ctl.seq ∧
      (t.port p).retry.rx = (s.port p).retry.rx ∧ (t.port p).retry.rxSlots = (s.port p).retry.rxSlots ∧
      t.outputs = s.outputs ∧ t.pur = s.pur ∧ t.gut = s.gut := by
  obtain ⟨r, g, l, here⟩ := s.lathHeld_port p ctl slots n
  obtain ⟨outputs, pur, gut, -⟩ := s.lathHeld_rest p ctl slots n
  have kept : ((s.lathHeld p ctl slots n).port p).retry.rxKept = [] := (congrArg (fun x => x.retry.rxKept) here).trans none_
  refine completes_of_eq (exec_lathReceive_sealed s p ctl slots n bytes active good data next going none_ sealed_)
    ((congrArg (fun t : State => t.acceptKept p 1) (if_neg early)).trans (State.acceptKept_none _ p 1 kept)) ?_
  rw [here]
  exact ⟨rfl, rfl, rfl, rfl, outputs, pur, gut⟩

/-- The last lath of a sealed group whose tag verifies: the slots of all eight are opened and delivered. -/
theorem completes_lathReceive_opened (active : s.pstate p = .active)
    (good : lathOfBytes ((s.port p).retry.rxLast + 1) bytes = some (ctl, slots, n)) (data : ctl.ltype = 0)
    (next : ctl.seq = (s.port p).retry.rxLast + 1) (going : (s.port p).retry.resume = false) (none_ : (s.port p).retry.rxKept = [])
    (sealed_ : (s.port p).sealing.rxSealed = true) (last : ctl.seq.toNat % 8 = 7) (k : LinkKey)
    (key : (s.takeAck p ctl.ack).portKey p (firstCtl (s.rxGroupWith p ctl slots)).keyId = some k)
    (tag : groupTagSlot (s.rxGroupWith p ctl slots) =
      groupTag k.key (groupNonce (s.rxSalt p) (s.port p).sealing.rxCount) (s.rxGroupWith p ctl slots)) :
    Completes (.lathReceive p bytes) s fun t =>
      ((t.port p).retry.rx, (t.port p).retry.rxSlots) =
        (groupBody k.key (groupNonce (s.rxSalt p) (s.port p).sealing.rxCount) (s.rxGroupWith p ctl slots)).foldl (delivered p)
          ((s.port p).retry.rx, (s.port p).retry.rxSlots) ∧
      (t.port p).sealing.rxCount = (s.port p).sealing.rxCount + 1 ∧ (t.port p).sealing.rxOn = true ∧ (t.port p).sealing.rxGroup = [] ∧
      (t.port p).retry.rxLast = ctl.seq ∧ t.outputs = s.outputs ∧ t.pur = s.pur := by
  obtain ⟨r, g, l, here⟩ := s.lathHeld_port p ctl slots n
  obtain ⟨outputs, pur, -⟩ := s.lathHeld_rest p ctl slots n
  have opens := (s.lathHeld p ctl slots n).openGroup_good p k
    (by rw [here, s.lathHeld_portKey p ctl slots n _ active]; exact key) (by rw [here, s.lathHeld_rxSalt p ctl slots n]; exact tag)
  have opened := (s.lathHeld p ctl slots n).port_updPort_same p Port.opened
  rw [here, s.lathHeld_rxSalt p ctl slots n] at opens
  rw [here] at opened
  obtain ⟨frames, lastSeq, kept, sealing, outputs', pur'⟩ := ((s.lathHeld p ctl slots n).updPort p Port.opened).deliverAll_handed p l
    (groupBody k.key (groupNonce (s.rxSalt p) (s.port p).sealing.rxCount) (s.rxGroupWith p ctl slots))
  rw [opened] at frames lastSeq kept sealing
  rw [State.updPort_outputs, outputs] at outputs'
  rw [State.updPort_pur, pur] at pur'
  refine completes_of_eq (exec_lathReceive_sealed s p ctl slots n bytes active good data next going none_ sealed_)
    ((congrArg (fun t : State => t.acceptKept p 1) ((if_pos last).trans opens)).trans (State.acceptKept_none _ p 1 (kept.trans none_))) ?_
  rw [sealing]
  exact ⟨frames, rfl, rfl, rfl, lastSeq, outputs', pur'⟩

/-- The last lath of a sealed group whose tag fails, or whose key is not there. -/
theorem exec_lathReceive_failed (active : s.pstate p = .active)
    (good : lathOfBytes ((s.port p).retry.rxLast + 1) bytes = some (ctl, slots, n)) (data : ctl.ltype = 0)
    (next : ctl.seq = (s.port p).retry.rxLast + 1) (going : (s.port p).retry.resume = false) (none_ : (s.port p).retry.rxKept = [])
    (sealed_ : (s.port p).sealing.rxSealed = true) (last : ctl.seq.toNat % 8 = 7) (started : (s.port p).sealing.anew = false)
    (bad : ∀ k, (s.takeAck p ctl.ack).portKey p (firstCtl (s.rxGroupWith p ctl slots)).keyId = some k →
      groupTagSlot (s.rxGroupWith p ctl slots) ≠
        groupTag k.key (groupNonce (s.rxSalt p) (s.port p).sealing.rxCount) (s.rxGroupWith p ctl slots)) :
    exec (.lathReceive p bytes) s = .next
      (((s.lathHeld p ctl slots n).sealFailed p (firstCtl (s.rxGroupWith p ctl slots)).seq).acceptKept p 1) := by
  obtain ⟨r, g, l, here⟩ := s.lathHeld_port p ctl slots n
  have fails := (s.lathHeld p ctl slots n).openGroup_bad p (by
    rw [here, s.lathHeld_rxSalt p ctl slots n]
    intro k key
    rw [s.lathHeld_portKey p ctl slots n _ active] at key
    exact bad k key)
  have anew : ((s.lathHeld p ctl slots n).port p).sealing.anew = false := (congrArg (fun x => x.sealing.anew) here).trans started
  rw [here] at fails
  rw [exec_lathReceive_sealed s p ctl slots n bytes active good data next going none_ sealed_, if_pos last, fails, State.badGroup, anew]
  rfl

end

/-- Settles O20: a lath in turn by the group that it belongs to, each end of a sealed group by its own lemma, and one that is discarded by
`badLath_spec`; the stream by `groupCrypt_groupCrypt`. -/
theorem lathsReceived : Obligations.LathsReceived := by
  refine ⟨fun s p bytes active => ⟨fun ctl slots n good data next going none_ plain => ?plain, fun bad unsealed few => ?bad⟩,
    fun s p bytes ctl slots n active good data next going none_ sealed_ => ?sealed_, groupCrypt_groupCrypt⟩
  case plain => exact completes_lathReceive_plain active good data next going none_ plain
  case bad => exact completes_lathReceive_bad active bad unsealed few
  case sealed_ =>
    refine ⟨fun early => ?held, fun last k key tag => ?opened, fun last bad started few => ?failed⟩
    case held => exact completes_lathReceive_held active good data next going none_ sealed_ early
    case opened => exact completes_lathReceive_opened active good data next going none_ sealed_ last k key tag
    case failed =>
      obtain ⟨r, g, l, here⟩ := s.lathHeld_port p ctl slots n
      obtain ⟨outputs, pur, gut, eav, admitted, time⟩ := s.lathHeld_rest p ctl slots n
      have whole := exec_lathReceive_failed active good data next going none_ sealed_ last started bad
      have naks : ((s.lathHeld p ctl slots n).port p).retry.nakBeat = ((s.lathHeld p ctl slots n).portTime p).beat →
          ((s.lathHeld p ctl slots n).port p).retry.nakCount < 64 := by
        rw [here, time]
        exact few
      refine ⟨fun once => ?first, fun twice bay calm => ?again⟩
      case first =>
        obtain ⟨port, lath, counted, pur'⟩ := (s.lathHeld p ctl slots n).sealFailed_first p (firstCtl (s.rxGroupWith p ctl slots)).seq
          (by rw [here]; exact once) naks
        rw [here] at port
        rw [outputs] at lath
        rw [Counted, gut] at counted
        refine completes_of_eq whole (State.acceptKept_none _ p 1 (by rw [port]; rfl)) ?_
        rw [port]
        exact ⟨rfl, rfl, rfl, rfl, rfl, rfl, rfl, rfl, counted, pur'.trans pur, lath⟩
      case again =>
        obtain ⟨torn, memory, kept⟩ := (s.lathHeld p ctl slots n).sealFailed_again p (firstCtl (s.rxGroupWith p ctl slots)).seq
          (by rw [here]; exact twice) naks (admitted.trans bay) (by rw [gut]; exact calm)
        exact completes_of_eq whole (State.acceptKept_none _ p 1 kept) ⟨torn, by rw [memory, eav]⟩

end Sys2Proof.Machine
end

section
/-! SUPPORT. The frame linked to a queue and the frame taken from one, by their serials (R77, R98). -/
namespace Sys2Proof.Machine

open Sys2Proof

/-! ### A frame linked -/

/-- An entry taken for a frame is tagged with the frame's queue and serial. -/
theorem Pool.take_tag (p : Pool) (total i port beat q : Nat) (serial : BitVec 24) (shared : Bool) :
    Tab.get .free (p.take total i port beat q serial shared).tags i = .queue q serial := by
  rw [Pool.take, Pool.enqueue, Tab.get_put_same]

/-- The credit that a frame's port may get back leaves the buffer. -/
theorem State.freeSlots_ite_pur (s : State) (b : Bool) (n : Fin 144) (vc k : Nat) : (if b then s.freeSlots n vc k else s).pur = s.pur := by
  split <;> rfl

/-- Linking puts one entry at the tail of a queue; its descriptor and its cell, where it has one, are tagged with the queue and the tail
serial. -/
theorem State.link_entry (s : State) (f : Frame) (q : Nat) (a : Arrive) : ∃ e : Entry,
    (s.link f q a).queue q = { s.queue q with tail := (s.queue q).tail + 1, items := (s.queue q).items ++ [e] } ∧
    e.frame = f ∧ e.serial = (s.queue q).tail ∧ Tab.get .free (s.link f q a).pur.descs.tags e.desc = .queue q (s.queue q).tail ∧
    ∀ c, e.cell = some c → Tab.get .free (s.link f q a).pur.cells.tags c = .queue q (s.queue q).tail := by
  unfold State.link
  cases a.ingress
  all_goals
    dsimp only
    simp only [State.queue, State.freeSlots_ite_pur, State.spend_pur, State.setQueue]
    refine ⟨_, Tab.get_put_same .., rfl, rfl, Pool.take_tag .., fun c cell => ?_⟩
    dsimp only at cell
    rw [cell]
    exact Pool.take_tag ..

/-! ### A frame taken -/

/-- The serials of a queue count up from its head to its tail. -/
def Queue.inOrder (x : Queue) : Prop :=
  (∀ k e, x.items[k]? = some e → e.serial = x.head + BitVec.ofNat 24 k) ∧ x.tail = x.head + BitVec.ofNat 24 x.items.length

/-- A queue with its serials in order that loses its first entry has the next serial at its head. -/
theorem Queue.keep_head {x : Queue} {e : Entry} {rest : List Entry} (order : x.inOrder) (items : x.items = e :: rest) :
    (x.keep rest).head = x.head + 1 := by
  obtain ⟨serials, tail⟩ := order
  cases rest with
  | nil => exact tail.trans (by rw [items]; rfl)
  | cons next others => exact serials 1 next (by rw [items]; rfl)

theorem State.dequeued_queue (s : State) (q : Nat) (e : Entry) (rest : List Entry) :
    (s.dequeued q e rest).queue q = (s.queue q).keep rest := by
  rw [State.dequeued, State.unlink_queue, State.queue_setQueue_same]

/-- A frame that is taken leaves its queue with the other entries. -/
theorem State.dequeue_queue {s u : State} {q : Nat} {e : Entry} (taken : s.dequeue q = some (e, u)) :
    u.queue q = (s.queue q).keep (u.queue q).items := by
  have left := taken.symm.trans (s.dequeue_cons q e _ (s.dequeue_some q e u taken).1)
  calc u.queue q = (s.dequeued q e (u.queue q).items).queue q := congrArg (fun t => t.queue q) (Prod.mk.inj (Option.some.inj left)).2
    _ = (s.queue q).keep (u.queue q).items := s.dequeued_queue q e _

/-- Settles O22: a frame linked by `link_entry`; of a frame taken the queue left is `Queue.keep`, whose head serial `keep_head` gives. -/
theorem queueSerials : Obligations.QueueSerials := by
  refine ⟨fun s f q a => ?linked, fun s u q e taken serials tail => ?taken⟩
  case linked =>
    obtain ⟨e, queue, frame, serial, desc, cell⟩ := s.link_entry f q a
    rw [queue]
    exact ⟨e, rfl, frame, serial, desc, cell, rfl, rfl⟩
  case taken =>
    have items := (s.dequeue_some q e u taken).1
    have queue := State.dequeue_queue taken
    exact ⟨items, (congrArg Queue.head queue).trans (Queue.keep_head ⟨serials, tail⟩ items), (congrArg Queue.tail queue).trans rfl⟩

end Sys2Proof.Machine
end

section
/-! SUPPORT. A pass of the valley audit (R98 to R100) over a buffer without frames: nothing is reported of a clean pool, and of a pool whose
bitmap marks one FREE entry as used that entry alone, by check A. -/
namespace Sys2Proof.Machine

open Sys2Proof

/-! ### One pool -/

section
variable (p : Pool) (total : Nat) (queue : Nat → Queue) (beat : Nat) (prev : List (Nat × Nat))

/-- R99, check A: an entry that is FREE by its tag and used by the bitmap is reported at once, and by no other check. -/
theorem entryChecks_marked {i : Nat} (tag : Tab.get .free p.tags i = .free) (used : Tab.get false p.used i = true) :
    entryChecks p queue beat i = [1] := by
  simp [entryChecks, tag, used]

/-- R99: a report by check A takes the entry out of use whether or not the previous pass made it too. -/
theorem auditEntry_marked (reps : List (Nat × Nat)) {i : Nat} (checks : entryChecks p queue beat i = [1]) :
    auditEntry queue beat prev (p, reps) i = (p.quarantine i, reps ++ [(1, i)]) := by
  simp [auditEntry, checks]

/-- A pool with nothing listed has nothing to report. -/
theorem auditPool_clean (tags : p.tags = []) (used : p.used = []) (sum : p.free + p.transit + p.quar + (p.occ.map Prod.snd).sum = total) :
    auditPool p total queue beat prev = (p, [], false) := by
  simp [auditPool, tags, used, sum]

/-- A pool without tags whose bitmap lists one entry reports that entry. -/
theorem auditPool_marked {i : Nat} (tags : p.tags = []) (used : p.used = [(i, true)])
    (sum : p.free + p.transit + p.quar + (p.occ.map Prod.snd).sum = total) :
    auditPool p total queue beat prev = (p.quarantine i, [(1, i)], false) := by
  have checks : entryChecks p queue beat i = [1] := entryChecks_marked p queue beat (by rw [tags]; rfl) (by rw [used]; simp [Tab.get])
  simp [auditPool, tags, used, sum, auditEntry_marked p queue beat prev [] checks]

/-- A FREE entry taken out of use leaves the free count and joins the quarantined ones. -/
theorem Pool.quarantine_free {i : Nat} (tag : Tab.get .free p.tags i = .free) : Tab.get .free (p.quarantine i).tags i = .quarantined ∧
    (p.quarantine i).free = p.free - 1 ∧ (p.quarantine i).quar = p.quar + 1 := by
  rw [Pool.quarantine, tag]
  exact ⟨by simp only [Tab.get_put_same], rfl, rfl⟩

end

/-! ### PUR_AUDIT_FIRST (R101) -/

theorem auditFirstWord_toNat (entry check beat : Nat) : (auditFirstWord entry false check beat).toNat =
    (entry + check * 2 ^ 23 + beat % 2 ^ 38 * 2 ^ 26) % 2 ^ 64 := by
  rw [auditFirstWord, packW, BitVec.toNat_ofNat, List.foldl_cons, List.foldl_cons, List.foldl_cons, List.foldl_cons, List.foldl_nil]
  simp only [Bool.toNat_false, Nat.zero_mul, Nat.zero_add, Nat.add_zero, Nat.pow_zero, Nat.mul_one]

theorem auditFirstWord_entry {entry check : Nat} (beat : Nat) (small : entry < 2 ^ 22) :
    fld (auditFirstWord entry false check beat) 0 22 = entry := by
  rw [fld, auditFirstWord_toNat, Nat.shiftRight_zero]
  omega

theorem auditFirstWord_check {entry check : Nat} (beat : Nat) (small : entry < 2 ^ 22) (few : check < 8) :
    fld (auditFirstWord entry false check beat) 23 3 = check := by
  rw [fld, auditFirstWord_toNat, Nat.shiftRight_eq_div_pow]
  omega

/-! ### The pass -/

theorem State.count_gut_phase (s : State) (e : Event) : (s.count e).gut.phase = s.gut.phase := by
  unfold State.count
  split
  · rfl
  · exact s.note_gut_phase e 0 0

/-- Purlin after a pass that reports cell `i` by check A, and nothing of the descriptors. -/
def Pur.audited (p : Pur) (cells descs : Pool) (i beat : Nat) : Pur :=
  { p with cells := cells, descs := descs, auditRun := some beat, auditLast := 1, auditFirst := auditFirstWord i false 1 beat
           auditArmed := false, prevB := [], prevC := [], prevD := false }

/-- The event of a pass, with the entry that PUR_AUDIT_FIRST holds. -/
def auditEvent (first : W64) : Event := { eventOf 8 with addr := BitVec.ofNat 64 (fld first 0 22) }

/-- R100, R101: a pass that reports one cell by check A loads its report and counts it, where no limit of quarantined entries is passed. -/
theorem State.audit_marked (s : State) {i : Nat} {cells descs : Pool}
    (ofCells : auditPool s.pur.cells cellTotal s.queue s.beat (prevOf s false) = (cells, [(1, i)], false))
    (ofDescs : auditPool s.pur.descs descTotal s.queue s.beat (prevOf s true) = (descs, [], false))
    (first : s.pur.auditFirst = 0) (armed : s.pur.auditArmed = true) (fewCells : cells.quar ≤ 4096) (fewDescs : descs.quar ≤ 8192) :
    s.audit = { s with pur := s.pur.audited cells descs i s.beat }.count (auditEvent (auditFirstWord i false 1 s.beat)) := by
  have last : packW 4 [(0, 1), (1, 0), (2, 0), (3, 0)] = 1 := by decide
  simp [State.audit, ofCells, ofDescs, first, armed, Nat.not_lt.mpr fewCells, Nat.not_lt.mpr fewDescs, last, Pur.audited, auditEvent]

/-- R99, R100: the audit at its beat, with Purlin's tables ready. -/
theorem exec_valleyAudit (s : State) (b : W64) (due : b.toNat % 65536 = 0) (ready : s.pur.ready = true) :
    exec (.valleyAudit b) s = .next (s.toBeat b.toNat).audit :=
  congrArg _ (if_pos ⟨due, ready⟩)

/-- Settles O24: the pass over the cells by `auditPool_marked`, over the descriptors by `auditPool_clean`, and what it does of both by
`audit_marked`. -/
theorem auditQuarantines : Obligations.AuditQuarantines := by
  intro s b i due ready small ofCells ofDescs first armed
  obtain ⟨tag, free, quar⟩ := s.pur.cells.quarantine_free (i := i) (by rw [ofCells]; rfl)
  rw [show s.pur.cells.free = cellTotal by rw [ofCells]] at free
  rw [show s.pur.cells.quar = 0 by rw [ofCells]; rfl] at quar
  have cells := auditPool_marked s.pur.cells cellTotal (s.toBeat b.toNat).queue (s.toBeat b.toNat).beat (prevOf (s.toBeat b.toNat) false)
    (by rw [ofCells]; rfl) (by rw [ofCells]) (by rw [ofCells]; rfl)
  have descs := auditPool_clean s.pur.descs descTotal (s.toBeat b.toNat).queue (s.toBeat b.toNat).beat (prevOf (s.toBeat b.toNat) true)
    (by rw [ofDescs]; rfl) (by rw [ofDescs]; rfl) (by rw [ofDescs]; rfl)
  refine completes_of_eq (exec_valleyAudit s b due ready)
    ((s.toBeat b.toNat).audit_marked cells descs first armed (by rw [quar]; decide) (by rw [ofDescs]; decide)) ?_
  have entry : i < 2 ^ 22 := small.trans (by decide)
  rw [State.count_pur, State.count_gut_phase]
  exact ⟨tag, quar, free, rfl, auditFirstWord_entry _ entry, auditFirstWord_check _ entry (by decide),
    State.count_total _ (auditEvent _) Nat.one_ne_zero, rfl⟩

end Sys2Proof.Machine
end

section
/-! SUPPORT. Route epochs at both devices (R89 to R94, R148): the shadow table, the epoch armed, refused and come, and the buckets that a new map
moves. -/
namespace Sys2Proof.Machine

open Sys2Proof

/-! ### The beginning of a beat -/

theorem fld_lt {n : Nat} (w : BitVec n) (lo len : Nat) : fld w lo len < 2 ^ len := Nat.mod_lt _ (Nat.two_pow_pos len)

/-- A field put into a register of its own width. -/
theorem ofNat_fld_toNat {n : Nat} (w : BitVec n) (lo len : Nat) : (BitVec.ofNat len (fld w lo len)).toNat = fld w lo len := by
  rw [BitVec.toNat_ofNat, Nat.mod_eq_of_lt (fld_lt w lo len)]

/-- A device with REFCLK whose rack time is before a beat comes to that beat. -/
theorem Tim.toBeat_beat (t : Tim) (b : Nat) (clock : t.refclkOk = true) (early : t.fifths < 5120 * b) : (t.toBeat b).beat = b := by
  rw [Tim.toBeat, Tim.toTime, if_pos ⟨clock, Nat.mul_comm b 5120 ▸ early⟩]
  exact Nat.mul_div_cancel b (by decide)

theorem State.toBeat_beat (s : State) (b : Nat) (clock : s.tim.refclkOk = true) (early : s.tim.fifths < 5120 * b) :
    (s.toBeat b).beat = b :=
  s.tim.toBeat_beat b clock early

/-! ### The module's route table (R79, R89 to R94) -/

section
variable (s : State) (who : Requester)

theorem State.writeShadow_refused (n : Nat) (v : W32) (bad : s.pur.epochArm = true ∨ s.badRoute (v &&& 0x3FF) = true) :
    s.writeShadow n v = { s with pur := { s.pur with epochReject := true } } :=
  if_pos bad

theorem State.writeShadow_taken (n : Nat) (v : W32) (unarmed : s.pur.epochArm = false) (good : s.badRoute (v &&& 0x3FF) = false) :
    s.writeShadow n v = { s with pur := { s.pur with shadow := Tab.put 0 s.pur.shadow n (v &&& 0x3FF) } } :=
  if_neg (by simpa [unarmed, lrtMask] using good)

theorem State.writeEpoch_refused (v : W64) (bad : s.pur.epochArm = true ∨ (bitAt v 63 = true ∧ fld v 0 54 ≤ s.beat)) :
    s.writeEpoch v = { s with pur := { s.pur with epochReject := true } } :=
  if_pos (by rwa [ofNat_fld_toNat])

theorem State.writeEpoch_taken (v : W64) (unarmed : s.pur.epochArm = false) (later : s.beat < fld v 0 54) :
    s.writeEpoch v = { s with pur := { s.pur with epochBeat := BitVec.ofNat 54 (fld v 0 54), epochArm := bitAt v 63 } } :=
  if_neg (by rw [ofNat_fld_toNat, unarmed]; simp [Nat.not_le.mpr later])

theorem exec_purLrtShadow (right : s.reaches who = true) (n : Byte) (v : W32) :
    exec (.purLrtShadow who n v) s = .next (s.writeShadow n.toNat v) :=
  congrArg _ (if_pos right)

theorem exec_purEpochAt (right : s.reaches who = true) (v : W64) : exec (.purEpochAt who v) s = .next (s.writeEpoch v) :=
  congrArg _ (if_pos right)

/-- R91: the armed beat has come. -/
theorem exec_routeEpoch (b : W64) (armed : s.pur.epochArm = true) (due : s.pur.epochBeat.toNat ≤ b.toNat)
    (beat : (s.toBeat b.toNat).beat = b.toNat) : exec (.routeEpoch b) s =
      .next { s.toBeat b.toNat with pur := { s.pur with lrt := s.pur.shadow, epochArm := false, epochDone := true } } :=
  congrArg _ (if_pos ⟨armed, by rw [beat]; exact due⟩)

end

/-- Settles O25: a write of the shadow table and of PUR_EPOCH_AT taken or refused, and the swap at the armed beat, each by its own lemma. -/
theorem routeEpochs : Obligations.RouteEpochs := by
  intro s who right
  refine ⟨fun n v unarmed good => ?shadow, fun n v bad => ?shadowRefused, fun v unarmed arm later => ?armed, fun v bad => ?armRefused,
    fun b armed due clock early => ?swapped⟩
  case shadow =>
    refine completes_of_eq (exec_purLrtShadow s who right n v) (s.writeShadow_taken n.toNat v unarmed good) ⟨?_, fun m other => ?_, rfl⟩
    · exact Tab.get_put_same ..
    · exact Tab.get_put_ne _ _ _ _ _ other
  case shadowRefused => rw [exec_purLrtShadow s who right, s.writeShadow_refused n.toNat v bad]
  case armed =>
    refine completes_of_eq (exec_purEpochAt s who right v) (s.writeEpoch_taken v unarmed later) ⟨arm, ofNat_fld_toNat v 0 54, ?_⟩
    rw [arm]
  case armRefused => rw [exec_purEpochAt s who right, s.writeEpoch_refused v bad]
  case swapped =>
    have beat := s.toBeat_beat b.toNat clock early
    exact ⟨_, exec_routeEpoch s b armed due beat, rfl, rfl, rfl, rfl, rfl, beat, rfl⟩

/-! ### The Jalem block's map (R92 to R94, R148) -/

section
variable (s : State)

theorem State.writeJebEpoch_refused (v : W64)
    (bad : s.jeb.epochArm = true ∨ (bitAt v 63 = true ∧ (fld v 0 54 ≤ s.jeb.tim.beat ∨ s.jeb.tim.sync = false))) :
    s.writeJebEpoch v = { s with jeb := { s.jeb with epochReject := true } } :=
  congrArg (fun j => { s with jeb := j }) (if_pos (by rw [ofNat_fld_toNat]; simpa using bad))

theorem State.writeJebEpoch_taken (v : W64) (unarmed : s.jeb.epochArm = false) (synced : s.jeb.tim.sync = true)
    (later : s.jeb.tim.beat < fld v 0 54) :
    s.writeJebEpoch v = { s with jeb := { s.jeb with epochBeat := BitVec.ofNat 54 (fld v 0 54), epochArm := bitAt v 63 } } :=
  congrArg (fun j => { s with jeb := j }) (if_neg (by rw [ofNat_fld_toNat, unarmed, synced]; simp [Nat.not_le.mpr later]))

theorem exec_jebRouteEpoch (b : W64) (armed : s.jeb.epochArm = true) (due : s.jeb.epochBeat.toNat ≤ b.toNat)
    (beat : (s.jeb.tim.toBeat b.toNat).beat = b.toNat) :
    exec (.jebRouteEpoch b) s = .next ((s.toBeat b.toNat).updJeb Jeb.swap) :=
  congrArg _ (if_pos ⟨armed, by rw [show (s.toBeat b.toNat).jeb.tim.beat = b.toNat from beat]; exact due⟩)

theorem exec_movedBucketUndrained (b : W64) (at_ : b.toNat = s.jeb.epochAt + 1024) (left : s.jeb.moved ≠ []) :
    exec (.movedBucketUndrained b) s =
      .next ((s.toBeat b.toNat).count { (s.toBeat b.toNat).bucketEvent with count := s.jeb.moved.length }) :=
  congrArg _ (if_pos ⟨at_, left⟩)

theorem exec_movedBucketFatal (b : W64) (at_ : b.toNat = s.jeb.epochAt + 16384) (left : s.jeb.moved ≠ []) :
    exec (.movedBucketFatal b) s = .next ((s.toBeat b.toNat).fatal 8 .nothing (s.toBeat b.toNat).bucketEvent) :=
  congrArg _ (if_pos ⟨at_, left⟩)

end

/-- R92: a bucket has moved where its entries in the two maps differ. -/
theorem mem_movedBuckets (a b : BitVec 256) (h : BitVec 6) : h ∈ movedBuckets a b ↔ mapEntry a h.toNat ≠ mapEntry b h.toNat := by
  simp only [movedBuckets, List.mem_map, List.mem_filter, List.mem_range, decide_eq_true_eq]
  constructor
  · rintro ⟨k, ⟨bound, differ⟩, rfl⟩
    rwa [BitVec.toNat_ofNat, Nat.mod_eq_of_lt bound]
  · exact fun differ => ⟨h.toNat, ⟨h.isLt, differ⟩, BitVec.ofNat_toNat 6 h⟩

/-- R92: a bucket stays closed for a request issued before the epoch whose last response has not come. -/
theorem Jeb.mem_undrained (j : Jeb) (h : BitVec 6) : h ∈ j.undrained ↔
    h ∈ j.moved ∧ ∃ r ∈ j.reqs, r.bucket = some h ∧ r.epoch < j.epochs ∧ ∀ f ∈ r.held, endsRequest f = false := by
  simp [Jeb.undrained, Req.answered, and_assoc]

/-- The buckets closed after an epoch that found none closed: those that moved and still hold a request. -/
theorem Jeb.mem_swap_moved {j : Jeb} (open_ : j.moved = []) (issued : ∀ r ∈ j.reqs, r.epoch ≤ j.epochs) (h : BitVec 6) :
    h ∈ j.swap.moved ↔ mapEntry j.spreadMap h.toNat ≠ mapEntry j.shadowMap h.toNat ∧
      ∃ r ∈ j.reqs, r.bucket = some h ∧ ∀ f ∈ r.held, endsRequest f = false := by
  rw [Jeb.swap]
  dsimp only
  rw [Jeb.mem_undrained, ← mem_movedBuckets]
  simp only [open_, List.nil_append, List.not_mem_nil, not_false_eq_true, decide_true, List.filter_true]
  refine and_congr_right fun _ => exists_congr fun r => and_congr_right fun r_mem => and_congr_right fun _ => ?_
  exact and_iff_right (Nat.lt_succ_of_le (issued r r_mem))

/-- R148: DONE once no moved bucket is left. -/
theorem Jeb.swap_done {j : Jeb} (drained : j.swap.moved = []) : j.swap.epochDone = true := by
  rw [Jeb.swap]
  exact Bool.or_eq_true_iff.mpr (.inr (decide_eq_true drained))

/-- Settles O40: JEB_EPOCH_AT taken or refused by `writeJebEpoch_taken` and `writeJebEpoch_refused`, the buckets that the swap closes by
`mem_swap_moved`, and the two ends of the wait for them by the laws of counted and fatal events. -/
theorem jalemEpochs : Obligations.JalemEpochs := by
  refine ⟨fun s v m => ⟨rfl, fun unarmed synced later => ?armed, fun bad => ?refused⟩,
    fun s b armed due clock early open_ issued => ?swapped,
    fun s b left => ⟨fun at_ => ?counted, fun at_ bay calm => ?torn⟩⟩
  case armed => exact completes_of_eq rfl (s.writeJebEpoch_taken v unarmed synced later) ⟨ofNat_fld_toNat v 0 54, rfl, rfl⟩
  case refused => exact congrArg _ (s.writeJebEpoch_refused v bad)
  case swapped =>
    have beat := s.jeb.tim.toBeat_beat b.toNat clock early
    exact ⟨_, exec_jebRouteEpoch s b armed due beat, rfl, rfl, rfl, beat, Jeb.mem_swap_moved (j := (s.toBeat b.toNat).jeb) open_ issued,
      Jeb.swap_done, rfl, rfl⟩
  case counted =>
    have moved := congrArg Jeb.moved ((s.toBeat b.toNat).count_jeb { (s.toBeat b.toNat).bucketEvent with count := s.jeb.moved.length })
    refine ⟨_, exec_movedBucketUndrained s b at_ left, ?_, moved.trans rfl, State.count_sec _ _⟩
    exact State.count_total _ _ (mt List.length_eq_zero_iff.mp left)
  case torn =>
    have moved := congrArg Jeb.moved ((s.toBeat b.toNat).fatal_jeb 8 .nothing (s.toBeat b.toNat).bucketEvent)
    exact ⟨_, exec_movedBucketFatal s b at_ left, State.fatal_torn _ 8 .nothing _ (by decide) bay calm, moved.trans rfl,
      State.fatal_eav _ 8 .nothing _⟩

end Sys2Proof.Machine
end

section
/-! SUPPORT. Who changes the module's memory (R107, R198, R199, R207, R309). -/
namespace Sys2Proof.Machine

open Sys2Proof

/-- Settles O6: Gauge's own commands by `exec_gauge`, every other one that does not work on the module's memory by `exec_lands`. -/
theorem memoryIsTheEaves : Obligations.MemoryIsTheEaves := by
  intro c s t memory next
  cases gauge : gaugeCommand c with
  | true =>
    obtain ⟨eav, -⟩ := exec_gauge gauge next
    exact eav
  | false =>
    have lands := exec_lands s c memory gauge
    rw [next] at lands
    obtain ⟨eav, -⟩ := lands
    exact eav

end Sys2Proof.Machine
end

section
/-! SUPPORT. The window table written (R121, R122, R149): the words of an entry taken, and an entry that may not be valid taken with VALID 0. -/
namespace Sys2Proof.Machine

open Sys2Proof

/-- The words that a write takes are those of R122, FMODE reserved at a Jalem block (R149). -/
theorem Window.setReg_eq (w : Window) (d : Dev) (n : Nat) (k : BitVec 3) (v : W64) : w.setReg d n k.toNat v = windowWord d w k.toNat v := by
  have narrow (m : W64) (m' : W32) (h : m.setWidth 32 = m') : (v &&& m).setWidth 32 = v.setWidth 32 &&& m' := by
    rw [BitVec.setWidth_and, h]
  obtain ⟨k, bound⟩ := k
  match k, bound with
  | 0, _ => cases d <;> rfl
  | 1, _ => cases d <;> rfl
  | 2, _ =>
    have all : v.setWidth 32 &&& 0xFFFFFFFF = v.setWidth 32 := BitVec.and_allOnes
    cases d <;> exact congrArg (fun x => { w with src := x }) ((narrow 0xFFFFFFFF _ rfl).trans all)
  | 3, _ => cases d <;> exact congrArg (fun x => { w with attr := x }) (narrow _ _ rfl)
  | 4, _ => cases d <;> rfl
  | 5, _ => cases d <;> rfl
  | 6, _ => cases d <;> rfl
  | 7, _ => cases d <;> rfl

/-- Clearing a bit that is clear changes nothing. -/
theorem setBit_clear {n : Nat} (w : BitVec n) (i : Nat) (clear : bitAt w i = false) : setBit w i false = w := by
  have mask (j : Nat) (bound : j < n) : (fieldMask n i 1).getLsbD j = decide (i = j) := by
    rw [fieldMask, Nat.pow_one, Nat.one_shiftLeft, BitVec.getLsbD_ofNat, Nat.testBit_two_pow, decide_eq_true bound, Bool.true_and]
  refine BitVec.eq_of_getLsbD_eq fun j bound => ?_
  rw [setBit, setFld, Bool.toNat_false, Nat.zero_mod, Nat.zero_shiftLeft, BitVec.or_zero, BitVec.getLsbD_and, BitVec.getLsbD_not,
    mask j bound, decide_eq_true bound]
  by_cases here : i = j
  · have off : w.getLsbD j = false := here ▸ clear
    rw [off, Bool.false_and]
  · simp [here]

section
variable (s : State) (d : Dev) (n : Nat)

theorem State.setWindow_winOf (w : Window) (m : Nat) : (s.setWindow d n w).winOf d m = if m = n then w else s.winOf d m := by
  cases d <;> exact Tab.get_put ..

theorem State.configError_winOf (m : Nat) : s.configError.winOf d m = s.winOf d m := by
  simp only [State.winOf, State.configError_eav, State.configError_jeb]

/-- An entry as it is taken: with VALID 0 where it may not be valid (R122, R149). -/
def State.takenWindow (s : State) (d : Dev) (w : Window) : Window :=
  if bitAt w.base 0 && s.windowBad d w then { w with base := setBit w.base 0 false } else w

theorem State.takenWindow_good (w : Window) (good : bitAt w.base 0 = false ∨ s.windowBad d w = false) : s.takenWindow d w = w := by
  cases good with
  | inl invalid => simp [State.takenWindow, invalid]
  | inr fits => simp [State.takenWindow, fits]

/-- An entry with BASE above LIMIT is taken with VALID 0, whatever its VALID was. -/
theorem State.takenWindow_reversed (w : Window) (reversed : fld w.limit 16 32 < fld w.base 16 32) :
    s.takenWindow d w = { w with base := setBit w.base 0 false } := by
  have bad : s.windowBad d w = true := by simp [State.windowBad, reversed]
  cases valid : bitAt w.base 0 with
  | true => simp [State.takenWindow, valid, bad]
  | false => simp [State.takenWindow, valid, setBit_clear _ _ valid]

theorem State.takenWindow_jalem (w : Window) :
    s.takenWindow .jalem w = if fld w.limit 16 32 < fld w.base 16 32 then { w with base := setBit w.base 0 false } else w := by
  split
  · rename_i reversed
    exact s.takenWindow_reversed .jalem w reversed
  · rename_i ordered
    exact s.takenWindow_good .jalem w (.inr (by simp [State.windowBad, ordered]))

/-- A write of a window register that its device takes leaves every other entry. -/
theorem State.writeWindow_winOf (k : BitVec 3) (v : W64) (open_ : d = .module → s.admitted = true) (m : Nat) :
    (s.writeWindow d n k.toNat v).winOf d m =
      if m = n then s.takenWindow d (windowWord d (s.winOf d n) k.toNat v) else s.winOf d m := by
  have taken : ¬ (d = .module ∧ (!s.admitted) = true) := fun h => by simp [open_ h.1] at h
  rw [State.writeWindow, if_neg taken, Window.setReg_eq, State.takenWindow]
  dsimp only
  split
  · split
    · rw [State.configError_winOf, State.setWindow_winOf]
    · rw [State.setWindow_winOf]
  · rw [State.setWindow_winOf]

theorem State.writeWindow_good (k : BitVec 3) (v : W64) (open_ : s.admitted = true)
    (good : bitAt (windowWord .module (s.winOf .module n) k.toNat v).base 0 = false ∨
      s.windowBad .module (windowWord .module (s.winOf .module n) k.toNat v) = false) :
    s.writeWindow .module n k.toNat v = s.setWindow .module n (windowWord .module (s.winOf .module n) k.toNat v) := by
  have taken : ¬ (Dev.module = .module ∧ (!s.admitted) = true) := by simp [open_]
  rw [State.writeWindow, if_neg taken, Window.setReg_eq]
  exact if_neg (by cases good <;> simp_all)

theorem State.writeWindow_jalem (k : BitVec 3) (v : W64) : s.writeWindow .jalem n k.toNat v =
    s.setWindow .jalem n (s.takenWindow .jalem (windowWord .jalem (s.winOf .jalem n) k.toNat v)) := by
  rw [State.writeWindow, if_neg (fun h => by cases h.1), Window.setReg_eq, State.takenWindow]
  dsimp only
  split <;> rfl

end

/-- What a write for the fabric manager leaves in the module's window table, whatever request it is noted under (R122). -/
theorem State.writeWindow_inAccess (s : State) (n : Nat) (k : BitVec 3) (v : W64) (addr : Nat) (open_ : s.admitted = true) :
    let t := s.inAccess .inBand .module addr fun s => s.writeWindow .module n k.toNat v
    let w := windowWord .module (s.winOf .module n) k.toNat v
    (∀ m, t.winOf .module m = if m = n then s.takenWindow .module w else s.winOf .module m) ∧
    (bitAt w.base 0 = false ∨ s.windowBad .module w = false → t = s.setWindow .module n w) := by
  rcases s.inAccess_cases .inBand .module addr fun s => s.writeWindow .module n k.toNat v with direct | noted
  · rw [direct]
    exact ⟨s.writeWindow_winOf .module n k v fun _ => open_, s.writeWindow_good n k v open_⟩
  · rw [noted]
    have written := fun good => State.writeWindow_good { s with sof := { s.sof with request := some (s.managerWrite addr) } } n k v open_ good
    refine ⟨State.writeWindow_winOf _ .module n k v fun _ => open_, fun good => ?_⟩
    exact congrArg (fun t : State => { t with sof := { t.sof with request := s.sof.request } }) (written good)

/-- R122, R341: the bay's fabric manager reaches the window table of the module. -/
theorem exec_windowTableWrite_inBand (s : State) (n : Byte) (k : BitVec 3) (v : W64) (low : k.toNat ≤ 4) (runs : s.sof.thatchRun = true) :
    exec (.windowTableWrite .module .inBand n k v) s = .next (s.inAccess .inBand .module
      (0x480000 + 0x20 * n.toNat + [0, 8, 0x10, 0x14, 0x18].getD k.toNat 0) fun s => s.writeWindow .module n.toNat k.toNat v) := by
  refine congrArg Host.Outcome.next (if_pos ⟨?_, ?_, low⟩)
  · simp [State.reachesDev, State.reaches, runs]
  · simp [State.mayWrite, runs, Reg.manager, Reg.managerOnly]

/-- R149: a write from the fabric side of a Jalem block. -/
theorem exec_windowTableWrite_fabricSide (s : State) (who : BitVec 4) (n : Byte) (k : BitVec 3) (v : W64) (low : k.toNat ≤ 4) :
    exec (.windowTableWrite .jalem (.fabricSide who) n k v) s = .next (s.writeWindow .jalem n.toNat k.toNat v) :=
  congrArg Host.Outcome.next ((if_pos ⟨rfl, rfl, low⟩).trans (s.inAccess_outside _ _ _ _ (fun h => by cases h)))

/-- Settles O12: what every entry reads by `writeWindow_winOf`, and that nothing else changes by `writeWindow_good` and `writeWindow_jalem`. -/
theorem windowTableWrites : Obligations.WindowTableWrites := by
  intro s n k v low
  refine ⟨fun open_ runs => ?manager, ?ethernet, fun who => ?fabric⟩
  case manager =>
    obtain ⟨entries, good⟩ := s.writeWindow_inAccess n.toNat k v (0x480000 + 0x20 * n.toNat + [0, 8, 0x10, 0x14, 0x18].getD k.toNat 0) open_
    refine completes_of_eq (exec_windowTableWrite_inBand s n k v low runs) rfl
      ⟨fun m other => ?_, fun fits => ⟨?_, ?_⟩, fun reversed => ?_⟩
    · rw [entries, if_neg other]
    · rw [entries, if_pos rfl, State.takenWindow_good _ _ _ fits]
    · rw [good fits]
      rfl
    · rw [entries, if_pos rfl, State.takenWindow_reversed _ _ _ reversed]
  case ethernet => exact congrArg Host.Outcome.next (if_neg fun h => by simp [State.mayWrite, Reg.isSec, Reg.managerOnly] at h)
  case fabric =>
    refine completes_of_eq (exec_windowTableWrite_fabricSide s who n k v low) rfl ⟨fun m other => ?_, ?_, ?_⟩
    · rw [State.writeWindow_winOf _ _ _ _ _ (fun h => by cases h), if_neg other]
    · rw [State.writeWindow_winOf _ _ _ _ _ (fun h => by cases h), if_pos rfl, State.takenWindow_jalem]
    · rw [State.writeWindow_jalem]
      rfl

end Sys2Proof.Machine
end

section
/-! SUPPORT. A node declared lost (R124): its bit, the fatal fault, and that answering for it touches neither. -/
namespace Sys2Proof.Machine

open Sys2Proof

/-- What the declaration of a lost node settles before its requests are answered: the nodes lost, the fatal fault with its phase, the eaves and
Gauge. -/
def State.declared (s : State) : BitVec 128 × W64 × Phase × Eav × Gau := (s.pur.nodeLost, s.gut.fatal, s.gut.phase, s.eav, s.gau)

section
variable (s : State)

theorem State.count_declared (e : Event) : (s.count e).declared = s.declared := by
  unfold State.count
  split
  · rfl
  · simp [State.declared]

theorem State.freeSlots_declared (n : Fin 144) (vc k : Nat) : (s.freeSlots n vc k).declared = s.declared := rfl

theorem State.link_declared (f : Frame) (q : Nat) (a : Arrive) : (s.link f q a).declared = s.declared := by
  unfold State.link
  dsimp only
  repeat' split
  all_goals rfl

theorem State.link_nodeLost (f : Frame) (q : Nat) (a : Arrive) : (s.link f q a).pur.nodeLost = s.pur.nodeLost :=
  congrArg Prod.fst (s.link_declared f q a)

theorem State.unlink_declared (q : Nat) (e : Entry) : (s.unlink q e).declared = s.declared := by
  unfold State.unlink
  dsimp only
  repeat' split
  all_goals rfl

theorem State.purge_declared (q : Nat) (test : Entry → Bool) : (s.purge q test).2.declared = s.declared :=
  State.foldl_keeps State.declared _ (fun s e => s.unlink_declared q e) _ _

theorem State.respondTo_declared (spar src : Nat) (f : Frame) : (s.respondTo spar src f).declared = s.declared := by
  have counted : (if f.hdr.status = stPoisoned then s.count (requestEvent 1 f.hdr) else s).declared = s.declared := by
    split
    · exact s.count_declared _
    · rfl
  unfold State.respondTo
  dsimp only
  rw [← counted]
  split
  · exact State.link_declared _ _ _ _
  · split
    · exact State.link_declared _ _ _ _
    · rfl
  · exact State.count_declared _ _

theorem State.answerLost_declared (n : Fin 144) : (s.answerLost n).declared = s.declared := by
  have answered (l : List Pend) (t : State) :
      (l.foldl (fun s e => s.respondError (agentSource agSoffit) e.hdr stTargetLost) t).declared = t.declared :=
    State.foldl_keeps State.declared _ (fun s e => s.respondTo_declared _ _ _) l t
  unfold State.answerLost
  dsimp only
  rw [State.foldl_keeps State.declared _ (fun t v => ?_), answered]
  · rfl
  · refine (State.foldl_keeps State.declared _ (fun t e => ?_) _ _).trans (t.purge_declared _ _)
    split
    · exact t.count_declared _
    · exact t.respondTo_declared _ _ _

theorem State.logEvent_nodeLost (kind : Byte) (data : List W64) (scope : Bool) :
    (s.logEvent kind data scope).pur.nodeLost = s.pur.nodeLost := congrArg Pur.nodeLost (s.logEvent_pur kind data scope)

theorem State.beginTeardown_nodeLost (code : Nat) (o : FaultObj) (via : Option (Fin 144)) :
    (s.beginTeardown code o via).pur.nodeLost = s.pur.nodeLost := by
  have sent (s : State) (n : Fin 144) : (s.sendTeardown n 0).pur.nodeLost = s.pur.nodeLost := by
    rw [State.sendTeardown, State.soffitSend, State.sendOn, State.link_nodeLost]
  unfold State.beginTeardown
  dsimp only
  rw [State.sendAll_keeps _ _ _ (fun t => t.pur.nodeLost) sent, State.setBay_pur]
  rfl

theorem State.fatal_nodeLost (code : Nat) (o : FaultObj) (e : Event) : (s.fatal code o e).pur.nodeLost = s.pur.nodeLost := by
  rw [State.fatal, State.logEvent_nodeLost, State.fatalFor]
  split
  · rw [State.note_pur]
  · split
    · rw [State.beginTeardown_nodeLost, State.note_pur]
    · rw [State.coalesce_pur, State.note_pur]

/-- A fatal fault in a calm bay writes its word and starts a teardown (R291, R295). -/
theorem State.fatal_word (code : Nat) (o : FaultObj) (e : Event) (bay : s.admitted = true) (calm : s.gut.phase = .none) :
    (s.fatal code o e).gut.fatal = fatalWord code o 1 ∧ (s.fatal code o e).gut.phase = .stopping := by
  have begun : (s.note e 2 code).fatalFor code o none = (s.note e 2 code).beginTeardown code o none := by
    simp [State.fatalFor, s.note_admitted, bay, calm]
  rw [State.fatal, State.logEvent_gut, begun]
  exact ⟨State.beginTeardown_fatal _ _ _ _, State.beginTeardown_phase _ _ _ _⟩

end

/-! ### The words -/

/-- R307: the kind and the number of the faulted object in GUT_FATAL. -/
theorem fatalWord_object (code : Nat) (o : FaultObj) (count : Nat) (small : code < 256) :
    fld (fatalWord code o count) 8 2 = o.kind ∧ fld (fatalWord code o count) 10 8 = o.number := by
  have kind := o.kind_lt
  have number := o.number_lt
  have bounded : min count 255 < 256 := by omega
  simp only [fld, fatalWord_toNat, Nat.shiftRight_eq_div_pow]
  generalize min count 255 = c at bounded
  omega

theorem bitAt_setFld_one {n : Nat} (w : BitVec n) (i : Nat) (inside : i < n) : bitAt (setFld w i 1 1) i = true := by
  have one : (BitVec.ofNat n ((1 % 2 ^ 1) <<< i)).getLsbD i = true := by
    rw [BitVec.getLsbD_ofNat, decide_eq_true inside, Bool.true_and, Nat.testBit_shiftLeft]
    simp
  rw [bitAt, setFld, BitVec.getLsbD_or, one, Bool.or_true]

/-! ### The command -/

/-- The module with a node's bit set. -/
def State.markLost (s : State) (n : Fin 128) : State := { s with pur := { s.pur with nodeLost := setFld s.pur.nodeLost n.val 1 1 } }

theorem State.declareLost_declared (s : State) (n : Fin 128) (present : s.nodeLost n.val = false) : (s.declareLost n).declared =
    ((s.markLost n).fatal 7 (.node (BitVec.ofNat 7 n.val)) (eventOf 16)).declared := by
  rw [State.declareLost, present, if_neg Bool.false_ne_true, State.answerLost_declared]
  rfl

/-- Settles O26: what stands once the node is declared by `declareLost_declared`, the fault by `fatal_word` and `fatalWord_object`. -/
theorem nodeDeclaredLost : Obligations.NodeDeclaredLost := by
  intro s who v right
  have written : exec (.purNodeLostSet who v) s = .next (s.writeNodeLost v) := congrArg _ (if_pos right)
  refine ⟨fun clear => ?undeclared, fun declare present => ?declared⟩
  case undeclared =>
    rw [written, State.writeNodeLost, clear]
    rfl
  case declared =>
    obtain ⟨n, number⟩ : ∃ n : Fin 128, n.val = fld v 0 7 := ⟨⟨_, fld_lt v 0 7⟩, rfl⟩
    have same : Fin.ofNat 128 (fld v 0 7) = n := Fin.ext (by rw [← number]; exact Nat.mod_eq_of_lt n.isLt)
    rw [← number] at present ⊢
    have stands := s.declareLost_declared n present
    simp only [State.declared, Prod.mk.injEq, State.fatal_nodeLost, State.fatal_eav, State.fatal_gau] at stands
    obtain ⟨bit, fatal, phase, eav, gau⟩ := stands
    refine completes_of_eq written ((if_pos declare).trans (congrArg s.declareLost same)) ⟨?_, fun bay calm => ?_, eav, gau⟩
    · rw [State.nodeLost, bit, State.markLost, bitAt_setFld_one _ _ n.isLt, decide_eq_true n.isLt]
      rfl
    · obtain ⟨word, stopping⟩ := (s.markLost n).fatal_word 7 (.node (BitVec.ofNat 7 n.val)) (eventOf 16) bay calm
      obtain ⟨kind, object⟩ := fatalWord_object 7 (.node (BitVec.ofNat 7 n.val)) 1 (by decide)
      rw [fatal, phase, word]
      refine ⟨fatalWord_code _ _ _ (by decide), stopping, kind, object.trans ?_⟩
      exact Nat.mod_eq_of_lt n.isLt

end Sys2Proof.Machine
end

section
/-! SUPPORT. The shingles that a home operation may write (R107, R113, R114, R182, R193). -/
namespace Sys2Proof.Machine

open Sys2Proof

/-- A memory written within `n` shingles from shingle `i` on only, under the same cipher. -/
def Store.WrittenIn (i n : Nat) (m m' : Store) : Prop := m'.cipher = m.cipher ∧ MemKept m.mem m'.mem i n

section
variable {m m' m'' : Store} {i n : Nat}

theorem Store.WrittenIn.refl (m : Store) (i n : Nat) : Store.WrittenIn i n m m := ⟨rfl, fun _ _ => rfl, fun _ _ => rfl⟩

theorem Store.WrittenIn.trans (first : Store.WrittenIn i n m m') (second : Store.WrittenIn i n m' m'') : Store.WrittenIn i n m m'' := by
  obtain ⟨cipher, cells, marked⟩ := first
  obtain ⟨cipher', cells', marked'⟩ := second
  exact ⟨cipher'.trans cipher, fun a out => (cells' a out).trans (cells a out), fun k out => (marked' k out).trans (marked k out)⟩

/-- What was written within some shingles was written within more. -/
theorem Store.WrittenIn.within {j l : Nat} (written : Store.WrittenIn j l m m') (low : i ≤ j) (high : j + l ≤ i + n) :
    Store.WrittenIn i n m m' := by
  obtain ⟨cipher, cells, marked⟩ := written
  exact ⟨cipher, fun a out => cells a (by omega), fun k out => marked k (by omega)⟩

theorem Store.WrittenIn.foldl {β : Type} (f : Store → β → Store) (l : List β)
    (each : ∀ t, ∀ x ∈ l, Store.WrittenIn i n t (f t x)) (m : Store) : Store.WrittenIn i n m (l.foldl f m) := by
  induction l generalizing m with
  | nil => exact .refl m i n
  | cons x l ih => exact (each m x List.mem_cons_self).trans (ih (fun t y mem => each t y (List.mem_cons_of_mem x mem)) _)

theorem storeShingle_writtenIn (m : Store) (i : Nat) (w : Shingle) (bad : Bool) : Store.WrittenIn i 1 m (storeShingle m i w bad) := by
  refine ⟨rfl, fun a out => ?_, fun k out => ?_⟩
  · rw [storeShingle, get_writeCells, if_neg (by omega)]
  · rw [marked_storeShingle, if_neg (by omega)]

/-! ### The operations -/

theorem storeRun_writtenIn (m : Store) (i : Nat) (h : Header) (data : List Shingle) :
    Store.WrittenIn i data.length m (storeRun m i h data).1 := by
  refine .foldl _ _ (fun t p mem => ?_) m
  have bound := (List.mem_zipIdx mem).2.1
  exact (storeShingle_writtenIn t (i + p.2) p.1 _).within (by omega) (by omega)

theorem ledgerWrite_writtenIn (m : Store) (i : Nat) (l : List Accum) : Store.WrittenIn i 12 m (ledgerWrite m i l) := by
  refine .foldl _ _ (fun t k mem => ?_) m
  have bound := List.mem_range.mp mem
  exact (storeShingle_writtenIn t (i + k) _ _).within (by omega) (by omega)

theorem ledgerPoison_writtenIn (m : Store) (i : Nat) : Store.WrittenIn i 12 m (ledgerPoison m i).1 := by
  refine .foldl _ _ (fun t k mem => ?_) m
  have bound := (mem_upFrom i 12 k).mp mem
  exact (storeShingle_writtenIn t k _ _).within (by omega) (by omega)

theorem ledgerStore_writtenIn (m : Store) (i : Nat) (h : Header) (data : List Shingle) (k : Nat) :
    Store.WrittenIn i 12 m (ledgerStore m i h data k).1 := by
  unfold ledgerStore
  split
  · exact ledgerWrite_writtenIn m i _
  · exact ledgerPoison_writtenIn m i

/-- A fold over a memory and what was met in it writes where each of its steps does. -/
theorem Store.WrittenIn.foldl_met {β : Type} (f : Store → β → Store × List (Mark × Nat)) (l : List β)
    (each : ∀ t, ∀ x ∈ l, Store.WrittenIn i n t (f t x).1) (r : Store × List (Mark × Nat)) :
    Store.WrittenIn i n r.1 (l.foldl (fun r x => match f r.1 x with | (t, ms) => (t, r.2 ++ ms)) r).1 := by
  induction l generalizing r with
  | nil => exact .refl _ _ _
  | cons x l ih => exact (each r.1 x List.mem_cons_self).trans (ih (fun t y mem => each t y (List.mem_cons_of_mem x mem)) _)

theorem homeStore_writtenIn (h : Header) (data : List Shingle) (m : Store) (i : Nat) (ledger : Bool) :
    Store.WrittenIn i (if ledger then 12 * data.length else data.length) m (homeStore h data m i ledger).store := by
  cases ledger with
  | false => exact storeRun_writtenIn m i h data
  | true =>
    refine Store.WrittenIn.foldl_met (fun t k => ledgerStore t (i + 12 * k) h data k) _ (fun t k mem => ?_) (m, [])
    have bound := List.mem_range.mp mem
    exact (ledgerStore_writtenIn t (i + 12 * k) h data k).within (by omega) (by simp only [if_true]; omega)

theorem homeAtomic_writtenIn (h : Header) (data : List Shingle) (m : Store) (i b : Nat) :
    Store.WrittenIn i 1 m (homeAtomic h data m i b).store := by
  unfold homeAtomic
  split
  · exact storeShingle_writtenIn m i _ _
  · exact .refl m i 1

theorem homeFadd_writtenIn (h : Header) (data : List Shingle) (m : Store) (i : Nat) : Store.WrittenIn i 1 m (homeFadd h data m i).store := by
  unfold homeFadd
  split
  · exact storeShingle_writtenIn m i _ _
  · exact .refl m i 1

theorem homeLedgerFadd_writtenIn (h : Header) (data : List Shingle) (m : Store) (i : Nat) (free : Nat → BitVec 256) :
    Store.WrittenIn i 12 m (homeLedgerFadd h data m i free).store := by
  unfold homeLedgerFadd
  split
  · exact ledgerWrite_writtenIn m i _
  · exact .refl m i 12

end

/-! ### The operation of each opcode -/

section
variable (h : Header) (data : List Shingle) (m : Store) (i b : Nat) (led : Bool) (free : Nat → BitVec 256)

theorem homePerform_load (op : h.opcode ∈ [opLoad, opGet]) :
    homePerform h data m i b led free = homeLoad h m i (accessBytes h / 32) led free := by
  simp only [List.mem_cons, List.not_mem_nil, or_false] at op
  rcases op with op | op <;> rw [homePerform, op] <;> rfl

theorem homePerform_store (op : h.opcode ∈ [opStore, opPut]) : homePerform h data m i b led free = homeStore h data m i led := by
  simp only [List.mem_cons, List.not_mem_nil, or_false] at op
  rcases op with op | op <;> rw [homePerform, op] <;> rfl

theorem homePerform_atomic (op : h.opcode = opAtomic) : homePerform h data m i b led free = homeAtomic h data m i b := by
  rw [homePerform, op]
  rfl

theorem homePerform_fadd (op : h.opcode = opFadd) :
    homePerform h data m i b led free = if led then homeLedgerFadd h data m i free else homeFadd h data m i := by
  rw [homePerform, op]
  rfl

theorem homePerform_widen (op : h.opcode = opWidenLoad) : homePerform h data m i b led free = homeWiden h m i b (accessBytes h) := by
  rw [homePerform, op]
  rfl

/-- The operations that read (R107, R113, R114). -/
theorem homePerform_reads (op : h.opcode ∈ [opLoad, opGet, opWidenLoad]) : (homePerform h data m i b led free).store = m := by
  by_cases widen : h.opcode = opWidenLoad
  · rw [homePerform_widen _ _ _ _ _ _ _ widen, homeWiden_store]
  · rw [homePerform_load _ _ _ _ _ _ _ (by simpa [widen] using op), homeLoad_store]

theorem homePerform_cipher : (homePerform h data m i b led free).store.cipher = m.cipher := by
  unfold homePerform
  split
  · rw [homeLoad_store]
  · rw [homeLoad_store]
  · exact (homeStore_writtenIn h data m i led).1
  · exact (homeStore_writtenIn h data m i led).1
  · exact (homeAtomic_writtenIn h data m i b).1
  · split
    · exact (homeLedgerFadd_writtenIn h data m i free).1
    · exact (homeFadd_writtenIn h data m i).1
  · rfl
  · rfl

end

/-- Settles O29: the shingles that each operation writes, by the lemma about it. -/
theorem homeMemoryFrame : Obligations.HomeMemoryFrame := by
  intro h data m i b led free
  refine ⟨homePerform_cipher h data m i b led free, fun op => homePerform_reads h data m i b led free op, fun op arrival => ?store,
    fun op ledger => ?storeLedger, fun op => ?atomic, fun op arrival => ?fadd, fun op ledger => ?faddLedger⟩
  case store =>
    subst arrival
    rw [homePerform_store _ _ _ _ _ _ _ op]
    exact (homeStore_writtenIn h data m i false).2
  case storeLedger =>
    subst ledger
    rw [homePerform_store _ _ _ _ _ _ _ op]
    exact (homeStore_writtenIn h data m i true).2
  case atomic =>
    rw [homePerform_atomic _ _ _ _ _ _ _ op]
    exact (homeAtomic_writtenIn h data m i b).2
  case fadd =>
    subst arrival
    rw [homePerform_fadd _ _ _ _ _ _ _ op]
    exact (homeFadd_writtenIn h data m i).2
  case faddLedger =>
    subst ledger
    rw [homePerform_fadd _ _ _ _ _ _ _ op]
    exact (homeLedgerFadd_writtenIn h data m i free).2

end Sys2Proof.Machine
end

section
/-! SUPPORT. What a home reads back of what it stored (R107, R119, R182, R183, R197, R275). -/
namespace Sys2Proof.Machine

open Sys2Proof

/-! ### The poison marker (R183) -/

theorem codeSymbol_xor (w v : Shingle) (i : Nat) : codeSymbol (w ^^^ v) i = codeSymbol w i ^^^ codeSymbol v i := by
  have byte (k : Nat) : Shingle.byte (w ^^^ v) k = Shingle.byte w k ^^^ Shingle.byte v k := by
    rw [Shingle.byte, BitVec.ushiftRight_xor_distrib]
    exact BitVec.setWidth_xor
  unfold codeSymbol
  split <;> exact byte _

theorem syndrome_xor (w v : Shingle) (j : Nat) : syndrome (w ^^^ v) j = syndrome w j ^^^ syndrome v j := by
  have symbols : codeSymbols (w ^^^ v) = List.zipWith (· ^^^ ·) (codeSymbols w) (codeSymbols v) := by
    rw [codeSymbols, codeSymbols, codeSymbols, List.zipWith_map, List.zipWith_self]
    exact List.map_congr_left fun k _ => codeSymbol_xor w v k
  rw [syndrome_eq, syndrome_eq, syndrome_eq, symbols, polyAt_zipWith _ _ _ (by simp [codeSymbols])]

theorem flipMarker_flipMarker (w : Shingle) : flipMarker (flipMarker w) = w := by
  rw [flipMarker, flipMarker, BitVec.xor_assoc, BitVec.xor_self, BitVec.xor_zero]

/-- A codeword with the marker put on reads as marked. -/
theorem isMarked_flipMarker {w : Shingle} (clean : flashBad w = false) : isMarked (flipMarker w) = true := by
  have zero : syndromes w = (0, 0, 0, 0) := by simpa [flashBad] using clean
  have sum (j : Nat) (here : syndrome w j = 0) : syndrome (flipMarker w) j = syndrome (flipMarker 0) j := by
    rw [flipMarker, syndrome_xor, here, flipMarker]
    simp
  simp only [syndromes, Prod.mk.injEq] at zero
  obtain ⟨s0, s1, s2, s3⟩ := zero
  rw [isMarked, decide_eq_true_eq, syndromes, syndromes, sum 0 s0, sum 1 s1, sum 2 s2, sum 3 s3]

theorem isMarked_encodeShingle (d : BitVec 256) : isMarked (encodeShingle d) = false := by
  have marker : (0, 0, 0, 0) ≠ syndromes (flipMarker 0) := by decide +kernel
  rw [isMarked, syndromes_encodeShingle, decide_eq_false marker]

/-! ### POISON -/

/-- The POISON bits put together again from single ones. -/
theorem packW_bits (p : Byte) (n : Nat) : packW 8 ((List.range n).map fun k => (k, (bitAt p k).toNat)) = BitVec.ofNat 8 (p.toNat % 2 ^ n) := by
  refine congrArg (BitVec.ofNat 8) ?_
  induction n with
  | zero => simp [Nat.mod_one]
  | succ n ih =>
    have bit : (bitAt p n).toNat = p.toNat / 2 ^ n % 2 := Nat.toNat_testBit p.toNat n
    rw [List.range_succ, List.map_append, List.foldl_append, ih, List.map_singleton, List.foldl_cons, List.foldl_nil, bit, Nat.pow_succ,
      Nat.mod_mul, Nat.mul_comm (2 ^ n)]

theorem packW_zeros {n : Nat} {l : List (Nat × Nat)} (zeros : ∀ p ∈ l, p.2 = 0) : packW n l = 0 := by
  suffices ∀ acc, l.foldl (fun acc p => acc + p.2 * 2 ^ p.1) acc = acc from congrArg (BitVec.ofNat n) (this 0)
  induction l with
  | nil => exact fun _ => rfl
  | cons p l ih =>
    intro acc
    rw [List.foldl_cons, zeros p List.mem_cons_self, Nat.zero_mul, Nat.add_zero]
    exact ih (fun q mem => zeros q (List.mem_cons_of_mem p mem)) acc

theorem zipIdx_map_range {α : Type} (f : Nat → α) (n : Nat) : ((List.range n).map f).zipIdx = (List.range n).map fun k => (f k, k) :=
  List.ext_getElem (by simp) fun k _ _ => by simp

/-! ### A shingle stored, and read -/

section
variable {m m' : Store} {i n : Nat}

theorem Store.protect_congr (same : m'.cipher = m.cipher) (j : Nat) (w : Shingle) : m'.protect j w = m.protect j w := by
  rw [Store.protect, same, Store.protect]

theorem Store.reveal_congr (same : m'.cipher = m.cipher) (j : Nat) (w : Shingle) : m'.reveal j w = m.reveal j w := by
  rw [Store.reveal, same, Store.reveal]

/-- A shingle outside those written is stored as before. -/
theorem Store.WrittenIn.outside (written : Store.WrittenIn i n m m') {j : Nat} (out : j < i ∨ i + n ≤ j) :
    readCells m'.mem.cells j = readCells m.mem.cells j ∧ Tab.get false m'.mem.marked j = Tab.get false m.mem.marked j := by
  obtain ⟨-, cells, marked⟩ := written
  refine ⟨?_, marked j out⟩
  rw [readCells, readCells]
  congr 2
  refine List.map_congr_left fun a mem => cells a ?_
  rw [mem_upFrom] at mem
  omega

/-- What a run of shingles leaves in the place of each, as it is kept there, and whether it marks it. -/
theorem storeRun_at (h : Header) {data : List Shingle} {k : Nat} {w : Shingle} (here : data[k]? = some w) :
    readCells (storeRun m i h data).1.mem.cells (i + k) = m.protect (i + k) (if poisoned h k then flipMarker w else w) ∧
    Tab.get false (storeRun m i h data).1.mem.marked (i + k) = (poisoned h k && flashBad w) := by
  obtain ⟨bound, at_⟩ := List.getElem?_eq_some_iff.mp here
  have before := data.take_append_drop k
  rw [List.drop_eq_getElem_cons bound, at_] at before
  have size : (data.take k).length = k := List.length_take_of_le bound.le
  have first : Store.WrittenIn i k m (storeRun m i h (data.take k)).1 := by
    have written := storeRun_writtenIn m i h (data.take k)
    rwa [size] at written
  have run : (storeRun m i h data).1 = ((data.drop (k + 1)).zipIdx (k + 1)).foldl
      (fun t p => storeShingle t (i + p.2) p.1 (poisoned h p.2))
      (storeShingle (storeRun m i h (data.take k)).1 (i + k) w (poisoned h k)) := by
    conv_lhs => rw [← before]
    rw [storeRun, List.zipIdx_append, List.foldl_append, size, Nat.zero_add, List.zipIdx_cons, List.foldl_cons]
    rfl
  have rest : Store.WrittenIn (i + (k + 1)) data.length (storeShingle (storeRun m i h (data.take k)).1 (i + k) w (poisoned h k))
      (storeRun m i h data).1 := by
    rw [run]
    refine .foldl _ _ (fun t p mem => ?_) _
    obtain ⟨low, high, -⟩ := List.mem_zipIdx mem
    rw [List.length_drop] at high
    exact (storeShingle_writtenIn t (i + p.2) p.1 _).within (by omega) (by omega)
  obtain ⟨cells, marked⟩ := rest.outside (j := i + k) (by omega)
  rw [cells, marked, readCells_storeShingle_same, marked_storeShingle, if_pos rfl, Store.protect_congr first.1]
  exact ⟨rfl, rfl⟩

/-- A shingle that was stored is read with its own bits and its poison, unless it is an unpoisoned one that reads as marked (R183). -/
theorem loadShingle_storeRun (h : Header) {data : List Shingle} {k : Nat} {w : Shingle} (here : data[k]? = some w)
    (plain : poisoned h k = false → isMarked w = false) : loadShingle (storeRun m i h data).1 (i + k) = (w, poisoned h k) := by
  obtain ⟨cells, marked⟩ := storeRun_at (m := m) (i := i) h here
  have read : readShingle (storeRun m i h data).1 (i + k) = if poisoned h k then flipMarker w else w := by
    rw [readShingle, cells, Store.reveal_congr (storeRun_writtenIn m i h data).1, Store.reveal_protect]
  rw [loadShingle, markedAt, marked, read]
  cases bad : poisoned h k with
  | false => simp [plain bad]
  | true =>
    cases flash : flashBad w with
    | false => simp [isMarked_flipMarker flash, flipMarker_flipMarker]
    | true => simp [flipMarker_flipMarker]

/-- A run of shingles read back. -/
theorem readRun_storeRun (h : Header) {data : List Shingle} (plain : ∀ k w, data[k]? = some w → poisoned h k = false → isMarked w = false)
    (poison : h.poison.toNat < 2 ^ data.length) : readRun (storeRun m i h data).1 i data.length = (data, h.poison) := by
  have read : (upFrom i data.length).map (loadShingle (storeRun m i h data).1) =
      (List.range data.length).map fun k => (data.getD k 0, poisoned h k) := by
    rw [upFrom_eq, List.map_map]
    refine List.map_congr_left fun k mem => ?_
    have bound := List.mem_range.mp mem
    have here : data[k]? = some (data.getD k 0) := by
      rw [List.getD_eq_getElem _ _ bound]
      exact List.getElem?_eq_getElem bound
    exact loadShingle_storeRun h here (plain k _ here)
  rw [readRun, read, zipIdx_map_range, List.map_map, List.map_map]
  refine Prod.ext (List.ext_getElem (by simp) fun k _ bound => ?_) ?_
  · simp [bound]
  · refine (packW_bits h.poison data.length).trans ?_
    rw [Nat.mod_eq_of_lt poison, BitVec.ofNat_toNat, BitVec.setWidth_eq]

end

/-! ### What a weight key has decrypted (R275) -/

/-- A shingle that can be read is decrypted to a codeword without poison. -/
theorem weightShingle_clean (key : BitVec 256) (w : W64) (d : Dur) (ma : Nat) {x : Shingle} (sound : (decodeShingle x).data.isSome = true) :
    ∃ v, (weightShingle key w d ma (x, false)).1 = (encodeShingle v, false) := by
  rw [weightShingle, if_neg Bool.false_ne_true]
  dsimp only
  split
  · exact ⟨_, rfl⟩
  · exact ⟨_, rfl⟩
  · rename_i lost
    rw [lost] at sound
    cases sound

/-- A frame without poison, each of whose shingles can be read, as the weight key leaves it. -/
theorem State.weighed_clean {s : State} {f x : Frame} {ma : Nat} {met : List (Mark × Nat)} (weighed : s.weighed f ma = some (x, met))
    (region : (s.weightAt ma).isSome = true) (op : f.hdr.opcode ∈ [opStore, opPut])
    (unpoisoned : ∀ k, k < f.data.length → poisoned f.hdr k = false) (sound : ∀ w ∈ f.data, (decodeShingle w).data.isSome = true) :
    x.hdr = { f.hdr with poison := 0 } ∧ x.data.length = f.data.length ∧ ∀ w ∈ x.data, ∃ v, w = encodeShingle v := by
  obtain ⟨⟨w, d⟩, at_⟩ := Option.isSome_iff_exists.mp region
  have writes : rightOf f.hdr.opcode = 1 := by
    simp only [List.mem_cons, List.not_mem_nil, or_false] at op
    rcases op with op | op <;> rw [op] <;> rfl
  rw [State.weighed, if_neg (fun h => h writes), at_] at weighed
  dsimp only at weighed
  split at weighed
  · cases weighed
  · rename_i key _
    have each : ∀ r ∈ f.data.zipIdx.map (fun p => weightShingle key w d (ma + 32 * p.2) (p.1, poisoned f.hdr p.2)),
        ∃ v, r.1 = (encodeShingle v, false) := by
      intro r mem
      obtain ⟨⟨y, k⟩, inside, rfl⟩ := List.mem_map.mp mem
      obtain ⟨-, bound, value⟩ := List.mem_zipIdx inside
      dsimp only
      rw [unpoisoned k (by omega)]
      exact weightShingle_clean key w d _ (sound y (value ▸ List.getElem_mem _))
    cases weighed
    refine ⟨?_, by simp, fun y mem => ?_⟩
    · refine congrArg (fun b => { f.hdr with poison := b }) (packW_zeros fun q mem => ?_)
      obtain ⟨⟨r, k⟩, inside, rfl⟩ := List.mem_map.mp mem
      obtain ⟨v, value⟩ := each r (List.fst_mem_of_mem_zipIdx inside)
      rw [value]
      rfl
    · obtain ⟨r, inside, rfl⟩ := List.mem_map.mp mem
      obtain ⟨v, value⟩ := each r inside
      exact ⟨v, congrArg Prod.fst value⟩

/-! ### The operations -/

/-- R107, R182, R183: what a STORE or PUT writes, a LOAD or GET returns with its poison. -/
theorem load_after_store {h g : Header} {data : List Shingle} (m : Store) (i b : Nat) (free : Nat → BitVec 256)
    (writes : h.opcode ∈ [opStore, opPut]) (reads : g.opcode ∈ [opLoad, opGet]) (extent : accessBytes g = 32 * data.length)
    (plain : ∀ k w, data[k]? = some w → poisoned h k = false → isMarked w = false) (poison : h.poison.toNat < 2 ^ data.length) :
    (homePerform g [] (homePerform h data m i b false free).store i b false free).frame = dataFrame g (respOpcode g.opcode) data h.poison := by
  have count : accessBytes g / 32 = data.length := by omega
  have back := readRun_storeRun (m := m) (i := i) h plain poison
  rw [homePerform_store h data m i b false free writes, homePerform_load g [] _ i b false free reads, count, homeLoad,
    if_neg Bool.false_ne_true]
  exact congrArg (fun r => dataFrame g (respOpcode g.opcode) r.1 r.2) back

/-- R108: an ATOMIC on operands that can be read. -/
theorem homeAtomic_some {h : Header} {data : List Shingle} {m : Store} {i b : Nat} {w t : BitVec 256}
    (operand : (decodeOperand h data 0 i).1 = some w) (target : (decodeAt m i).1 = some t) :
    let n := if bitAt h.attr 3 then 64 else 32
    (homeAtomic h data m i b).store = storeShingle m i (encodeShingle (setFld t (8 * b) n
      (atomicNew (fld h.attr 0 3) n (bitAt h.attr 4) (fld t (8 * b) n) (fld w 0 n) (fld w 64 n)))) false ∧
    (homeAtomic h data m i b).frame = dataFrame h opAtomicData [encodeShingle (BitVec.ofNat 256 (fld t (8 * b) n))] 0 := by
  unfold homeAtomic
  generalize decodeOperand h data 0 i = p at operand
  generalize decodeAt m i = q at target
  obtain ⟨_, _⟩ := p
  obtain ⟨_, _⟩ := q
  cases operand
  cases target
  exact ⟨rfl, rfl⟩

/-- R119: an ATOMIC whose operand or target cannot be read. -/
theorem homeAtomic_none {h : Header} {data : List Shingle} {m : Store} {i b : Nat}
    (lost : (decodeOperand h data 0 i).1 = none ∨ (decodeAt m i).1 = none) :
    (homeAtomic h data m i b).store = m ∧ (homeAtomic h data m i b).frame = errorFrame h stPoisoned := by
  unfold homeAtomic
  generalize decodeOperand h data 0 i = p at lost
  generalize decodeAt m i = q at lost
  obtain ⟨_ | _, _⟩ := p
  · exact ⟨rfl, rfl⟩
  · obtain ⟨_ | _, _⟩ := q
    · exact ⟨rfl, rfl⟩
    · cases lost with
      | inl none => cases none
      | inr none => cases none

/-- Settles O30: a load after a store by `load_after_store`, also of what a weight key has decrypted, which `weighed_clean` gives; what is stored
by `storeRun_at`; an ATOMIC by its two outcomes. -/
theorem loadReturnsStore : Obligations.LoadReturnsStore := by
  refine ⟨⟨fun h g data m i b free writes reads extent plain _ poison => ?returned, fun h data m i b k w free writes here => ?stored,
    fun s f x g ma i b met free weighed region writes reads extent few unpoisoned sound => ?weight⟩,
    fun h data m i b led free op => ?atomic⟩
  case returned =>
    dsimp only
    rw [load_after_store m i b free writes reads extent plain poison]
    exact ⟨rfl, rfl, rfl⟩
  case stored =>
    rw [homePerform_store h data m i b false free writes]
    exact (storeRun_at h here).1
  case weight =>
    obtain ⟨hdr, size, codewords⟩ := State.weighed_clean weighed region writes unpoisoned sound
    have zero : x.hdr.poison = 0 := congrArg Header.poison hdr
    have plain : ∀ k w, x.data[k]? = some w → poisoned x.hdr k = false → isMarked w = false := by
      intro k w here _
      obtain ⟨v, rfl⟩ := codewords w (List.mem_of_getElem? here)
      exact isMarked_encodeShingle v
    dsimp only
    rw [load_after_store s.eav.store i b free (hdr ▸ writes) reads (size ▸ extent) plain (zero ▸ Nat.two_pow_pos _)]
    exact ⟨rfl, zero, rfl, size, codewords⟩
  case atomic =>
    dsimp only
    rw [homePerform_atomic h data m i b led free op]
    exact ⟨fun w t operand target => homeAtomic_some operand target, homeAtomic_none⟩

end Sys2Proof.Machine
end

section
/-! SUPPORT. A frame that arrives at the Jalem block (R56, R63, R120, R149): what taking it leaves, its answer on its own link, and a request
performed at the block's home. -/
namespace Sys2Proof.Machine

open Sys2Proof

/-! ### Outside the block -/

section
variable (s : State)

/-- What an event leaves outside the block does not depend on the block. -/
theorem State.count_withJeb (e : Event) (j : Jeb) : ({ s with jeb := j } : State).count e = { s.count e with jeb := j } := by
  have beat : ({ s with jeb := j } : State).beat = s.beat := rfl
  have ns : ({ s with jeb := j } : State).ns = s.ns := rfl
  unfold State.count
  split
  · rfl
  · simp only [State.note, beat, ns]
    split
    · unfold State.logEvent
      dsimp only
      split <;> rfl
    · rfl

variable {s} {p : PortRef} (block : portDev p = .jalem)
include block

/-- A block's port is the block's. -/
theorem State.updPort_block (s : State) (f : Port → Port) : s.updPort p f = { s with jeb := (s.updPort p f).jeb } := by
  cases p with
  | module n => cases block
  | rafter q => rfl
  | tray t => rfl

theorem State.countFlash_outside (s : State) (k : Nat) (i : Jeb) :
    ({ s.countFlash p k with jeb := i } : State) = { s.count { s.portEvent 0 p with count := k } with jeb := i } := by
  rw [State.countFlash, State.updPort_block block, State.count_withJeb]

/-- Outside the block, syndromes at a port of the block leave what they leave from any state of the block's node. -/
theorem State.countFlash_withJeb (j : Jeb) (node : j.node = s.jeb.node) (k : Nat) (i : Jeb) :
    ({ ({ s with jeb := j } : State).countFlash p k with jeb := i } : State) = { s.countFlash p k with jeb := i } := by
  have event : ({ s with jeb := j } : State).portEvent 0 p = s.portEvent 0 p := by
    cases p with
    | module n => rfl
    | rafter q => simp only [State.portEvent, node]
    | tray t => simp only [State.portEvent, node]
  rw [State.countFlash_outside block, State.countFlash_outside block s, event, State.count_withJeb]

end

/-! ### A frame taken -/

/-- What a frame that has been taken at port `p` leaves: of the block what is not its ports and not a clearing's end, of the port all but what has
been received, its credit and its errors, and outside the block all but the syndromes counted. -/
structure State.Took (s : State) (p : PortRef) (f : Frame) (u : State) : Prop where
  block : ∃ pending done ports, u.jeb = { s.jeb with zPending := pending, zDone := done, ports := ports }
  port : ∃ retry cred err, u.port p = { s.port p with retry := retry, cred := cred, err := err }
  outside : ∀ j, ({ u with jeb := j } : State) = { s.countFlash p (frameSyndromes f) with jeb := j }

theorem Jeb.finishClear_eq (j : Jeb) : j.finishClear = { j with zPending := false, zDone := j.zPending || j.zDone } := by
  unfold Jeb.finishClear
  cases due : j.zPending with
  | true => rfl
  | false => exact congrArg (fun b => { j with zPending := b }) due

section
variable {s u : State} {p : PortRef} {f : Frame}

/-- A change at a port of the block stays within the block's ports. -/
theorem State.updPort_ports (block : portDev p = .jalem) (s : State) (g : Port → Port) :
    s.updPort p g = { s with jeb := { s.jeb with ports := (s.updPort p g).jeb.ports } } := by
  cases p with
  | module n => cases block
  | rafter q => rfl
  | tray t => rfl

theorem State.jebTake_took (block : portDev p = .jalem) (s : State) (f : Frame) : s.Took p f (s.jebTake p f) := by
  obtain ⟨v, taken⟩ : ∃ v, v = ((s.updJeb Jeb.finishClear).takeFrame p f).jebFree p f.hdr := ⟨_, rfl⟩
  have freed (t : State) : (∃ ports, t.jebFree p f.hdr = { t with jeb := { t.jeb with ports := ports } }) ∧
      ∃ cred, (t.jebFree p f.hdr).port p = { t.port p with cred := cred } := by
    unfold State.jebFree
    split
    · exact ⟨⟨_, t.updPort_ports block _⟩, ⟨_, t.port_updPort_same p _⟩⟩
    · exact ⟨⟨_, rfl⟩, ⟨_, rfl⟩⟩
  have cleared : (s.updJeb Jeb.finishClear).port p = s.port p := by
    cases p <;> simp only [State.port, State.updJeb, Jeb.finishClear_eq]
  have before : (∃ pending done ports, v = { s with jeb := { s.jeb with zPending := pending, zDone := done, ports := ports } }) ∧
      ∃ retry cred, v.port p = { s.port p with retry := retry, cred := cred } := by
    obtain ⟨⟨ports, all⟩, ⟨cred, here⟩⟩ := freed ((s.updJeb Jeb.finishClear).takeFrame p f)
    rw [taken]
    refine ⟨?_, ?_⟩
    · rw [all, State.takeFrame, State.takeRx, State.updPort_ports block, State.updJeb, Jeb.finishClear_eq]
      exact ⟨_, _, _, rfl⟩
    · rw [here, State.takeFrame, State.takeRx_port, cleared]
      exact ⟨_, _, rfl⟩
  obtain ⟨⟨pending, done, ports, all⟩, ⟨retry, cred, here⟩⟩ := before
  have take : s.jebTake p f = v.countFlash p (frameSyndromes f) := by rw [State.jebTake, taken]
  refine ⟨?_, ?_, fun j => ?_⟩
  · have counted : (v.countFlash p (frameSyndromes f)).jeb = (v.updPort p fun x =>
        { x with err := { x.err with flashErr := satAdd x.err.flashErr (frameSyndromes f) } }).jeb := State.count_jeb _ _
    rw [take, counted, State.updPort_ports block, all]
    exact ⟨_, _, _, rfl⟩
  · rw [take, State.countFlash_port, here]
    exact ⟨_, _, _, rfl⟩
  · rw [take, all]
    exact State.countFlash_withJeb (s := s) block { s.jeb with zPending := pending, zDone := done, ports := ports } rfl (frameSyndromes f) j

/-! ### What the checks see -/

theorem State.jebForm_took (took : s.Took p f u) : u.jebForm p = s.jebForm p := by
  obtain ⟨⟨pending, done, ports, block⟩, ⟨retry, cred, err, port⟩, -⟩ := took
  funext h
  unfold State.jebForm
  rw [port, block]

theorem State.jebHome_took (took : s.Took p f u) : u.jebHome = s.jebHome := by
  obtain ⟨⟨pending, done, ports, block⟩, -, -⟩ := took
  funext h off n
  unfold State.jebHome Jeb.memBytes
  rw [block]

/-! ### Its answer -/

/-- A frame whose ATTR names no signal goes out as it is. -/
theorem State.jebSend_plain {g : Frame} (plain : g.hdr.attr = 0) (s : State) (p : PortRef) :
    s.jebSend p g = s.updPort p fun x => { x with txq := x.txq ++ [g] } := by
  unfold State.jebSend
  rw [plain, if_neg]
  intro h
  exact absurd h.2.1 (by decide)

/-- An answer on the link of a frame that has been taken, after a change `k` of the block that leaves its ports. -/
theorem State.Took.answered (block : portDev p = .jalem) (took : s.Took p f u) {k : Jeb → Jeb} (kept : ∀ j, (k j).ports = j.ports) {g : Frame}
    (plain : g.hdr.attr = 0) :
    (∃ ports, ((u.updJeb k).jebSend p g).jeb = { k u.jeb with ports := ports }) ∧
      (((u.updJeb k).jebSend p g).port p).txq = (s.port p).txq ++ [g] ∧
      (u.updJeb k).jebSend p g = { s.countFlash p (frameSyndromes f) with jeb := ((u.updJeb k).jebSend p g).jeb } := by
  obtain ⟨-, ⟨retry, cred, err, port⟩, outside⟩ := took
  have same : (u.updJeb k).port p = u.port p := by
    cases p <;> simp only [State.port, State.updJeb, kept]
  rw [State.jebSend_plain plain]
  refine ⟨⟨_, congrArg State.jeb (State.updPort_ports block _ _)⟩, ?_, ?_⟩
  · rw [State.port_updPort_same, same, port]
  · rw [← outside, State.updPort_block block]
    rfl

/-- A refusal on another course than 6: the check's code on the frame's own link, counted. -/
theorem State.Took.refused (block : portDev p = .jalem) (took : s.Took p f u) (course : f.hdr.course ≠ 6) (code : Byte) :
    let t := u.jebRefuse p f.hdr code
    t.jeb.mem = s.jeb.mem ∧ (t.port p).txq = (s.port p).txq ++ [errorFrame f.hdr code] ∧ t.jeb.err1 = satFld s.jeb.err1 16 16 1 ∧
      t = { s.countFlash p (frameSyndromes f) with jeb := t.jeb } := by
  intro t
  have sent : t = (u.updJeb fun j => j.bump1 16).jebSend p (errorFrame f.hdr code) := if_neg course
  obtain ⟨⟨ports, jeb⟩, queue, outside⟩ := took.answered block (k := fun j => j.bump1 16) (fun _ => rfl) (g := errorFrame f.hdr code) rfl
  obtain ⟨⟨pending, done, ports', taken⟩, -, -⟩ := took
  rw [← sent] at jeb queue outside
  refine ⟨?_, queue, ?_, outside⟩
  · rw [jeb, taken]
    rfl
  · rw [jeb, taken]
    rfl

end

/-! ### A request performed at the block's home -/

section
variable (h : Header) (data : List Shingle) (m : Store) (i b : Nat) (free : Nat → BitVec 256)

theorem homeLoad_attr (n : Nat) (led : Bool) : (homeLoad h m i n led free).frame.hdr.attr = 0 := by
  unfold homeLoad
  split <;> rfl

theorem homeStore_attr (led : Bool) : (homeStore h data m i led).frame.hdr.attr = 0 := by
  unfold homeStore
  split <;> rfl

theorem homeAtomic_attr : (homeAtomic h data m i b).frame.hdr.attr = 0 := by
  unfold homeAtomic
  split <;> rfl

theorem homeFadd_attr : (homeFadd h data m i).frame.hdr.attr = 0 := by
  unfold homeFadd
  split <;> rfl

theorem homeLedgerFadd_attr : (homeLedgerFadd h data m i free).frame.hdr.attr = 0 := by
  unfold homeLedgerFadd
  split <;> rfl

/-- A home's answer names no signal. -/
theorem homePerform_attr (led : Bool) : (homePerform h data m i b led free).frame.hdr.attr = 0 := by
  unfold homePerform
  split
  case h_1 | h_2 => exact homeLoad_attr ..
  case h_3 | h_4 => exact homeStore_attr ..
  case h_5 => exact homeAtomic_attr ..
  case h_6 =>
    split
    · exact homeLedgerFadd_attr ..
    · exact homeFadd_attr ..
  case h_7 | h_8 => rfl

end

section
variable {s : State} {p : PortRef} {f : Frame} {op : Byte} (block : portDev p = .jalem) (named : f.hdr.opcode = op)
include block named

/-- The command takes its frame. -/
theorem jebPerform_takes : ¬ (portDev p = .module ∨ f.hdr.opcode ≠ op) := by simp [block, named]

/-- A request that fails a check of the block is refused with the check's code. -/
theorem State.jebPerform_refused {code : Byte} (failed : s.jebForm p f.hdr = some code ∨
    (s.jebForm p f.hdr = none ∧ s.jebHome f.hdr (fpaOffset f.hdr.fpa) (accessBytes f.hdr) = .error code)) :
    s.jebPerform p f op = (s.jebTake p f).jebRefuse p f.hdr code := by
  have took := State.jebTake_took block s f
  unfold State.jebPerform
  rw [if_neg (jebPerform_takes block named)]
  obtain form | ⟨form, home⟩ := failed
  · simp only [State.jebForm_took took, form]
  · simp only [State.jebForm_took took, State.jebHome_took took, form, home]

/-- A request that passes them is performed on the block's memory, and answered on its link. -/
theorem State.jebPerform_performed {a : Nat} (form : s.jebForm p f.hdr = none)
    (home : s.jebHome f.hdr (fpaOffset f.hdr.fpa) (accessBytes f.hdr) = .ok a) :
    let r := homePerform f.hdr f.data s.jeb.store (a / 32) (a % 32) false (fun k => Config.freeKey k)
    let t := s.jebPerform p f op
    t.jeb.mem = r.store.mem ∧ (t.port p).txq = (s.port p).txq ++ [r.frame] ∧
      t = { s.countFlash p (frameSyndromes f) with jeb := t.jeb } := by
  intro r t
  have took := State.jebTake_took block s f
  have store : (s.jebTake p f).jeb.store = s.jeb.store := by
    obtain ⟨⟨pending, done, ports, jeb⟩, -, -⟩ := took
    rw [jeb]
    rfl
  have plain : r.frame.hdr.attr = 0 := homePerform_attr ..
  have ended : t = if r.frame.hdr.status = stOk then ((s.jebTake p f).updJeb fun j => { j with mem := r.store.mem }).jebSend p r.frame
      else ((s.jebTake p f).updJeb fun j => ({ j with mem := r.store.mem } : Jeb).bump1 16).jebSend p r.frame := by
    unfold t State.jebPerform
    rw [if_neg (jebPerform_takes block named)]
    simp only [State.jebForm_took took, State.jebHome_took took, form, home, store]
    rfl
  rw [ended]
  split
  · obtain ⟨⟨ports, jeb⟩, queue, outside⟩ := took.answered block (k := fun j => { j with mem := r.store.mem }) (fun _ => rfl) plain
    exact ⟨by rw [jeb], queue, outside⟩
  · obtain ⟨⟨ports, jeb⟩, queue, outside⟩ :=
      took.answered block (k := fun j => ({ j with mem := r.store.mem } : Jeb).bump1 16) (fun _ => rfl) plain
    exact ⟨by rw [jeb]; rfl, queue, outside⟩

end

/-- The commands of a Jalem home perform their request there. -/
theorem exec_jebCommand {p : PortRef} {f : Frame} {c : Instr × Byte} (named : c ∈ jebCommands p f) (s : State) :
    exec c.1 s = .next (s.jebPerform p f c.2) := by
  simp only [jebCommands, List.mem_cons, List.not_mem_nil, or_false] at named
  obtain rfl | rfl | rfl | rfl | rfl | rfl | rfl := named <;> rfl

/-- Settles O28: taking a frame leaves what the block's checks look at, and changes nothing outside the block but the count of its syndromes. -/
theorem jalemHome : Obligations.JalemHome := by
  intro s p f c command block opcode
  refine ⟨fun a form home => ⟨_, exec_jebCommand command s, State.jebPerform_performed block opcode form home⟩, fun code course failed =>
    ⟨_, exec_jebCommand command s, ?_⟩⟩
  rw [State.jebPerform_refused block opcode failed]
  exact (State.jebTake_took block s f).refused block course code

end Sys2Proof.Machine
end

section
/-! SUPPORT. A control access at either device (R150, R161, R342, R344): what its checks leave of it. -/
namespace Sys2Proof.Machine

open Sys2Proof

/-! ### A control access that its checks have passed -/

section
variable {s : State} {who : Requester} {d : Dev} {f : Frame} {may : Reg → Bool}

theorem State.ctrlPerform_extent {c : Byte} (extent : ctrlExtent f.hdr = some c) : s.ctrlPerform who d f may = (errorFrame f.hdr c, s) := by
  simp only [State.ctrlPerform, extent]

theorem State.ctrlPerform_reads (extent : ctrlExtent f.hdr = none) (op : f.hdr.opcode = opCtrlRd) :
    s.ctrlPerform who d f may =
      (ctrlDataFrame f.hdr (s.readWords who d (ctrlAddrs f.hdr)).1, (s.readWords who d (ctrlAddrs f.hdr)).2) := by
  simp only [State.ctrlPerform, extent, op, if_true]

section
variable {data : List (BitVec 256)} (extent : ctrlExtent f.hdr = none) (op : f.hdr.opcode = opCtrlWr) (len : f.hdr.len ≠ 0)
include extent op len

/-- A write that names a register that it may not write writes nothing. -/
theorem State.ctrlPerform_right {a : Nat} {r : Reg × Bool} (named : a ∈ ctrlAddrs f.hdr) (word : ctrlWordAt d a = some r)
    (denied : may r.1 = false) : s.ctrlPerform who d f may = (errorFrame f.hdr stNoRight, s) := by
  have write : f.hdr.opcode ≠ opCtrlRd := by rw [op]; decide
  have bad : ((ctrlAddrs f.hdr).any fun a => (ctrlWordAt d a).any fun r => !may r.1) = true := by
    rw [List.any_eq_true]
    exact ⟨a, named, by simp [word, denied]⟩
  simp only [State.ctrlPerform, extent, if_neg write, if_neg len, bad, if_true]

theorem State.ctrlPerform_writes (rights : ∀ a ∈ ctrlAddrs f.hdr, ∀ r, ctrlWordAt d a = some r → may r.1 = true)
    (readable : controlData f = .ok data) :
    s.ctrlPerform who d f may =
      let act := fun (s : State) => s.writeWords who d ((ctrlAddrs f.hdr).zip (ctrlWords data))
      (ackFrame f.hdr, if d = .module then s.inRequest f.hdr act else act s) := by
  have write : f.hdr.opcode ≠ opCtrlRd := by rw [op]; decide
  have good : ((ctrlAddrs f.hdr).any fun a => (ctrlWordAt d a).any fun r => !may r.1) = false := by
    rw [List.any_eq_false]
    intro a named
    cases word : ctrlWordAt d a with
    | none => simp
    | some r => simp [rights a named r word]
  simp only [State.ctrlPerform, extent, if_neg write, if_neg len, good, readable, Bool.false_eq_true, if_false]

end

end

/-! ### At the block -/

section
variable {s : State} {p : PortRef} {f : Frame}

theorem State.jebCtrl_form (block : portDev p = .jalem) {c : Byte} (form : s.jebForm p f.hdr = some c) :
    s.jebCtrl p f = (s.jebTake p f).jebRefuse p f.hdr c := by
  simp only [State.jebCtrl, State.jebForm_took (State.jebTake_took block s f), form]

/-- A control frame of a module that passes the block's form is answered as its checks have it. -/
theorem State.jebCtrl_module (block : portDev p = .jalem) (form : s.jebForm p f.hdr = none) (low : 0x80 ≤ f.hdr.srcNode.toNat)
    (high : f.hdr.srcNode.toNat ≤ 0x8F) :
    s.jebCtrl p f =
      let a := (s.jebTake p f).ctrlPerform (.fabricSide (f.hdr.srcNode.truncate 4)) .jalem f fun _ => true
      if a.1.hdr.status = stOk then a.2.jebSend p a.1 else a.2.jebRefuse p f.hdr a.1.hdr.status := by
  have module : ¬ (f.hdr.srcNode.toNat < 0x80 ∨ 0x8F < f.hdr.srcNode.toNat) := by omega
  simp only [State.jebCtrl, State.jebForm_took (State.jebTake_took block s f), form, if_neg module]

/-- A control command at a port of the block takes its frame there. -/
theorem exec_ctrl_block {i : Instr} (block : portDev p = .jalem) (command : i ∈ [Instr.ctrlWr .jalem p f, .ctrlRd .jalem p f])
    (write : i = .ctrlWr .jalem p f → f.hdr.opcode = opCtrlWr) (read : i = .ctrlRd .jalem p f → f.hdr.opcode = opCtrlRd) (s : State) :
    exec i s = .next (s.jebCtrl p f) := by
  have taken (op : Byte) (named : f.hdr.opcode = op) : s.ctrl .jalem p op f = s.jebCtrl p f := by
    have here : ¬ (f.hdr.opcode ≠ op ∨ portDev p ≠ .jalem) := by simp [named, block]
    unfold State.ctrl
    rw [if_neg here]
    cases p with
    | module n => cases block
    | rafter q => rfl
    | tray t => rfl
  simp only [List.mem_cons, List.not_mem_nil, or_false] at command
  obtain rfl | rfl := command
  · exact congrArg Host.Outcome.next (taken _ (write rfl))
  · exact congrArg Host.Outcome.next (taken _ (read rfl))

end

/-! ### At the module -/

section
variable {s u : State} {n : Fin 144} {f : Frame}

/-- A control command at a port of the module takes its frame there. -/
theorem exec_ctrl_module {i : Instr} (command : i ∈ [Instr.ctrlWr .module (.module n) f, .ctrlRd .module (.module n) f])
    (write : i = .ctrlWr .module (.module n) f → f.hdr.opcode = opCtrlWr)
    (read : i = .ctrlRd .module (.module n) f → f.hdr.opcode = opCtrlRd) (s : State) : exec i s = .next (s.moduleCtrl n f) := by
  have taken (op : Byte) (named : f.hdr.opcode = op) : s.ctrl .module (.module n) op f = s.moduleCtrl n f := by
    have here : ¬ (f.hdr.opcode ≠ op ∨ portDev (.module n) ≠ .module) := by simp [named, portDev]
    unfold State.ctrl
    rw [if_neg here]
  simp only [List.mem_cons, List.not_mem_nil, or_false] at command
  obtain rfl | rfl := command
  · exact congrArg Host.Outcome.next (taken _ (write rfl))
  · exact congrArg Host.Outcome.next (taken _ (read rfl))

/-- A control access that Soffit has taken, and that is no relay's, is answered on the port it came by. -/
theorem State.moduleCtrl_taken (taken : s.agentTake agSoffit n f = .ok u) (relay : u.isRelay f.hdr = false) :
    s.moduleCtrl n f = (u.soffitAccess f).2.answer n (u.soffitAccess f).1 := by
  simp only [State.moduleCtrl, taken, relay, Bool.false_eq_true, if_false]

theorem State.soffitAccess_down (thatch : u.sof.thatchRun = false) : u.soffitAccess f = (errorFrame f.hdr stHomeFault, u) := by
  simp only [State.soffitAccess, thatch, Bool.not_false, if_true]

theorem State.soffitAccess_other (thatch : u.sof.thatchRun = true) (other : u.fromManager f.hdr = false)
    (report : 0x80 ≤ f.hdr.srcNode.toNat ∨ u.isReport f.hdr = false) : u.soffitAccess f = (errorFrame f.hdr stNoRight, u) := by
  have none : ¬ (f.hdr.srcNode.toNat < 0x80 ∧ u.isReport f.hdr = true) := by
    rintro ⟨low, reports⟩
    obtain high | silent := report
    · omega
    · simp [reports] at silent
  simp only [State.soffitAccess, thatch, other, Bool.not_true, Bool.false_eq_true, if_false, if_neg none]

theorem State.soffitAccess_manager (thatch : u.sof.thatchRun = true) (manager : u.fromManager f.hdr = true) :
    u.soffitAccess f = u.ctrlPerform .inBand .module f fun r => u.mayWrite .inBand .module r := by
  simp only [State.soffitAccess, thatch, manager, Bool.not_true, Bool.false_eq_true, if_false, if_true]

end

/-! ### The two halves -/

section
variable {s : State} {f : Frame} {i : Instr}

/-- What O45 says of a control access refused at the block. -/
theorem State.jebCtrl_refused {p : PortRef} (block : portDev p = .jalem) (course : f.hdr.course ≠ 6) {c : Byte}
    (failed : s.jebForm p f.hdr = some c ∨
      (s.jebForm p f.hdr = none ∧ 0x80 ≤ f.hdr.srcNode.toNat ∧ f.hdr.srcNode.toNat ≤ 0x8F ∧ ctrlExtent f.hdr = some c ∧ c ≠ stOk)) :
    let t := s.jebCtrl p f
    (t.port p).txq = (s.port p).txq ++ [errorFrame f.hdr c] ∧ t.jeb.err1 = satFld s.jeb.err1 16 16 1 ∧ t.jeb.mem = s.jeb.mem ∧
      t = { s.countFlash p (frameSyndromes f) with jeb := t.jeb } := by
  have refuses : s.jebCtrl p f = (s.jebTake p f).jebRefuse p f.hdr c := by
    obtain form | ⟨form, low, high, extent, bad⟩ := failed
    · exact State.jebCtrl_form block form
    · simp only [State.jebCtrl_module block form low high, State.ctrlPerform_extent extent]
      exact if_neg bad
  obtain ⟨mem, queue, counted, outside⟩ := (State.jebTake_took block s f).refused block course c
  rw [refuses]
  exact ⟨queue, counted, mem, outside⟩

/-- A control access at the block whose checks have passed performs its words, and is answered on its own link. -/
theorem State.jebCtrl_performed {p : PortRef} (block : portDev p = .jalem) (form : s.jebForm p f.hdr = none)
    (low : 0x80 ≤ f.hdr.srcNode.toNat) (high : f.hdr.srcNode.toNat ≤ 0x8F) {g : Frame} {t : State} (good : g.hdr.status = stOk)
    (performs : (s.jebTake p f).ctrlPerform (.fabricSide (f.hdr.srcNode.truncate 4)) .jalem f (fun _ => true) = (g, t)) :
    s.jebCtrl p f = t.jebSend p g := by
  simp only [State.jebCtrl_module block form low high, performs]
  exact if_pos good

/-- Soffit's answer to a control access that it takes. -/
theorem State.moduleCtrl_answers {u t : State} {n : Fin 144} {g : Frame} (taken : s.agentTake agSoffit n f = .ok u)
    (relay : u.isRelay f.hdr = false) (access : u.soffitAccess f = (g, t)) : s.moduleCtrl n f = t.answer n g := by
  rw [State.moduleCtrl_taken taken relay, access]

end

/-- Settles O45: at the block by the checks that a control frame meets there in turn, at the module by Soffit's. -/
theorem controlAccesses : Obligations.ControlAccesses := by
  refine ⟨fun s p f block i command write read => ?block, fun s n f i command write read => ?module⟩
  case block =>
    have taken := exec_ctrl_block block command write read s
    refine ⟨fun c course failed => ⟨_, taken, State.jebCtrl_refused block course failed⟩, fun form low high extent => ⟨?_, ?_⟩⟩
    · intro reads
      rw [taken, State.jebCtrl_performed block form low high rfl (State.ctrlPerform_reads extent (read reads))]
    · intro data writes len readable
      rw [taken, State.jebCtrl_performed block form low high rfl
        (State.ctrlPerform_writes extent (write writes) len (fun _ _ _ _ => rfl) readable)]
      rfl
  case module =>
    have taken := exec_ctrl_module command write read s
    refine ⟨fun u refused => ?_, fun u takes relay => ⟨fun thatch => ?_, fun thatch other report => ?_, fun thatch manager extent => ⟨?_, ?_⟩⟩⟩
    · rw [taken]
      simp only [State.moduleCtrl, refused]
    · rw [taken, State.moduleCtrl_answers takes relay (State.soffitAccess_down thatch)]
    · rw [taken, State.moduleCtrl_answers takes relay (State.soffitAccess_other thatch other report)]
    · intro reads
      have access := (State.soffitAccess_manager thatch manager).trans (State.ctrlPerform_reads extent (read reads))
      rw [taken, State.moduleCtrl_answers takes relay access]
    · intro data writes len readable
      refine ⟨fun ⟨a, named, r, word, denied⟩ => ?_, fun rights => ?_⟩
      · have access := (State.soffitAccess_manager thatch manager).trans
          (State.ctrlPerform_right extent (write writes) len named word denied)
        rw [taken, State.moduleCtrl_answers takes relay access]
      · have access := (State.soffitAccess_manager thatch manager).trans
          (State.ctrlPerform_writes extent (write writes) len rights readable)
        rw [taken, State.moduleCtrl_answers takes relay access]
        rfl

end Sys2Proof.Machine
end

section
/-! SUPPORT. The response to the only request of a transfer that is wholly issued (R118, R119, R147, R166): its data lands, its request ends, and
its engine completes it. -/
namespace Sys2Proof.Machine

open Sys2Proof

/-! ### A queue with one transfer -/

section
variable {x : Xfer}

theorem itemsBefore_head (i : QItem) (l : List QItem) : itemsBefore (i :: l) i.id = [] := by simp [itemsBefore]

theorem breakFences_alone (i : QItem) : breakFences i.id i [i] = [i] := by
  unfold breakFences
  rw [itemsBefore_head]
  rfl

/-- A failed write behind which nothing is queued is remembered, or lies behind a fence: the queue stays. -/
theorem Engine.failWrite_alone {g : Engine} {i : QItem} (alone : g.queue = [i]) : (g.failWrite i.id).queue = [i] := by
  unfold Engine.failWrite
  rw [alone, itemsBefore_head]
  simp only [List.length_nil, Nat.zero_add, List.drop_one, List.tail_cons, breakRelease]
  split
  · exact alone
  · rfl

theorem removeItem_alone (i : QItem) : removeItem [i] i.id = [] := by simp [removeItem]

end

/-! ### A transfer that is whole completes -/

/-- The engine's queue holds one transfer, which is whole: nothing is outstanding in the block. -/
structure State.Whole (s : State) (e : Byte) (x : Xfer) : Prop where
  reqs : s.jeb.reqs = []
  queue : (s.engine e).queue = [.xfer x]
  issued : x.toIssue = [] ∧ x.issued = true
  silent : x.t.comp = none

/-- What completing a transfer with a code leaves: the engine has nothing queued, and is told the code. -/
structure State.Completed (s : State) (e : Byte) (x : Xfer) (code : Byte) (t : State) : Prop where
  queue : (t.engine e).queue = []
  reqs : t.jeb.reqs = s.jeb.reqs
  mem : t.jeb.mem = s.jeb.mem
  stopped : t.jeb.stopped = s.jeb.stopped
  rest : t = { s with jeb := t.jeb, outputs := s.outputs ++ [.done e x.id code x.value] }

section
variable {s : State} {e : Byte} {x : Xfer}

theorem State.completeXfer_whole (whole : s.Whole e x) (code : Byte) : s.Completed e x code (s.completeXfer e x code) := by
  obtain ⟨-, queue, -, silent⟩ := whole
  obtain ⟨g, empty, ends⟩ : ∃ g : Engine, g.queue = [] ∧
      s.completeXfer e x code = (if code = stPoisoned then (s.setEngine e g).updJeb fun j => j.bump1 0 else s.setEngine e g).endTransfer
        e x.id x.t code x.value := by
    refine ⟨_, ?_, rfl⟩
    have left {g : Engine} (alone : g.queue = [.xfer x]) {P : Prop} [Decidable P] :
        removeItem (if P then g.failWrite x.id else g).queue x.id = [] := by
      split
      · rw [show (g.failWrite x.id).queue = [.xfer x] from Engine.failWrite_alone (i := .xfer x) alone]
        exact removeItem_alone (.xfer x)
      · rw [alone]
        exact removeItem_alone (.xfer x)
    have broken : (if code = 0 then s.engine e else { s.engine e with queue := breakFences x.id (.xfer x) (s.engine e).queue }).queue =
        [.xfer x] := by
      split
      · exact queue
      · rw [queue]
        exact breakFences_alone (.xfer x)
    exact left broken
  have told (u : State) : u.endTransfer e x.id x.t code x.value = u.done e x.id code x.value := by
    simp only [State.endTransfer, State.finish, silent]
  have here : ((s.setEngine e g).engine e).queue = [] := by rw [State.engine_setEngine_same, empty]
  rw [ends, told]
  split
  · exact ⟨here, rfl, rfl, rfl, rfl⟩
  · exact ⟨here, rfl, rfl, rfl, rfl⟩

theorem State.freedReq_none (reqs : s.jeb.reqs = []) (e : Byte) : s.freedReq e = none := by
  rw [State.freedReq, reqs]
  rfl

theorem State.wholeXfer_whole (whole : s.Whole e x) : s.wholeXfer e = some x := by
  obtain ⟨reqs, queue, ⟨rest, issued⟩, -⟩ := whole
  simp [State.wholeXfer, State.outstanding, queue, reqs, rest, issued]

theorem State.settle_idle (reqs : s.jeb.reqs = []) (queue : (s.engine e).queue = []) (n : Nat) : s.settle e n = s := by
  cases n with
  | zero => rfl
  | succ n =>
    have whole : s.wholeXfer e = none := by simp [State.wholeXfer, queue]
    have fence : s.metFence e = none := by simp [State.metFence, queue]
    simp only [State.settle, State.freedReq_none reqs, whole, fence]

/-- Settling completes the transfer with the code that it failed with, or OK. -/
theorem State.settleAll_whole (whole : s.Whole e x) : s.Completed e x ((x.failed.map Prod.snd).getD 0) (s.settleAll e) := by
  have completed := State.completeXfer_whole whole ((x.failed.map Prod.snd).getD 0)
  have settled : s.settleAll e = s.completeXfer e x ((x.failed.map Prod.snd).getD 0) := by
    simp only [State.settleAll, State.settle, State.freedReq_none whole.reqs, State.wholeXfer_whole whole]
    exact State.settle_idle (completed.reqs.trans whole.reqs) completed.queue _
  rw [settled]
  exact completed

end

/-! ### The only request of a transfer ends -/

/-- The block's one request is that of the one transfer in its engine's queue, which is wholly issued and has not failed; nothing is held. -/
structure State.Alone (s : State) (r : Req) (x : Xfer) : Prop where
  reqs : s.jeb.reqs = [r]
  queue : (s.engine r.hdr.srcEngine).queue = [.xfer x]
  id : x.id = r.xfer
  issued : x.toIssue = [] ∧ x.issued = true
  failed : x.failed = none
  silent : x.t.comp = none
  running : s.jeb.stopped = false
  held : r.held = []

section
variable {s : State} {r : Req} {x : Xfer}

theorem Jeb.drain_eq (j : Jeb) : ∃ moved done, j.drain = { j with moved := moved, epochDone := done } := by
  unfold Jeb.drain
  split
  · exact ⟨_, _, rfl⟩
  · exact ⟨_, _, rfl⟩

/-- The transfer with the status that its request ended with. -/
def Xfer.ended (x : Xfer) (addr : Nat) (st : Byte) : Xfer := if st = stOk then x else x.fail addr st

theorem Xfer.ended_eq (fresh : x.failed = none) (addr : Nat) (st : Byte) :
    ∃ failed, x.ended addr st = { x with failed := failed } ∧ (failed.map Prod.snd).getD 0 = st := by
  unfold Xfer.ended
  split
  next ok => exact ⟨none, by rw [← fresh], ok.symm⟩
  next => exact ⟨some (addr, st), by simp only [Xfer.fail, fresh], rfl⟩

/-- The request's end leaves its transfer whole. -/
theorem State.endReq_alone (alone : s.Alone r x) (st : Byte) :
    ∃ addr, let t := s.endReq r st
      t.Whole r.hdr.srcEngine (x.ended addr st) ∧ t.jeb.mem = s.jeb.mem ∧ t.jeb.stopped = false ∧ t = { s with jeb := t.jeb } := by
  obtain ⟨reqs, queue, id, issued, failed, silent, running, -⟩ := alone
  obtain ⟨moved, done, drained⟩ := (s.jeb.forget r).drain_eq
  have forgotten : (s.jeb.forget r).reqs = [] := by simp [Jeb.forget, reqs, sameReq]
  obtain ⟨u, hu⟩ : ∃ u, u = s.updJeb fun j => (j.forget r).drain := ⟨_, rfl⟩
  have left : u = { s with jeb := { s.jeb.forget r with moved := moved, epochDone := done } } := by rw [hu, State.updJeb, drained]
  have none : u.jeb.reqs = [] := by rw [left, ← forgotten]
  have same : (u.engine r.hdr.srcEngine).queue = [.xfer x] := by rw [left, ← queue]; rfl
  have ends : s.endReq r st = if st = stOk then u else u.setEngine r.hdr.srcEngine
      ((u.engine r.hdr.srcEngine).updXfer r.xfer fun x => x.fail (u.jeb.canon r.spec.remote) st) := by rw [hu]; rfl
  refine ⟨u.jeb.canon r.spec.remote, ?_⟩
  rw [ends]
  unfold Xfer.ended
  split
  · exact ⟨⟨none, same, issued, silent⟩, by rw [left]; rfl, by rw [left, ← running]; rfl, by rw [left]⟩
  · have failing : ((u.engine r.hdr.srcEngine).updXfer r.xfer fun x => x.fail (u.jeb.canon r.spec.remote) st).queue =
        [.xfer (x.fail (u.jeb.canon r.spec.remote) st)] := by
      simp [Engine.updXfer, same, id]
    refine ⟨⟨none, ?_, ?_, ?_⟩, by rw [left]; rfl, by rw [left, ← running]; rfl, by rw [left]; rfl⟩
    · rw [State.engine_setEngine_same, failing]
    · simpa only [Xfer.fail, failed] using issued
    · simpa only [Xfer.fail, failed] using silent

/-- The request's end with a status completes its transfer with it. -/
theorem State.endReq_completes (alone : s.Alone r x) (st : Byte) :
    let t := ((s.endReq r st).settleAll r.hdr.srcEngine).ackStops
    t.jeb.reqs = [] ∧ (t.engine r.hdr.srcEngine).queue = [] ∧ t.jeb.mem = s.jeb.mem ∧
      t = { s with jeb := t.jeb, outputs := s.outputs ++ [.done r.hdr.srcEngine x.id st x.value] } := by
  intro t
  obtain ⟨addr, whole, mem, running, outside⟩ := State.endReq_alone alone st
  obtain ⟨failed, shape, code⟩ := Xfer.ended_eq alone.failed addr st
  have completed := State.settleAll_whole whole
  rw [shape, code] at completed
  obtain ⟨queue, reqs, mem', stopped, rest⟩ := completed
  have noStop : t = (s.endReq r st).settleAll r.hdr.srcEngine := by
    refine if_neg fun h => ?_
    rw [stopped, running] at h
    exact absurd h.1 (by decide)
  rw [noStop]
  refine ⟨reqs.trans whole.reqs, queue, mem'.trans mem, ?_⟩
  rw [rest, outside]

end

/-! ### Its data lands -/

/-- What a response's data leaves before its request ends: the transfer as `y`, the memory as `m`. -/
structure State.Landed (s : State) (r : Req) (x y : Xfer) (m : Mem) (t : State) : Prop where
  alone : t.Alone r y
  id : y.id = x.id
  mem : t.jeb.mem = m
  outside : t = { s with jeb := t.jeb }

section
variable {s : State} {r : Req} {x : Xfer} (alone : s.Alone r x) {f : Frame}
include alone

theorem State.landed_refl : s.Landed r x x s.jeb.mem s := ⟨alone, rfl, rfl, rfl⟩

/-- A block whose requests, engines and stop stay has the same transfer alone. -/
theorem State.Alone.kept {t : State} (reqs : t.jeb.reqs = s.jeb.reqs) (engines : t.jeb.engines = s.jeb.engines)
    (stopped : t.jeb.stopped = s.jeb.stopped) : t.Alone r x := by
  obtain ⟨reqs', queue, id, issued, failed, silent, running, held⟩ := alone
  exact ⟨reqs.trans reqs', by rw [State.engine, engines]; exact queue, id, issued, failed, silent, stopped.trans running, held⟩

theorem State.landFrame_failed (bad : f.hdr.status ≠ stOk) :
    ∃ v, s.landFrame r x f = (v, f.hdr.status) ∧ s.Landed r x x s.jeb.mem v := by
  unfold State.landFrame
  rw [if_pos bad]
  split
  · exact ⟨s, rfl, State.landed_refl alone⟩
  · exact ⟨_, rfl, State.Alone.kept alone rfl rfl rfl, rfl, rfl, rfl⟩

theorem State.landFrame_value {w : BitVec 256} (ok : f.hdr.status = stOk) (op : x.t.op = .atomic) (value : (decodeData f).headD none = some w) :
    ∃ v, s.landFrame r x f = (v, stOk) ∧ s.Landed r x { x with value := BitVec.ofNat 64 (fld w 0 64) } s.jeb.mem v := by
  have good : ¬ f.hdr.status ≠ stOk := fun h => h ok
  unfold State.landFrame
  rw [if_neg good, if_pos op, value]
  obtain ⟨reqs, queue, id, issued, failed, silent, running, held⟩ := alone
  refine ⟨_, rfl, ⟨reqs, ?_, id, issued, failed, silent, running, held⟩, rfl, rfl, rfl⟩
  rw [State.engine_setEngine_same]
  simp [Engine.updXfer, queue]

omit alone in
theorem State.landFrame_noValue (ok : f.hdr.status = stOk) (op : x.t.op = .atomic) (value : (decodeData f).headD none = none) :
    s.landFrame r x f = (s, stPoisoned) := by
  have good : ¬ f.hdr.status ≠ stOk := fun h => h ok
  unfold State.landFrame
  rw [if_neg good, if_pos op, value]

theorem State.landFrame_read (ok : f.hdr.status = stOk) (read : remoteRead x.t.op = true) :
    let land := landData s.jeb.store x.lmap (r.spec.lva + (if f.hdr.opcode = opGetData then 256 * fld f.hdr.aux 0 16 else 0))
      (widenedData r (bitAt x.t.attr 2) (32 * [1, 2, 8].getD (fld x.t.attr 0 2) 0) f)
    ∃ v, s.landFrame r x f = (v, if land.2 then stPoisoned else stOk) ∧ s.Landed r x x land.1.mem v := by
  have good : ¬ f.hdr.status ≠ stOk := fun h => h ok
  have op : x.t.op ≠ .atomic := fun h => by simp [h, remoteRead] at read
  unfold State.landFrame
  rw [if_neg good, if_neg op, if_pos read]
  exact ⟨_, rfl, State.Alone.kept alone rfl rfl rfl, rfl, rfl, rfl⟩

omit alone in
theorem State.landFrame_none (ok : f.hdr.status = stOk) (op : x.t.op ≠ .atomic) (read : remoteRead x.t.op = false) :
    s.landFrame r x f = (s, stOk) := by
  have good : ¬ f.hdr.status ≠ stOk := fun h => h ok
  unfold State.landFrame
  rw [if_neg good, if_neg op, read]
  rfl

/-! ### The answer taken -/

theorem State.findXfer_alone : (s.engine r.hdr.srcEngine).findXfer r.xfer = some x := by
  simp [Engine.findXfer, alone.queue, alone.id]

/-- The response that ends the request is taken, and completes the transfer. -/
theorem State.answerReq_alone (ends : endsRequest f = true) {v : State} {st : Byte} {y : Xfer} {m : Mem}
    (lands : s.landFrame r x f = (v, st)) (landed : s.Landed r x y m v) :
    let t := s.answerReq r f
    t.jeb.reqs = [] ∧ (t.engine r.hdr.srcEngine).queue = [] ∧ t.jeb.mem = m ∧
      t = { s with jeb := t.jeb, outputs := s.outputs ++ [.done r.hdr.srcEngine x.id st y.value] } := by
  have before : itemsBefore (s.engine r.hdr.srcEngine).queue r.xfer = [] := by
    rw [alone.queue, ← alone.id]
    exact itemsBefore_head (.xfer x) []
  have takes : s.takeResponse r f = v.endReq r st := by
    simp only [State.takeResponse, State.findXfer_alone alone, lands, ends, if_true]
  have taken : s.answerReq r f = ((v.endReq r st).settleAll r.hdr.srcEngine).ackStops := by
    simp [State.answerReq, before, alone.held, takes]
  obtain ⟨alone', id, mem, outside⟩ := landed
  obtain ⟨reqs, queue, mem', rest⟩ := State.endReq_completes alone' st
  rw [taken]
  refine ⟨reqs, queue, mem'.trans mem, rest.trans ?_⟩
  rw [id, outside]

end

/-! ### A response at a rafter link -/

section
variable {s u : State} {q : Fin 18} {f : Frame}

theorem State.Took.alone (took : s.Took (.rafter q) f u) {r : Req} {x : Xfer} (alone : s.Alone r x) : u.Alone r x := by
  obtain ⟨⟨pending, done, ports, block⟩, -, -⟩ := took
  exact State.Alone.kept alone (by rw [block]) (by rw [block]) (by rw [block])

theorem State.matchReq_took (took : s.Took (.rafter q) f u) : u.matchReq = s.matchReq := by
  obtain ⟨⟨pending, done, ports, block⟩, -, -⟩ := took
  funext h
  rw [State.matchReq, State.matchReq, block]

theorem State.Took.outputs (took : s.Took (.rafter q) f u) : u.outputs = s.outputs := by
  have same := congrArg State.outputs (took.outside s.jeb)
  exact same.trans (by simp)

/-- A response of the bay that has the form of one goes to the request that it matches. -/
theorem exec_responseArrival (response : isResponse f.hdr = true) (form : formOk f.hdr (s.rport q).train.features true = true)
    (tagged : s.jeb.tagged = true) (tag : f.hdr.bayTag = s.jeb.tag) :
    exec (.responseArrival (.rafter q) f) s = .next ((s.matchReq f.hdr).elim ((s.jebTake (.rafter q) f).spareResponse f.hdr)
      fun r => (s.jebTake (.rafter q) f).answerReq r f) := by
  have took := State.jebTake_took (p := .rafter q) rfl s f
  have matched := State.matchReq_took took
  obtain ⟨⟨pending, done, ports, block⟩, ⟨retry, cred, err, port⟩, -⟩ := took
  have stray : strayRequest f.hdr = false := by simp [strayRequest, response]
  have form' : formOk f.hdr ((s.jebTake (.rafter q) f).rport q).train.features true = true := by rw [State.rport, port]; exact form
  have tagged' : (s.jebTake (.rafter q) f).jeb.tagged = true := by rw [block]; exact tagged
  have tag' : f.hdr.bayTag = (s.jebTake (.rafter q) f).jeb.tag := by rw [block]; exact tag
  have taken : (s.jebTake (.rafter q) f).rafterResponse q f = (s.matchReq f.hdr).elim ((s.jebTake (.rafter q) f).spareResponse f.hdr)
      fun r => (s.jebTake (.rafter q) f).answerReq r f := by
    unfold State.rafterResponse
    rw [form', tagged', if_neg (fun h => by simp at h; exact h tag'), matched]
    cases s.matchReq f.hdr <;> rfl
  rw [← taken]
  show Host.Outcome.next _ = _
  rw [if_neg (nofun : portDev (.rafter q) ≠ .module), stray, response]
  rfl

/-- Outside the block, what taking the answer leaves is what counting the frame's syndromes leaves, and what the engine is told. -/
theorem State.Took.outside_told (took : s.Took (.rafter q) f u) {t : State} {told : List Output}
    (rest : t = { u with jeb := t.jeb, outputs := u.outputs ++ told }) :
    t = { s.countFlash (.rafter q) (frameSyndromes f) with jeb := t.jeb, outputs := t.outputs } ∧ t.outputs = s.outputs ++ told := by
  have outputs : t.outputs = s.outputs ++ told := by
    rw [rest, ← took.outputs]
  have outside := congrArg (fun v : State => { v with outputs := t.outputs }) (took.outside t.jeb)
  refine ⟨?_, outputs⟩
  rw [← outside, outputs, ← took.outputs]
  exact rest

/-- A response of no request, while no report waits for one, is discarded and counted. -/
theorem State.Took.unmatched (took : s.Took (.rafter q) f u) (course : f.hdr.course ≠ 6) (reports : s.jeb.reports = []) :
    let t := u.spareResponse f.hdr
    t.jeb.err0 = satFld s.jeb.err0 0 16 1 ∧ t.jeb.mem = s.jeb.mem ∧ t.jeb.engines = s.jeb.engines ∧
      t = { s.countFlash (.rafter q) (frameSyndromes f) with jeb := t.jeb } := by
  obtain ⟨⟨pending, done, ports, block⟩, -, outside⟩ := took
  have drops : u.spareResponse f.hdr = u.updJeb fun j => j.bump0 0 := by
    have none : u.jeb.reports = [] := by rw [block]; exact reports
    rw [State.spareResponse, none, State.jebDropResponse, if_neg course]
    rfl
  rw [drops]
  refine ⟨?_, ?_, ?_, ?_⟩
  · rw [State.updJeb, block]; rfl
  · rw [State.updJeb, block]; rfl
  · rw [State.updJeb, block]; rfl
  · rw [← outside]; rfl

end

/-- What a response means by its status, and the transfer that it answers. -/
theorem State.answerReq_outcome {s : State} {r : Req} {x : Xfer} {f : Frame} (alone : s.Alone r x) (ends : endsRequest f = true) :
    ∃ m st value, let t := s.answerReq r f
      (t.jeb.reqs = [] ∧ (t.engine r.hdr.srcEngine).queue = [] ∧ t.jeb.mem = m ∧
        t = { s with jeb := t.jeb, outputs := s.outputs ++ [.done r.hdr.srcEngine x.id st value] }) ∧
      (f.hdr.status ≠ stOk → m = s.jeb.mem ∧ st = f.hdr.status ∧ value = x.value) ∧
      (f.hdr.status = stOk → x.t.op ∈ [.store, .put, .fadd] → m = s.jeb.mem ∧ st = stOk ∧ value = x.value) ∧
      (∀ w, f.hdr.status = stOk → x.t.op = .atomic → (decodeData f).headD none = some w →
        m = s.jeb.mem ∧ st = stOk ∧ value = BitVec.ofNat 64 (fld w 0 64)) ∧
      (f.hdr.status = stOk → remoteRead x.t.op = true → f.hdr.opcode ≠ opGetData → r.widen = none →
        let land := landData s.jeb.store x.lmap r.spec.lva (f.data.zipIdx.map fun p => (p.1, poisoned f.hdr p.2))
        m = land.1.mem ∧ st = (if land.2 then stPoisoned else stOk) ∧ value = x.value) := by
  by_cases ok : f.hdr.status = stOk
  case neg =>
    obtain ⟨v, lands, landed⟩ := State.landFrame_failed alone ok
    exact ⟨_, _, _, State.answerReq_alone alone ends lands landed, fun _ => ⟨rfl, rfl, rfl⟩, fun h => absurd h ok, fun _ h => absurd h ok,
      fun h => absurd h ok⟩
  case pos =>
    by_cases op : x.t.op = .atomic
    case pos =>
      have write : x.t.op ∉ [TOp.store, .put, .fadd] := by rw [op]; decide
      have read : remoteRead x.t.op ≠ true := by rw [op]; decide
      cases value : (decodeData f).headD none with
      | none =>
        exact ⟨_, _, _, State.answerReq_alone alone ends (State.landFrame_noValue ok op value) (State.landed_refl alone),
          fun h => absurd ok h, fun _ h => absurd h write, fun _ _ _ h => absurd h nofun, fun _ h => absurd h read⟩
      | some w =>
        obtain ⟨v, lands, landed⟩ := State.landFrame_value alone ok op value
        exact ⟨_, _, _, State.answerReq_alone alone ends lands landed, fun h => absurd ok h, fun _ h => absurd h write,
          fun _ _ _ h => ⟨rfl, rfl, by rw [Option.some.inj h]⟩, fun _ h => absurd h read⟩
    case neg =>
      cases read : remoteRead x.t.op with
      | false =>
        exact ⟨_, _, _, State.answerReq_alone alone ends (State.landFrame_none ok op read) (State.landed_refl alone), fun h => absurd ok h,
          fun _ _ => ⟨rfl, rfl, rfl⟩, fun _ _ h => absurd h op, fun _ h => absurd h nofun⟩
      | true =>
        obtain ⟨v, lands, landed⟩ := State.landFrame_read alone ok read
        have write : x.t.op ∉ [TOp.store, .put, .fadd] := by
          intro h
          simp only [List.mem_cons, List.not_mem_nil, or_false] at h
          obtain h | h | h := h <;> simp [h, remoteRead] at read
        refine ⟨_, _, _, State.answerReq_alone alone ends lands landed, fun h => absurd ok h, fun _ h => absurd h write,
          fun _ _ h => absurd h op, fun _ _ opcode widen => ?_⟩
        simp only [if_neg opcode, Nat.add_zero, widenedData, widen, and_self]

/-- Settles O38: a response without a request by its count; the response to a transfer's only request by what lands of it, and by the completion
that follows from the request's end. -/
theorem responsesComplete : Obligations.ResponsesComplete := by
  intro s q f response course form tagged tag
  have took := State.jebTake_took (p := .rafter q) rfl s f
  have takes := exec_responseArrival response form tagged tag
  refine ⟨fun none reports => ?_, fun r x reqs engine reqTag link held queue id toIssue issued failed comp ends running => ?_⟩
  · rw [none] at takes
    exact ⟨_, takes, took.unmatched course reports⟩
  · have matched : s.matchReq f.hdr = some r := by simp [State.matchReq, reqs, engine, reqTag, link]
    rw [matched] at takes
    have store : (s.jebTake (.rafter q) f).jeb.store = s.jeb.store := by
      obtain ⟨⟨pending, done, ports, block⟩, -, -⟩ := took
      rw [block]
      rfl
    have mem : (s.jebTake (.rafter q) f).jeb.mem = s.jeb.mem := congrArg Store.mem store
    have alone : s.Alone r x := ⟨reqs, queue, id, ⟨toIssue, issued⟩, failed, comp, running, held⟩
    obtain ⟨m, st, value, ⟨left, empty, memory, rest⟩, refused, written, atomic, read⟩ := State.answerReq_outcome (took.alone alone) ends
    obtain ⟨outside, told⟩ := took.outside_told rest
    rw [mem] at refused written atomic
    rw [store] at read
    refine ⟨_, takes, left, empty, outside, fun bad => ?_, fun ok op => ?_, fun w ok op word => ?_, fun ok op opcode widen => ?_⟩
    · obtain ⟨hm, hst, hv⟩ := refused bad
      exact ⟨memory.trans hm, by rw [← hst, ← hv]; exact told⟩
    · obtain ⟨hm, hst, hv⟩ := written ok op
      exact ⟨memory.trans hm, by rw [← hst, ← hv]; exact told⟩
    · obtain ⟨hm, hst, hv⟩ := atomic w ok op word
      exact ⟨memory.trans hm, by rw [← hst, ← hv]; exact told⟩
    · obtain ⟨hm, hst, hv⟩ := read ok op opcode widen
      exact ⟨memory.trans hm, by rw [← hst, ← hv]; exact told⟩

end Sys2Proof.Machine
end

section
/-! SUPPORT. O27 and O31 range over every state, also over one whose request names course 6, on which no channel lies (R60). Its answer would wait
in virtual channel 13 of its port, and that number past port 143's channels is the number of an eave group's queue:
`portQueue 143 13 = agentQueue 0 1`. On the courses 0 to 5 of R60 a port's channels end before the agents' queues. -/
namespace Sys2Proof.Machine

open Sys2Proof

/-- A request on course 6, from node 0 of the own rack. -/
def offCourse (op : Byte) : Header :=
  { opcode := op, course := 6, sub := 0, len := 0, poison := 0, attr := 0, fpa := 0, srcNode := 0, srcRack := 0xFF, srcEngine := 0, tag := 0,
    bayTag := 0, status := 0, aux := 0, rsvd := 0 }

/-- The machine after reset, with node 0 behind port 143, which is ACTIVE. -/
def towards143 : State :=
  { State.reset with
    ports := [(143, { Port.reset with train := { Port.reset.train with state := .active }, laneIdle := false })]
    pur := { Pur.reset with lrt := [(0, 0x28F)] } }

/-! ### A request performed -/

def offCourseLoad : Entry :=
  { frame := { hdr := offCourse opLoad, data := [] }, desc := 0, cell := none, rot := 0, src := 0, shared := false, serial := 0, ingress := none,
    cut := false, bundle := none, order := 0, ma := 0, eave := 0, ledger := false }

/-- A LOAD on course 6 waits at eave 0. -/
def offCourseHome : State := towards143.setEave 0 { Eave.reset with homeQ := [offCourseLoad] }

theorem offCourseHome_turn : offCourseHome.homeTurn 0 0 opLoad false = some offCourseLoad := by decide +kernel

theorem offCourseHome_weighed : offCourseHome.weighed offCourseLoad.frame offCourseLoad.ma = some (offCourseLoad.frame, []) := by decide +kernel

theorem offCourseHome_dest : offCourseHome.dest (eaveResult offCourseHome offCourseLoad offCourseLoad.frame).frame.hdr = .port 143 := by
  decide +kernel

theorem offCourseHome_channel : vcOf (eaveResult offCourseHome offCourseLoad offCourseLoad.frame).frame.hdr = 13 := by decide +kernel

/-- The group takes the answer from where it waits into a home queue. -/
theorem offCourseHome_taken : (offCourseHome.eavePerform 0 0 opLoad false).frames (portQueue 143 13) = [] := by decide +kernel

/-- Refutes O27: the answer to a LOAD on course 6 waits, at port 143, where group 0's requests of course 1 wait, and the group serves it. -/
theorem not_eavePerforms : ¬ Obligations.EavePerforms := by
  intro h
  obtain ⟨performs, -⟩ := h offCourseHome 0 0 (.load (.eave 0 0), opLoad, false) offCourseLoad (.head _) offCourseHome_turn
  obtain ⟨t, run, -, -, waits, -⟩ := performs _ _ offCourseHome_weighed
  obtain rfl : offCourseHome.eavePerform 0 0 opLoad false = t := Host.Outcome.next.inj run
  have last := waits 143 offCourseHome_dest
  rw [offCourseHome_channel] at last
  rw [show portQueue (143 : Fin 144).val 13 = portQueue 143 13 from rfl, offCourseHome_taken, List.prefix_nil] at last
  exact List.append_ne_nil_of_right_ne_nil _ (List.cons_ne_nil _ _) last

/-! ### A list that is not whole -/

/-- A list of one entry on course 6 of which no shingle has come. -/
def offCourseList : BList := { hdr := { offCourse opBatten with aux := 1 }, got := [], start := 0, port := none, order := 0 }

/-- Group 0 holds it, with REFCLK present. -/
def offCourseGroup : State :=
  { towards143.setGroup 0 { Group.reset with lists := [offCourseList] } with tim := { towards143.tim with refclkOk := true } }

theorem offCourseGroup_partial : ∀ b ∈ (offCourseGroup.group 0).lists, b.whole = false := by decide +kernel

theorem offCourseGroup_dest : offCourseGroup.dest (errorFrame offCourseList.hdr stListIncomplete).hdr = .port 143 := by decide +kernel

/-- What the command leaves 16 beats after the list's acceptance. -/
def offCourseEnded : State :=
  (((offCourseGroup.toBeat 16).endList 0 offCourseList [errorFrame offCourseList.hdr stListIncomplete]).serveGroup 0).settleLists

theorem offCourseGroup_ends : exec (.listIncomplete (.group 0 0) 16) offCourseGroup = .next offCourseEnded := by
  have list : ((offCourseGroup.toBeat 16).group 0).lists[0]? = some offCourseList := by decide +kernel
  have late : offCourseList.start + 16 ≤ (offCourseGroup.toBeat 16).beat ∧ !offCourseList.whole := by decide +kernel
  show execListIncomplete (.group 0 0) 16 offCourseGroup = _
  unfold execListIncomplete
  simp only [show (16 : W64).toNat = 16 from rfl, show (0 : Fin 4).val = 0 from rfl, list]
  rw [if_pos late]
  rfl

/-- The group takes the answer from where it waits into a home queue. -/
theorem offCourseEnded_taken : offCourseEnded.frames (portQueue 143 13) = [] := by decide +kernel

/-- Refutes O31: the LIST_INCOMPLETE of a list on course 6 waits, at port 143, where group 0's requests of course 1 wait, and the group serves it. -/
theorem not_battenLists : ¬ Obligations.BattenLists := by
  rintro ⟨⟨lists, -⟩, -⟩
  obtain ⟨-, -, incomplete⟩ := lists offCourseGroup 0 offCourseGroup_partial
  obtain ⟨t, run, -, -, waits⟩ := incomplete 0 offCourseList 16 rfl rfl (by decide +kernel) (by decide)
  obtain rfl : offCourseEnded = t := Host.Outcome.next.inj (offCourseGroup_ends.symm.trans run)
  have last := waits 143 offCourseGroup_dest
  rw [show portQueue (143 : Fin 144).val (vcOf (errorFrame offCourseList.hdr stListIncomplete).hdr) = portQueue 143 13 from rfl,
    offCourseEnded_taken, List.prefix_nil] at last
  exact List.append_ne_nil_of_right_ne_nil _ (List.cons_ne_nil _ _) last

end Sys2Proof.Machine
end

section
/-! SUPPORT. Who writes the registers of a Jalem block (R158, R161): what belongs to the fabric side, and what the TDISP state locks. -/
namespace Sys2Proof.Machine

open Sys2Proof

section
variable {s t : State} {r : Reg} {a : W32} (v : W64)

/-- What the fabric side alone writes stays as it is under a local-side write. -/
theorem State.guard_fabric (fabric : r.fabric = true) (other : r ≠ .jebEpochStatus) : s.guard .localSide .jalem a r t = s := by
  have denied : s.mayWrite .localSide .jalem r = false := by simp [State.mayWrite, fabric, other]
  simp [State.guard, denied]

/-- What the TDISP state locks is the local side's. -/
theorem Reg.fabric_of_locked (locked : r.locked = true) : r.fabric = false := by
  unfold Reg.locked at locked
  split at locked
  case h_10 => cases locked
  all_goals rfl

/-- A locked register: the write is reported, and not performed. -/
theorem State.guard_locked (locked : r.locked = true) (state : s.jeb.tdisp = 1 ∨ s.jeb.tdisp = 2) :
    s.guard .localSide .jalem a r t = s.emit (.tdispError a) := by
  have right : s.mayWrite .localSide .jalem r = true := by simp [State.mayWrite, Reg.fabric_of_locked locked]
  unfold State.guard
  rw [if_neg (by simp [right]), if_pos ⟨rfl, locked, state⟩]

/-- A write at the address at which a register of the block begins. -/
theorem exec_wideWrite_jalem (at_ : regAt .jalem a.toNat = some r) :
    exec (.registerWrite .localSide .jalem a true v) s = .next (s.write .localSide .jalem a r (if r.wide then v else v &&& 0xFFFFFFFF)) := by
  simp [exec, execRegisterWrite, State.reachesDev, State.writeWide, at_]

theorem exec_narrowWrite_jalem (word : wordAt .jalem a.toNat = some (r, false)) (narrow : r.wide = false) :
    exec (.registerWrite .localSide .jalem a false v) s = .next (s.write .localSide .jalem a r ((v.setWidth 32).setWidth 64)) := by
  simp [exec, execRegisterWrite, State.reachesDev, State.writeWord, word, narrow]

/-- An upper half of a locked register written: reported, its latch emptied. -/
theorem exec_upperWrite_locked (upper : wordAt .jalem (a + 4).toNat = some (r, true)) (locked : r.locked = true)
    (state : s.jeb.tdisp = 1 ∨ s.jeb.tdisp = 2) :
    ∃ t : State, exec (.registerWrite .localSide .jalem (a + 4) false v) s = .next (t.emit (.tdispError a)) ∧
      t = { s with latches := t.latches } ∧ t.latched .localSide .jalem a true = none := by
  have half : exec (.registerWrite .localSide .jalem (a + 4) false v) s = exec (.upperHalfWrite .localSide .jalem (a + 4) (v.setWidth 32)) s := rfl
  rw [half]
  cases held : s.latched .localSide .jalem a true with
  | some lower =>
    refine ⟨s.unlatch .localSide .jalem a true, ?_, rfl, s.latched_unlatch _ _ _ _⟩
    rw [exec_upperHalfWrite_latched lower _ rfl upper held, State.write,
      State.guard_locked (s := s.unlatch .localSide .jalem a true) locked state]
  | none =>
    refine ⟨s, ?_, rfl, held⟩
    rw [exec_upperHalfWrite_alone _ rfl upper held, State.guard_locked locked state]

end

/-- Settles O13: a local-side write of what is the fabric side's by `guard_fabric`, one of a locked register by `guard_locked`. -/
theorem jalemSides : Obligations.JalemSides := by
  refine ⟨fun s n k v => ⟨?window, rfl, fun j => ?shadow, ?epoch, ?seed⟩,
    fun s a r v at_ locked state => ⟨?wide, fun word narrow => ?narrow, fun upper => ?upper⟩⟩
  case window => exact congrArg Host.Outcome.next (if_neg (by simp [State.mayWrite, Reg.fabric]))
  case shadow =>
    have at_ : ∀ j : Fin 4, regAt .jalem (BitVec.ofNat 32 (0x1020 + 8 * j.val)).toNat = some (.jebSpreadShadow j.val) := by decide +kernel
    rw [exec_wideWrite_jalem v (at_ j), State.write, State.guard_fabric (r := (.jebSpreadShadow j.val)) rfl (by simp)]
  case epoch =>
    have at_ : regAt .jalem (0x1048 : W32).toNat = some .jebEpochAt := by decide +kernel
    rw [exec_wideWrite_jalem v at_, State.write, State.guard_fabric (r := .jebEpochAt) rfl (by simp)]
  case seed =>
    have word : wordAt .jalem (0x1040 : W32).toNat = some (.jebSpreadSeed, false) := by decide +kernel
    rw [exec_narrowWrite_jalem v word rfl, State.write, State.guard_fabric (r := .jebSpreadSeed) rfl (by simp)]
  case wide =>
    rw [exec_wideWrite_jalem v at_, State.write, State.guard_locked locked state]
    rfl
  case narrow =>
    rw [exec_narrowWrite_jalem v word narrow, State.write, State.guard_locked locked state]
    rfl
  case upper =>
    obtain ⟨t, run, rest, latch⟩ := exec_upperWrite_locked v upper locked state
    refine ⟨_, run, ?_, latch⟩
    rw [rest]
    rfl

end Sys2Proof.Machine
end

section
/-! SUPPORT. The invalidation ring (R137 to R140, R154, R159): what a look at the next entry and a move of the ring leave, and what each command
does before the ring moves. -/
namespace Sys2Proof.Machine

open Sys2Proof

/-! ### The ring looks at an entry, and moves on -/

section
variable (j : Jeb)

/-- A look changes ERR and its code only: by the fault of the entry in turn, where the ring runs and no GEN waits (R140). -/
theorem Jeb.ringLook_eq : ∃ err code, j.ringLook = { j with genErr := err, genCode := code } ∧
    (err, code) = (j.fetched.head?.bind j.ringFault).elim (j.genErr, j.genCode) fun c =>
      if j.genErr = false ∧ j.genWait = none then (true, c) else (j.genErr, j.genCode) := by
  unfold Jeb.ringLook
  cases next : j.fetched.head? with
  | none => exact ⟨_, _, ite_self _, rfl⟩
  | some r =>
    simp only [Option.bind_some]
    cases bad : j.ringFault r with
    | none => exact ⟨_, _, ite_self _, rfl⟩
    | some c =>
      by_cases runs : j.genErr = false ∧ j.genWait = none
      · exact ⟨true, c, if_neg (by simp [runs]), (if_pos runs).symm⟩
      · exact ⟨_, _, if_pos (by simpa [Decidable.or_iff_not_not_and_not, Option.isSome_iff_ne_none] using runs), (if_neg runs).symm⟩

/-- The ring of `j` once its entry in turn is done, where `k` is what that did to the block. -/
theorem Jeb.ringNext_eq : ∃ head err code, j.ringNext =
      { j with invHead := head, fetched := j.fetched.drop 1, genWait := none, genErr := err, genCode := code } ∧
    head.toNat = (j.invHead.toNat + 1) % ringSize j.invSize % 65536 ∧
    (err, code) = ((j.fetched.drop 1).head?.bind j.ringFault).elim (j.genErr, j.genCode) fun c =>
      if j.genErr = false then (true, c) else (j.genErr, j.genCode) := by
  obtain ⟨err, code, look, found⟩ := Jeb.ringLook_eq
    { j with invHead := BitVec.ofNat 16 ((j.invHead.toNat + 1) % ringSize j.invSize), fetched := j.fetched.drop 1, genWait := none }
  refine ⟨_, err, code, look, BitVec.toNat_ofNat .., found.trans ?_⟩
  simp only [and_true]
  rfl

variable {j}

/-- An entry in turn: the ring runs, and no GEN waits. -/
theorem Jeb.ringTurn_runs {cmd : Nat} {r : HostRead} (turn : j.ringTurn cmd = some r) : j.genErr = false ∧ j.genWait = none := by
  unfold Jeb.ringTurn at turn
  split at turn
  · cases turn
  · next runs => simpa using runs

/-- What a move of the ring leaves. -/
theorem Jeb.ringNext_apart (k : Jeb) : k.ringNext = { k with
    invHead := k.ringNext.invHead, fetched := k.ringNext.fetched, genWait := none, genErr := k.ringNext.genErr, genCode := k.ringNext.genCode } := by
  obtain ⟨head, err, code, next, -⟩ := k.ringNext_eq
  rw [next]

/-- The same of a ring at which no GEN waits. -/
theorem Jeb.ringNext_apart_alone {k : Jeb} (alone : k.genWait = none) : k.ringNext = { k with
    invHead := k.ringNext.invHead, fetched := k.ringNext.fetched, genErr := k.ringNext.genErr, genCode := k.ringNext.genCode } := by
  obtain ⟨head, err, code, next, -⟩ := k.ringNext_eq
  rw [next, alone]

/-- A move of the ring changes neither memory nor what an invalidation names. -/
theorem Jeb.ringNext_entries (k : Jeb) : k.ringNext.mem = k.mem ∧ k.ringNext.cache = k.cache ∧ k.ringNext.sends = k.sends := by
  rw [k.ringNext_apart]
  exact ⟨rfl, rfl, rfl⟩

/-- The ring moves on from an entry that leaves the ring as it is but for what it does itself. -/
theorem Jeb.ringNext_moved {k : Jeb} (head : k.invHead = j.invHead) (size : k.invSize = j.invSize) (fetched : k.fetched = j.fetched)
    (code : k.genCode = j.genCode) (runs : k.genErr = false) : RingMoved j k.ringNext := by
  obtain ⟨h, err, c, next, at_, found⟩ := k.ringNext_eq
  have fault : k.ringNext.ringFault = k.ringFault := by rw [next]; rfl
  refine ⟨?_, ?_, ?_, ?_⟩
  · rw [next, at_, head, size]
  · rw [next, fetched]
  · rw [next]
  · rw [fault]
    rw [next, found, fetched, code]
    simp only [runs, if_true]
    cases (j.fetched.drop 1).head?.bind k.ringFault <;> rfl

end

/-! ### The host read (R137, R159) -/

theorem State.readEntries_eq (s : State) (v : W32) : s.readEntries v =
    { s with outputs := s.outputs ++ (s.jeb.newEntries (BitVec.ofNat 16 (fld v 0 16))).map fun i =>
      .hostRead (s.jeb.invBase + BitVec.ofNat 64 (64 * i)) 64 (decide (s.jeb.tdisp = 2)) } := by
  have run (l : List Nat) (t : State) (same : t.jeb = s.jeb) :
      l.foldl (fun s i => s.emit (.hostRead (s.jeb.invBase + BitVec.ofNat 64 (64 * i)) 64 s.jeb.trusted)) t =
        { t with outputs := t.outputs ++ l.map fun i => .hostRead (s.jeb.invBase + BitVec.ofNat 64 (64 * i)) 64 (decide (s.jeb.tdisp = 2)) } := by
    induction l generalizing t with
    | nil => rw [List.foldl_nil, List.map_nil, List.append_nil]
    | cons i l ih =>
      refine (ih (t.emit _) same).trans ?_
      rw [List.map_cons, List.append_cons, ← same]
      rfl
  exact run _ s rfl

/-- What a new tail leaves. -/
theorem Jeb.writeInvTail_eq (j : Jeb) (v : W32) (l : List HostRead) : ∃ err code, 
    let fetched := j.fetched ++ (l.take (j.newEntries (BitVec.ofNat 16 (fld v 0 16))).length).map j.judged
    j.writeInvTail v l = { j with invTail := BitVec.ofNat 16 (fld v 0 16), fetched := fetched, genErr := err, genCode := code } ∧
    (err, code) = (fetched.head?.bind j.ringFault).elim (j.genErr, j.genCode) fun c =>
      if j.genErr = false ∧ j.genWait = none then (true, c) else (j.genErr, j.genCode) := by
  obtain ⟨err, code, look, found⟩ := Jeb.ringLook_eq
    { j with invTail := BitVec.ofNat 16 (fld v 0 16)
             fetched := j.fetched ++ (l.take (j.newEntries (BitVec.ofNat 16 (fld v 0 16))).length).map j.judged }
  exact ⟨err, code, look, found⟩

/-! ### COPY (R138) -/

/-- Shingles from shingle `first` on copied from a host read. -/
def copied (m : Store) (first : Nat) (data : HostRead) (n : Nat) : Store :=
  (List.range n).foldl (fun m k => storeShingle m (first + k) (copyShingle data k) false) m

theorem copied_writtenIn (m : Store) (first : Nat) (data : HostRead) (n : Nat) : Store.WrittenIn first n m (copied m first data n) := by
  refine .foldl _ _ (fun t k mem => ?_) m
  have bound := List.mem_range.mp mem
  exact (storeShingle_writtenIn t (first + k) _ _).within (by omega) (by omega)

theorem readShingle_copied {m : Store} (plain : m.cipher = none) (first : Nat) (data : HostRead) {n k : Nat} (within : k < n) :
    readShingle (copied m first data n) (first + k) = copyShingle data k := by
  induction n with
  | zero => omega
  | succ n ih =>
    have last : copied m first data (n + 1) = storeShingle (copied m first data n) (first + n) (copyShingle data n) false := by
      rw [copied, List.range_succ, List.foldl_append]
      rfl
    rw [last]
    by_cases here : k = n
    · subst here
      exact readShingle_storeShingle_same ((copied_writtenIn m first data k).1.trans plain) _ _ _
    · rw [readShingle_storeShingle_ne _ _ _ _ (by omega)]
      exact ih (by omega)

section
variable {s : State} {r : HostRead}

/-- The block once the pages of a COPY are filled. -/
def Jeb.copyPages (j : Jeb) (r data : HostRead) : Jeb :=
  { j with mem := (copied j.store ((j.poolMirror.toNat / 4096 * 4096 + 4096 * ringUnit r) / 32) data (128 * ringArg r)).mem }

/-- What a COPY leaves once the ring has moved on: the pages filled, and the ring. -/
theorem Jeb.copyPages_next {j : Jeb} (turn : j.ringTurn 1 = some r) (data : HostRead) : ∃ u, (j.copyPages r data).ringNext = u ∧
    (let first := (j.poolMirror.toNat / 4096 * 4096 + 4096 * ringUnit r) / 32
     (∀ k, k < 128 * ringArg r → readShingle u.store (first + k) = copyShingle data k) ∧ MemKept j.mem u.mem first (128 * ringArg r)) ∧
    RingMoved j u ∧
    u = { j with mem := u.mem, invHead := u.invHead, fetched := u.fetched, genErr := u.genErr, genCode := u.genCode } := by
  obtain ⟨runs, alone⟩ := Jeb.ringTurn_runs turn
  let first := (j.poolMirror.toNat / 4096 * 4096 + 4096 * ringUnit r) / 32
  have filled (k : Nat) (within : k < 128 * ringArg r) := readShingle_copied (m := j.store) rfl first data within
  obtain ⟨cipher, kept⟩ := copied_writtenIn j.store first data (128 * ringArg r)
  have moved : RingMoved j (j.copyPages r data).ringNext := Jeb.ringNext_moved (k := j.copyPages r data) rfl rfl rfl rfl runs
  have apart := Jeb.ringNext_apart_alone (k := j.copyPages r data) alone
  have pages : j.copyPages r data = { j with mem := (copied j.store first data (128 * ringArg r)).mem } := rfl
  have same := (j.copyPages r data).ringNext_entries.1
  rw [pages] at moved apart same ⊢
  generalize copied j.store first data (128 * ringArg r) = m at *
  obtain ⟨mem, c⟩ := m
  cases cipher
  generalize Jeb.ringNext _ = u at *
  subst same
  exact ⟨u, rfl, ⟨filled, kept⟩, moved, apart⟩

/-- A COPY whose read of the host failed. -/
theorem exec_copy_failed (turn : s.jeb.ringTurn 1 = some r) {data : HostRead} (bad : s.jeb.hostOk data = false) : exec (.copy data) s = .next
    ((s.emit (.hostRead (s.jeb.poolHost + BitVec.ofNat 64 (4096 * ringUnit r)) (4096 * ringArg r) s.jeb.trusted)).updJeb fun j =>
      { j with genErr := true, genCode := 3 }) := by
  show execCopy data s = _
  unfold execCopy
  rw [turn]
  exact congrArg Host.Outcome.next (if_pos (by rw [State.emit, bad]; rfl))

/-- A COPY whose read of the host may be used. -/
theorem exec_copy (turn : s.jeb.ringTurn 1 = some r) {data : HostRead} (good : s.jeb.hostOk data = true) : exec (.copy data) s = .next
    ((s.emit (.hostRead (s.jeb.poolHost + BitVec.ofNat 64 (4096 * ringUnit r)) (4096 * ringArg r) s.jeb.trusted)).updJeb fun j =>
      (j.copyPages r data).ringNext) := by
  show execCopy data s = _
  unfold execCopy
  rw [turn]
  exact congrArg Host.Outcome.next (if_neg (by rw [State.emit, good]; decide))

end

/-! ### The invalidations (R138, R154) -/

/-- What an invalidation names: a context, and granules in it. -/
def invalNames (cmd : Nat) (r : HostRead) (ctx : BitVec 6) (g n : Nat) : Bool :=
  decide (cmd = 4 ∨ (ctx = ringCtx r ∧ (cmd = 3 ∨ granulesMeet g n (ringGranule r) (ringGranules r) = true)))

theorem exec_inval {s : State} {c : Instr × Nat} {r : HostRead} (named : c ∈ [(Instr.invalVa, 2), (.invalCtx, 3), (.invalAll, 4)])
    (turn : s.jeb.ringTurn c.2 = some r) : exec c.1 s = .next (s.updJeb fun j => (j.invalidate (invalNames c.2 r)).ringNext) := by
  simp only [List.mem_cons, List.not_mem_nil, or_false] at named
  obtain rfl | rfl | rfl := named
  · have hit : invalNames 2 r = fun c g n => decide (c = ringCtx r) && granulesMeet g n (ringGranule r) (ringGranules r) := by
      funext ctx g n
      simp [invalNames]
    show execInvalVa s = _
    simp only [execInvalVa, turn, hit]
  · have hit : invalNames 3 r = fun c _ _ => decide (c = ringCtx r) := by
      funext ctx g n
      simp [invalNames]
    show execInvalCtx s = _
    simp only [execInvalCtx, turn, hit]
  · have hit : invalNames 4 r = fun _ _ _ => true := by
      funext ctx g n
      simp [invalNames]
    show execInvalAll s = _
    simp only [execInvalAll, turn, hit]

/-- An invalidation disarms the descriptors that are armed and pinned to what it names. -/
theorem Jeb.invalidate_sends (j : Jeb) (hit : BitVec 6 → Nat → Nat → Bool) (n : Nat) :
    Tab.get SendDesc.reset (j.invalidate hit).sends n =
      let d := Tab.get SendDesc.reset j.sends n
      if d.armed = true ∧ (∃ p ∈ d.pins, hit (BitVec.ofNat 6 (fld d.ctl 39 6)) p.1 1 = true) then d.stale else d := by
  have each := Tab.get_mapAll SendDesc.reset (fun d => if bitAt d.ctl 46 && d.pins.any fun p => hit (BitVec.ofNat 6 (fld d.ctl 39 6)) p.1 1
    then d.stale else d) j.sends n (by simp [SendDesc.reset])
  refine each.trans (if_congr ?_ rfl rfl)
  simp [SendDesc.armed]

/-! ### GEN (R138) -/

/-- A GEN waits for no descriptor's record exactly where none of a check that arms waits for space. -/
theorem waitingChecks_eq_zero (l : List (FaultInfo × FaultBy)) :
    (l.reverse.dropWhile fun p => decide (p.2.cls ≠ 7)).length = 0 ↔ ∀ p ∈ l, p.2.cls ≠ 7 := by
  rw [List.length_eq_zero_iff, List.dropWhile_eq_nil_iff]
  simp only [List.mem_reverse, decide_eq_true_eq]

/-- Two states that differ at most in a block that is the same. -/
theorem State.withJeb_congr {s : State} {o : List Output} {u v : Jeb} (same : u = v) :
    { s with jeb := u, outputs := o } = { s with jeb := v, outputs := o } :=
  same ▸ rfl

/-- A command whose entry is not in turn does nothing. -/
theorem exec_ring_idle {s : State} {c : Instr × Nat}
    (named : (∃ data, c = (.copy data, 1)) ∨ c ∈ [(Instr.invalVa, 2), (.invalCtx, 3), (.invalAll, 4), (.gen, 5)])
    (turn : s.jeb.ringTurn c.2 = none) : exec c.1 s = .next s := by
  simp only [List.mem_cons, List.not_mem_nil, or_false] at named
  obtain ⟨data, rfl⟩ | rfl | rfl | rfl | rfl := named
  · show execCopy data s = _
    simp only [execCopy, turn]
  · show execInvalVa s = _
    simp only [execInvalVa, turn]
  · show execInvalCtx s = _
    simp only [execInvalCtx, turn]
  · show execInvalAll s = _
    simp only [execInvalAll, turn]
  · show execGen s = _
    simp only [execGen, turn]

/-- Settles O39: the entry's own effect by its own lemma, and the ring's move by `ringNext_moved`. -/
theorem invalidationRing : Obligations.InvalidationRing := by
  refine ⟨fun s v l => ?tail, fun s r data turn => ?copy, fun s c r named turn => ?inval, fun s r turn => ?gen,
    fun s w wait checks tags descs drain runs => ?complete, fun s err => ?cleared, fun s c named turn => exec_ring_idle named turn⟩
  case tail =>
    obtain ⟨err, code, taken, found⟩ := s.jeb.writeInvTail_eq v l
    have run : exec (.jebInvTail v l) s = .next { s.readEntries v with jeb := s.jeb.writeInvTail v l } := by
      rw [State.readEntries_eq]
      show Host.Outcome.next ((s.readEntries v).updJeb _) = _
      rw [State.readEntries_eq]
      rfl
    rw [State.readEntries_eq, taken] at run
    refine ⟨_, run, ofNat_fld_toNat v 0 16, rfl, found.trans ?_, rfl, rfl⟩
    cases (s.jeb.fetched ++ (l.take (s.jeb.newEntries (BitVec.ofNat 16 (fld v 0 16))).length).map s.jeb.judged).head?.bind s.jeb.ringFault <;> rfl
  case copy =>
    obtain ⟨runs, alone⟩ := Jeb.ringTurn_runs turn
    cases good : s.jeb.hostOk data with
    | false => exact ⟨_, exec_copy_failed turn good, rfl, fun _ => rfl, nofun⟩
    | true =>
      obtain ⟨u, next, ⟨filled, kept⟩, moved, apart⟩ := Jeb.copyPages_next turn data
      have run := exec_copy turn good
      simp only [State.updJeb, State.emit, next] at run
      refine ⟨_, run, rfl, nofun, fun _ => ⟨filled, kept, moved, ?_⟩⟩
      exact State.withJeb_congr apart
  case inval =>
    obtain ⟨runs, alone⟩ := Jeb.ringTurn_runs turn
    have moved := Jeb.ringNext_moved (j := s.jeb) (k := s.jeb.invalidate (invalNames c.2 r)) rfl rfl rfl rfl runs
    have apart := Jeb.ringNext_apart_alone (k := s.jeb.invalidate (invalNames c.2 r)) alone
    obtain ⟨-, cache, sends⟩ := (s.jeb.invalidate (invalNames c.2 r)).ringNext_entries
    refine ⟨_, exec_inval named turn, cache, fun n => ?_, moved, State.withJeb_congr (apart.trans ?_)⟩
    · exact (congrArg (fun l => Tab.get SendDesc.reset l n) sends).trans (s.jeb.invalidate_sends _ n)
    · rw [State.updJeb, cache, sends]
      rfl
  case gen =>
    show ∃ t, execGen s = .next t ∧ _
    simp only [execGen, turn]
    exact ⟨_, rfl, rfl, _, rfl, ofNat_fld_toNat (hostWord r 0) 32 32, rfl, rfl, rfl, waitingChecks_eq_zero _⟩
  case complete =>
    have ready : s.jeb.genReady w = true := by
      have answered : w.drain = false ∨ ∀ q ∈ s.jeb.reqs, q.xfer ∉ w.xfers := by
        cases drained : w.drain with
        | false => exact .inl rfl
        | true => exact .inr (drain drained)
      simpa [Jeb.genReady, tags, descs] using ⟨checks, answered⟩
    have run : exec .genComplete s = .next (s.updJeb fun j => { j with genDone := w.gen }.ringNext) := by
      show execGenComplete s = _
      simp only [execGenComplete, wait, ready, if_true]
    have moved := Jeb.ringNext_moved (j := s.jeb) (k := { s.jeb with genDone := w.gen }) rfl rfl rfl rfl runs
    have apart := Jeb.ringNext_apart { s.jeb with genDone := w.gen }
    exact ⟨_, run, congrArg Jeb.genDone apart, moved, State.withJeb_congr apart⟩
  case cleared =>
    have run : exec .jebGenErr s = .next (s.updJeb fun j => { j with genErr := false }.ringNext) := congrArg Host.Outcome.next (if_pos err)
    have moved := Jeb.ringNext_moved (j := s.jeb) (k := { s.jeb with genErr := false }) rfl rfl rfl rfl rfl
    have apart := Jeb.ringNext_apart { s.jeb with genErr := false }
    exact ⟨_, run, moved, State.withJeb_congr apart⟩

end Sys2Proof.Machine
end

section
/-! SUPPORT. The check of pages (R133 to R136, R142): what it may change of the block, and that it does not look at the queues. -/
namespace Sys2Proof.Machine

open Sys2Proof

/-! ### What looks at pages and not at queues -/

/-- A look at the block's pages: whatever stands in the engines' queues, it finds the same, and changes only the cache of translations and a
counter of errors. -/
def PagesOnly {α : Type} (look : Jeb → α × Jeb) : Prop :=
  ∀ j : Jeb, ∃ found cache err1, ∀ n es, look { j with nextXfer := n, engines := es } =
    (found, { j with cache := cache, err1 := err1, nextXfer := n, engines := es })

section
variable {α β : Type} {look : Jeb → α × Jeb}

theorem PagesOnly.pure (a : α) : PagesOnly fun j => (a, j) := fun j => ⟨a, j.cache, j.err1, fun _ _ => rfl⟩

theorem PagesOnly.bind (first : PagesOnly look) {next : α → Jeb → β × Jeb} (then_ : ∀ a, PagesOnly (next a)) :
    PagesOnly fun j => next (look j).1 (look j).2 := by
  intro j
  obtain ⟨a, cache, err1, looked⟩ := first j
  obtain ⟨b, cache', err1', found⟩ := then_ a { j with cache := cache, err1 := err1 }
  exact ⟨b, cache', err1', fun n es => by dsimp only; rw [looked n es]; exact found n es⟩

/-- What it leaves of the block. -/
theorem PagesOnly.leaves (pages : PagesOnly look) (j : Jeb) : ∃ cache err1, (look j).2 = { j with cache := cache, err1 := err1 } := by
  obtain ⟨a, cache, err1, looked⟩ := pages j
  exact ⟨cache, err1, congrArg Prod.snd (looked j.nextXfer j.engines)⟩

/-- What it finds and leaves with other queues. -/
theorem PagesOnly.queued (pages : PagesOnly look) (j : Jeb) (n : Nat) (es : Tab Engine) : look { j with nextXfer := n, engines := es } =
    ((look j).1, { (look j).2 with nextXfer := n, engines := es }) := by
  obtain ⟨a, cache, err1, looked⟩ := pages j
  have here : look j = (a, { j with cache := cache, err1 := err1 }) := looked j.nextXfer j.engines
  rw [looked, here]

end

/-! ### The walk and the check of a side -/

theorem Jeb.walkFrom_queued (j : Jeb) (n : Nat) (es : Tab Engine) (va l unit : Nat) :
    ({ j with nextXfer := n, engines := es } : Jeb).walkFrom va l unit = j.walkFrom va l unit := by
  induction l generalizing unit with
  | zero => rfl
  | succ l ih =>
    simp only [Jeb.walkFrom, ih]
    rfl

theorem Jeb.walk_queued (j : Jeb) (n : Nat) (es : Tab Engine) (ctx : BitVec 6) (va : Nat) :
    ({ j with nextXfer := n, engines := es } : Jeb).walk ctx va = j.walk ctx va := by
  simp only [Jeb.walk, Jeb.walkFrom_queued]

theorem Jeb.translate_pagesOnly (free : Nat) (ctx : BitVec 6) (va : Nat) : PagesOnly fun j => j.translate free ctx va := by
  intro j
  have cached (n : Nat) (es : Tab Engine) : ({ j with nextXfer := n, engines := es } : Jeb).cached ctx va = j.cached ctx va := rfl
  simp only [Jeb.translate, Jeb.walk_queued, cached]
  cases bitAt (Tab.get 0 j.ctxs ctx.toNat) 0 with
  | false => exact PagesOnly.pure _ j
  | true =>
    simp only [Bool.not_true, Bool.false_eq_true, if_false]
    cases j.cached ctx va with
    | some c => exact PagesOnly.pure _ j
    | none =>
      cases j.walk ctx va with
      | ok found =>
        simp only [Jeb.cacheAdd]
        split
        · exact PagesOnly.pure _ j
        · split
          · exact ⟨_, _, j.err1, fun _ _ => rfl⟩
          · exact ⟨_, _, j.err1, fun _ _ => rfl⟩
      | error c =>
        dsimp only
        split
        · exact ⟨_, j.cache, (j.bump1 48).err1, fun _ _ => rfl⟩
        · exact PagesOnly.pure _ j

theorem checkGranule_pagesOnly (ctx : BitVec 6) (bit free : Nat) (met : List (Nat × Except Nat CacheEntry)) (g : Nat) : PagesOnly fun j =>
    ((checkGranule ctx bit free (j, met) g).2, (checkGranule ctx bit free (j, met) g).1) := by
  intro j
  obtain ⟨found, cache, err1, looked⟩ := Jeb.translate_pagesOnly (free + g) ctx (g * 65536) j
  cases found <;> exact ⟨_, cache, err1, fun n es => by simp only [checkGranule, looked]; rfl⟩

theorem checkSide_pagesOnly (ctx : BitVec 6) (bit free : Nat) (l : List Nat) : PagesOnly fun j =>
    ((checkSide j ctx bit free l).2, (checkSide j ctx bit free l).1) := by
  have run (l : List Nat) (met : List (Nat × Except Nat CacheEntry)) : PagesOnly fun j =>
      ((l.foldl (checkGranule ctx bit free) (j, met)).2, (l.foldl (checkGranule ctx bit free) (j, met)).1) := by
    induction l generalizing met with
    | nil => exact .pure met
    | cons g l ih => exact (checkGranule_pagesOnly ctx bit free met g).bind ih
  exact run l []

/-- What the check of a side finds, and leaves. -/
theorem checkSide_found (ctx : BitVec 6) (bit free : Nat) (l : List Nat) (j : Jeb) : ∃ found cache err1, ∀ n es,
    checkSide { j with nextXfer := n, engines := es } ctx bit free l =
      ({ j with cache := cache, err1 := err1, nextXfer := n, engines := es }, found) := by
  obtain ⟨found, cache, err1, looked⟩ := checkSide_pagesOnly ctx bit free l j
  refine ⟨found, cache, err1, fun n es => ?_⟩
  obtain ⟨same, left⟩ := Prod.ext_iff.mp (looked n es)
  exact Prod.ext left same

/-- The check of a source tile (R154). -/
theorem Jeb.checkTile_pagesOnly (free : Nat) (d : SendDesc) : PagesOnly fun j => j.checkTile free d := by
  intro j
  obtain ⟨found, cache, err1, side⟩ := checkSide_found d.ctx 2 free (granulesOf d.va (32 * d.shingles)) j
  cases least : leastGranule (badGranules found) <;> exact ⟨_, cache, err1, fun n es => by simp only [Jeb.checkTile, side, least]; rfl⟩

/-- The whole check (R142). -/
theorem Jeb.check_pagesOnly (free : Nat) (t : Transfer) : PagesOnly fun j => j.check free t := by
  intro j
  obtain ⟨rem, cache, err1, remote⟩ := checkSide_found t.ctx (needBit t.op false) free (remoteGranules t) j
  obtain ⟨loc, cache', err1', side⟩ := checkSide_found t.ctx (needBit t.op true) (free + 2 ^ 42) (localGranules t)
    { j with cache := cache, err1 := err1 }
  have own (n : Nat) (es : Tab Engine) : ({ j with cache := cache', err1 := err1', nextXfer := n, engines := es } : Jeb).ownRack = j.ownRack := rfl
  cases large : tooLarge t with
  | true => exact ⟨.code 0x52, j.cache, j.err1, fun n es => by simp only [Jeb.check, large, if_true]⟩
  | false =>
    cases aligned : misaligned t with
    | true => exact ⟨.code 0x11, j.cache, j.err1, fun n es => by simp only [Jeb.check, large, aligned, Bool.false_eq_true, if_false, if_true]⟩
    | false =>
      cases fault : firstFault t.op (badGranules rem) (badGranules loc) with
      | some f => exact ⟨.fault f, cache', err1', fun n es => by simp only [Jeb.check, large, aligned, remote, side, fault]; rfl⟩
      | none =>
        cases breaks : if t.op = .batten then breakGranules rem else [] with
        | cons g gs => exact ⟨_, cache', err1', fun n es => by simp only [Jeb.check, large, aligned, remote, side, fault, breaks]; rfl⟩
        | nil =>
          refine ⟨(j.check free t).1, cache', err1', fun n es => ?_⟩
          simp only [Jeb.check, large, aligned, remote, side, fault, breaks, own, Bool.false_eq_true, if_false]
          split <;> rfl

end Sys2Proof.Machine
end

section
/-! SUPPORT. The Jalem block's signal counters (R151, R153), and its posted frames (R151, R152, R372). -/
namespace Sys2Proof.Machine

open Sys2Proof

/-! ### A counter advances -/

/-- Counter `c` advanced: the counters, the waits that have ended, and their reports change. -/
theorem State.advance_eq (s : State) (c : Nat) : ∃ waits out, s.advance c =
    { s with jeb := { s.jeb with sig := Tab.upd 0 s.jeb.sig (c % 4096) (· + 1), waits := waits }, outputs := s.outputs ++ out } :=
  ⟨_, _, State.endWaits_eq _⟩

/-- The counter of twelve bits advances by one, and no other. -/
theorem Tab.get_upd_counter (t : Tab W32) {c : Nat} (small : c < 4096) (k : Nat) :
    Tab.get 0 (Tab.upd 0 t (c % 4096) (· + 1)) k = Tab.get 0 t k + if k = c then 1 else 0 := by
  rw [Nat.mod_eq_of_lt small, Tab.upd, Tab.get_put]
  split
  · next same => rw [same]
  · exact (BitVec.add_zero _).symm

/-- A counter advanced where `b` says so. -/
theorem State.advance_if (s : State) {c : Nat} (small : c < 4096) (b : Bool) : ∃ sig waits out,
    (if b = true then s.advance c else s) = { s with jeb := { s.jeb with sig := sig, waits := waits }, outputs := s.outputs ++ out } ∧
      ∀ k, Tab.get 0 sig k = Tab.get 0 s.jeb.sig k + if k = c ∧ b = true then 1 else 0 := by
  cases b with
  | false => exact ⟨s.jeb.sig, s.jeb.waits, [], by simp, by simp⟩
  | true =>
    obtain ⟨waits, out, advanced⟩ := s.advance_eq c
    exact ⟨_, waits, out, (if_pos rfl).trans advanced, fun k => by simp only [Tab.get_upd_counter _ small, and_true]⟩

theorem counterOf_lt (h : Header) : counterOf h < 4096 := fld_lt h.aux 48 12

/-! ### A posted frame -/

theorem landShingle_writtenIn (m : Store) (i : Nat) (w : Shingle) (bad : Bool) : Store.WrittenIn i 1 m (landShingle m i w bad).1 := by
  have lost : Store.WrittenIn i 1 m (if Config.poisonMarking then storeShingle m i w true else m) := by
    split
    · exact storeShingle_writtenIn m i w true
    · exact .refl m i 1
  unfold landShingle
  split
  · exact lost
  · split
    case h_3 => exact lost
    all_goals exact storeShingle_writtenIn m i _ false

theorem landSeg_writtenIn (m : Store) (a : Nat) (f : Frame) : Store.WrittenIn (a / 32) f.data.length m (landSeg m a f) := by
  refine .foldl _ _ (fun t p mem => ?_) m
  have bound := (List.mem_zipIdx mem).2.1
  exact (landShingle_writtenIn t (a / 32 + p.2) p.1 _).within (by omega) (by omega)

section
variable {s u : State} {p : PortRef} {f : Frame}

/-- What a taken frame leaves of the block is the block's ports and a clearing's end. -/
theorem State.postedAt_took (took : s.Took p f u) : u.postedAt p = s.postedAt p := by
  funext h off n
  simp only [State.postedAt, State.jebForm_took took, State.jebHome_took took]

/-- What happens within the block once a frame has been taken, its ports apart. -/
theorem State.Took.within (block : portDev p = .jalem) (took : s.Took p f u) {k : Jeb} (ports : k.ports = u.jeb.ports) (o : List Output) :
    let t : State := { u with jeb := k, outputs := o }
    (t.port p).txq = (s.port p).txq ∧ t = { s.countFlash p (frameSyndromes f) with jeb := t.jeb, outputs := t.outputs } := by
  obtain ⟨-, ⟨retry, cred, err, port⟩, outside⟩ := took
  have same : ({ u with jeb := k, outputs := o } : State).port p = u.port p := by
    cases p with
    | module n => cases block
    | rafter q => exact congrArg (Tab.get Port.reset · q.val) ports
    | tray t => exact congrArg (Tab.get Port.reset · _) ports
  exact ⟨by rw [same, port], congrArg (fun t : State => { t with outputs := o }) (outside k)⟩

theorem execSeg_took (block : portDev p = .jalem) (op : f.hdr.opcode = opSeg) : ∃ u, s.Took p f u ∧
    (s.postedAt p f.hdr (fpaOffset f.hdr.fpa) (accessBytes f.hdr) = none → exec (.seg p f) s = .next (u.jebDropPosted f.hdr)) ∧
    ∀ a, s.postedAt p f.hdr (fpaOffset f.hdr.fpa) (accessBytes f.hdr) = some a →
      let v := u.updJeb fun j => { j with mem := (landSeg j.store a f).mem }
      exec (.seg p f) s = .next (if bitAt f.hdr.attr 7 then v.advance (counterOf f.hdr) else v) := by
  have took := State.jebTake_took block s f
  refine ⟨_, took, fun none => ?_, fun a some => ?_⟩ <;>
    refine congrArg Host.Outcome.next ((if_neg (jebPerform_takes block op)).trans ?_) <;> dsimp only <;> rw [State.postedAt_took took]
  · rw [none]
  · rw [some]

theorem execSignal_took (block : portDev p = .jalem) (op : f.hdr.opcode = opSignal) : ∃ u, s.Took p f u ∧
    (s.postedAt p f.hdr (fpaOffset f.hdr.fpa / 32 * 32) 32 = none → exec (.signal p f) s = .next (u.jebDropPosted f.hdr)) ∧
    ∀ a, s.postedAt p f.hdr (fpaOffset f.hdr.fpa / 32 * 32) 32 = some a → exec (.signal p f) s = .next (u.advance (counterOf f.hdr)) := by
  have took := State.jebTake_took block s f
  refine ⟨_, took, fun none => ?_, fun a some => ?_⟩ <;>
    refine congrArg Host.Outcome.next ((if_neg (jebPerform_takes block op)).trans ?_) <;> dsimp only <;> rw [State.postedAt_took took]
  · rw [none]
  · rw [some]

end

/-- Settles O41: a frame dropped changes one counter of the block, a frame that lands its shingles and its counter. -/
theorem postedFrames : Obligations.PostedFrames := by
  intro s p f block course c
  have small : c < 4096 := counterOf_lt f.hdr
  refine ⟨fun op => ?seg, fun op => ?signal⟩
  case seg =>
    obtain ⟨u, took, dropped, landed⟩ := execSeg_took (s := s) block op
    obtain ⟨⟨pending, done, ports, jeb⟩, -, -⟩ := id took
    cases at_ : s.postedAt p f.hdr (fpaOffset f.hdr.fpa) (accessBytes f.hdr) with
    | none =>
      obtain ⟨queue, frame⟩ := took.within block (k := u.jeb.bump0 16) rfl u.outputs
      refine ⟨_, (dropped at_).trans (congrArg _ (if_neg course)), fun _ => ?_, nofun, queue, frame⟩
      rw [State.updJeb, jeb]
      exact ⟨rfl, rfl, rfl⟩
    | some a =>
      obtain ⟨sig, waits, out, advanced, counted⟩ :=
        (u.updJeb fun j => { j with mem := (landSeg j.store a f).mem }).advance_if small (bitAt f.hdr.attr 7)
      have run := (landed a at_).trans (congrArg Host.Outcome.next advanced)
      have written := landSeg_writtenIn s.jeb.store a f
      have mem : (landSeg u.jeb.store a f).mem = (landSeg s.jeb.store a f).mem := by
        rw [jeb]
        rfl
      simp only [State.updJeb, mem] at run counted
      simp only [jeb] at run counted
      generalize land : landSeg s.jeb.store a f = m at *
      obtain ⟨queue, frame⟩ := took.within block (k := { u.jeb with mem := m.mem, sig := sig, waits := waits }) rfl (u.outputs ++ out)
      rw [jeb] at queue frame
      exact ⟨_, run, nofun, fun _ same => Option.some.inj same ▸ ⟨congrArg Store.mem land.symm, written.2, counted⟩, queue, frame⟩
  case signal =>
    obtain ⟨u, took, dropped, landed⟩ := execSignal_took (s := s) block op
    obtain ⟨⟨pending, done, ports, jeb⟩, -, -⟩ := id took
    cases at_ : s.postedAt p f.hdr (fpaOffset f.hdr.fpa / 32 * 32) 32 with
    | none =>
      obtain ⟨queue, frame⟩ := took.within block (k := u.jeb.bump0 16) rfl u.outputs
      refine ⟨_, (dropped at_).trans (congrArg _ (if_neg course)), fun _ => ?_, nofun, ?_, queue, frame⟩
      · rw [State.updJeb, jeb]
        exact ⟨rfl, rfl⟩
      · rw [State.updJeb, jeb]
        rfl
    | some a =>
      obtain ⟨sig, waits, out, advanced, counted⟩ := u.advance_if small true
      have run := (landed a at_).trans (congrArg Host.Outcome.next ((if_pos rfl).symm.trans advanced))
      obtain ⟨queue, frame⟩ := took.within block (k := { u.jeb with sig := sig, waits := waits }) rfl (u.outputs ++ out)
      simp only [jeb, and_true] at counted
      refine ⟨_, run, nofun, fun _ _ => counted, ?_, queue, frame⟩
      rw [jeb]

end Sys2Proof.Machine
end

section
/-! SUPPORT. The send descriptors (R154, R235): bits of their control word, what a fault record leaves (R145), and frames sent one after another. -/
namespace Sys2Proof.Machine

open Sys2Proof

/-! ### Bits set one by one -/

/-- A bit set, and the others. -/
theorem bitAt_setBit {n : Nat} (w : BitVec n) {i : Nat} (b : Bool) (j : Nat) (inside : i < n) :
    bitAt (setBit w i b) j = if j = i then b else bitAt w j := by
  have mask (bound : j < n) : (fieldMask n i 1).getLsbD j = decide (i = j) := by
    rw [fieldMask, Nat.pow_one, Nat.one_shiftLeft, BitVec.getLsbD_ofNat, Nat.testBit_two_pow, decide_eq_true bound, Bool.true_and]
  have put (bound : j < n) : (BitVec.ofNat n ((b.toNat % 2 ^ 1) <<< i)).getLsbD j = (decide (i = j) && b) := by
    rw [BitVec.getLsbD_ofNat, decide_eq_true bound, Bool.true_and]
    cases b with
    | false => simp
    | true => rw [Bool.toNat_true, Nat.pow_one, Nat.one_mod, Nat.one_shiftLeft, Nat.testBit_two_pow, Bool.and_true]
  by_cases bound : j < n
  · rw [bitAt, setBit, setFld, BitVec.getLsbD_or, BitVec.getLsbD_and, BitVec.getLsbD_not, mask bound, put bound]
    by_cases here : j = i
    · simp [here]
    · simp [here, Ne.symm here, bound, bitAt]
  · have out : j ≠ i := by omega
    rw [if_neg out, bitAt, bitAt, BitVec.getLsbD_of_ge _ _ (by omega), BitVec.getLsbD_of_ge _ _ (by omega)]

/-! ### A fault record (R145) -/

section
variable {j : Jeb} {f : FaultInfo} {b : FaultBy}

/-- A waiting record is written where the ring has space. -/
theorem Jeb.writeWaiting_one (waits : j.fltWait = [(f, b)]) (space : j.fltFull = false) :
    ∃ w, j.writeWaiting 1 = ({ j with fltWait := [], genWait := w } : Jeb).recordFault f b := by
  rw [Jeb.writeWaiting, waits]
  dsimp only
  rw [if_neg (by rw [space]; decide)]
  exact ⟨_, rfl⟩

/-- A descriptor's record, while none waits. -/
theorem Jeb.sendFault_alone (empty : j.fltWait = []) (space : j.fltFull = false) :
    ∃ w, j.sendFault f b = ({ j with genWait := w } : Jeb).recordFault f b := by
  obtain ⟨w, written⟩ := Jeb.writeWaiting_one (j := { j with fltWait := [(f, b)] }) rfl space
  refine ⟨w, ?_⟩
  rw [Jeb.sendFault, empty]
  exact written

/-- What a record leaves: it stands at the tail, which moves, and the event is raised. -/
theorem Jeb.recordFault_at (j : Jeb) (f : FaultInfo) (b : FaultBy) :
    readShingle (j.recordFault f b).store (j.fltBase.toNat / 32 + j.fltTail.toNat % ringSize j.fltSize) =
      encodeShingle (faultRecord f b b.gen j.fltSeq b.ns) :=
  readShingle_storeShingle_same (m := j.store) rfl _ _ false

/-- CAUSE of a record of a descriptor itself (R145). -/
theorem faultRecord_cause (d : SendDesc) {cause : Nat} (small : cause < 16) (b : FaultBy) (gen seq : W32) (ns : Nat) :
    fld (faultRecord (d.fault cause) b gen seq ns) 94 4 = cause := by
  have task := b.task.isLt
  have ctx := b.ctx.isLt
  have engine := b.engine.isLt
  simp only [fld, faultRecord, SendDesc.fault, BitVec.toNat_ofNat, Nat.shiftRight_eq_div_pow, Bool.toNat_true]
  omega

end

/-! ### Frames sent one after another -/

section
variable {s : State} {p : PortRef}

/-- A frame goes out as it is but for a SIG that the link's partner does not take (R151, R372). -/
theorem State.jebSend_asIs {g : Frame} (asIs : g.hdr.opcode = opSeg → bitAt (s.port p).train.features featTileSig = true) :
    s.jebSend p g = s.updPort p fun x => { x with txq := x.txq ++ [g] } := by
  refine if_neg ?_
  rintro ⟨seg, -, plain⟩
  rw [asIs seg] at plain
  exact absurd plain (by decide)

/-- What frames leave that go out on one link, one after another. -/
theorem State.jebSend_all (block : portDev p = .jalem) (l : List Frame)
    (asIs : ∀ g ∈ l, g.hdr.opcode = opSeg → bitAt (s.port p).train.features featTileSig = true) :
    let t := l.foldl (fun s g => s.jebSend p g) s
    (∃ ports, t = { s with jeb := { s.jeb with ports := ports } }) ∧ t.port p = { s.port p with txq := (s.port p).txq ++ l } ∧
      ∀ q, q ≠ p → t.port q = s.port q := by
  induction l generalizing s with
  | nil => exact ⟨⟨_, rfl⟩, by rw [List.append_nil]; rfl, fun _ _ => rfl⟩
  | cons g l ih =>
    have first := State.jebSend_asIs (asIs g List.mem_cons_self)
    have here := s.port_updPort_same p fun x => { x with txq := x.txq ++ [g] }
    obtain ⟨⟨ports, rest⟩, queue, others⟩ := ih (s := s.updPort p fun x => { x with txq := x.txq ++ [g] })
      (fun h mem seg => by rw [here]; exact asIs h (List.mem_cons_of_mem g mem) seg)
    dsimp only
    rw [List.foldl_cons, first]
    refine ⟨⟨ports, rest.trans ?_⟩, queue.trans ?_, fun q off => (others q off).trans (s.port_updPort_ne p q _ off)⟩
    · rw [State.updPort_ports block]
    · rw [here, List.append_assoc, List.singleton_append]

end

/-! ### The descriptors -/

/-- The link of a descriptor is the block's. -/
theorem SendDesc.port_block {d : SendDesc} {p : PortRef} (link : d.port = some p) : portDev p = .jalem := by
  unfold SendDesc.port at link
  dsimp only at link
  split at link
  · cases link
    rfl
  · split at link
    · cases link
      rfl
    · split at link
      · cases link
        rfl
      · cases link

section
variable (s : State) (n : Nat) (d : SendDesc)

theorem State.desc_setDesc_same : (s.setDesc n d).desc n = d := Tab.get_put_same ..

theorem State.desc_setDesc_ne {m : Nat} (other : m ≠ n) : (s.setDesc n d).desc m = s.desc m := Tab.get_put_ne _ _ _ _ _ other

end

section
variable {s : State} {n : BitVec 10}

/-- A descriptor's fault with space for its record, while none waits. -/
theorem State.descFault_alone (empty : s.jeb.fltWait = []) (space : s.jeb.fltFull = false) (d : SendDesc) (cls : Nat) (f : FaultInfo) :
    ∃ b w, s.descFault d cls f = (s.updJeb fun j => ({ j with genWait := w } : Jeb).recordFault f b).spend 1 := by
  obtain ⟨w, sent⟩ := Jeb.sendFault_alone (f := f)
    (b := ⟨d.task, d.ctx, BitVec.ofNat 8 s.freeNat, cls, s.jeb.genDone, s.jeb.tim.ns⟩) empty space
  exact ⟨_, w, congrArg (fun j => ({ s with jeb := j } : State).spend 1) sent⟩

variable {d : SendDesc} (link : d.port ≠ none) (some_ : 0 < d.shingles) (few : d.shingles ≤ 8192)
include link some_ few

/-- A tile that passes its check arms its descriptor, with its pages pinned. -/
theorem State.arm_passed {m : Nat} {pins : List (Nat × Nat)} (passed : (s.jeb.checkTile s.freeNat d).1 = .ok pins) : ∃ cache err1,
    s.arm m d = (({ s with jeb := { s.jeb with cache := cache, err1 := err1 } } : State).spend 1).setDesc m
      { d with ctl := setBit (setBit (setBit d.ctl 46 false) 47 false) 46 true, pins := pins } := by
  obtain ⟨cache, err1, left⟩ := (Jeb.checkTile_pagesOnly s.freeNat d).leaves s.jeb
  refine ⟨cache, err1, ?_⟩
  have found : s.jeb.checkTile s.freeNat d = (.ok pins, { s.jeb with cache := cache, err1 := err1 }) := Prod.ext passed left
  rw [State.arm]
  dsimp only
  rw [if_neg (by simp [link]; omega), found]

/-- A page fault of its tile leaves it disarmed, with a fault record. -/
theorem State.arm_failed {m : Nat} {f : FaultInfo} (failed : (s.jeb.checkTile s.freeNat d).1 = .error f) : ∃ cache err1,
    s.arm m d = ((({ s with jeb := { s.jeb with cache := cache, err1 := err1 } } : State).spend 1).setDesc m
      { d with ctl := setBit (setBit d.ctl 46 false) 47 false, queued := 0, pins := [] }).descFault d 7 f := by
  obtain ⟨cache, err1, left⟩ := (Jeb.checkTile_pagesOnly s.freeNat d).leaves s.jeb
  refine ⟨cache, err1, ?_⟩
  have found : s.jeb.checkTile s.freeNat d = (.error f, { s.jeb with cache := cache, err1 := err1 }) := Prod.ext failed left
  rw [State.arm]
  dsimp only
  rw [if_neg (by simp [link]; omega), found]

end

/-! ### A GO and a send -/

section
variable {s : State} {n : Nat}

theorem State.go_idle (off : (s.desc n).armed = false) : s.go n =
    s.descFault (s.desc n) 8 ((s.desc n).fault (if bitAt (s.desc n).ctl 47 then causeStaleDesc else causeDescNotArmed)) :=
  if_pos (by rw [off]; rfl)

theorem State.go_full (on : (s.desc n).armed = true) (full : (s.desc n).queued = 255) : s.go n = s.updJeb fun j => j.bump0 32 :=
  (if_neg (by rw [on]; decide)).trans (if_pos full)

theorem State.go_queued (on : (s.desc n).armed = true) (few : (s.desc n).queued ≠ 255) :
    s.go n = s.setDesc n { s.desc n with queued := (s.desc n).queued + 1 } :=
  (if_neg (by rw [on]; decide)).trans (if_neg few)

end

theorem exec_send {s : State} {n : BitVec 10} {p : PortRef} (link : (s.desc n.toNat).port = some p) (on : (s.desc n.toNat).armed = true)
    (queued : (s.desc n.toNat).queued ≠ 0) (runs : s.jeb.stopped = false) (ready : s.linkReady p = true) :
    let t := (((s.tileFrames p (s.desc n.toNat)).foldl (fun s g => s.jebSend p g) s).spend 1).setDesc n.toNat (s.desc n.toNat).after
    exec (.send n) s = .next (if (s.desc n.toNat).compEn = true then t.advance (s.desc n.toNat).comp else t) := by
  show execSend n s = _
  rw [execSend, link]
  exact congrArg Host.Outcome.next (if_pos ⟨on, queued, by rw [runs]; rfl, ready⟩)

/-- Settles O42: arming by the tile's check, which changes no descriptor and no memory; a GO; and a send by what frames sent leave. -/
theorem sendDescriptors : Obligations.SendDescriptors := by
  intro s n d
  refine ⟨fun v => ⟨fun off => ?disarmed, fun on link some_ few => ⟨fun pins passed => ?armed, fun f failed space empty => ?fault⟩⟩,
    fun on few => ?queued, fun on full => ?overrun, fun off space empty => ?idle, fun p link on queued runs ready tiles => ?send⟩
  case disarmed =>
    exact ⟨_, congrArg Host.Outcome.next (if_neg (by rw [off]; decide)), s.desc_setDesc_same _ _, fun m other => s.desc_setDesc_ne _ _ other, rfl⟩
  case armed =>
    obtain ⟨cache, err1, armed⟩ := State.arm_passed (m := n.toNat)
      (d := { d with ctl := accessWrite sendCtlMask 0 d.ctl v, queued := if d.armed then d.queued else 0 }) link some_ few passed
    refine ⟨_, congrArg Host.Outcome.next ((if_pos on).trans armed), ?_⟩
    dsimp only
    rw [State.desc_setDesc_same]
    exact ⟨by simp [SendDesc.armed, bitAt_setBit], rfl, by simp [bitAt_setBit], fun m other => State.desc_setDesc_ne _ _ _ other, rfl⟩
  case fault =>
    obtain ⟨cache, err1, off⟩ := State.arm_failed (m := n.toNat)
      (d := { d with ctl := accessWrite sendCtlMask 0 d.ctl v, queued := if d.armed then d.queued else 0 }) link some_ few failed
    obtain ⟨b, w, recorded⟩ := State.descFault_alone
      (s := (({ s with jeb := { s.jeb with cache := cache, err1 := err1 } } : State).spend 1).setDesc n.toNat _) empty space _ 7 f
    refine ⟨_, congrArg Host.Outcome.next (((if_pos on).trans off).trans recorded), ?_, rfl, rfl,
      fun m other => State.desc_setDesc_ne _ _ _ other⟩
    refine (congrArg SendDesc.armed (State.desc_setDesc_same _ _ _)).trans ?_
    simp [SendDesc.armed, bitAt_setBit]
  case queued =>
    exact ⟨_, congrArg Host.Outcome.next (State.go_queued on few), s.desc_setDesc_same _ _, fun m other => s.desc_setDesc_ne _ _ other, rfl⟩
  case overrun => exact congrArg Host.Outcome.next (State.go_full on full)
  case idle =>
    obtain ⟨b, w, recorded⟩ := State.descFault_alone empty space d 8 (d.fault (if bitAt d.ctl 47 then causeStaleDesc else causeDescNotArmed))
    refine ⟨_, congrArg Host.Outcome.next ((State.go_idle off).trans recorded), rfl, rfl, rfl, ?_⟩
    have at_ := ({ s.jeb with genWait := w } : Jeb).recordFault_at (d.fault (if bitAt d.ctl 47 then causeStaleDesc else causeDescNotArmed)) b
    refine (congrArg (fun w => fld (Shingle.dataBits w) 94 4) at_).trans ?_
    dsimp only
    rw [dataBits_encodeShingle]
    refine faultRecord_cause d ?_ b _ _ _
    split <;> decide
  case send =>
    obtain ⟨⟨ports, sent⟩, queue, -⟩ := State.jebSend_all (SendDesc.port_block link) (s.tileFrames p d) fun _ _ _ => tiles
    obtain ⟨sig, waits, out, advanced, counted⟩ :=
      ((((s.tileFrames p d).foldl (fun s g => s.jebSend p g) s).spend 1).setDesc n.toNat d.after).advance_if (fld_lt d.ctl 26 12) d.compEn
    have run := (exec_send link on queued runs ready).trans (congrArg Host.Outcome.next advanced)
    generalize (s.tileFrames p d).foldl (fun s g => s.jebSend p g) s = u at sent queue advanced counted run
    subst sent
    refine ⟨_, run, ?_, Tab.get_put_same .., fun m other => Tab.get_put_ne _ _ _ _ _ other, counted, rfl, rfl⟩
    cases p <;> exact congrArg Port.txq queue

end Sys2Proof.Machine
end

section
/-! SUPPORT. What Soffit takes from its queue for the fabric manager and for a Jalem block (R293, R343), and what an answer leaves. -/
namespace Sys2Proof.Machine

open Sys2Proof

/-! ### What an answer leaves -/

section
variable (s : State)

theorem State.logEvent_relays (kind : Byte) (data : List W64) (scope : Bool) : (s.logEvent kind data scope).sof.relays = s.sof.relays := by
  unfold State.logEvent
  split <;> rfl

theorem State.count_relays (e : Event) : (s.count e).sof.relays = s.sof.relays := by
  unfold State.count State.note
  split
  · rfl
  · dsimp only
    split
    · exact State.logEvent_relays ..
    · rfl

/-- What neither a frame linked nor an event counted changes, no answer changes. -/
theorem State.respond_keeps {α : Type} (g : State → α) (linked : ∀ s f q a, g (State.link s f q a) = g s)
    (counted : ∀ s e, g (State.count s e) = g s) (src : Nat) (f : Frame) : g (s.respond src f) = g s := by
  unfold State.respond State.respondTo
  dsimp only
  have poisoned : g (if f.hdr.status = stPoisoned then s.count (requestEvent 1 f.hdr) else s) = g s := by
    split
    · exact counted s _
    · rfl
  generalize (if f.hdr.status = stPoisoned then s.count (requestEvent 1 f.hdr) else s) = u at poisoned
  rw [← poisoned]
  split
  · exact linked ..
  · split
    · exact linked ..
    · rfl
  · exact counted u _

theorem State.respond_relays (src : Nat) (f : Frame) : (s.respond src f).sof.relays = s.sof.relays :=
  s.respond_keeps (fun s => s.sof.relays) (fun s f q a => congrArg Sof.relays (s.link_sof f q a)) State.count_relays src f

theorem State.count_gut_fatal (e : Event) : (s.count e).gut.fatal = s.gut.fatal := by
  unfold State.count
  split
  · rfl
  · exact s.note_gut_fatal e 0 0

/-- An answer leaves a fatal fault and its teardown as they stand. -/
theorem State.respond_gut_fatal (src : Nat) (f : Frame) :
    (s.respond src f).gut.fatal = s.gut.fatal ∧ (s.respond src f).gut.phase = s.gut.phase :=
  ⟨s.respond_keeps (fun s => s.gut.fatal) (fun s f q a => congrArg Gut.fatal (s.link_gut f q a)) State.count_gut_fatal src f,
    s.respond_keeps (fun s => s.gut.phase) (fun s f q a => congrArg Gut.phase (s.link_gut f q a)) State.count_gut_phase src f⟩

/-- A fault that stands stays under an answer. -/
theorem TornDown.respond {s : State} {code : Nat} (torn : TornDown s code) (src : Nat) (f : Frame) : TornDown (s.respond src f) code := by
  obtain ⟨fatal, phase⟩ := s.respond_gut_fatal src f
  rw [TornDown, fatal, phase, State.respond_sec]
  exact torn

end

/-! ### Soffit's queue -/

section
variable {s : State} {e : Entry}

/-- A change of the buffer that routing does not see. -/
theorem State.RoutesAs.withPur {s u : State} (same : s.RoutesAs u) {x : Pur} (lrt : x.lrt = u.pur.lrt) (pairSeed : x.pairSeed = u.pur.pairSeed)
    (nodeLost : x.nodeLost = u.pur.nodeLost) : s.RoutesAs { u with pur := x } :=
  ⟨same.sec, same.sof, same.gut, lrt.trans same.lrt, pairSeed.trans same.pairSeed, nodeLost.trans same.nodeLost, same.train, same.laneIdle,
    same.sealing⟩

/-- Taking a frame out of the buffer leaves what routing sees. -/
theorem State.dequeued_routesAs (s : State) (q : Nat) (e : Entry) (rest : List Entry) : s.RoutesAs (s.dequeued q e rest) := by
  have read : s.RoutesAs (s.readEntry e) := by
    unfold State.readEntry
    split
    · exact (State.RoutesAs.refl s).withPur rfl rfl rfl
    · exact .refl s
  have kept : s.RoutesAs ((s.readEntry e).setQueue q ((s.queue q).keep rest)) := read.withPur rfl rfl rfl
  unfold State.dequeued State.unlink
  cases e.ingress with
  | none => exact kept.withPur rfl rfl rfl
  | some n =>
    dsimp only
    split
    · exact kept.withPur rfl rfl rfl
    · refine State.RoutesAs.freeSlots ?_ n _ _
      exact kept.withPur rfl rfl rfl

/-- The head of Soffit's queue where it meets a test. -/
theorem State.soffitFirst_one (waits : (s.queue (agentQueue agSoffit 4)).items = [e]) {test : Entry → Bool} (met : test e = true) :
    s.soffitFirst test = some (e, s.dequeued (agentQueue agSoffit 4) e []) := by
  rw [State.soffitFirst, s.dequeue_cons _ e [] waits]
  exact if_pos met

/-- No port's queue is Soffit's. -/
theorem portQueue_ne_soffit {n : Nat} (port : n < 144) (h : Header) : portQueue n (vcOf h) ≠ agentQueue agSoffit 4 := by
  have course := h.course.isLt
  have sub := h.sub.isLt
  unfold portQueue vcOf agentQueue agSoffit
  omega

end

/-- Settles O46: the report by `fatal_word` and `fatal_torn`, the request and the response by what leaves Soffit's queue and where it is linked. -/
theorem reportsAndRelays : Obligations.ReportsAndRelays := by
  intro s e waits
  have taken := s.dequeued_eq (agentQueue agSoffit 4) e []
  have routes := s.dequeued_routesAs (agentQueue agSoffit 4) e []
  obtain ⟨left, others⟩ := s.dequeued_frames _ e [] waits
  have first (test : Entry → Bool) (met : test e = true) := State.soffitFirst_one waits met
  generalize s.dequeued (agentQueue agSoffit 4) e [] = d at *
  have eav : d.eav = s.eav := by rw [taken]
  have jeb : d.jeb = s.jeb := by rw [taken]
  refine ⟨fun data report node request runs other filled good one value bay calm => ?report, fun request relay passes => ?request,
    fun r found sound => ?response⟩
  case report =>
    obtain ⟨o, object⟩ : ∃ o, o = FaultObj.node (e.frame.hdr.srcNode.truncate 7) := ⟨_, rfl⟩
    have here : d.soffitAccess e.frame = (ackFrame e.frame.hdr, d.fatal 11 o (requestEvent 16 e.frame.hdr)) := by
      have runs' : d.sof.thatchRun = true := by rw [routes.sof, runs]
      have other' : d.fromManager e.frame.hdr = false := by rw [State.fromManager, routes.sof, routes.ownRack, ← other, State.fromManager]
      have report' : d.isReport e.frame.hdr = true := by rw [State.isReport, routes.ownRack, routes.node, ← report, State.isReport]
      rw [State.soffitAccess, runs', other', report', if_neg (by decide), if_neg (by decide), if_pos ⟨node, rfl⟩, State.takeReport]
      rw [if_neg filled, good]
      exact (if_pos ⟨one, value⟩).trans (object ▸ rfl)
    have run : exec .gutJebReport s = .next ((d.fatal 11 o (requestEvent 16 e.frame.hdr)).respond (agentSource agSoffit) (ackFrame e.frame.hdr)) := by
      show execGutJebReport s = _
      rw [execGutJebReport, first _ (by simp [report, node, request])]
      simp only [here]
    have bay' : d.admitted = true := by rw [State.admitted, routes.sec, ← bay, State.admitted]
    have calm' : d.gut.phase = .none := by rw [routes.gut, calm]
    obtain ⟨fatal, -⟩ := (d.fatal 11 o (requestEvent 16 e.frame.hdr)).respond_gut_fatal (agentSource agSoffit) (ackFrame e.frame.hdr)
    obtain ⟨word, -⟩ := d.fatal_word 11 o (requestEvent 16 e.frame.hdr) bay' calm'
    obtain ⟨kind, number⟩ := fatalWord_object 11 o 1 (by decide)
    refine ⟨_, run, (d.fatal_torn 11 o _ (by decide) bay' calm').respond _ _, ?_, ?_, ?_, ?_⟩
    · rw [fatal, word, kind, object]
      rfl
    · rw [fatal, word, number, object]
      exact Nat.mod_eq_of_lt node
    · rw [State.respond_eav, State.fatal_eav, eav]
    · rw [State.respond_jeb, State.fatal_jeb, jeb]
  case request =>
    have passes' : d.relayRefusal e.frame.hdr = none := by
      simp only [State.relayRefusal, routes.sof, routes.lrt, State.nodeLost, routes.nodeLost, State.isActive, routes.train]
      exact passes
    have relayed : d.relayed e.frame = s.relayed e.frame := by rw [State.relayed, routes.node, routes.sec, routes.sof, State.relayed]
    have run : exec .relayRequest s = .next (d.issueRelay e.frame) := by
      show execRelayRequest s = _
      rw [execRelayRequest, first _ (by simp [request, relay])]
      simp only [State.startRelay, passes']
    obtain ⟨n, node⟩ : ∃ n, n = fld (Tab.get 0 s.pur.lrt (fpaNode e.frame.hdr.fpa)) 0 8 % 144 := ⟨_, rfl⟩
    have small : n < 144 := node ▸ Nat.mod_lt _ (by decide)
    have issued : d.issueRelay e.frame = (d.setSof fun x =>
        { x with relays := x.relays ++ [{ tag := x.sofTag, port := Fin.ofNat 144 n, hdr := e.frame.hdr }], sofTag := x.sofTag + 1 }).link
          (s.relayed e.frame) (portQueue n (vcOf e.frame.hdr)) (fromAgent agSoffit) := by
      have port : Fin.ofNat 144 (fld (Tab.get 0 s.pur.lrt (fpaNode e.frame.hdr.fpa)) 0 8) = Fin.ofNat 144 n :=
        Fin.ext (by rw [node, Fin.val_ofNat, Fin.val_ofNat, Nat.mod_mod])
      rw [State.issueRelay, routes.lrt, relayed, port]
      have number : (Fin.ofNat 144 n).val = n := Nat.mod_eq_of_lt small
      rw [State.sendOn, number]
      rfl
    refine ⟨_, run.trans (congrArg _ issued), ?_⟩
    dsimp only
    rw [← node]
    refine ⟨?_, ?_, ?_, ?_, ?_, ?_⟩
    · rw [State.link_sof, State.setSof, routes.sof]
    · rw [State.frames_link, if_pos rfl]
      exact congrArg (· ++ [s.relayed e.frame]) (others _ (portQueue_ne_soffit small _))
    · rw [State.frames_link, if_neg (portQueue_ne_soffit small _).symm]
      exact left
    · rw [State.link_gut]
      exact routes.gut
    · rw [State.link_eav]
      exact eav
    · rw [State.link_jeb]
      exact jeb
  case response =>
    have run : exec .relayResponse s = .next ((d.setSof fun x => { x with relays := x.relays.filter fun q => decide (q.tag ≠ r.tag) }).respond
        (agentSource agSoffit) (restored e.frame r.hdr)) := by
      show execRelayResponse s = _
      rw [execRelayResponse, first _ (by simp [found])]
      simp only [found]
    refine ⟨_, run, ?_, ?_, ?_, fun m towards => ?_⟩
    · rw [State.respond_relays, State.setSof, routes.sof]
    · rw [State.respond_eav]
      exact eav
    · rw [State.respond_jeb]
      exact jeb
    · obtain ⟨a, linked⟩ := (d.setSof fun x => { x with relays := x.relays.filter fun q => decide (q.tag ≠ r.tag) }).respondTo_port (e := m)
        (restored e.frame r.hdr) 0 (agentSource agSoffit) sound ((routes.dest _).trans towards)
      rw [State.respond, linked, State.link_gut, State.frames_link]
      exact ⟨routes.gut, (if_pos rfl).trans (congrArg (· ++ [restored e.frame r.hdr]) (others _ (portQueue_ne_soffit m.isLt _)))⟩

end Sys2Proof.Machine
end

section
/-! SUPPORT. Keys at the Jalem block (R157, R265 to R273): a KEY frame taken, the block's own KEY frames on its tray port, and what each of the
four actions leaves. -/
namespace Sys2Proof.Machine

open Sys2Proof

/-! ### A KEY frame taken -/

section
variable {s u : State} {p : PortRef} {f : Frame}

theorem State.jebKeyCheck_took (took : s.Took p f u) : u.jebKeyCheck p = s.jebKeyCheck p := by
  obtain ⟨⟨pending, done, ports, block⟩, ⟨retry, cred, err, port⟩, -⟩ := took
  funext h
  unfold State.jebKeyCheck Jeb.trayPartner
  rw [port, block]

/-- The commands for KEY frames at the block, with the ACTION and what each does once the frame is taken and has passed its checks. -/
def keyCommands (p : PortRef) (f : Frame) : List (Nat × Instr × (State → State)) :=
  [(1, .keyInstall p f, fun s => s.jebInstall p f), (2, .keyActivate p f, fun s => s.jebActivate p f),
    (3, .keyRetire p f, fun s => s.jebRetire p f.hdr), (4, .keyDestroy p f, fun s => s.jebDestroy p f.hdr)]

/-- A KEY frame that is its command's. -/
theorem isKey_of_action {h : Header} (op : h.opcode = opKey) : isKey h (keyAction h) = true := by simp [isKey, op]

theorem exec_key {c : Nat × Instr × (State → State)} (named : c ∈ keyCommands p f) (block : portDev p = .jalem) (op : f.hdr.opcode = opKey)
    (action : keyAction f.hdr = c.1) : exec c.2.1 s = .next (s.jebKey p f c.2.2) := by
  have key : (!isKey f.hdr c.1) = false := by rw [← action, isKey_of_action op, Bool.not_true]
  have ours : ¬ (!isKey f.hdr c.1) = true := by rw [key]; exact Bool.false_ne_true
  simp only [keyCommands, List.mem_cons, List.not_mem_nil, or_false] at named
  cases p with
  | module n => cases block
  | rafter q => obtain rfl | rfl | rfl | rfl := named <;> exact congrArg Host.Outcome.next (if_neg ours)
  | tray q => obtain rfl | rfl | rfl | rfl := named <;> exact congrArg Host.Outcome.next (if_neg ours)

/-- One that fails its checks is refused. -/
theorem State.jebKey_refused (took : s.Took p f (s.jebTake p f)) {c : Byte} (failed : s.jebKeyCheck p f.hdr = some c) (act : State → State) :
    s.jebKey p f act = (s.jebTake p f).jebRefuse p f.hdr c := by
  rw [State.jebKey, State.jebKeyCheck_took took, failed]

/-- One that passes them is acted on. -/
theorem State.jebKey_accepted (took : s.Took p f (s.jebTake p f)) (passed : s.jebKeyCheck p f.hdr = none) (act : State → State) :
    s.jebKey p f act = act (s.jebTake p f) := by
  rw [State.jebKey, State.jebKeyCheck_took took, passed]

/-- Of the block a refusal changes its ports and what it counts. -/
theorem State.Took.refused_block (block : portDev p = .jalem) (took : s.Took p f u) (course : f.hdr.course ≠ 6) (code : Byte) :
    ∃ pending done ports err1, (u.jebRefuse p f.hdr code).jeb =
      { s.jeb with zPending := pending, zDone := done, ports := ports, err1 := err1 } := by
  have sent : u.jebRefuse p f.hdr code = (u.updJeb fun j => j.bump1 16).jebSend p (errorFrame f.hdr code) := if_neg course
  obtain ⟨⟨ports, jeb⟩, -, -⟩ := took.answered block (k := fun j => j.bump1 16) (fun _ => rfl) (g := errorFrame f.hdr code) rfl
  obtain ⟨⟨pending, done, ports', taken⟩, -, -⟩ := took
  rw [sent, jeb, taken]
  exact ⟨_, _, _, _, rfl⟩

/-- The bay's tag and its trusted root stay at a frame taken. -/
theorem State.Took.sec (took : s.Took p f u) : u.sec = s.sec :=
  (congrArg State.sec (took.outside s.jeb)).trans (s.countFlash_sec p (frameSyndromes f))

end

/-! ### The block's own KEY frames on its tray port -/

section
variable {s : State} {p : PortRef}

/-- What a change of the block leaves that is not of its ports. -/
theorem State.port_updJeb {k : Jeb → Jeb} (kept : (k s.jeb).ports = s.jeb.ports) (p : PortRef) : (s.updJeb k).port p = s.port p := by
  cases p <;> simp only [State.port, State.updJeb, kept]

/-- AUX of the block's own ACTIVATE names its ACTION and its slot. -/
theorem keyAux_action (slot : BitVec 2) : fld (keyAux actActivate slot 0 0 0) 0 4 = 2 := by
  revert slot
  decide

theorem keyAux_slot (slot : BitVec 2) : BitVec.ofNat 2 (fld (keyAux actActivate slot 0 0 0) 4 2) = slot := by
  revert slot
  decide

/-- What waits to be announced at a port of the block changes nothing but that port's sealing. -/
theorem State.announce_if (s : State) (b : Bool) (d : KeyDue) (block : portDev p = .jalem) :
    let t := if b = true then s.announce p d else s
    (∃ ports, t = { s with jeb := { s.jeb with ports := ports } }) ∧ (∃ x, t.port p = { s.port p with sealing := x }) ∧
      ∀ q, q ≠ p → t.port q = s.port q := by
  cases b with
  | false => exact ⟨⟨_, rfl⟩, ⟨_, rfl⟩, fun _ _ => rfl⟩
  | true =>
    rw [if_pos rfl, State.announce]
    exact ⟨⟨_, s.updPort_ports block _⟩, ⟨_, s.port_updPort_same p _⟩, fun q off => s.port_updPort_ne p q _ off⟩

/-- A frame other than a SEG goes out as it is. -/
theorem State.jebSend_leaves (block : portDev p = .jalem) (s : State) {g : Frame} (plain : g.hdr.opcode ≠ opSeg) :
    (∃ ports, s.jebSend p g = { s with jeb := { s.jeb with ports := ports } }) ∧
      (s.jebSend p g).port p = { s.port p with txq := (s.port p).txq ++ [g] } ∧ ∀ q, q ≠ p → (s.jebSend p g).port q = s.port q := by
  rw [State.jebSend_asIs fun seg => absurd seg plain]
  exact ⟨⟨_, s.updPort_ports block _⟩, s.port_updPort_same p _, fun q off => s.port_updPort_ne p q _ off⟩

/-- A KEY frame of the block's own on an ACTIVE tray port 0: it waits for its acknowledgement, and stands last at the port. -/
theorem State.trayKey_active (s : State) (action : Nat) (slot : BitVec 2) (data : List Shingle)
    (active : (s.port (.tray 0)).train.state = .active) : let t := s.trayKey action slot data
    (∃ waits ports, t.jeb = { s.jeb with trayWaits := waits, ports := ports }) ∧ (∀ q, q ≠ .tray 0 → t.port q = s.port q) ∧ t.sec = s.sec ∧
      ∃ h, (t.port (.tray 0)).txq = (s.port (.tray 0)).txq ++ [{ hdr := h, data := data }] ∧ h.opcode = opKey ∧
        h.aux = keyAux action slot 0 0 0 := by
  dsimp only
  rw [State.trayKey, if_neg (by rw [active]; exact fun h => h rfl)]
  dsimp only
  generalize decide (action = actActivate) = b
  generalize kept : (s.updJeb fun j => { j with trayWaits := j.trayWaits ++
    [{ activate := b, slot := slot, engine := BitVec.ofNat 8 s.freeNat, tag := BitVec.ofNat 16 (s.freeNat / 256) }] }) = u
  have here (q : PortRef) : u.port q = s.port q := by
    rw [← kept]
    exact State.port_updJeb rfl q
  obtain ⟨⟨ports, all⟩, ⟨x, sealed⟩, others⟩ := u.announce_if (p := .tray 0) b
    { slot := slot, ack := false, engine := BitVec.ofNat 8 s.freeNat, tag := BitVec.ofNat 16 (s.freeNat / 256) } rfl
  generalize (if b = true then u.announce (.tray 0) _ else u) = v at *
  generalize hdr : Header.mk opKey _ _ _ _ _ _ _ _ _ _ _ _ _ _ = h
  have op : h.opcode = opKey := by rw [← hdr]
  have aux : h.aux = keyAux action slot 0 0 0 := by rw [← hdr]
  obtain ⟨⟨ports', sent⟩, queue, stay⟩ := State.jebSend_leaves (p := .tray 0) rfl v (g := { hdr := h, data := data }) (by rw [op]; decide)
  refine ⟨⟨u.jeb.trayWaits, ports', (congrArg State.jeb sent).trans ?_⟩, fun q off => (stay q off).trans ((others q off).trans (here q)),
    (congrArg State.sec sent).trans ?_, h, (congrArg Port.txq queue).trans ?_, op, aux⟩
  · rw [all, ← kept]
    rfl
  · rw [all, ← kept]
    rfl
  · rw [sealed, here]

/-- What a KEY frame of the block's own leaves, whether or not tray port 0 is ACTIVE. -/
theorem State.trayKey_leaves (s : State) (action : Nat) (slot : BitVec 2) (data : List Shingle) : let t := s.trayKey action slot data
    (∃ waits ports, t.jeb = { s.jeb with trayWaits := waits, ports := ports }) ∧ (∀ q, q ≠ .tray 0 → t.port q = s.port q) ∧ t.sec = s.sec := by
  by_cases active : (s.port (.tray 0)).train.state = .active
  · obtain ⟨block, others, sec, -⟩ := s.trayKey_active action slot data active
    exact ⟨block, others, sec⟩
  · dsimp only
    rw [State.trayKey, if_pos active]
    exact ⟨⟨_, _, rfl⟩, fun _ _ => rfl, rfl⟩

end

/-! ### INSTALL, ACTIVATE, RETIRE and DESTROY -/

section
variable {s : State} {p : PortRef} {f : Frame} {data : List (BitVec 256)}

/-- INSTALL and DESTROY pass the checks at a rafter port only (R131, R150). -/
theorem jebKeyCheck_rafter (block : portDev p = .jalem) {h : Header} (passed : s.jebKeyCheck p h = none)
    (action : keyAction h = 1 ∨ keyAction h = 4) : p ≠ .tray 0 := by
  rintro rfl
  unfold State.jebKeyCheck at passed
  dsimp only at passed
  have out : keyAction h = actInstall ∨ keyAction h = actDestroy := action
  rw [if_pos out] at passed
  split at passed <;> cases passed

/-- The block with a key in its slot, and with the tag and the rack of the first. -/
def Jeb.withKey (j : Jeb) (h : Header) (key : BitVec 256) : Jeb :=
  let k := { j with keys := Tab.put none j.keys (keySlot h).toNat (some { key := key, gen := keyGen h }) }
  if k.tagged then k else { k with tag := keyTagOf h, rack := keyRack h, tagged := true }

theorem State.jebInstall_stored {key : BitVec 256} (same : s.jeb.tagged = true → keyTagOf f.hdr = s.jeb.tag ∧ keyRack f.hdr = s.jeb.rack)
    (sound : controlData f = .ok data) (unwrapped : installKey s.jeb.transport data = some key) :
    let t := (s.updJeb fun j => j.withKey f.hdr key).jebSend p (ackFrame f.hdr)
    s.jebInstall p f = t ∨ s.jebInstall p f = t.trayActivate (keySlot f.hdr) := by
  have bay : ¬ (s.jeb.tagged = true ∧ (keyTagOf f.hdr ≠ s.jeb.tag ∨ keyRack f.hdr ≠ s.jeb.rack)) := by
    rintro ⟨tagged, other⟩
    obtain ⟨tag, rack⟩ := same tagged
    exact other.elim (· tag) (· rack)
  unfold State.jebInstall
  dsimp only
  rw [if_neg bay, sound]
  dsimp only
  rw [unwrapped]
  dsimp only
  split
  · exact .inl rfl
  · exact .inr rfl

/-- The block's own ACTIVATE on tray port 0 leaves the other ports, and of the block all but what the tray's keys need. -/
theorem State.trayActivate_leaves (s : State) (slot : BitVec 2) : let t := s.trayActivate slot
    (∃ retry waits ports, t.jeb = { s.jeb with retryAct := retry, trayWaits := waits, ports := ports }) ∧
      (∀ q, q ≠ .tray 0 → t.port q = s.port q) ∧ t.sec = s.sec := by
  obtain ⟨⟨waits, ports, block⟩, others, sec⟩ :=
    (s.updJeb fun j => { j with retryAct := some slot }).trayKey_leaves actActivate slot (activateData 0)
  exact ⟨⟨_, waits, ports, block⟩, fun q off => (others q off).trans (State.port_updJeb rfl q), sec⟩

/-- INSTALL leaves the key in its slot, the tag and the rack, and its acknowledgement. -/
theorem State.jebInstall_leaves (block : portDev p = .jalem) (rafter : p ≠ .tray 0) {key : BitVec 256}
    (same : s.jeb.tagged = true → keyTagOf f.hdr = s.jeb.tag ∧ keyRack f.hdr = s.jeb.rack)
    (sound : controlData f = .ok data) (unwrapped : installKey s.jeb.transport data = some key) : let t := s.jebInstall p f
    Tab.get none t.jeb.keys (keySlot f.hdr).toNat = some { key := key, gen := keyGen f.hdr } ∧ t.jeb.tagged = true ∧
      t.jeb.tag = keyTagOf f.hdr ∧ t.jeb.rack = keyRack f.hdr ∧ (t.port p).txq = (s.port p).txq ++ [ackFrame f.hdr] ∧
      t.jeb.mem = s.jeb.mem ∧ t.sec = s.sec := by
  have key_ : let j := s.jeb.withKey f.hdr key
      Tab.get none j.keys (keySlot f.hdr).toNat = some { key := key, gen := keyGen f.hdr } ∧ j.tagged = true ∧ j.tag = keyTagOf f.hdr ∧
        j.rack = keyRack f.hdr ∧ j.mem = s.jeb.mem ∧ j.ports = s.jeb.ports := by
    have slot := Tab.get_put_same none s.jeb.keys (keySlot f.hdr).toNat (some (LinkKey.mk key (keyGen f.hdr)))
    unfold Jeb.withKey
    dsimp only
    split
    · next tagged => exact ⟨slot, tagged, (same tagged).1.symm, (same tagged).2.symm, rfl, rfl⟩
    · exact ⟨slot, rfl, rfl, rfl, rfl, rfl⟩
  obtain ⟨keys, tagged, tag, rack, mem, ports⟩ := key_
  have here := State.port_updJeb (s := s) (k := fun j => j.withKey f.hdr key) ports p
  obtain ⟨⟨ports', sent⟩, queue, -⟩ := State.jebSend_leaves block (s.updJeb fun j => j.withKey f.hdr key) (g := ackFrame f.hdr)
    (by decide : opAck ≠ opSeg)
  have stored := State.jebInstall_stored (p := p) same sound unwrapped
  generalize (s.updJeb fun j => j.withKey f.hdr key).jebSend p (ackFrame f.hdr) = u at *
  have jeb := congrArg State.jeb sent
  dsimp only
  obtain stored | stored := stored
  · rw [stored, queue, here, sent]
    exact ⟨keys, tagged, tag, rack, rfl, mem, rfl⟩
  · obtain ⟨⟨retry, waits, ports'', left⟩, others, sec⟩ := u.trayActivate_leaves (keySlot f.hdr)
    rw [stored, others p rafter, queue, here, left, sec, sent]
    exact ⟨keys, tagged, tag, rack, rfl, mem, rfl⟩

theorem SealSt.expectFrom_due (x : SealSt) (slot : BitVec 2) (g : W64) : (x.expectFrom slot g).due = x.due := by
  unfold SealSt.expectFrom
  split <;> rfl

/-- A port that no group has reached opens from G. -/
theorem SealSt.expectFrom_first {x : SealSt} (closed : x.rxOn = false) (first : x.rxFirst = none) (slot : BitVec 2) (g : W64) :
    (x.expectFrom slot g).rxFirst = some g := by
  rw [SealSt.expectFrom, if_neg (by simp [closed, first])]

/-- ACTIVATE leaves its acknowledgement, which is to announce the block's own G′, and expects the sender's groups from G. -/
theorem State.jebActivate_leaves (block : portDev p = .jalem) {k : LinkKey} (held : s.portKey p (keySlot f.hdr) = some k)
    (sound : controlData f = .ok data) : let t := s.jebActivate p f
    let g : W64 := BitVec.ofNat 64 (fld (data.headD 0) 0 64)
    let x := (s.port p).sealing.expectFrom (keySlot f.hdr) g
    t.port p = { s.port p with
      sealing := { x with due := x.due ++ [⟨keySlot f.hdr, true, f.hdr.srcEngine, f.hdr.tag⟩] }, txq := (s.port p).txq ++ [ackFrame f.hdr] } ∧
    ∃ ports, t.jeb = { s.jeb with activeKey := keySlot f.hdr, ports := ports } := by
  dsimp only
  unfold State.jebActivate
  dsimp only
  rw [held, sound]
  dsimp only
  rw [State.jebSend_asIs (fun seg => absurd seg (by decide : opAck ≠ opSeg)), State.announce]
  refine ⟨?_, ?_⟩
  · rw [State.port_updPort_same, State.port_updJeb rfl, State.port_updPort_same, State.port_updPort_same]
    rfl
  · rw [State.updPort_ports block, State.updJeb, State.updPort_ports block, State.updPort_ports block s]
    exact ⟨_, rfl⟩

theorem Jeb.retireDone_tag (j : Jeb) : j.retireDone.tag = j.tag := by
  unfold Jeb.retireDone
  dsimp only
  split <;> rfl

/-- Retired slots destroyed leave what waits at a port of the block. -/
theorem State.retireDone_txq (block : portDev p = .jalem) (s : State) : ((s.updJeb Jeb.retireDone).port p).txq = (s.port p).txq := by
  cases p with
  | module n => cases block
  | rafter q =>
    obtain ⟨r, here⟩ := s.jeb.retireDone_get q.val
    exact (congrArg Port.txq here :)
  | tray q =>
    obtain ⟨r, here⟩ := s.jeb.retireDone_get (18 + q.val)
    exact (congrArg Port.txq here :)

/-- A RETIRE passed on to the tray partner leaves the port by which it came. -/
theorem State.passRetire_leaves (block : portDev p = .jalem) (s : State) (slot : BitVec 2) :
    let t := if isTray p then s else s.trayKey actRetire slot []
    (∃ waits ports, t.jeb = { s.jeb with trayWaits := waits, ports := ports }) ∧ t.port p = s.port p ∧ t.sec = s.sec := by
  cases p with
  | module n => cases block
  | rafter q =>
    obtain ⟨jeb, others, sec⟩ := s.trayKey_leaves actRetire slot []
    exact ⟨jeb, others _ nofun, sec⟩
  | tray q => exact ⟨⟨_, _, rfl⟩, rfl, rfl⟩

/-- RETIRE leaves its acknowledgement. -/
theorem State.jebRetire_leaves (block : portDev p = .jalem) (h : Header) : let t := s.jebRetire p h
    (t.port p).txq = (s.port p).txq ++ [ackFrame h] ∧ t.jeb.mem = s.jeb.mem ∧ t.jeb.tag = s.jeb.tag ∧ t.sec = s.sec := by
  obtain ⟨u, sealed⟩ : ∃ u, u = s.updPort p fun x => x.onSeal fun y => { y with retiring := some (keySlot h) } := ⟨_, rfl⟩
  have here : (u.port p).txq = (s.port p).txq := by
    rw [sealed, State.port_updPort_same]
    rfl
  obtain ⟨⟨ports, sent⟩, queue, -⟩ := State.jebSend_leaves block u (g := ackFrame h) (by decide : opAck ≠ opSeg)
  obtain ⟨⟨waits, ports', jeb⟩, port, sec⟩ := (u.jebSend p (ackFrame h)).passRetire_leaves block (keySlot h)
  have run : s.jebRetire p h =
      (if isTray p then u.jebSend p (ackFrame h) else (u.jebSend p (ackFrame h)).trayKey actRetire (keySlot h) []).updJeb Jeb.retireDone := by
    rw [sealed]
    rfl
  dsimp only
  rw [run, State.retireDone_txq block, port, queue, here, State.updJeb, Jeb.retireDone_mem, Jeb.retireDone_tag, jeb, sec, sent, sealed,
    State.updPort_ports block]
  exact ⟨rfl, rfl, rfl, rfl⟩

theorem Jeb.clearBay_get (j : Jeb) (i : Nat) :
    Tab.get Port.reset j.clearBay.ports i = (Tab.get Port.reset j.ports i).onSeal SealSt.unsealed :=
  Tab.get_mapAll Port.reset (fun x => x.onSeal SealSt.unsealed) j.ports i rfl

/-- DESTROY clears what the bay left, and leaves its acknowledgement. -/
theorem State.jebDestroy_leaves (block : portDev p = .jalem) (h : Header) : let t := s.jebDestroy p h
    t.port p = { s.port p with sealing := (s.port p).sealing.unsealed, txq := (s.port p).txq ++ [ackFrame h] } ∧
      (∃ ports transport waits, t.jeb = { s.jeb.clearBay with ports := ports, transport := transport, waits := waits }) ∧ t.sec = s.sec := by
  dsimp only
  rw [State.jebDestroy, State.endWaits_eq]
  generalize cleared : (State.spend _ 2) = u
  have here : u.port p = (s.port p).onSeal SealSt.unsealed := by
    rw [← cleared]
    cases p with
    | module n => cases block
    | rafter q => exact s.jeb.clearBay_get q.val
    | tray q => exact s.jeb.clearBay_get (18 + q.val)
  obtain ⟨⟨ports, sent⟩, queue, -⟩ := State.jebSend_leaves block u (g := ackFrame h) (by decide : opAck ≠ opSeg)
  rw [queue, here, sent, ← cleared]
  exact ⟨rfl, ⟨_, _, _, rfl⟩, rfl⟩

end

/-! ### At a module (R269) -/

/-- A KEY frame that a module does not accept is answered NO_RIGHT. -/
theorem State.moduleKey_stranger {u s : State} {n : Fin 144} {f : Frame} (taken : s.agentTake agSoffit n f = .ok u) {act : Option (State → State)}
    (stranger : act = none ∨ u.hipPartner n f.hdr = false) : s.moduleKey n f act = u.answer n (errorFrame f.hdr stNoRight) := by
  rw [State.moduleKey, taken]
  cases act with
  | none => rfl
  | some a =>
    have other : u.hipPartner n f.hdr = false := stranger.resolve_left nofun
    simp only [other, Bool.false_eq_true, if_false]

theorem exec_key_module {u s : State} {n : Fin 144} {f : Frame} {c : Nat × Instr × (State → State)} (named : c ∈ keyCommands (.module n) f)
    (op : f.hdr.opcode = opKey) (action : keyAction f.hdr = c.1) (taken : s.agentTake agSoffit n f = .ok u)
    (stranger : c.1 = 2 ∨ c.1 = 3 → u.hipPartner n f.hdr = false) :
    exec c.2.1 s = .next (u.answer n (errorFrame f.hdr stNoRight)) := by
  have key : (!isKey f.hdr c.1) = false := by rw [← action, isKey_of_action op, Bool.not_true]
  have ours : ¬ (!isKey f.hdr c.1) = true := by rw [key]; exact Bool.false_ne_true
  simp only [keyCommands, List.mem_cons, List.not_mem_nil, or_false] at named
  obtain rfl | rfl | rfl | rfl := named
  · exact congrArg Host.Outcome.next ((if_neg ours).trans (State.moduleKey_stranger taken (.inl rfl)))
  · exact congrArg Host.Outcome.next ((if_neg ours).trans (State.moduleKey_stranger taken (.inr (stranger (.inl rfl)))))
  · exact congrArg Host.Outcome.next ((if_neg ours).trans (State.moduleKey_stranger taken (.inr (stranger (.inr rfl)))))
  · exact congrArg Host.Outcome.next ((if_neg ours).trans (State.moduleKey_stranger taken (.inl rfl)))

/-- The commands that the statement names are those for KEY frames. -/
theorem exists_keyCommand {p : PortRef} {f : Frame} {a : Nat} {i : Instr}
    (named : (a, i) ∈ [(1, Instr.keyInstall p f), (2, .keyActivate p f), (3, .keyRetire p f), (4, .keyDestroy p f)]) :
    ∃ act, (a, i, act) ∈ keyCommands p f := by
  simp only [List.mem_cons, List.not_mem_nil, or_false, Prod.mk.injEq] at named
  simp only [keyCommands, List.mem_cons, List.not_mem_nil, or_false, Prod.mk.injEq]
  obtain ⟨rfl, rfl⟩ | ⟨rfl, rfl⟩ | ⟨rfl, rfl⟩ | ⟨rfl, rfl⟩ := named <;> simp

/-- Settles O44: a KEY frame refused by `Took.refused`, each of the four actions by what it leaves of a frame taken, the module's answer by
`exec_key_module`, the retry by `trayKey_active`. -/
theorem keysAtJalem : Obligations.KeysAtJalem := by
  refine ⟨fun s p f block op => ⟨fun a i c named action course failed => ?refused, fun passed =>
      ⟨fun data key action same sound unwrapped => ?install, fun data k action held sound => ?activate, fun action => ?retire,
        fun action => ?destroy⟩⟩,
    fun s u n f a i op taken named action stranger => ?module, fun s slot due active => ?retry, fun s => ?reset⟩
  case refused =>
    obtain ⟨act, command⟩ := exists_keyCommand named
    have took := State.jebTake_took block s f
    have run := (exec_key command block op action).trans (congrArg _ (State.jebKey_refused took failed act))
    obtain ⟨-, queue, err1, frame⟩ := took.refused block course c
    obtain ⟨pending, done, ports, err1', jeb⟩ := took.refused_block block course c
    refine ⟨_, run, queue, ?_, ?_, err1, frame⟩
    · rw [jeb]
    · rw [jeb]
  case install =>
    have took := State.jebTake_took block s f
    have run := (exec_key (p := p) (.head _) block op action).trans (congrArg _ (State.jebKey_accepted took passed fun s => s.jebInstall p f))
    obtain ⟨⟨pending, done, ports, jeb⟩, ⟨retry, cred, err, port⟩, -⟩ := id took
    obtain ⟨stored, tagged, tag, rack, queue, mem, sec⟩ := State.jebInstall_leaves block (jebKeyCheck_rafter block passed (.inl action))
      (s := s.jebTake p f) (by rw [jeb]; exact same) sound (by rw [jeb]; exact unwrapped)
    refine ⟨_, run, stored, tagged, tag, rack, queue.trans ?_, mem.trans ?_, sec.trans took.sec⟩
    · rw [port]
    · rw [jeb]
  case activate =>
    have took := State.jebTake_took block s f
    have run := (exec_key (p := p) (.tail _ (.head _)) block op action).trans
      (congrArg _ (State.jebKey_accepted took passed fun s => s.jebActivate p f))
    obtain ⟨⟨pending, done, ports, jeb⟩, ⟨retry, cred, err, port⟩, -⟩ := id took
    have held' : (s.jebTake p f).portKey p (keySlot f.hdr) = some k := by
      cases p with
      | module n => cases block
      | rafter q => exact (congrArg (fun j : Jeb => Tab.get none j.keys (keySlot f.hdr).toNat) jeb).trans held
      | tray q => exact (congrArg (fun j : Jeb => Tab.get none j.keys (keySlot f.hdr).toNat) jeb).trans held
    obtain ⟨here, ports', left⟩ := State.jebActivate_leaves block held' sound
    rw [port] at here
    rw [jeb] at left
    refine ⟨_, run, ?_, ?_, fun closed first => ?_, ?_, ?_, ?_⟩
    · rw [here]
    · rw [here]
      exact congrArg (· ++ _) ((s.port p).sealing.expectFrom_due _ _)
    · rw [here]
      exact SealSt.expectFrom_first closed first _ _
    · rw [left]
    · rw [left]
    · rw [left]
  case retire =>
    have took := State.jebTake_took block s f
    have run := (exec_key (p := p) (.tail _ (.tail _ (.head _))) block op action).trans
      (congrArg _ (State.jebKey_accepted took passed fun s => s.jebRetire p f.hdr))
    obtain ⟨⟨pending, done, ports, jeb⟩, ⟨retry, cred, err, port⟩, -⟩ := id took
    obtain ⟨queue, mem, tag, sec⟩ := State.jebRetire_leaves block (s := s.jebTake p f) f.hdr
    refine ⟨_, run, queue.trans ?_, mem.trans ?_, tag.trans ?_, sec.trans took.sec⟩
    · rw [port]
    · rw [jeb]
    · rw [jeb]
  case destroy =>
    have took := State.jebTake_took block s f
    have run := (exec_key (p := p) (.tail _ (.tail _ (.tail _ (.head _)))) block op action).trans
      (congrArg _ (State.jebKey_accepted took passed fun s => s.jebDestroy p f.hdr))
    obtain ⟨⟨pending, done, ports, jeb⟩, ⟨retry, cred, err, port⟩, -⟩ := id took
    obtain ⟨here, ⟨ports', transport, waits, left⟩, sec⟩ := State.jebDestroy_leaves block (s := s.jebTake p f) f.hdr
    rw [port] at here
    rw [jeb] at left
    refine ⟨_, run, ?_⟩
    dsimp only
    rw [here, left]
    exact ⟨rfl, rfl, rfl, rfl, rfl, rfl, rfl, rfl, rfl, rfl, rfl, rfl, sec.trans took.sec⟩
  case module =>
    obtain ⟨act, command⟩ := exists_keyCommand named
    exact exec_key_module command op action taken stranger
  case retry =>
    have run : exec (.activateRetry slot) s = .next (s.trayActivate slot) := congrArg _ (if_pos due)
    obtain ⟨⟨waits, ports, jeb⟩, -, sec, h, queue, key, aux⟩ :=
      (s.updJeb fun j => { j with retryAct := some slot }).trayKey_active actActivate slot (activateData 0) active
    refine ⟨_, run, _, queue, key, ?_, ?_, (congrArg Jeb.mem jeb :), sec⟩
    · rw [keyAction, aux]
      exact keyAux_action slot
    · rw [keySlot, aux]
      exact keyAux_slot slot
  case reset =>
    have run : exec .jebReset s = .next (State.spend _ 2) := congrArg (fun t => Host.Outcome.next (State.spend t 2)) (State.endWaits_eq _)
    exact ⟨_, run, rfl, rfl, rfl, rfl, rfl, rfl, rfl, rfl, rfl, rfl, rfl, rfl, rfl, rfl⟩

end Sys2Proof.Machine
end

section
/-! SUPPORT. What completions leave at the engines of the Jalem block (R144, R147, R171, R173): a transfer or a fence that ends reports it, advances
a counter and leaves its queue; nothing else of the block changes while no response is held. -/
namespace Sys2Proof.Machine

open Sys2Proof

/-! ### A completion is told (R147) -/

/-- A completion: told before anything else, and counted at the counter that it names. -/
theorem State.finish_eq (s : State) (e : Byte) (id : Nat) (comp : Option (BitVec 12)) (code : Byte) (value : W64) : ∃ sig waits out,
    s.finish e id comp code value =
      { s with jeb := { s.jeb with sig := sig, waits := waits }, outputs := s.outputs ++ [.done e id code value] ++ out } ∧
    (comp = none → out = [] ∧ sig = s.jeb.sig) ∧
    ∀ c, comp = some c → ∀ k, Tab.get 0 sig k = Tab.get 0 s.jeb.sig k + if k = c.toNat then 1 else 0 := by
  unfold State.finish
  cases comp with
  | none => exact ⟨s.jeb.sig, s.jeb.waits, [], by rw [List.append_nil]; rfl, fun _ => ⟨rfl, rfl⟩, nofun⟩
  | some c =>
    obtain ⟨waits, out, advanced⟩ := (s.done e id code value).advance_eq c.toNat
    exact ⟨_, waits, out, advanced, nofun, fun d same k => Option.some.inj same ▸ Tab.get_upd_counter _ c.isLt k⟩

/-! ### Queues that are empty, or hold one item -/

theorem breakFences_nil (id : Nat) (i : QItem) : breakFences id i [] = [] := rfl

theorem Engine.failWrite_empty {g : Engine} (empty : g.queue = []) (id : Nat) : (g.failWrite id).queue = [] := by
  unfold Engine.failWrite
  rw [empty]
  simp only [List.drop_nil, breakRelease]
  split
  · exact empty
  · rfl

theorem Engine.dropItem_empty {g : Engine} (empty : g.queue = []) (id : Nat) : (g.dropItem id).queue = [] := by
  simp [Engine.dropItem, empty, removeItem]

/-- An item that leaves a queue of its own leaves it empty. -/
theorem Engine.dropItem_alone {g : Engine} {i : QItem} (alone : g.queue = [i]) : (g.dropItem i.id).queue = [] := by
  have found : g.queue.find? (fun k => decide (k.id = i.id)) = some i := by simp [alone]
  unfold Engine.dropItem
  rw [found]
  dsimp only
  have broken : breakFences i.id i g.queue = [i] := by rw [alone, breakFences_alone]
  rw [broken]
  split
  · rw [Engine.failWrite_alone (i := i) rfl, removeItem_alone]
  · exact removeItem_alone i

/-! ### What completions change -/

/-- What completions leave from one state to another: what was told stays told, an empty queue stays empty, and nothing but the queues, the
counters and the waits on them, and the counts of errors has changed. -/
structure State.Settles (s t : State) : Prop where
  outputs : s.outputs <+: t.outputs
  idle : ∀ e, (s.engine e).queue = [] → (t.engine e).queue = []
  rest : t = { s with outputs := t.outputs, jeb := { s.jeb with
    engines := t.jeb.engines, sig := t.jeb.sig, waits := t.jeb.waits, err1 := t.jeb.err1, ordErr := t.jeb.ordErr } }

section
variable {s t u : State}

theorem State.Settles.refl (s : State) : s.Settles s := ⟨List.prefix_refl _, fun _ empty => empty, rfl⟩

theorem State.Settles.trans (first : s.Settles t) (second : t.Settles u) : s.Settles u :=
  ⟨first.outputs.trans second.outputs, fun e empty => second.idle e (first.idle e empty),
    second.rest.trans (congrArg (fun v : State => { v with outputs := u.outputs, jeb := { v.jeb with
      engines := u.jeb.engines, sig := u.jeb.sig, waits := u.jeb.waits, err1 := u.jeb.err1, ordErr := u.jeb.ordErr } }) first.rest)⟩

theorem State.Settles.reqs (settles : s.Settles t) : t.jeb.reqs = s.jeb.reqs := by rw [settles.rest]

theorem State.Settles.foldl {β : Type} (f : State → β → State) (l : List β)
    (each : ∀ t, s.Settles t → ∀ x ∈ l, t.Settles (f t x)) (start : s.Settles t) : s.Settles (l.foldl f t) := by
  induction l generalizing t with
  | nil => exact start
  | cons x l ih => exact ih (fun u at_ y mem => each u at_ y (List.mem_cons_of_mem x mem)) (start.trans (each t start x List.mem_cons_self))

end

section
variable (s : State)

theorem State.setEngine_settles (e : Byte) {g : Engine} (empty : (s.engine e).queue = [] → g.queue = []) : s.Settles (s.setEngine e g) := by
  refine ⟨List.prefix_refl _, fun k idle => ?_, rfl⟩
  rw [State.engine_setEngine]
  split
  · next same => exact empty (same ▸ idle)
  · exact idle

theorem State.finish_settles (e : Byte) (id : Nat) (comp : Option (BitVec 12)) (code : Byte) (value : W64) :
    s.Settles (s.finish e id comp code value) := by
  obtain ⟨sig, waits, out, told, -⟩ := s.finish_eq e id comp code value
  rw [told]
  exact ⟨(List.prefix_append _ _).trans (List.prefix_append _ _), fun _ empty => empty, rfl⟩

/-- What leaves the block's queues and its ports, a count of errors apart. -/
theorem State.updErrs_settles {err1 ordErr : W64} : s.Settles (s.updJeb fun j => { j with err1 := err1, ordErr := ordErr }) :=
  ⟨List.prefix_refl _, fun _ empty => empty, rfl⟩

/-- A transfer's completion: what it does to its queue, before it is told. -/
theorem State.completeXfer_told (e : Byte) (x : Xfer) (code : Byte) :
    ∃ u : State, s.Settles u ∧ u.outputs = s.outputs ∧ s.completeXfer e x code = u.endTransfer e x.id x.t code x.value := by
  obtain ⟨g, empty, ends⟩ : ∃ g : Engine, ((s.engine e).queue = [] → g.queue = []) ∧
      s.completeXfer e x code = (if code = stPoisoned then (s.setEngine e g).updJeb fun j => j.bump1 0 else s.setEngine e g).endTransfer
        e x.id x.t code x.value := by
    refine ⟨_, fun empty => ?_, rfl⟩
    have broken : (if code = 0 then s.engine e else { s.engine e with queue := breakFences x.id (.xfer x) (s.engine e).queue }).queue = [] := by
      split
      · exact empty
      · rw [empty, breakFences_nil]
    dsimp only
    split
    · rw [Engine.failWrite_empty broken, removeItem, List.filter_nil]
    · rw [broken, removeItem, List.filter_nil]
  refine ⟨_, ?_, ?_, ends⟩
  · split
    · exact (s.setEngine_settles e empty).trans (State.updErrs_settles _)
    · exact s.setEngine_settles e empty
  · split <;> rfl

theorem State.completeXfer_settles (e : Byte) (x : Xfer) (code : Byte) :
    s.Settles (s.completeXfer e x code) ∧ (s.outputs ++ [.done e x.id code x.value]) <+: (s.completeXfer e x code).outputs := by
  obtain ⟨u, before, silent, told⟩ := s.completeXfer_told e x code
  obtain ⟨sig, waits, out, finished, -⟩ := u.finish_eq e x.id x.t.comp code x.value
  rw [told]
  refine ⟨before.trans (u.finish_settles e x.id x.t.comp code x.value), ?_⟩
  rw [State.endTransfer, finished, ← silent]
  exact List.prefix_append _ _

/-- Nothing is freed while no response is held. -/
theorem State.freedReq_unheld (e : Byte) (unheld : ∀ r ∈ s.jeb.reqs, r.held = []) : s.freedReq e = none := by
  rw [State.freedReq, List.find?_eq_none]
  intro r mem
  simp [unheld r mem]

/-- A fence that has been met leaves its queue and completes. -/
theorem State.endFence_settles (e : Byte) (id : Nat) (comp : Option (BitVec 12)) (broken : Bool) :
    let u := s.setEngine e { s.engine e with queue := removeItem (s.engine e).queue id }
    s.Settles ((if broken then u.updJeb fun j => j.bumpOrd 16 else u).finish e id comp (if broken then 0x53 else 0) 0) := by
  have left : s.Settles (s.setEngine e { s.engine e with queue := removeItem (s.engine e).queue id }) :=
    s.setEngine_settles e fun empty => by rw [empty, removeItem, List.filter_nil]
  refine State.Settles.trans ?_ (State.finish_settles _ e id comp _ 0)
  split
  · exact left.trans (State.updErrs_settles _)
  · exact left

/-- Settling, while no response is held. -/
theorem State.settle_settles (unheld : ∀ r ∈ s.jeb.reqs, r.held = []) (e : Byte) (n : Nat) : s.Settles (s.settle e n) := by
  induction n generalizing s with
  | zero => exact .refl s
  | succ n ih =>
    have next {t : State} (step : s.Settles t) : s.Settles (t.settle e n) :=
      step.trans (ih t (by rw [step.reqs]; exact unheld))
    rw [State.settle, s.freedReq_unheld e unheld]
    dsimp only
    split
    · exact next (s.completeXfer_settles e _ _).1
    · split
      · exact next (s.endFence_settles e _ _ _)
      · exact .refl s

theorem State.settleAll_settles (unheld : ∀ r ∈ s.jeb.reqs, r.held = []) (e : Byte) : s.Settles (s.settleAll e) := s.settle_settles unheld e _

theorem State.settleEvery_settles (unheld : ∀ r ∈ s.jeb.reqs, r.held = []) : s.Settles s.settleEvery :=
  .foldl _ _ (fun t before _ _ => t.settleAll_settles (by rw [before.reqs]; exact unheld) _) (.refl s)

theorem State.endItem_settles (e : Byte) (i : QItem) (code : Byte) : s.Settles (s.endItem e i code) := by
  cases i <;> exact s.finish_settles e _ _ _ _

/-- Squashing a task's transfers. -/
theorem State.squash_settles (task : W16) (id : Nat) : s.Settles (s.squash task id) := by
  refine .foldl _ _ (fun t _ k _ => ?_) (.refl s)
  refine .foldl _ _ (fun v _ j _ => ?_) (.refl t)
  split
  · exact (v.setEngine_settles _ fun empty => Engine.dropItem_empty empty _).trans (State.endItem_settles _ _ _ _)
  · exact .refl v

/-! ### An engine at rest settles nothing -/

variable {s} {e : Byte}

theorem State.settle_rest (freed : s.freedReq e = none) (empty : (s.engine e).queue = []) (n : Nat) : s.settle e n = s := by
  cases n with
  | zero => rfl
  | succ n =>
    have whole : s.wholeXfer e = none := by simp [State.wholeXfer, empty]
    have fence : s.metFence e = none := by simp [State.metFence, empty]
    simp only [State.settle, freed, whole, fence]

/-- An engine without a request outstanding has none to free. -/
theorem State.freedReq_idle (none_ : ∀ r ∈ s.jeb.reqs, r.hdr.srcEngine ≠ e) : s.freedReq e = none := by
  rw [State.freedReq, List.find?_eq_none]
  intro r mem
  simp [none_ r mem]

/-- An item appended to an engine's empty queue stands there alone. -/
theorem State.enqueue_empty (empty : (s.engine e).queue = []) (boundary : Bool) (i : Bool → QItem) :
    ∃ g : Engine, s.enqueue e boundary i = s.setEngine e g ∧ g.queue = [i (boundary && (s.engine e).writeFailed)] := by
  refine ⟨_, rfl, ?_⟩
  rw [empty, List.nil_append]

end

/-! ### Settling with responses held -/

/-- What settling leaves in any case: what was told stays told, no request is added, and nothing outside the block changes. -/
structure State.Within (s t : State) : Prop where
  outputs : s.outputs <+: t.outputs
  reqs : t.jeb.reqs.length ≤ s.jeb.reqs.length
  rest : t = { s with outputs := t.outputs, jeb := t.jeb }

section
variable {s t u : State}

theorem State.Settles.within (settles : s.Settles t) : s.Within t :=
  ⟨settles.outputs, by rw [settles.reqs], settles.rest.trans (by rw [settles.rest])⟩

theorem State.Within.refl (s : State) : s.Within s := (State.Settles.refl s).within

theorem State.Within.trans (first : s.Within t) (second : t.Within u) : s.Within u :=
  ⟨first.outputs.trans second.outputs, second.reqs.trans first.reqs,
    second.rest.trans (congrArg (fun v : State => { v with outputs := u.outputs, jeb := u.jeb }) first.rest)⟩

theorem State.updJeb_within {f : Jeb → Jeb} (reqs : (f s.jeb).reqs.length ≤ s.jeb.reqs.length) : s.Within (s.updJeb f) :=
  ⟨List.prefix_refl _, reqs, rfl⟩

theorem State.endReq_within (s : State) (r : Req) (st : Byte) : s.Within (s.endReq r st) := by
  have forgotten : s.Within (s.updJeb fun j => (j.forget r).drain) := by
    refine State.updJeb_within ?_
    obtain ⟨moved, done, drained⟩ := (s.jeb.forget r).drain_eq
    rw [drained]
    exact List.length_filter_le _ _
  unfold State.endReq
  dsimp only
  split
  · exact forgotten
  · exact forgotten.trans (State.updJeb_within (le_refl _))

theorem State.landFrame_within (s : State) (r : Req) (x : Xfer) (f : Frame) : s.Within (s.landFrame r x f).1 := by
  unfold State.landFrame
  split
  · dsimp only
    split
    · exact .refl s
    · exact ⟨List.prefix_refl _, le_refl _, rfl⟩
  · split
    · split
      · exact ⟨List.prefix_refl _, le_refl _, rfl⟩
      · exact .refl s
    · split
      · exact ⟨List.prefix_refl _, le_refl _, rfl⟩
      · exact .refl s

theorem State.takeResponse_within (s : State) (r : Req) (f : Frame) : s.Within (s.takeResponse r f) := by
  unfold State.takeResponse
  split
  · exact s.endReq_within r _
  · next x _ =>
    have landed := s.landFrame_within r x f
    dsimp only
    split
    · exact landed.trans (State.endReq_within _ r _)
    · split
      · exact landed
      · exact landed.trans (State.updJeb_within (le_refl _))

theorem State.settle_within (s : State) (e : Byte) (n : Nat) : s.Within (s.settle e n) := by
  induction n generalizing s with
  | zero => exact .refl s
  | succ n ih =>
    have next {t : State} (step : s.Within t) : s.Within (t.settle e n) := step.trans (ih t)
    unfold State.settle
    split
    · next r _ =>
      refine next (List.foldlRecOn r.held _ (State.updJeb_within ?_) fun t before f _ => before.trans (t.takeResponse_within r f))
      exact (List.length_map _).le
    · split
      · exact next (s.completeXfer_settles e _ _).1.within
      · split
        · exact next (s.endFence_settles e _ _ _).within
        · exact .refl s

theorem State.settleAll_within (s : State) (e : Byte) : s.Within (s.settleAll e) := s.settle_within e _

end

end Sys2Proof.Machine
end

section
/-! SUPPORT. Fences of an idle engine (R164, R173), and the fault ring's head and resumption while nothing is parked (R144, R145). -/
namespace Sys2Proof.Machine

open Sys2Proof

/-! ### A fence -/

section
variable {s : State}

/-- The fence that stands alone in its engine's queue is met: it leaves the queue and completes. -/
theorem State.settleAll_fence {e : Byte} {id : Nat} {f : FenceReq} (queue : (s.engine e).queue = [.fence id f false])
    (idle : ∀ r ∈ s.jeb.reqs, r.hdr.srcEngine ≠ e) :
    ∃ g : Engine, g.queue = [] ∧ s.settleAll e = (s.setEngine e g).finish e id f.comp 0 0 := by
  have whole : s.wholeXfer e = none := by simp [State.wholeXfer, queue]
  have fence : s.metFence e = some (id, f, false) := by simp [State.metFence, queue, itemsBefore, QItem.id]
  refine ⟨{ s.engine e with queue := removeItem (s.engine e).queue id }, ?_, ?_⟩
  · rw [queue]
    exact removeItem_alone (.fence id f false)
  · simp only [State.settleAll, State.settle, State.freedReq_idle idle, whole, fence, Bool.false_eq_true, if_false]
    obtain ⟨sig, waits, out, told, -⟩ := (s.setEngine e { s.engine e with queue := removeItem (s.engine e).queue id }).finish_eq e id f.comp 0 0
    rw [told]
    refine State.settle_rest (State.freedReq_idle ?_) ?_ _
    · exact idle
    refine (congrArg Engine.queue (State.engine_setEngine_same ..)).trans ?_
    rw [queue]
    exact removeItem_alone (.fence id f false)

/-- A fence of an idle engine that is queued is met at once. -/
theorem State.fence_queued {e : Byte} {f : FenceReq} (idle : s.idleEngine e) (id : Nat) : ∃ u : State,
    (s.enqueue e true fun _ => .fence id f false).settleAll e = u.finish e id f.comp 0 0 ∧ (u.engine e).queue = [] ∧
      u = { s with jeb := { s.jeb with engines := u.jeb.engines } } := by
  obtain ⟨empty, none_⟩ := idle
  obtain ⟨g, queued, queue⟩ := State.enqueue_empty empty true fun _ => .fence id f false
  obtain ⟨h, left, settled⟩ := State.settleAll_fence (s := s.setEngine e g) (e := e) (f := f)
    ((congrArg Engine.queue (State.engine_setEngine_same ..)).trans queue) none_
  exact ⟨_, (congrArg (State.settleAll · e) queued).trans settled, (congrArg Engine.queue (State.engine_setEngine_same ..)).trans left, rfl⟩

/-- A fence of an idle engine, from the state in which it is told. -/
theorem exec_fence (f : FenceReq) (engine : f.engine.toNat < 0xFE) (idle : s.idleEngine f.engine) : ∃ u : State,
    exec (.fence f) s = .next (u.finish f.engine s.jeb.nextXfer f.comp
      (if s.jeb.stopped then stTeardown else if 3 ≤ f.kind.toNat ∨ f.ord ≠ 0 then 0x54 else 0) 0) ∧
    (u.engine f.engine).queue = [] ∧
    u = { s with jeb := { s.jeb with nextXfer := s.jeb.nextXfer + 1, engines := u.jeb.engines, ordErr := u.jeb.ordErr } } := by
  have accepted : ¬ 0xFE ≤ f.engine.toNat := by omega
  show ∃ u : State, execFence f s = _ ∧ _
  unfold execFence
  rw [if_neg accepted, State.nextId]
  dsimp only
  obtain ⟨w, hw⟩ : ∃ w, w = s.updJeb fun j => { j with nextXfer := j.nextXfer + 1 } := ⟨_, rfl⟩
  have stopped : w.jeb.stopped = s.jeb.stopped := by rw [hw]; rfl
  rw [← hw, stopped]
  split
  · subst hw
    exact ⟨_, rfl, idle.1, rfl⟩
  · split
    · subst hw
      exact ⟨_, rfl, idle.1, rfl⟩
    · have idle' : w.idleEngine f.engine := by rw [hw]; exact idle
      obtain ⟨u, settled, empty, rest⟩ := State.fence_queued (f := f) idle' s.jeb.nextXfer
      refine ⟨u, congrArg _ settled, empty, rest.trans ?_⟩
      rw [rest, hw]
      rfl

/-! ### Nothing is parked -/

/-- An engine with nothing parked unparks nothing. -/
theorem State.unpark_none {e : Byte} (clear : ∀ i ∈ (s.engine e).queue, ∀ id x b c, i ≠ .parked id x b c) : s.unpark e = s := by
  refine List.foldl_fixed' (fun id => ?_) _
  cases found : (s.engine e).queue.find? fun i => decide (i.id = id) with
  | none => rfl
  | some i =>
    cases i with
    | parked j x b c => exact absurd rfl (clear _ (List.mem_of_find?_eq_some found) j x b c)
    | xfer x => rfl
    | fence j f b => rfl

/-- While nothing is parked, unparking only writes the records that wait for space. -/
theorem State.unparkAll_none (clear : ∀ k, ∀ i ∈ (s.engine k).queue, ∀ id x b c, i ≠ .parked id x b c)
    (engines : (s.jeb.writeWaiting s.jeb.fltWait.length).engines = s.jeb.engines) :
    s.unparkAll = s.updJeb fun j => j.writeWaiting j.fltWait.length := by
  have same (k : Byte) : (s.updJeb fun j => j.writeWaiting j.fltWait.length).engine k = s.engine k :=
    congrArg (fun t => Tab.get Engine.reset t k.toNat) engines
  refine List.foldl_fixed' (f := fun s k => State.unpark s (BitVec.ofNat 8 k)) (fun k => State.unpark_none ?_) _
  rw [same]
  exact clear _

/-- While no record waits either, unparking does nothing. -/
theorem State.unparkAll_clear (clear : ∀ k, ∀ i ∈ (s.engine k).queue, ∀ id x b c, i ≠ .parked id x b c) (empty : s.jeb.fltWait = []) :
    s.unparkAll = s := by
  have nothing : s.jeb.writeWaiting s.jeb.fltWait.length = s.jeb := by rw [empty]; rfl
  rw [State.unparkAll_none clear (by rw [nothing]), State.updJeb, nothing]

end

/-- Settles O36: a fence by the state in which it is told; the ring by what unparking does while nothing is parked. -/
theorem fencesAndFaultRing : Obligations.FencesAndFaultRing := by
  refine ⟨fun s f engine idle => ?fence, fun s clear => ⟨fun empty task => ?resume, fun empty v => ?head, fun f b v waits space => ?written⟩⟩
  case fence =>
    obtain ⟨u, run, queue, rest⟩ := exec_fence f engine idle
    obtain ⟨sig, waits, out, told, silent, counted⟩ := u.finish_eq f.engine s.jeb.nextXfer f.comp
      (if s.jeb.stopped then stTeardown else if 3 ≤ f.kind.toNat ∨ f.ord ≠ 0 then 0x54 else 0) 0
    have outputs : u.outputs = s.outputs := by rw [rest]
    have sig_ : u.jeb.sig = s.jeb.sig := by rw [rest]
    rw [told, outputs] at run
    refine ⟨_, run, List.prefix_append _ _, fun none_ => ?_, fun c named k => ?_, queue, ?_, ?_⟩
    · obtain ⟨out_, same⟩ := silent none_
      exact ⟨by rw [out_, List.append_nil], same.trans sig_⟩
    · rw [← sig_]
      exact counted c named k
    · rw [rest]
    · rw [rest]
  case resume =>
    exact congrArg Host.Outcome.next (State.unparkAll_clear (s := s.updJeb fun j => { j with faulted := j.faulted.filter fun t => decide (t ≠ task) })
      clear empty)
  case head =>
    refine ⟨_, congrArg Host.Outcome.next (State.unparkAll_clear (s := s.updJeb _) clear empty), ofNat_fld_toNat v 0 16, rfl, ?_⟩
    have head := ofNat_fld_toNat v 0 16
    simp only [State.updJeb, head, Bool.and_eq_true, decide_eq_true_eq]
  case written =>
    obtain ⟨w, hw⟩ : ∃ w, w = s.updJeb fun j => { j with
      fltHead := BitVec.ofNat 16 (fld v 0 16)
      event := j.event && decide ((BitVec.ofNat 16 (fld v 0 16)).toNat % ringSize j.fltSize ≠ j.fltTail.toNat % ringSize j.fltSize) } := ⟨_, rfl⟩
    have run : exec (.jebFltHead v) s = .next w.unparkAll := by rw [hw]; rfl
    have waits' : w.jeb.fltWait = [(f, b)] := by rw [hw]; exact waits
    have space' : w.jeb.fltFull = false := by
      have head := ofNat_fld_toNat v 0 16
      rw [hw]
      exact decide_eq_false (by dsimp only [State.updJeb]; rw [head]; exact space)
    obtain ⟨g, one⟩ := Jeb.writeWaiting_one waits' space'
    have all : w.jeb.writeWaiting w.jeb.fltWait.length = ({ w.jeb with fltWait := [], genWait := g } : Jeb).recordFault f b := by
      rw [waits']
      exact one
    have unparked := State.unparkAll_none (s := w) (by rw [hw]; exact clear) (by rw [all]; rfl)
    rw [unparked, State.updJeb, all] at run
    have at_ := ({ w.jeb with fltWait := [], genWait := g } : Jeb).recordFault_at f b
    rw [hw] at run at_
    exact ⟨_, run, rfl, rfl, rfl, at_⟩

end Sys2Proof.Machine
end

section
/-! SUPPORT. A part that is issued on a link (R146, R173): its request's frames go out, the request stands on the tracker, and nothing more follows
where no fence, no held response and no whole transfer waits for it. -/
namespace Sys2Proof.Machine

open Sys2Proof

/-! ### The frames of a request -/

/-- No request of the block is a SEG. -/
theorem Jeb.framesOf_ne_seg (j : Jeb) (x : Xfer) (p : Spec) (course : Nat) (widen : Bool) (tag : W16) :
    ∀ g ∈ (j.framesOf x p course widen tag).1, g.hdr.opcode ≠ opSeg := by
  intro g mem
  unfold Jeb.framesOf at mem
  dsimp only at mem
  cases op : x.t.op <;> rw [op] at mem
  case widenLoad =>
    dsimp only at mem
    split at mem
    · cases List.mem_singleton.mp mem
      exact (by decide : opWidenLoad ≠ opSeg)
    · cases List.mem_singleton.mp mem
      exact (by decide : opLoad ≠ opSeg)
  case batten =>
    dsimp only at mem
    split at mem
    · cases List.mem_singleton.mp mem
      exact (by decide : opGet ≠ opSeg)
    · obtain ⟨r, -, rfl⟩ := List.mem_map.mp mem
      dsimp only
      split
      · exact (by decide : opBatten ≠ opSeg)
      · exact (by decide : opBattenCont ≠ opSeg)
  case load =>
    cases List.mem_singleton.mp mem
    exact (by decide : opLoad ≠ opSeg)
  case store =>
    cases List.mem_singleton.mp mem
    exact (by decide : opStore ≠ opSeg)
  case atomic =>
    cases List.mem_singleton.mp mem
    exact (by decide : opAtomic ≠ opSeg)
  case fadd =>
    cases List.mem_singleton.mp mem
    exact (by decide : opFadd ≠ opSeg)
  case put =>
    cases List.mem_singleton.mp mem
    exact (by decide : opPut ≠ opSeg)
  case get =>
    cases List.mem_singleton.mp mem
    exact (by decide : opGet ≠ opSeg)

section
variable {s : State} {e : Byte} {x : Xfer} {p : Spec} {path : Path} {q : Fin 18}

/-- The transfer with a part issued. -/
def Xfer.issue (p : Spec) (y : Xfer) : Xfer := { y with toIssue := y.toIssue.erase p, issued := true, sent := true }

/-- The state once a request with frames `frames` has gone out on its link, before what follows. -/
def State.issuing (s : State) (e : Byte) (x : Xfer) (p : Spec) (q : Fin 18) (r : Req) (tag : W16) (frames : List Frame) : State :=
  frames.foldl (fun s g => s.jebSend (.rafter q) g)
    ((s.setEngine e ((s.engine e).updXfer x.id (Xfer.issue p))).updJeb fun j => { j with reqs := j.reqs ++ [r], nextTag := tag + 1 })

/-- What the frames of a request leave: they stand at the end of their link's queue, and the request on the tracker. -/
theorem State.issuing_leaves (s : State) (e : Byte) (x : Xfer) (p : Spec) (q : Fin 18) (r : Req) (tag : W16) {frames : List Frame}
    (plain : ∀ g ∈ frames, g.hdr.opcode ≠ opSeg) : ∃ ports,
    s.issuing e x p q r tag frames =
      { s with jeb := { s.jeb with ports := ports, reqs := s.jeb.reqs ++ [r], nextTag := tag + 1
                                   engines := Tab.put Engine.reset s.jeb.engines e.toNat ((s.engine e).updXfer x.id (Xfer.issue p)) } } ∧
    ((s.issuing e x p q r tag frames).rport q).txq = (s.rport q).txq ++ frames ∧
    ∀ l, l ≠ .rafter q → (s.issuing e x p q r tag frames).port l = s.port l := by
  unfold State.issuing
  have tracked (l : PortRef) : ((s.setEngine e ((s.engine e).updXfer x.id (Xfer.issue p))).updJeb fun j =>
      { j with reqs := j.reqs ++ [r], nextTag := tag + 1 }).port l = s.port l :=
    (State.port_updJeb rfl l).trans (State.port_updJeb rfl l)
  generalize base : (s.setEngine e ((s.engine e).updXfer x.id (Xfer.issue p))).updJeb
    (fun j => { j with reqs := j.reqs ++ [r], nextTag := tag + 1 }) = u at tracked
  obtain ⟨⟨ports, sent⟩, queue, others⟩ := State.jebSend_all (p := .rafter q) (s := u) rfl frames fun g mem seg => absurd seg (plain g mem)
  refine ⟨ports, sent.trans ?_, ?_, fun l off => (others l off).trans (tracked l)⟩
  · simp only [← base, State.setEngine, State.updJeb]
  · refine (congrArg Port.txq queue).trans ?_
    rw [tracked]
    rfl

/-- A part issued on a link that takes it as it is. -/
theorem State.issuePart_link (link : path.link = some q)
    (taken : x.t.op = .batten → x.serial.isSome = true ∨ bitAt (s.rport q).train.features featBatten = true)
    {f : Frame} {rest : List Frame} (frames : (s.jeb.framesOf x p path.course (bitAt (s.rport q).train.features featWiden)
      ((x.serial.map Prod.fst).getD (s.jeb.freeTag e))).1 = f :: rest) :
    ∃ r : Req, r.hdr = f.hdr ∧ r.link = some q ∧ r.spec = p ∧ r.xfer = x.id ∧ r.held = [] ∧
      s.issuePart e x p path = (s.issuing e x p q r ((x.serial.map Prod.fst).getD (s.jeb.freeTag e)) (f :: rest)).settleAll e := by
  have whole : ¬ (x.t.op = .batten ∧ x.serial = none ∧ !bitAt (s.rport q).train.features featBatten) := by
    rintro ⟨op, none_, cannot⟩
    rcases taken op with some_ | can
    · rw [none_] at some_
      cases some_
    · simp [can] at cannot
  refine ⟨{ xfer := x.id, hdr := f.hdr, link := some q, spec := p, bucket := path.bucket, epoch := s.jeb.epochs, held := []
            widen := (s.jeb.framesOf x p path.course (bitAt (s.rport q).train.features featWiden)
              ((x.serial.map Prod.fst).getD (s.jeb.freeTag e))).2 }, rfl, rfl, rfl, rfl, rfl, ?_⟩
  unfold State.issuePart
  rw [link]
  dsimp only
  rw [if_neg whole]
  cases serial : x.serial with
  | none =>
    rw [serial] at frames
    dsimp only [Option.map_none, Option.getD_none] at frames ⊢
    rw [frames]
    rfl
  | some tag =>
    rw [serial] at frames
    dsimp only [Option.map_some, Option.getD_some] at frames ⊢
    rw [frames]
    rfl

/-- A fabric request's transfer is not whole, and another's is whole as before. -/
theorem State.settleAll_issued {u : State} {r : Req} (queue : (u.engine e).queue = ((s.engine e).updXfer x.id (Xfer.issue p)).queue)
    (reqs : u.jeb.reqs = s.jeb.reqs ++ [r]) (of_ : r.xfer = x.id) (fresh : r.held = [])
    (noFence : ∀ i ∈ (s.engine e).queue, ∀ id f b, i ≠ .fence id f b) (unheld : ∀ r ∈ s.jeb.reqs, r.held = [])
    (whole : s.wholeXfer e = none) : u.settleAll e = u := by
  have freed : u.freedReq e = none := u.freedReq_unheld e fun t mem => by
    rw [reqs] at mem
    rcases List.mem_append.mp mem with before | now
    · exact unheld t before
    · rw [List.mem_singleton.mp now, fresh]
  have notWhole : u.wholeXfer e = none := by
    unfold State.wholeXfer at whole ⊢
    rw [List.findSome?_eq_none_iff] at whole ⊢
    rw [queue]
    intro i issued
    obtain ⟨k, mem, rfl⟩ := List.mem_map.mp issued
    have before := whole k mem
    cases k with
    | fence => rfl
    | parked => rfl
    | xfer y =>
      have others : u.outstanding y.id = [] → s.outstanding y.id = [] ∧ y.id ≠ x.id := by
        rw [State.outstanding, reqs, List.filter_append, List.append_eq_nil_iff]
        rintro ⟨old, new⟩
        refine ⟨old, fun same => ?_⟩
        simp [of_, same] at new
      by_cases same : y.id = x.id
      · have open_ : u.outstanding x.id ≠ [] := fun empty => (others (same ▸ empty)).2 same
        simp [same, Xfer.issue, open_]
      · simp only [same, if_false] at before ⊢
        split
        · next met => simp [met.1, met.2.1, (others met.2.2).1] at before
        · rfl
  have noneMet : u.metFence e = none := by
    unfold State.metFence
    rw [List.findSome?_eq_none_iff, queue]
    intro i issued
    obtain ⟨k, mem, rfl⟩ := List.mem_map.mp issued
    cases k with
    | fence id f b => exact absurd rfl (noFence _ mem id f b)
    | parked => rfl
    | xfer y => by_cases same : y.id = x.id <;> simp [same]
  rw [State.settleAll, State.settle, freed, notWhole, noneMet]

end

/-- Settles O37: what a part leaves by the frames sent, what may follow by `settleAll_issued`, a withheld release by what settling leaves. -/
theorem requestsIssued : Obligations.RequestsIssued := by
  intro s e runs
  refine ⟨fun x p path q next link taken => ?issued, fun x next => ?withheld⟩
  case issued =>
    intro tag frames some_
    obtain ⟨f, rest, list⟩ := List.exists_cons_of_ne_nil some_
    obtain ⟨r, hdr, on, part, of_, fresh, issued⟩ := State.issuePart_link link taken list
    have run : exec (.transferIssue e) s = .next ((s.issuing e x p q r tag (f :: rest)).settleAll e) := by
      show execTransferIssue e s = _
      rw [execTransferIssue, if_neg (by rw [runs]; decide), next]
      exact congrArg Host.Outcome.next issued
    obtain ⟨ports, sent, queue, others⟩ := s.issuing_leaves e x p q r tag (frames := f :: rest)
      fun g mem => s.jeb.framesOf_ne_seg x p _ _ _ g (list ▸ mem)
    generalize s.issuing e x p q r tag (f :: rest) = u at sent queue others run
    have queues : (u.engine e).queue = ((s.engine e).updXfer x.id (Xfer.issue p)).queue := by
      rw [sent]
      exact congrArg Engine.queue (s.engine_setEngine_same e _)
    have reqs : u.jeb.reqs = s.jeb.reqs ++ [r] := by rw [sent]
    refine ⟨u, run, ?_, ⟨r, reqs, ?_, on, part, of_⟩, ?_, ?_, others, State.settleAll_issued queues reqs of_ fresh⟩
    · rw [show frames = f :: rest from list, queue]
    · rw [show frames = f :: rest from list, hdr]
      rfl
    · rw [sent]
    · rw [sent]
  case withheld =>
    have run : exec (.transferIssue e) s = .next (((s.updJeb fun j => j.bumpOrd 0).completeXfer e x 0x53).settleAll e) := by
      show execTransferIssue e s = _
      rw [execTransferIssue, if_neg (by rw [runs]; decide), next]
    obtain ⟨completed, told⟩ := (s.updJeb fun j => j.bumpOrd 0).completeXfer_settles e x 0x53
    have settled := State.settleAll_within ((s.updJeb fun j => j.bumpOrd 0).completeXfer e x 0x53) e
    have rest := completed.within.trans settled
    refine ⟨_, run, told.trans settled.outputs, rest.reqs, ?_, ?_⟩
    · rw [rest.rest]
      rfl
    · rw [rest.rest]
      rfl

end Sys2Proof.Machine
end

section
/-! SUPPORT. A transfer of an idle engine, from its acceptance to the end of its check (R142 to R145, R164). -/
namespace Sys2Proof.Machine

open Sys2Proof

/-! ### Accepted, and checked -/

/-- The block once a transfer's number has been given, and its engine's queue stands as `g`. -/
def Jeb.accepting (j : Jeb) (e : Byte) (g : Engine) : Jeb :=
  { j with nextXfer := j.nextXfer + 1, engines := Tab.put Engine.reset j.engines e.toNat g }

/-- What a page fault of a transfer notes: its record, and the hold of its task. -/
def Jeb.faulting (j : Jeb) (e : Byte) (x : Transfer) (f : FaultInfo) : Jeb :=
  { j.recordFault f { task := x.task, ctx := x.ctx, engine := e, cls := opClass x.op, gen := j.genDone, ns := j.tim.ns } with
    faulted := if x.task ∈ j.faulted then j.faulted else j.faulted ++ [x.task] }

/-- A fault changes the ring, its event and its count, and holds the task; nothing else. -/
theorem Jeb.faulting_rest (j : Jeb) (e : Byte) (x : Transfer) (f : FaultInfo) : ∃ err1, j.faulting e x f =
    { j with mem := (j.faulting e x f).mem, fltTail := BitVec.ofNat 16 ((j.fltTail.toNat + 1) % ringSize j.fltSize), fltSeq := j.fltSeq + 1
             event := true, err1 := err1, faulted := (j.faulting e x f).faulted } := ⟨_, rfl⟩

theorem Jeb.faulting_holds (j : Jeb) (e : Byte) (x : Transfer) (f : FaultInfo) : x.task ∈ (j.faulting e x f).faulted := by
  show x.task ∈ if x.task ∈ j.faulted then j.faulted else j.faulted ++ [x.task]
  split
  · next mem => exact mem
  · exact List.mem_append_right _ (List.mem_singleton_self _)

/-- Its record stands at the tail. -/
theorem Jeb.faulting_record (j : Jeb) (e : Byte) (x : Transfer) (f : FaultInfo) :
    readShingle (j.faulting e x f).store (j.fltBase.toNat / 32 + j.fltTail.toNat % ringSize j.fltSize) =
      encodeShingle (faultRecord f { task := x.task, ctx := x.ctx, engine := e, cls := opClass x.op, gen := j.genDone, ns := j.tim.ns }
        j.genDone j.fltSeq j.tim.ns) :=
  Jeb.recordFault_at j f _

/-- The state in which a transfer's check ends: its look at the pages, and a queue `g`. -/
def State.checkedWith (s : State) (e : Byte) (g : Engine) (cache : List CacheEntry) (err1 : W64) : State :=
  { s with fresh := s.fresh + 1, jeb := { s.jeb.accepting e g with cache := cache, err1 := err1 } }

section
variable {s : State} {e : Byte}

/-- What a check that found `res` does with a transfer that stands in its engine's queue. -/
def State.checked (s : State) (e : Byte) (id : Nat) (t : Transfer) (broken : Bool) (res : Checked) : State :=
  match res with
  | .code c => ((s.setEngine e ((s.engine e).dropItem id)).endTransfer e id t c 0).settleAll e
  | .fault f =>
    if s.jeb.fltFull then s.setEngine e ((s.engine e).replace id (.parked id t true broken))
    else
      let u := s.updJeb fun j => j.faulting e t f
      (((u.setEngine e ((s.engine e).dropItem id)).finish e id t.comp 0x50 0).squash t.task id).settleEvery
  | .pass specs fmode lmap => s.setEngine e ((s.engine e).replace id
      (.xfer { id := id, t := t, fmode := fmode, toIssue := specs, lmap := lmap, failed := none, issued := false, sent := false,
               broken := broken, value := 0, serial := none }))

/-- An item's check, by what it found. -/
theorem State.checkItem_eq {id : Nat} {t : Transfer} {broken : Bool} {res : Checked} {j : Jeb}
    (found : s.jeb.check s.freeNat t = (res, j)) :
    s.checkItem e id t broken = { s with fresh := s.fresh + 1, jeb := j }.checked e id t broken res := by
  unfold State.checkItem State.checked
  rw [found]
  cases res with
  | code c => rfl
  | fault f =>
    dsimp only [State.spend, State.updJeb, Jeb.faulting, State.endTransfer]
    rfl
  | pass specs fmode lmap => rfl

/-- The state once a transfer's number has been given. -/
def State.numbered (s : State) : State := s.updJeb fun j => { j with nextXfer := j.nextXfer + 1 }

/-- A transfer that an engine may hand over. -/
theorem exec_transfer_eq {x : Transfer} (engine : x.engine.toNat < 0xFE) : exec (.transfer x) s = .next (
    if s.jeb.stopped then s.numbered.finish x.engine s.jeb.nextXfer x.comp stTeardown 0
    else if !ordOk x then (s.numbered.updJeb fun j => j.bumpOrd 32).finish x.engine s.jeb.nextXfer x.comp 0x54 0
    else (s.numbered.enqueue x.engine (decide (x.ord = 2 ∨ x.ord = 3)) (.parked s.jeb.nextXfer x false)).unpark x.engine) := by
  have accepted : ¬ 0xFE ≤ x.engine.toNat := by omega
  show execTransfer x s = _
  rw [execTransfer, if_neg accepted]
  rfl

/-- A transfer of an idle engine, of a block that runs, is checked alone in its queue. -/
theorem exec_transfer {x : Transfer} (engine : x.engine.toNat < 0xFE) (empty : (s.engine x.engine).queue = []) (runs : s.jeb.stopped = false)
    (ok : ordOk x = true) : ∃ g : Engine,
    g.queue = [.parked s.jeb.nextXfer x false (decide (x.ord = 2 ∨ x.ord = 3) && (s.engine x.engine).writeFailed)] ∧
    exec (.transfer x) s = .next ({ s with jeb := s.jeb.accepting x.engine g }.unpark x.engine) := by
  obtain ⟨g, queued, queue⟩ := State.enqueue_empty (s := s.numbered) (e := x.engine) empty
    (decide (x.ord = 2 ∨ x.ord = 3)) (.parked s.jeb.nextXfer x false)
  refine ⟨g, queue, ?_⟩
  rw [exec_transfer_eq engine, if_neg (by rw [runs]; decide), if_neg (by rw [ok]; decide), queued]
  rfl

/-- An item that is parked alone waits for its task, or is checked. -/
theorem State.unpark_alone {id : Nat} {t : Transfer} {b c : Bool} (alone : (s.engine e).queue = [.parked id t b c]) :
    s.unpark e = if t.task ∈ s.jeb.faulted then s else s.checkItem e id t c := by
  have must : s.mustWait e id t.task = decide (t.task ∈ s.jeb.faulted) := by simp [State.mustWait, alone, itemsBefore, QItem.id]
  simp only [State.unpark, alone, List.map_cons, List.map_nil, List.foldl_cons, List.foldl_nil, List.find?_cons, decide_true,
    QItem.id, must, decide_eq_true_eq]

/-- The check of a transfer that stands in its queue sees the block as it was before. -/
theorem State.unpark_accepting {g : Engine} {id : Nat} {x : Transfer} {c : Bool} (alone : g.queue = [.parked id x false c])
    (free : x.task ∉ s.jeb.faulted) : ∃ cache err1, { s with jeb := s.jeb.accepting e g }.unpark e =
      (s.checkedWith e g cache err1).checked e id x c (s.jeb.check s.freeNat x).1 := by
  obtain ⟨cache, err1, left⟩ := (Jeb.check_pagesOnly s.freeNat x).leaves s.jeb
  have seen : (s.jeb.accepting e g).check s.freeNat x =
      ((s.jeb.check s.freeNat x).1, { s.jeb.accepting e g with cache := cache, err1 := err1 }) := by
    refine ((Jeb.check_pagesOnly s.freeNat x).queued s.jeb _ _).trans ?_
    rw [left]
    rfl
  refine ⟨cache, err1, ?_⟩
  have queue : (({ s with jeb := s.jeb.accepting e g } : State).engine e).queue = [.parked id x false c] :=
    (congrArg Engine.queue (Tab.get_put_same ..)).trans alone
  rw [State.unpark_alone queue, if_neg (show x.task ∉ (s.jeb.accepting e g).faulted from free)]
  exact State.checkItem_eq seen

end

/-! ### What a check leaves -/

section
variable {v : State} {e : Byte} {id : Nat} {x : Transfer} {b c : Bool}

theorem Engine.replace_alone {g : Engine} {i : QItem} (alone : g.queue = [i]) (k : QItem) : (g.replace i.id k).queue = [k] := by
  simp [Engine.replace, alone]

/-- A check that ends in a code: the transfer leaves its queue with it. -/
theorem State.checked_code (alone : (v.engine e).queue = [.parked id x b c]) (idle : ∀ r ∈ v.jeb.reqs, r.hdr.srcEngine ≠ e) (k : Byte) :
    ∃ g : Engine, g.queue = [] ∧ v.checked e id x c (.code k) = (v.setEngine e g).finish e id x.comp k 0 := by
  have left : ((v.engine e).dropItem id).queue = [] := Engine.dropItem_alone (i := .parked id x b c) alone
  refine ⟨_, left, ?_⟩
  have ends : v.checked e id x c (.code k) = ((v.setEngine e ((v.engine e).dropItem id)).finish e id x.comp k 0).settleAll e := rfl
  obtain ⟨u, hu⟩ : ∃ u, u = (v.setEngine e ((v.engine e).dropItem id)).finish e id x.comp k 0 := ⟨_, rfl⟩
  have settles := (v.setEngine e ((v.engine e).dropItem id)).finish_settles e id x.comp k 0
  rw [ends]
  rw [← hu] at settles ⊢
  refine State.settle_rest (State.freedReq_idle ?_) (settles.idle e ?_) _
  · rw [settles.reqs]
    exact idle
  · exact (congrArg Engine.queue (State.engine_setEngine_same ..)).trans left

/-- A page fault with room for its record: the transfer completes FAULT; what is squashed with it follows. -/
theorem State.checked_fault (alone : (v.engine e).queue = [.parked id x b c]) (room : v.jeb.fltFull = false)
    (unheld : ∀ r ∈ v.jeb.reqs, r.held = []) (f : FaultInfo) : ∃ u : State,
    (u.finish e id x.comp 0x50 0).Settles (v.checked e id x c (.fault f)) ∧ (u.engine e).queue = [] ∧
      u = { v with jeb := { v.jeb.faulting e x f with engines := u.jeb.engines } } := by
  have left : ((v.engine e).dropItem id).queue = [] := Engine.dropItem_alone (i := .parked id x b c) alone
  refine ⟨(v.updJeb fun j => j.faulting e x f).setEngine e ((v.engine e).dropItem id), ?_,
    (congrArg Engine.queue (State.engine_setEngine_same ..)).trans left, rfl⟩
  have faults : v.checked e id x c (.fault f) =
      ((((v.updJeb fun j => j.faulting e x f).setEngine e ((v.engine e).dropItem id)).finish e id x.comp 0x50 0).squash x.task id).settleEvery := by
    simp only [State.checked, room, Bool.false_eq_true, if_false]
  have reqs : ((v.updJeb fun j => j.faulting e x f).setEngine e ((v.engine e).dropItem id)).jeb.reqs = v.jeb.reqs := by
    obtain ⟨err1, noted⟩ := v.jeb.faulting_rest e x f
    exact (congrArg Jeb.reqs noted :)
  have told := ((v.updJeb fun j => j.faulting e x f).setEngine e ((v.engine e).dropItem id)).finish_settles e id x.comp 0x50 0
  rw [faults]
  generalize ((v.updJeb fun j => j.faulting e x f).setEngine e ((v.engine e).dropItem id)).finish e id x.comp 0x50 0 = u at told ⊢
  have squashed := u.squash_settles x.task id
  refine squashed.trans (State.settleEvery_settles _ ?_)
  rw [squashed.reqs, told.reqs, reqs]
  exact unheld

end

/-- Settles O35: by what a check does with a transfer that stands alone in its queue, and what completions that follow leave. -/
theorem transfersChecked : Obligations.TransfersChecked := by
  intro s x engine idle id boundary
  obtain ⟨empty, none_⟩ := idle
  have ended {u t : State} {code : Byte} (told : t = u.finish x.engine id x.comp code 0) (silent : u.outputs = s.outputs)
      (same : u.jeb.sig = s.jeb.sig) : Ended s t x id code := by
    obtain ⟨sig, waits, out, finished, -, counted⟩ := u.finish_eq x.engine id x.comp code 0
    rw [told, finished, silent]
    refine ⟨List.prefix_append _ _, fun c names => ?_⟩
    rw [← same, counted c names c.toNat, if_pos rfl]
  refine ⟨fun stopped => ?stopped, fun runs bad => ?ord, fun runs ok held => ?held, fun runs ok free => ?checked⟩
  case stopped =>
    obtain ⟨sig, waits, out, finished, -⟩ := s.numbered.finish_eq x.engine id x.comp stTeardown 0
    refine ⟨_, ?_, ended (u := s.numbered) rfl rfl rfl, ?_⟩
    · rw [exec_transfer_eq engine, if_pos stopped]
    · rw [finished]
      rfl
  case ord =>
    obtain ⟨sig, waits, out, finished, -⟩ := (s.numbered.updJeb fun j => j.bumpOrd 32).finish_eq x.engine id x.comp 0x54 0
    refine ⟨_, ?_, ended (u := s.numbered.updJeb fun j => j.bumpOrd 32) rfl rfl rfl, ?_⟩
    · rw [exec_transfer_eq engine, if_neg (by rw [runs]; decide), if_pos (by rw [bad]; decide)]
    · rw [finished]
      simp only [State.numbered, State.updJeb, Jeb.bumpOrd, id]
  case held =>
    obtain ⟨g, queue, run⟩ := exec_transfer engine empty runs ok
    have alone : (({ s with jeb := s.jeb.accepting x.engine g } : State).engine x.engine).queue = _ :=
      (congrArg Engine.queue (Tab.get_put_same ..)).trans queue
    rw [State.unpark_alone alone, if_pos (show x.task ∈ (s.jeb.accepting x.engine g).faulted from held)] at run
    exact ⟨_, run, alone, rfl, rfl⟩
  case checked =>
    obtain ⟨g, queue, run⟩ := exec_transfer engine empty runs ok
    obtain ⟨cache, err1, unparked⟩ := State.unpark_accepting (s := s) (e := x.engine) queue free
    rw [unparked] at run
    have alone : ((s.checkedWith x.engine g cache err1).engine x.engine).queue = _ := (congrArg Engine.queue (Tab.get_put_same ..)).trans queue
    have outputs : (s.checkedWith x.engine g cache err1).outputs = s.outputs := rfl
    have left : (s.checkedWith x.engine g cache err1).jeb = { s.jeb.accepting x.engine g with cache := cache, err1 := err1 } := rfl
    generalize s.checkedWith x.engine g cache err1 = v at run alone outputs left
    have mem : v.jeb.mem = s.jeb.mem := (congrArg Jeb.mem left :)
    have reqs : v.jeb.reqs = s.jeb.reqs := (congrArg Jeb.reqs left :)
    have sig : v.jeb.sig = s.jeb.sig := (congrArg Jeb.sig left :)
    have fltFull : v.jeb.fltFull = s.jeb.fltFull := by
      unfold Jeb.fltFull
      rw [left]
      rfl
    refine ⟨fun c found => ?code, fun f found room unheld => ?fault, fun f found full => ?full, fun specs fmode lmap found => ?pass⟩ <;>
      rw [found] at run
    case code =>
      obtain ⟨h, left, finished⟩ := State.checked_code alone (reqs ▸ none_) c
      have settles := (v.setEngine x.engine h).finish_settles x.engine id x.comp c 0
      refine ⟨_, run, ended finished outputs sig, ?_, ?_⟩
      · rw [finished]
        exact settles.idle _ ((congrArg Engine.queue (State.engine_setEngine_same ..)).trans left)
      · rw [finished, settles.rest]
        exact mem
    case fault =>
      obtain ⟨u, settles, idle, rest⟩ := State.checked_fault alone (fltFull.trans room) (reqs ▸ unheld) f
      have told : Ended s (u.finish x.engine id x.comp 0x50 0) x id 0x50 := by
        refine ended rfl ?_ ?_
        · rw [rest]
          exact outputs
        · rw [rest, ← sig]
          obtain ⟨err1, noted⟩ := v.jeb.faulting_rest x.engine x f
          rw [noted]
      have total := (u.finish_settles x.engine id x.comp 0x50 0).trans settles
      generalize v.checked x.engine id x _ (.fault f) = t at run settles total
      have jeb : t.jeb = { v.jeb.faulting x.engine x f with
          engines := t.jeb.engines, sig := t.jeb.sig, waits := t.jeb.waits, err1 := t.jeb.err1, ordErr := t.jeb.ordErr } := by
        rw [total.rest, rest]
      obtain ⟨err1, noted⟩ := v.jeb.faulting_rest x.engine x f
      have record := v.jeb.faulting_record x.engine x f
      have holds := v.jeb.faulting_holds x.engine x f
      generalize v.jeb.faulting x.engine x f = j at jeb noted record holds
      refine ⟨t, run, told.1.trans settles.outputs, ?_, total.idle _ idle, ?_, ?_, ?_, ?_⟩
      · rw [jeb]
        exact holds
      · rw [jeb, noted]
      · rw [jeb, noted, left]
        rfl
      · rw [jeb, noted, left]
        exact BitVec.toNat_ofNat _ _
      · rw [left] at record
        rw [jeb]
        exact record
    case full =>
      rw [State.checked, if_pos (fltFull.trans full)] at run
      refine ⟨_, run, (congrArg Engine.queue (State.engine_setEngine_same ..)).trans ?_, outputs, mem⟩
      exact Engine.replace_alone (i := .parked id x false _) alone _
    case pass =>
      rw [State.checked] at run
      refine ⟨_, run, (congrArg Engine.queue (State.engine_setEngine_same ..)).trans ?_, outputs, mem, reqs⟩
      exact Engine.replace_alone (i := .parked id x false _) alone _

end Sys2Proof.Machine
end

section
/-! SUPPORT. The block's stop (R156, R160, R295, R299): how its issue ends, what stands once every request has been answered, and how it resumes. -/
namespace Sys2Proof.Machine

open Sys2Proof

/-! ### A TEARDOWN frame taken -/

section
variable {s u : State} {p : PortRef} {q : Fin 18} {f : Frame}

theorem State.jebControl_took (took : s.Took p f u) : u.jebControl p = s.jebControl p := by
  funext h
  rw [State.jebControl, State.jebControl, State.jebForm_took took]

/-- A frame that is taken leaves the training of the block's links. -/
theorem State.jebTake_train (s : State) (q : Fin 18) (f : Frame) (l : Fin 18) :
    ((s.jebTake (.rafter q) f).rport l).train = (s.rport l).train := by
  by_cases here : l = q
  · subst here
    obtain ⟨-, ⟨retry, cred, err, port⟩, -⟩ := State.jebTake_took (p := .rafter l) rfl s f
    exact (congrArg Port.train port :)
  · have off : PortRef.rafter l ≠ .rafter q := fun same => here (PortRef.rafter.inj same)
    have counted (t : State) (k : Nat) : (t.countFlash (.rafter q) k).port (.rafter l) = t.port (.rafter l) := by
      rw [State.countFlash, State.port, State.count_jeb]
      exact t.port_updPort_ne _ _ _ off
    have freed (t : State) : (t.jebFree (.rafter q) f.hdr).port (.rafter l) = t.port (.rafter l) := by
      unfold State.jebFree
      split
      · exact t.port_updPort_ne _ _ _ off
      · rfl
    have cleared : (s.updJeb Jeb.finishClear).port (.rafter l) = s.port (.rafter l) :=
      State.port_updJeb (by rw [Jeb.finishClear_eq]) _
    have taken : (s.jebTake (.rafter q) f).port (.rafter l) = s.port (.rafter l) := by
      rw [State.jebTake, counted, freed, State.takeFrame, State.takeRx, State.port_updPort_ne _ _ _ _ off, cleared]
    exact congrArg Port.train taken

/-- A TEARDOWN frame that passes its checks is acted on by its link. -/
theorem State.jebTeardown_accepted (passed : s.jebControl (.rafter q) f.hdr = none) (act : Fin 18 → State → State) :
    s.jebTeardown (.rafter q) f act = act q (s.jebTake (.rafter q) f) := by
  have checked : (s.jebTake (.rafter q) f).jebControl (.rafter q) f.hdr = none := by
    rw [State.jebControl_took (State.jebTake_took (p := .rafter q) rfl s f), passed]
  unfold State.jebTeardown
  rw [if_neg (show portDev (.rafter q) ≠ .module from (by decide : Dev.jalem ≠ .module))]
  dsimp only
  rw [checked]

theorem exec_jebTeardown (op : f.hdr.opcode = opTeardown) (action : teardownAction f.hdr = 0) (passed : s.jebControl (.rafter q) f.hdr = none) :
    exec (.jebTeardown (.rafter q) f) s = .next ((s.jebTake (.rafter q) f).jebStop q f.hdr) := by
  show execJebTeardown (.rafter q) f s = _
  rw [execJebTeardown, if_neg (by rw [op, action]; decide), State.jebTeardown_accepted passed]

theorem exec_teardownResume (op : f.hdr.opcode = opTeardown) (action : teardownAction f.hdr = 1)
    (passed : s.jebControl (.rafter q) f.hdr = none) :
    exec (.teardownResume (.rafter q) f) s = .next ((s.jebTake (.rafter q) f).jebResume q f.hdr) := by
  show execTeardownResume (.rafter q) f s = _
  rw [execTeardownResume, if_neg (by rw [op, action]; decide), State.jebTeardown_accepted passed]

end

/-! ### Issue stops -/

/-- What stops at once (R156): issue, the change of map that is armed, and the send descriptors. -/
def Jeb.stopping (j : Jeb) : Jeb :=
  { j with stopped := true, stopDone := false, resumed := [], epochArm := false, shadowMap := j.spreadMap, shadowSeed := j.spreadSeed
           sends := Tab.mapAll SendDesc.reset disarm j.sends }

/-- An item of a stopped engine's queue: it ends, or issues no more. -/
def State.stopItem (e : Byte) (s : State) : QItem → State
  | .parked id t _ _ => (s.setEngine e { s.engine e with queue := removeItem (s.engine e).queue id }).endTransfer e id t stTeardown 0
  | .fence id f _ => (s.setEngine e { s.engine e with queue := removeItem (s.engine e).queue id }).finish e id f.comp stTeardown 0
  | .xfer x => s.setEngine e ((s.engine e).updXfer x.id (Xfer.cutOff Jeb.canon s.jeb))

/-- An engine's queue stopped. -/
def State.stopEngine (s : State) (e : Byte) : State := ((s.engine e).queue.foldl (State.stopItem e) s).settleAll e

section
variable (s : State)

theorem State.stopIssue_eq : s.stopIssue =
    (s.jeb.engines.map Prod.fst).foldl (fun s k => s.stopEngine (BitVec.ofNat 8 k)) (s.updJeb Jeb.stopping) := rfl

theorem State.stopItem_settles (e : Byte) (i : QItem) : s.Settles (s.stopItem e i) := by
  have left (id : Nat) : s.Settles (s.setEngine e { s.engine e with queue := removeItem (s.engine e).queue id }) :=
    s.setEngine_settles e fun empty => by rw [empty, removeItem, List.filter_nil]
  cases i with
  | parked id t b c => exact (left id).trans (State.finish_settles _ e id _ _ 0)
  | fence id f b => exact (left id).trans (State.finish_settles _ e id _ _ 0)
  | xfer x => exact s.setEngine_settles e fun empty => by rw [Engine.updXfer, empty, List.map_nil]

theorem State.stopEngine_settles (unheld : ∀ r ∈ s.jeb.reqs, r.held = []) (e : Byte) : s.Settles (s.stopEngine e) := by
  have items : s.Settles ((s.engine e).queue.foldl (State.stopItem e) s) := .foldl _ _ (fun t _ i _ => t.stopItem_settles e i) (.refl s)
  exact items.trans (State.settleAll_settles _ (by rw [items.reqs]; exact unheld) e)

theorem State.stopIssue_settles (unheld : ∀ r ∈ s.jeb.reqs, r.held = []) : (s.updJeb Jeb.stopping).Settles s.stopIssue := by
  rw [State.stopIssue_eq]
  exact .foldl _ _ (fun t before k _ => t.stopEngine_settles (by rw [before.reqs]; exact unheld) _) (.refl _)

variable {s} {e : Byte} {id bound : Nat} {x : Transfer} {b c : Bool}

/-- A transfer that is parked alone completes TEARDOWN. -/
theorem State.stopEngine_parked (alone : (s.engine e).queue = [.parked id x b c]) (idle : ∀ r ∈ s.jeb.reqs, r.hdr.srcEngine ≠ e) :
    ∃ g : Engine, g.queue = [] ∧ s.stopEngine e = (s.setEngine e g).finish e id x.comp stTeardown 0 := by
  refine ⟨{ s.engine e with queue := removeItem (s.engine e).queue id }, ?_, ?_⟩
  · rw [alone]
    exact removeItem_alone (.parked id x b c)
  have ends : s.stopEngine e =
      ((s.setEngine e { s.engine e with queue := removeItem (s.engine e).queue id }).finish e id x.comp stTeardown 0).settleAll e := by
    have item : (s.engine e).queue.foldl (State.stopItem e) s = s.stopItem e (.parked id x b c) := by
      rw [alone]
      rfl
    rw [State.stopEngine, item]
    rfl
  have settles := (s.setEngine e { s.engine e with queue := removeItem (s.engine e).queue id }).finish_settles e id x.comp stTeardown 0
  rw [ends]
  generalize (s.setEngine e { s.engine e with queue := removeItem (s.engine e).queue id }).finish e id x.comp stTeardown 0 = u at settles ⊢
  refine State.settle_rest (State.freedReq_idle ?_) (settles.idle e ?_) _
  · rw [settles.reqs]
    exact idle
  · refine (congrArg Engine.queue (State.engine_setEngine_same ..)).trans ?_
    rw [alone]
    exact removeItem_alone (.parked id x b c)

/-- A block whose one engine has one transfer, which is parked, and no request outstanding. -/
theorem State.stopIssue_parked (engines : s.jeb.engines = [(e.toNat, ⟨[.parked id x b c], false, bound⟩)]) (none_ : s.jeb.reqs = []) :
    (s.outputs ++ [.done e id stTeardown 0]) <+: s.stopIssue.outputs ∧ (s.stopIssue.engine e).queue = [] := by
  have alone : ((s.updJeb Jeb.stopping).engine e).queue = [.parked id x b c] := by
    have listed : (s.updJeb Jeb.stopping).engine e = Tab.get Engine.reset s.jeb.engines e.toNat := rfl
    rw [listed, engines, Tab.get, if_pos rfl]
  have stops : s.stopIssue = (s.updJeb Jeb.stopping).stopEngine e := by
    rw [State.stopIssue_eq, engines, List.map_singleton, List.foldl_cons, List.foldl_nil, BitVec.ofNat_toNat, BitVec.setWidth_eq]
  have requests : (s.updJeb Jeb.stopping).jeb.reqs = [] := none_
  obtain ⟨g, left, ends⟩ := State.stopEngine_parked alone (by rw [requests]; exact nofun)
  have settles := ((s.updJeb Jeb.stopping).setEngine e g).finish_settles e id x.comp stTeardown 0
  obtain ⟨sig, waits, out, told, -⟩ := ((s.updJeb Jeb.stopping).setEngine e g).finish_eq e id x.comp stTeardown 0
  rw [stops, ends]
  refine ⟨?_, settles.idle e ((congrArg Engine.queue (State.engine_setEngine_same ..)).trans left)⟩
  rw [told]
  exact List.prefix_append _ _

end

/-! ### Every request answered -/

/-- The STOPs of a list acknowledged. -/
def State.sendAcks (s : State) (l : List (Fin 18 × Header)) : State := l.foldl (fun s p => s.jebSend (.rafter p.1) (ackFrame p.2)) s

/-- The acknowledgements of a list for a link. -/
def acksFor (q : Fin 18) (l : List (Fin 18 × Header)) : List Frame := (l.filter fun p => decide (p.1 = q)).map fun p => ackFrame p.2

theorem State.sendAcks_leaves (s : State) (l : List (Fin 18 × Header)) :
    (∃ ports, s.sendAcks l = { s with jeb := { s.jeb with ports := ports } }) ∧
      ∀ q, (s.sendAcks l).rport q = { s.rport q with txq := (s.rport q).txq ++ acksFor q l } := by
  induction l generalizing s with
  | nil => exact ⟨⟨_, rfl⟩, fun q => by rw [acksFor, List.filter_nil, List.map_nil, List.append_nil]; rfl⟩
  | cons p l ih =>
    obtain ⟨⟨ports, first⟩, here, others⟩ := State.jebSend_leaves (p := .rafter p.1) rfl s (g := ackFrame p.2) (by decide : opAck ≠ opSeg)
    obtain ⟨⟨ports', rest⟩, queues⟩ := ih (s.jebSend (.rafter p.1) (ackFrame p.2))
    refine ⟨⟨ports', rest.trans (by rw [first])⟩, fun q => (queues q).trans ?_⟩
    by_cases on : p.1 = q
    · subst on
      rw [State.rport, here, acksFor, acksFor, List.filter_cons_of_pos (by simp), List.map_cons, List.append_assoc, List.singleton_append]
      rfl
    · rw [State.rport, others _ fun same => on (PortRef.rafter.inj same).symm, acksFor, acksFor, List.filter_cons_of_neg (by simpa using on)]
      rfl

/-- A port that returns to DETECT was not ACTIVE. -/
theorem Port.afterTeardown_keeps (x : Port) :
    x.afterTeardown.txq = x.txq ∧ (x.afterTeardown.train.state = .active ↔ x.train.state = .active) := by
  unfold Port.afterTeardown
  split
  · next down => exact ⟨rfl, ⟨nofun, fun active => by rw [active] at down; cases down.1⟩⟩
  · exact ⟨rfl, Iff.rfl⟩

theorem Jeb.portsAfterTeardown_get (j : Jeb) (q : Fin 18) :
    Tab.get Port.reset j.portsAfterTeardown.ports q.val = (Tab.get Port.reset j.ports q.val).afterTeardown := by
  have tray (t : Tab Port) (i : Nat) (off : 18 ≤ i) :
      Tab.get Port.reset (Tab.upd Port.reset t i Port.holdTray) q.val = Tab.get Port.reset t q.val :=
    Tab.get_put_ne _ _ _ _ _ (by omega)
  have reset : Port.reset.afterTeardown = Port.reset := by decide
  rw [Jeb.portsAfterTeardown]
  dsimp only
  rw [Tab.get_mapAll _ _ _ _ reset, List.foldl_cons, List.foldl_cons, List.foldl_nil, tray _ 19 (by decide), tray _ 18 (by decide)]

/-- The state once the sequence of R156 has completed. -/
def State.torn (s : State) : State := s.updJeb fun j => { j with stopDone := true }.portsAfterTeardown

theorem State.torn_eq (s : State) : ∃ ports, s.torn = { s with jeb := { s.jeb with ports := ports, stopDone := true } } := ⟨_, rfl⟩

theorem State.torn_rport (s : State) (q : Fin 18) : s.torn.rport q = (s.rport q).afterTeardown := by
  simp only [State.torn, State.rport, State.port, State.updJeb, Jeb.portsAfterTeardown_get]

section
variable {s : State}

/-- What a report that is due leaves of the block and of what is outside. -/
theorem State.sendReport_leaves (s : State) : ∃ fresh ports reports due,
    s.sendReport = { s with fresh := fresh, jeb := { s.jeb with ports := ports, reports := reports, reportDue := due } } := by
  unfold State.sendReport
  split
  · exact ⟨_, _, _, _, rfl⟩
  · split
    · exact ⟨_, _, _, _, rfl⟩
    · next q _ =>
      obtain ⟨⟨ports, sent⟩, -⟩ := State.jebSend_leaves (p := .rafter q) rfl s (g := { hdr := s.reportHdr q, data := [encodeShingle 1] })
        (by decide : opCtrlWr ≠ opSeg)
      refine ⟨s.fresh + 1, ports, s.jeb.reports ++ [s.reportHdr q], false, ?_⟩
      dsimp only
      rw [sent]
      rfl

/-- The report on the lowest ACTIVE rafter link. -/
theorem State.sendReport_due (due : s.jeb.reportDue = true) (done : s.jeb.stopDone = true) {q : Fin 18}
    (lowest : ((List.finRange 18).find? fun q => decide ((s.rport q).train.state = .active)) = some q) :
    (s.sendReport.rport q).txq = (s.rport q).txq ++ [{ hdr := s.reportHdr q, data := [encodeShingle 1] }] := by
  obtain ⟨-, here, -⟩ := State.jebSend_leaves (p := .rafter q) rfl s (g := { hdr := s.reportHdr q, data := [encodeShingle 1] })
    (by decide : opCtrlWr ≠ opSeg)
  unfold State.sendReport
  rw [if_neg (by simp [due, done]), lowest]
  dsimp only
  generalize s.jebSend (.rafter q) { hdr := s.reportHdr q, data := [encodeShingle 1] } = u at here
  exact (congrArg Port.txq here :)

theorem reportFpa_offset (q : Fin 18) : fpaOffset (fpaOf 0xFF (0x80 + q.val) 0x00700600) = 0x00700600 := by
  revert q
  decide

theorem State.sendReport_none (none_ : s.jeb.reportDue = false) : s.sendReport = s := if_pos (by simp [none_])

/-- STOPPED ends only where a RESUME has arrived. -/
theorem State.leaveStop_unresumed (fresh : s.jeb.resumed = []) : s.leaveStop = s := if_neg (by simp [fresh])

/-- A sequence of R156 completes, but for the report: what is sent and what is left at the rafter links. -/
theorem State.ackStops_done (stopped : s.jeb.stopped = true) (answered : s.jeb.reqs = []) (done : s.jeb.stopDone = false)
    (fresh : s.jeb.resumed = []) : ∃ v : State, s.ackStops = v.sendReport ∧
      (∃ ports, v = { s with jeb := { s.jeb with ports := ports, stopAcks := [], stopDone := true } }) ∧
      ∀ q, (v.rport q).txq = (s.rport q).txq ++ acksFor q s.jeb.stopAcks ∧
        ((v.rport q).train.state = .active ↔ (s.rport q).train.state = .active) := by
  obtain ⟨⟨ports, sent⟩, queues⟩ := (s.updJeb fun j => { j with stopAcks := [] }).sendAcks_leaves s.jeb.stopAcks
  have before (q : Fin 18) : (s.updJeb fun j => { j with stopAcks := [] }).rport q = s.rport q := State.port_updJeb rfl _
  have run : s.ackStops = (if ((s.updJeb fun j => { j with stopAcks := [] }).sendAcks s.jeb.stopAcks).jeb.stopDone then
      (s.updJeb fun j => { j with stopAcks := [] }).sendAcks s.jeb.stopAcks
    else ((s.updJeb fun j => { j with stopAcks := [] }).sendAcks s.jeb.stopAcks).torn).sendReport.leaveStop := if_pos ⟨stopped, answered⟩
  generalize (s.updJeb fun j => { j with stopAcks := [] }).sendAcks s.jeb.stopAcks = u at sent queues run
  have open_ : ¬ u.jeb.stopDone = true := by
    rw [sent]
    simp [State.updJeb, done]
  obtain ⟨ports', torn⟩ := u.torn_eq
  obtain ⟨_, _, _, _, reported⟩ := u.torn.sendReport_leaves
  have unresumed : u.torn.sendReport.jeb.resumed = [] := by
    rw [reported, torn, sent]
    exact fresh
  rw [if_neg open_, State.leaveStop_unresumed unresumed] at run
  refine ⟨u.torn, run, ⟨ports', ?_⟩, fun q => ?_⟩
  · rw [torn, sent]
    rfl
  · obtain ⟨queue, active⟩ := (u.rport q).afterTeardown_keeps
    rw [State.torn_rport, queue, active, queues q, before q]
    exact ⟨rfl, Iff.rfl⟩

/-- While a request is outstanding, nothing is acknowledged. -/
theorem State.ackStops_waits (waits : s.jeb.reqs ≠ []) : s.ackStops = s := if_neg fun met => waits met.2

/-- Acknowledgements where no report is due. -/
theorem State.ackStops_quiet (stopped : s.jeb.stopped = true) (done : s.jeb.stopDone = false) (fresh : s.jeb.resumed = [])
    (notDue : s.jeb.reportDue = false) :
    (∃ ports acks done, s.ackStops = { s with jeb := { s.jeb with ports := ports, stopAcks := acks, stopDone := done } }) ∧
      (s.jeb.reqs ≠ [] → s.ackStops = s) ∧
      (s.jeb.reqs = [] → s.ackStops.jeb.stopDone = true ∧ ∀ q, (s.ackStops.rport q).txq = (s.rport q).txq ++ acksFor q s.jeb.stopAcks) := by
  by_cases answered : s.jeb.reqs = []
  · obtain ⟨v, acks, ⟨ports, left⟩, queues⟩ := State.ackStops_done stopped answered done fresh
    rw [State.sendReport_none (by rw [left]; exact notDue)] at acks
    rw [acks]
    refine ⟨⟨ports, [], true, left⟩, fun some_ => absurd answered some_, fun _ => ⟨?_, fun q => (queues q).1⟩⟩
    rw [left]
  · exact ⟨⟨_, _, _, State.ackStops_waits answered⟩, State.ackStops_waits, fun none_ => absurd none_ answered⟩

end

/-! ### STOP, RESUME and TDISP ERROR -/

section
variable {s u : State} {q : Fin 18} {f : Frame}

/-- A STOP that waits for its acknowledgement. -/
def Jeb.toAck (j : Jeb) (q : Fin 18) (h : Header) : Jeb :=
  { j with stopAcks := j.stopAcks ++ [(q, h)], resumed := j.resumed.filter fun r => decide (r ≠ q) }

theorem State.jebStop_running (runs : s.jeb.stopped = false) (q : Fin 18) (h : Header) :
    s.jebStop q h = (s.stopIssue.updJeb fun j => j.toAck q h).ackStops := by
  unfold State.jebStop
  rw [if_neg (by rw [runs]; decide)]
  rfl

theorem State.tdispFail_running (ok : s.jeb.tdisp ≠ 3) (runs : s.jeb.stopped = false) :
    s.tdispFail = (s.updJeb fun j => { j with tdisp := 3, reportDue := true }).stopIssue.ackStops := by
  unfold State.tdispFail
  rw [if_neg ok]
  dsimp only
  have running : (s.updJeb fun j => { j with tdisp := 3, reportDue := true }).jeb.stopped = false := runs
  rw [if_neg (ne_true_of_eq_false running)]

theorem disarm_reset : disarm SendDesc.reset = SendDesc.reset := by decide

theorem disarm_armed (d : SendDesc) : (disarm d).armed = false := by simp [disarm, SendDesc.armed, bitAt_setBit]

/-- Every descriptor of a stopped block is disarmed. -/
theorem Jeb.stopping_desc (j : Jeb) (n : Nat) : (Tab.get SendDesc.reset j.stopping.sends n).armed = false := by
  rw [Jeb.stopping]
  dsimp only
  rw [Tab.get_mapAll _ _ _ _ disarm_reset, disarm_armed]

/-- STOPPED ends where every ACTIVE rafter link has brought a RESUME. -/
theorem State.leaveStop_met (stopped : s.jeb.stopped = true) (done : s.jeb.stopDone = true) (some_ : s.jeb.resumed ≠ [])
    (all : ∀ l, (s.rport l).train.state = .active → l ∈ s.jeb.resumed) :
    s.leaveStop = s.updJeb fun j => { j with stopped := false, stopDone := false, resumed := [] } := by
  refine if_pos ⟨stopped, done, some_, ?_⟩
  rw [List.all_eq_true]
  intro l _
  rw [Bool.or_eq_true, decide_eq_true_eq, decide_eq_true_eq]
  exact or_iff_not_imp_left.mpr fun active => all l (not_not.mp active)

/-- A RESUME noted at a block that is stopped. -/
theorem State.resume_noted (stopped : s.jeb.stopped = true) (q : Fin 18) : ∃ r,
    (s.updJeb fun j => if j.stopped ∧ q ∉ j.resumed then { j with resumed := j.resumed ++ [q] } else j) =
        s.updJeb (fun j => { j with resumed := r }) ∧
      q ∈ r ∧ ∀ l ∈ s.jeb.resumed, l ∈ r := by
  by_cases mem : q ∈ s.jeb.resumed
  · exact ⟨s.jeb.resumed, by simp [State.updJeb, mem], mem, fun _ on => on⟩
  · exact ⟨s.jeb.resumed ++ [q], by simp [State.updJeb, stopped, mem], List.mem_append_right _ (List.mem_singleton_self q),
      fun _ on => List.mem_append_left _ on⟩

/-- What stands before the acknowledgement of a STOP that has been taken. -/
theorem State.Took.stopping (took : s.Took (.rafter q) f u) (unheld : ∀ r ∈ s.jeb.reqs, r.held = []) : ∃ pending fin sig waits err1 ordErr,
    u.stopIssue.updJeb (fun j => j.toAck q f.hdr) = { u with outputs := u.stopIssue.outputs, jeb := { s.jeb.stopping with
      zPending := pending, zDone := fin, ports := u.jeb.ports, engines := u.stopIssue.jeb.engines, sig := sig, waits := waits, err1 := err1
      ordErr := ordErr, stopAcks := s.jeb.stopAcks ++ [(q, f.hdr)] } } := by
  obtain ⟨⟨pending, fin, ports, block⟩, -, -⟩ := took
  have settles := u.stopIssue_settles (by rw [block]; exact unheld)
  generalize u.stopIssue = w at settles
  refine ⟨pending, fin, w.jeb.sig, w.jeb.waits, w.jeb.err1, w.jeb.ordErr, ?_⟩
  rw [settles.rest, State.updJeb, State.updJeb, block]
  rfl

end

section
variable {s : State} {q : Fin 18} {f : Frame} (op : f.hdr.opcode = opTeardown) (passed : s.jebControl (.rafter q) f.hdr = none)
include op passed

/-- A STOP of a block that runs, with no report due: acknowledged once no request is outstanding. -/
theorem exec_stop (action : teardownAction f.hdr = 0) (runs : s.jeb.stopped = false) (unheld : ∀ r ∈ s.jeb.reqs, r.held = [])
    (notDue : s.jeb.reportDue = false) : Completes (.jebTeardown (.rafter q) f) s fun t =>
      t.jeb.stopped = true ∧ t.jeb.epochArm = false ∧ t.jeb.shadowMap = s.jeb.spreadMap ∧ t.jeb.mem = s.jeb.mem ∧ t.jeb.reqs = s.jeb.reqs ∧
      (∀ n, (t.desc n).armed = false) ∧ t.eav = s.eav ∧ t.gut = (s.countFlash (.rafter q) (frameSyndromes f)).gut ∧
      (s.jeb.reqs ≠ [] → (t.rport q).txq = (s.rport q).txq ∧ t.jeb.stopDone = false) ∧
      (s.jeb.reqs = [] → s.jeb.stopAcks = [] → (t.rport q).txq = (s.rport q).txq ++ [ackFrame f.hdr] ∧ t.jeb.stopDone = true) := by
  have run := exec_jebTeardown op action passed
  have took := State.jebTake_took (p := .rafter q) rfl s f
  generalize s.jebTake (.rafter q) f = u at run took
  obtain ⟨pending, fin, sig, waits, err1, ordErr, before⟩ := took.stopping unheld
  have running : u.jeb.stopped = false := by
    obtain ⟨⟨pending, fin, ports, block⟩, -, -⟩ := took
    rw [block]
    exact runs
  rw [State.jebStop_running running] at run
  generalize u.stopIssue.updJeb (fun j => j.toAck q f.hdr) = y at run before
  obtain ⟨-, ⟨retry, cred, err, port⟩, outside⟩ := took
  have same : y.rport q = u.rport q := by
    rw [before]
    rfl
  have queue : (y.rport q).txq = (s.rport q).txq := (congrArg Port.txq (same.trans port) :)
  have reqs : y.jeb.reqs = s.jeb.reqs := by
    rw [before]
    rfl
  have stopAcks : y.jeb.stopAcks = s.jeb.stopAcks ++ [(q, f.hdr)] := by rw [before]
  have open_ : y.jeb.stopDone = false := by
    rw [before]
    rfl
  obtain ⟨⟨ports, acks, done, left⟩, waits_, acked⟩ := State.ackStops_quiet (s := y) (by rw [before]; rfl) open_ (by rw [before]; rfl)
    (by rw [before]; exact notDue)
  have eav : y.eav = s.eav := by
    rw [before]
    exact (congrArg State.eav (outside s.jeb)).trans (s.countFlash_eav ..)
  have gut : y.gut = (s.countFlash (.rafter q) (frameSyndromes f)).gut := by
    rw [before]
    exact (congrArg State.gut (outside s.jeb) :)
  have block : y.jeb.stopped = true ∧ y.jeb.epochArm = false ∧ y.jeb.shadowMap = s.jeb.spreadMap ∧ y.jeb.mem = s.jeb.mem ∧
      y.jeb.sends = s.jeb.stopping.sends := by
    rw [before]
    exact ⟨rfl, rfl, rfl, rfl, rfl⟩
  obtain ⟨stopped, epochArm, shadowMap, mem, sends⟩ := block
  rw [reqs] at waits_ acked
  refine ⟨_, run, ?_, ?_, ?_, ?_, ?_, fun n => ?_, ?_, ?_, fun some_ => ?_, fun none_ alone => ?_⟩
  · rw [left]
    exact stopped
  · rw [left]
    exact epochArm
  · rw [left]
    exact shadowMap
  · rw [left]
    exact mem
  · rw [left]
    exact reqs
  · rw [left, State.desc]
    dsimp only
    rw [sends]
    exact s.jeb.stopping_desc n
  · rw [left]
    exact eav
  · rw [left]
    exact gut
  · rw [waits_ some_]
    exact ⟨queue, open_⟩
  · obtain ⟨completed, queues⟩ := acked none_
    refine ⟨(queues q).trans ?_, completed⟩
    rw [queue, stopAcks, alone]
    simp [acksFor]

/-- A STOP while one transfer is parked: it completes TEARDOWN. -/
theorem exec_stop_parked {e : Byte} {id bound : Nat} {x : Transfer} (action : teardownAction f.hdr = 0) (runs : s.jeb.stopped = false)
    (none_ : s.jeb.reqs = []) (alone : s.jeb.engines = [(e.toNat, ⟨[.parked id x false false], false, bound⟩)]) :
    Completes (.jebTeardown (.rafter q) f) s fun t =>
      (s.outputs ++ [.done e id stTeardown 0]) <+: t.outputs ∧ (t.engine e).queue = [] := by
  have unheld : ∀ r ∈ s.jeb.reqs, r.held = [] := by
    rw [none_]
    exact nofun
  have run := exec_jebTeardown op action passed
  have took := State.jebTake_took (p := .rafter q) rfl s f
  generalize s.jebTake (.rafter q) f = u at run took
  obtain ⟨pending, fin, sig, waits, err1, ordErr, before⟩ := took.stopping unheld
  obtain ⟨⟨pending', fin', ports', block⟩, -, outside⟩ := took
  have running : u.jeb.stopped = false := by
    rw [block]
    exact runs
  have engines : u.jeb.engines = [(e.toNat, ⟨[.parked id x false false], false, bound⟩)] := by
    rw [block]
    exact alone
  have outputs : u.outputs = s.outputs := (congrArg State.outputs (outside s.jeb)).trans (s.countFlash_outputs ..)
  obtain ⟨told, empty⟩ := State.stopIssue_parked engines (by rw [block]; exact none_)
  rw [outputs] at told
  rw [State.jebStop_running running] at run
  have queue : ((u.stopIssue.updJeb fun j => j.toAck q f.hdr).engine e).queue = [] := empty
  have reports : (s.outputs ++ [.done e id stTeardown 0]) <+: (u.stopIssue.updJeb fun j => j.toAck q f.hdr).outputs := told
  generalize u.stopIssue.updJeb (fun j => j.toAck q f.hdr) = y at run before queue reports
  obtain ⟨v, acks, ⟨ports, left⟩, -⟩ := State.ackStops_done (s := y) (by rw [before]; rfl) (by rw [before]; exact none_) (by rw [before]; rfl)
    (by rw [before]; rfl)
  obtain ⟨fresh, ports', reports', due, reported⟩ := v.sendReport_leaves
  rw [acks, reported, left] at run
  exact ⟨_, run, reports, queue⟩

/-- A RESUME on the last ACTIVE rafter link. -/
theorem exec_resume (action : teardownAction f.hdr = 1) (stopped : s.jeb.stopped = true) (done : s.jeb.stopDone = true)
    (last : ∀ l, (s.rport l).train.state = .active → l = q ∨ l ∈ s.jeb.resumed) : Completes (.teardownResume (.rafter q) f) s fun t =>
      t.jeb.stopped = false ∧ t.jeb.stopDone = false ∧ (t.rport q).txq = (s.rport q).txq ++ [ackFrame f.hdr] ∧
      t.jeb.mem = s.jeb.mem ∧ t = { s.countFlash (.rafter q) (frameSyndromes f) with jeb := t.jeb } := by
  have trains := s.jebTake_train q f
  have run := exec_teardownResume op action passed
  obtain ⟨⟨pending, fin, ports, block⟩, ⟨retry, cred, err, port⟩, outside⟩ := State.jebTake_took (p := .rafter q) rfl s f
  generalize s.jebTake (.rafter q) f = u at trains run block port outside
  obtain ⟨⟨ports', sent⟩, here, others⟩ := State.jebSend_leaves (p := .rafter q) rfl u (g := ackFrame f.hdr) (by decide : opAck ≠ opSeg)
  rw [State.jebResume] at run
  generalize u.jebSend (.rafter q) (ackFrame f.hdr) = v at run sent here others
  have stopped' : v.jeb.stopped = true := by
    rw [sent, block]
    exact stopped
  have done' : v.jeb.stopDone = true := by
    rw [sent, block]
    exact done
  obtain ⟨r, noted, mine, kept⟩ := State.resume_noted stopped' q
  have resumes (l : Fin 18) (active : (v.rport l).train.state = .active) : l ∈ r := by
    have train : (v.rport l).train = (s.rport l).train := by
      refine Eq.trans ?_ (trains l)
      by_cases on : l = q
      · subst on
        exact (congrArg Port.train here :)
      · exact (congrArg Port.train (others (.rafter l) fun same => on (PortRef.rafter.inj same)) :)
    rcases last l (train ▸ active) with same | earlier
    · rw [same]
      exact mine
    · refine kept l ?_
      rw [sent, block]
      exact earlier
  rw [noted, State.leaveStop_met (s := v.updJeb fun j => { j with resumed := r }) stopped' done' (List.ne_nil_of_mem mine) resumes] at run
  refine ⟨_, run, rfl, rfl, ?_, ?_, ?_⟩
  · refine (congrArg Port.txq ((State.port_updJeb rfl _).trans ((State.port_updJeb rfl _).trans here))).trans ?_
    rw [port]
    rfl
  · simp only [State.updJeb, sent, block]
  · refine Eq.trans ?_ (outside _)
    rw [sent]
    rfl

end

/-- TDISP in ERROR, of a block that runs. -/
theorem exec_tdispError {s : State} (ok : s.jeb.tdisp ≠ 3) (runs : s.jeb.stopped = false) (unheld : ∀ r ∈ s.jeb.reqs, r.held = []) :
    Completes .tdispError s fun t =>
    t.jeb.tdisp = 3 ∧ t.jeb.stopped = true ∧ t.eav = s.eav ∧ t.gut = s.gut ∧ (s.jeb.reqs ≠ [] → t.jeb.reportDue = true) ∧
    ∀ q, s.jeb.reqs = [] → ((List.finRange 18).find? fun q => decide ((s.rport q).train.state = .active)) = some q →
      ∃ g, g ∈ (t.rport q).txq ∧ g.hdr.opcode = opCtrlWr ∧ fpaOffset g.hdr.fpa = 0x00700600 ∧ g.data = [encodeShingle 1] := by
  have run : exec .tdispError s = .next (s.updJeb fun j => { j with tdisp := 3, reportDue := true }).stopIssue.ackStops :=
    congrArg Host.Outcome.next (State.tdispFail_running ok runs)
  have settles := (s.updJeb fun j => { j with tdisp := 3, reportDue := true }).stopIssue_settles unheld
  generalize (s.updJeb fun j => { j with tdisp := 3, reportDue := true }).stopIssue = w at run settles
  have rest := settles.rest
  have reqs : w.jeb.reqs = s.jeb.reqs := settles.reqs
  have block : w.jeb.tdisp = 3 ∧ w.jeb.stopped = true ∧ w.jeb.reportDue = true := by
    rw [rest]
    exact ⟨rfl, rfl, rfl⟩
  obtain ⟨failed, stopped, due⟩ := block
  have eav : w.eav = s.eav := by rw [rest]; rfl
  have gut : w.gut = s.gut := by rw [rest]; rfl
  have links (l : Fin 18) : w.rport l = s.rport l := by rw [rest]; rfl
  by_cases none_ : s.jeb.reqs = []
  · obtain ⟨v, acks, ⟨ports, left⟩, queues⟩ := State.ackStops_done stopped (reqs.trans none_) (by rw [rest]; rfl) (by rw [rest]; rfl)
    obtain ⟨fresh, ports', reports, due', reported⟩ := v.sendReport_leaves
    rw [acks] at run
    refine ⟨_, run, ?_, ?_, ?_, ?_, fun some_ => absurd none_ some_, fun q _ lowest => ?_⟩
    · rw [reported, left]
      exact failed
    · rw [reported, left]
      exact stopped
    · rw [reported, left]
      exact eav
    · rw [reported, left]
      exact gut
    · have active (l : Fin 18) : decide ((v.rport l).train.state = .active) = decide ((s.rport l).train.state = .active) := by
        rw [decide_eq_decide, (queues l).2, links]
      have sent := State.sendReport_due (s := v) (by rw [left]; exact due) (by rw [left]) (q := q) (by simp only [active, lowest])
      rw [sent]
      exact ⟨_, List.mem_append_right _ (List.mem_singleton_self _), rfl, reportFpa_offset q, rfl⟩
  · rw [State.ackStops_waits (by rw [reqs]; exact none_)] at run
    exact ⟨_, run, failed, stopped, eav, gut, fun _ => due, fun q nothing => absurd nothing none_⟩

/-- Settles O43: each of the four by what the end of issue leaves, and what follows once every request has been answered. -/
theorem jalemStops : Obligations.JalemStops :=
  ⟨fun _ _ _ op action passed runs _ unheld notDue => exec_stop op passed action runs unheld notDue,
    fun _ _ _ _ _ _ _ op action passed runs none_ alone => exec_stop_parked op passed action runs none_ alone,
    fun _ _ _ op action passed stopped done last => exec_resume op passed action stopped done last,
    fun _ ok runs unheld => exec_tdispError ok runs unheld, fun s st b other => by
      show execTdispStateChange st b s = _
      rw [execTdispStateChange, if_neg other]
      rfl⟩

end Sys2Proof.Machine
end

section
/-! SUPPORT. The durable regions (R200 to R206): an entry changed and the rest of the module as before, the commands of EAV_DUR_CTL_k, and the
end of a digest. -/
namespace Sys2Proof.Machine

open Sys2Proof

/-! ### One entry -/

section
variable (s : State) (k : Nat) (d : Dur)

theorem State.dur_setDur (j : Nat) : (s.setDur k d).dur j = if j = k then d else s.dur j := Tab.get_put ..

@[simp] theorem State.dur_setDur_same : (s.setDur k d).dur k = d := Tab.get_put_same ..

theorem State.dur_setDur_ne {j : Nat} (other : j ≠ k) : (s.setDur k d).dur j = s.dur j := Tab.get_put_ne _ _ _ _ _ other

/-- A change of the durable table shows in nothing else. -/
theorem State.setDur_eq : s.setDur k d = { s with eav := { s.eav with durs := (s.setDur k d).eav.durs } } := rfl

end

/-- A command that only changes an entry of the durable table. -/
theorem completes_setDur {c : Instr} {s : State} {k : Nat} {d : Dur} (run : exec c s = .next (s.setDur k d)) :
    Completes c s fun t => t.dur k = d ∧ t = { s with eav := { s.eav with durs := t.eav.durs } } ∧ ∀ j, j ≠ k → t.dur j = s.dur j :=
  ⟨_, run, s.dur_setDur_same k d, s.setDur_eq k d, fun _ other => s.dur_setDur_ne k d other⟩

/-! ### The commands (R203) -/

/-- The commands of entry `k`, each with its code in EAV_DUR_CTL_k.CMD. -/
def durCommands (k : Fin 16) : List (Nat × Instr) :=
  [(1, .define k), (2, .sealRegion k), (3, .reopen k), (4, .silver k), (5, .advance k), (6, .declareLost k), (7, .dissolve k)]

/-- A command of the durable table acts by its code, where Thatch carries it (R208, R354). -/
theorem exec_durCommands (s : State) (k : Fin 16) :
    ∀ p ∈ durCommands k, exec p.2 s = .next (if s.served then s.durCommand k.val p.1 else s) := by
  simp only [durCommands, List.forall_mem_cons, List.not_mem_nil, false_implies, implies_true, and_true]
  exact ⟨rfl, rfl, rfl, rfl, rfl, rfl, rfl⟩

/-- In Sarking-only operation a command of the durable table does nothing (R351, R354). -/
theorem exec_durCommands_unserved {s : State} (unserved : s.served = false) (k : Fin 16) : ∀ p ∈ durCommands k, exec p.2 s = .next s := by
  intro p listed
  rw [exec_durCommands s k p listed, unserved, if_neg Bool.false_ne_true]

theorem exec_durCommands_served {s : State} (served : s.served = true) (k : Fin 16) :
    ∀ p ∈ durCommands k, exec p.2 s = .next (s.durCommand k.val p.1) := by
  intro p listed
  rw [exec_durCommands s k p listed, if_pos served]

/-! ### The digest (R202) -/

section
variable (s : State) (k : Nat)

theorem State.endDigest_sealing (sealing : (s.dur k).state = .sealing) : (∀ v, s.endDigest k (some v) =
    s.setDur k { s.dur k with state := .sealed, digest := v }) ∧ s.endDigest k none = s.setDur k { s.dur k with state := .loading, err := true } := by
  unfold State.endDigest
  dsimp only
  rw [sealing]
  exact ⟨fun _ => rfl, rfl⟩

theorem State.endDigest_verifying (verifying : (s.dur k).state = .verifying) (r : Option (BitVec 384)) : s.endDigest k r =
    if r = some (s.dur k).expect then s.setDur k { s.dur k with state := .sealed, digest := (s.dur k).expect }
    else s.setDur k { s.dur k with state := .silvering, mark := 0, err := true } := by
  unfold State.endDigest
  dsimp only
  rw [verifying]
  by_cases same : r = some (s.dur k).expect
  · rw [if_pos same, same]
    exact if_pos rfl
  · rw [if_neg same]
    cases r with
    | none => rfl
    | some v => exact if_neg fun equal => same (congrArg some equal)

/-- A digest's end changes no memory. -/
theorem State.endDigest_mem (r : Option (BitVec 384)) : (s.endDigest k r).eav.mem = s.eav.mem := congrArg Prod.fst (s.endDigest_apart k r)

end

/-- What the eaves count leaves the durable table. -/
theorem State.eaveMarks_durs (s : State) (ev : Nat → Event) (l : List (Mark × Nat)) : (s.eaveMarks ev l).eav.durs = s.eav.durs := by
  refine State.foldl_keeps (fun t : State => t.eav.durs) _ (fun t m => ?_) l s
  unfold State.eaveMark
  dsimp only
  split
  · rw [State.count_eav]
  · rw [State.count_eav]
    rfl
  · rfl

theorem State.eaveMarks_mem (s : State) (ev : Nat → Event) (l : List (Mark × Nat)) : (s.eaveMarks ev l).eav.mem = s.eav.mem :=
  congrArg Prod.fst (s.eaveMarks_apart ev l)

/-- A digest that runs ends, and what it met on its way is counted. -/
theorem exec_digestDone {s : State} {k : Fin 16} (running : digesting (s.dur k.val) = true) : Completes (.digestDone k) s fun t =>
    t.dur k.val = (s.endDigest k.val (s.regionDigest (s.dur k.val))).dur k.val ∧ t.eav.mem = s.eav.mem := by
  refine completes_of_eq (congrArg Host.Outcome.next (if_pos running)) rfl ⟨?entry, ?memory⟩
  case entry => exact congrArg (fun t => Tab.get Dur.reset t k.val) (State.eaveMarks_durs ..)
  case memory => rw [State.eaveMarks_mem, State.endDigest_mem]

section
variable {s : State} {k : Fin 16}

/-- The digest of a region that was SEALING. -/
theorem exec_digestDone_sealing (sealing : (s.dur k.val).state = .sealing) : Completes (.digestDone k) s fun t =>
    (∀ v, s.regionDigest (s.dur k.val) = some v → t.dur k.val = { s.dur k.val with state := .sealed, digest := v }) ∧
    (s.regionDigest (s.dur k.val) = none → t.dur k.val = { s.dur k.val with state := .loading, err := true }) ∧ t.eav.mem = s.eav.mem := by
  obtain ⟨t, run, entry, memory⟩ := exec_digestDone (k := k) (show digesting (s.dur k.val) = true by simp [digesting, sealing])
  obtain ⟨sealed, lost⟩ := s.endDigest_sealing k.val sealing
  refine ⟨t, run, fun v whole => ?_, fun shingleLost => ?_, memory⟩
  · rw [entry, whole, sealed, State.dur_setDur_same]
  · rw [entry, shingleLost, lost, State.dur_setDur_same]

/-- The digest of a region that was VERIFYING. -/
theorem exec_digestDone_verifying (verifying : (s.dur k.val).state = .verifying) : Completes (.digestDone k) s fun t =>
    (s.regionDigest (s.dur k.val) = some (s.dur k.val).expect → t.dur k.val = { s.dur k.val with state := .sealed, digest := (s.dur k.val).expect }) ∧
    (s.regionDigest (s.dur k.val) ≠ some (s.dur k.val).expect →
      t.dur k.val = { s.dur k.val with state := .silvering, mark := 0, err := true }) ∧ t.eav.mem = s.eav.mem := by
  obtain ⟨t, run, entry, memory⟩ := exec_digestDone (k := k) (show digesting (s.dur k.val) = true by simp [digesting, verifying])
  have ends := s.endDigest_verifying k.val verifying (s.regionDigest (s.dur k.val))
  refine ⟨t, run, fun same => ?_, fun other => ?_, memory⟩
  · rw [entry, ends, if_pos same, State.dur_setDur_same]
  · rw [entry, ends, if_neg other, State.dur_setDur_same]

end

/-! ### What a region's state refuses (R201) -/

/-- R201's table by the right that an operation needs: 0 to read, 1 to write, 2 for the atomics. -/
theorem durCheck_of_right (st : DurState) (op : Byte) :
    (rightOf op = 0 → durCheck st op = if st ∈ [DurState.silvering, .verifying, .lost] then some stHomeFault else none) ∧
    (rightOf op = 1 → durCheck st op = if st = .lost then some stHomeFault
      else if st ∈ [DurState.sealing, .sealed, .verifying] then some stNoRight else none) ∧
    (rightOf op = 2 → durCheck st op = if st = .lost then some stHomeFault else if st = .empty then none else some stNoRight) := by
  unfold durCheck
  refine ⟨?read, ?write, ?atomic⟩ <;> intro right <;> rw [right] <;> cases st <;> rfl

/-- Settles O34: a digest's end by `exec_digestDone_sealing` and `exec_digestDone_verifying`, the refusals by R201's table, and Sarking-only
operation by the guard that every command of the table has. -/
theorem durableStates : Obligations.DurableStates := by
  refine ⟨fun s k => ⟨?sealed, ?lost, ?verified⟩, fun op => ?refusals, fun s k unserved c listed => ?unserved⟩
  case sealed =>
    intro sealing v whole
    obtain ⟨t, run, sealed, -, memory⟩ := exec_digestDone_sealing sealing
    exact ⟨t, run, sealed v whole, memory⟩
  case lost =>
    intro sealing lost
    obtain ⟨t, run, -, loading, memory⟩ := exec_digestDone_sealing sealing
    exact ⟨t, run, loading lost, memory⟩
  case verified =>
    intro verifying v whole
    obtain ⟨t, run, same, other, memory⟩ := exec_digestDone_verifying verifying
    rw [whole, Option.some_inj] at same
    rw [whole, ne_eq, Option.some_inj] at other
    refine ⟨t, run, ?_, fun differs => ?_, memory⟩
    · split
      · next equal => rw [same equal]
      · next differs => rw [other differs]
    · rw [other differs]
      exact ⟨rfl, rfl⟩
  case refusals =>
    exact ⟨fun st => (durCheck_of_right st op).1, fun st => (durCheck_of_right st op).2.1, fun st => (durCheck_of_right st op).2.2⟩
  case unserved =>
    obtain ⟨p, mem, rfl⟩ : ∃ p ∈ durCommands k, p.2 = c := by
      simpa [durCommands, eq_comm] using listed
    exact exec_durCommands_unserved unserved k p mem

end Sys2Proof.Machine
end

section
/-! SUPPORT. The commands of a durable region (R203) as their commands, as codes of EAV_DUR_CTL_k.CMD, and over a reset. -/
namespace Sys2Proof.Machine

open Sys2Proof

/-! ### What a command does to its entry (R203) -/

section
variable {s : State} {k : Nat}

theorem State.openRegion_opens (empty : (s.dur k).state = .empty) (ok : s.regionOk k (s.dur k) = true) (dst : DurState) :
    s.openRegion k dst = s.setDur k { s.dur k with state := dst, mark := 0 } := if_pos ⟨empty, ok⟩

theorem State.openRegion_refused (refused : (s.dur k).state ≠ .empty ∨ s.regionOk k (s.dur k) = false) (dst : DurState) :
    s.openRegion k dst = s.durErr k := by
  refine if_neg fun ⟨empty, ok⟩ => ?_
  cases refused with
  | inl used => exact used empty
  | inr bad => exact Bool.false_ne_true (bad.symm.trans ok)

theorem State.cmdAdvance_advances (silvering : (s.dur k).state = .silvering) : s.cmdAdvance k = s.setDur k
    { s.dur k with
      mark := (s.dur k).mark + 1
      state := if ((s.dur k).mark + 1).toNat = (s.dur k).chunks then .verifying else .silvering } := if_pos silvering

/-- A command that its state does not list sets ERR and nothing else. -/
theorem completes_durErr {c : Instr} (run : exec c s = .next (s.durErr k)) : Completes c s fun t =>
    t.dur k = { s.dur k with err := true } ∧ t = { s with eav := { s.eav with durs := t.eav.durs } } :=
  let ⟨t, ran, entry, frame, _⟩ := completes_setDur run
  ⟨t, ran, entry, frame⟩

/-- What a command leaves of its entry follows from the entry and the check of its region alone. -/
theorem State.durCommand_entry {u : State} (same : u.dur k = s.dur k) (check : u.regionOk k (s.dur k) = s.regionOk k (s.dur k)) {code : Nat}
    (some_ : code ≠ 0) : u.durCommand k code = u.setDur k ((s.durCommand k code).dur k) := by
  have put (d : Dur) : u.setDur k d = u.setDur k ((s.setDur k d).dur k) := by rw [State.dur_setDur_same]
  have err : u.durErr k = u.setDur k ((s.durErr k).dur k) := by rw [State.durErr, same, State.durErr, State.dur_setDur_same]
  have opens (dst : DurState) : u.openRegion k dst = u.setDur k ((s.openRegion k dst).dur k) := by
    unfold State.openRegion
    dsimp only
    rw [same, check]
    split
    exacts [put _, err]
  match code, some_ with
  | 1, _ => exact opens .loading
  | 2, _ =>
    show u.cmdSeal k = u.setDur k ((s.cmdSeal k).dur k)
    unfold State.cmdSeal
    dsimp only
    rw [same]
    split
    exacts [put _, err]
  | 3, _ =>
    show u.cmdReopen k = u.setDur k ((s.cmdReopen k).dur k)
    unfold State.cmdReopen
    dsimp only
    rw [same]
    split
    exacts [put _, err]
  | 4, _ => exact opens .silvering
  | 5, _ =>
    show u.cmdAdvance k = u.setDur k ((s.cmdAdvance k).dur k)
    unfold State.cmdAdvance
    dsimp only
    rw [same]
    split
    exacts [put _, err]
  | 6, _ =>
    show u.cmdLost k = u.setDur k ((s.cmdLost k).dur k)
    unfold State.cmdLost
    dsimp only
    rw [same]
    split
    exacts [err, put _]
  | code + 7, _ =>
    show u.cmdDissolve k = u.setDur k ((s.cmdDissolve k).dur k)
    unfold State.cmdDissolve
    rw [same]
    exact put _

end

/-! ### The table at its registers -/

/-- What holds of every entry at an index holds of a table whatever that entry is. -/
theorem Tab.all_put {α : Type} [DecidableEq α] (d : α) (t : Tab α) (k : Nat) (v : α) {test : Nat × α → Bool} (free : ∀ w, test (k, w) = true) :
    (Tab.put d t k v).all test = t.all test := by
  have inserted (t : Tab α) : (Tab.ins t k v).all test = t.all test := by
    induction t with
    | nil => simp [Tab.ins, free]
    | cons p t ih =>
      obtain ⟨j, w⟩ := p
      simp only [Tab.ins]
      split
      · simp [free]
      · split
        · next here => simp [← here, free]
        · simp [ih]
  unfold Tab.put
  split
  · rw [List.all_filter]
    refine congrArg (fun f => t.all f) (funext fun p => ?_)
    by_cases here : p.1 = k
    · obtain ⟨j, w⟩ := p
      subst here
      simp [free]
    · simp [here]
  · exact inserted t

/-- The check of a region does not look at the region's own entry. -/
theorem State.regionOk_setDur (s : State) (k : Nat) (d e : Dur) : (s.setDur k d).regionOk k e = s.regionOk k e := by
  have others := Tab.all_put Dur.reset s.eav.durs k d
    (test := fun p => decide (p.1 = k) || decide (p.2.state = .empty) || !rangesMeet e.lo e.hi p.2.lo p.2.hi) (fun w => by simp)
  exact congrArg (fun b => decide (fld e.base 21 20 ≤ fld e.limit 21 20) && b &&
    s.eav.wins.all fun p => !(p.2.valid && p.2.ledger) || !rangesMeet e.lo e.hi (ledgerExtent p.2).1 (ledgerExtent p.2).2) others

section
variable {s : State} {k : Nat}

/-- ERR of EAV_DUR_CTL_k stays where a code alone is written. -/
theorem durCtl_err_kept (st : DurState) (err : Bool) : ∀ code, code < 8 →
    bitAt (accessWrite 0 0x800 (packW 64 [(8, st.code), (11, flag err)] &&& 0xF00) (BitVec.ofNat 64 code)) 11 = err := by
  cases st <;> cases err <;> decide

/-- A code written to EAV_DUR_CTL_k.CMD is the command of that code. -/
theorem State.writeDurCtl_code (open_ : s.admitted = true) {code : Nat} (some_ : code ≠ 0) (small : code < 8) :
    s.writeDurCtl k (BitVec.ofNat 64 code) = (s.setDur k (s.dur k)).setDur k ((s.durCommand k code).dur k) := by
  have err := durCtl_err_kept (s.dur k).state (s.dur k).err code small
  have plain : s.plainWrite (.durCtl k) 0 (BitVec.ofNat 64 code) = s.setDur k (s.dur k) := by
    show s.setDur k { s.dur k with err := bitAt (accessWrite 0 0x800 (s.regVal (.durCtl k)) (BitVec.ofNat 64 code)) 11 } = _
    rw [show s.regVal (.durCtl k) = packW 64 [(8, (s.dur k).state.code), (11, flag (s.dur k).err)] &&& 0xF00 from onlyEav _ _, err]
  have cmd : fld (BitVec.ofNat 64 code) 0 3 = code := by
    rw [fld, BitVec.toNat_ofNat, Nat.shiftRight_zero]
    omega
  rw [State.writeDurCtl, if_pos open_, plain, cmd]
  exact State.durCommand_entry (s.dur_setDur_same k _) (s.regionOk_setDur k _ _) some_

/-- R203: a write of BASE, LIMIT or EXPECT outside EMPTY sets ERR. -/
theorem State.writeDur_used (open_ : s.admitted = true) (used : (s.dur k).state ≠ .empty) (r : Reg) (v : W64) :
    s.writeDur r k v = s.durErr k := by
  rw [State.writeDur, open_, Bool.not_true, if_neg Bool.false_ne_true, if_neg used]

end

/-! ### In band -/

section
variable {s : State}

/-- A write for a requester that only changes the durable table does so whatever request it is noted under. -/
theorem State.inAccess_durs {who : Requester} {d : Dev} {addr : Nat} {act : State → State} {durs : Tab Dur}
    (acts : ∀ q, act { s with sof := { s.sof with request := q } } =
      { s with sof := { s.sof with request := q }, eav := { s.eav with durs := durs } }) :
    s.inAccess who d addr act = { s with eav := { s.eav with durs := durs } } := by
  rcases s.inAccess_cases who d addr act with direct | noted
  · rw [direct]
    exact acts s.sof.request
  · rw [noted, State.inRequest, acts]

/-- The bay's fabric manager writes a register of its own whole (R344). -/
theorem exec_write_manager {a : W32} {r : Reg} (v : W64) (runs : s.sof.thatchRun = true) (at_ : regAt .module a.toNat = some r)
    (own : r.manager = true) : exec (.registerWrite .inBand .module a r.wide v) s = .next
      (s.inAccess .inBand .module a.toNat fun s => s.writeReg .inBand .module r (if r.wide then v else (v.setWidth 32).setWidth 64)) := by
  have reaches : s.reachesDev .inBand .module = true := by simp [State.reachesDev, State.reaches, runs]
  have may : s.mayWrite .inBand .module r = true := by simp [State.mayWrite, runs, own]
  rw [exec_write_whole s v reaches at_]
  simp [State.write, State.guard, may]

/-- The address of EAV_DUR_CTL_k (R370). -/
theorem regAt_durCtl : ∀ k : Fin 16, regAt .module (BitVec.ofNat 32 (0x4A0010 + 0x100 * k.val)).toNat = some (.durCtl k.val) := by decide +kernel

/-- A code written in band to EAV_DUR_CTL_k. -/
theorem exec_write_durCtl (k : Fin 16) (open_ : s.admitted = true) (runs : s.sof.thatchRun = true) {code : Nat} (some_ : code ≠ 0)
    (small : code < 8) : exec (.registerWrite .inBand .module (BitVec.ofNat 32 (0x4A0010 + 0x100 * k.val)) false (BitVec.ofNat 64 code)) s =
      .next ((s.setDur k.val (s.dur k.val)).setDur k.val ((s.durCommand k.val code).dur k.val)) := by
  have written := exec_write_manager (BitVec.ofNat 64 code) runs (regAt_durCtl k) rfl
  have word : ((BitVec.ofNat 64 code).setWidth 32).setWidth 64 = BitVec.ofNat 64 code := by
    refine BitVec.eq_of_toNat_eq ?_
    simp only [BitVec.toNat_setWidth, BitVec.toNat_ofNat]
    omega
  rw [State.inAccess_durs (durs := ((s.setDur k.val (s.dur k.val)).setDur k.val ((s.durCommand k.val code).dur k.val)).eav.durs) fun q => ?_]
    at written
  · exact written
  · let noted : State := { s with sof := { s.sof with request := q } }
    have command := State.durCommand_entry (s := s) (u := noted) (k := k.val) rfl rfl some_
    have wrote := State.writeDurCtl_code (s := noted) (k := k.val) open_ some_ small
    rw [command, State.dur_setDur_same] at wrote
    show State.writeDurCtl noted k.val ((BitVec.ofNat 64 code).setWidth 32 |>.setWidth 64) = _
    rw [word, wrote]
    rfl

/-- BASE, LIMIT or EXPECT of an entry in use written in band. -/
theorem exec_write_durWord {k : Nat} {w : Nat} {a : W32} {r : Reg} (v : W64) (open_ : s.admitted = true) (runs : s.sof.thatchRun = true)
    (used : (s.dur k).state ≠ .empty) (at_ : regAt .module a.toNat = some r) (word : r = .durBase k ∨ r = .durLimit k ∨ r = .durExpect k w) :
    exec (.registerWrite .inBand .module a true v) s = .next (s.durErr k) := by
  have own : r.manager = true ∧ r.wide = true ∧ ∀ u : State, u.writeReg .inBand .module r v = u.writeDur r k v := by
    rcases word with rfl | rfl | rfl <;> exact ⟨rfl, rfl, fun _ => rfl⟩
  obtain ⟨manager, wide, writes⟩ := own
  have written := exec_write_manager v runs at_ manager
  rw [wide, State.inAccess_durs (durs := (s.durErr k).eav.durs) fun q => ?_] at written
  · exact written
  · rw [if_pos rfl, writes]
    exact State.writeDur_used (s := { s with sof := { s.sof with request := q } }) open_ used r v

end

/-! ### Over a reset (R203, R303) -/

theorem Dur.afterReset_eq (d : Dur) : d.afterReset = if d.state = .sealing then { d with state := .loading }
    else if d.state = .verifying then { d with state := .silvering } else d := by
  obtain ⟨base, limit, state, err, mark, digest, expect⟩ := d
  cases state <;> rfl

/-- A reset takes up no digest, and leaves all else of the table. -/
theorem State.dur_moduleReset (s : State) (j : Nat) : s.moduleReset.dur j = (s.dur j).afterReset :=
  Tab.get_mapAll Dur.reset Dur.afterReset s.eav.durs j rfl

/-- Settles O33: each command by what it does to its entry, a code of CMD by `exec_write_durCtl`, a word outside EMPTY by `exec_write_durWord`,
the digest's end as in O34, and a reset entry by entry. -/
theorem durableCommands : Obligations.DurableCommands := by
  refine ⟨fun s k => ?effects, fun s k served => ?refusals, ⟨fun s k open_ runs served => ⟨fun p listed => ?codes, fun used a w v r at_ word => ?words⟩,
    fun s k => ⟨fun sealing => ?sealed, fun verifying => ?verified⟩, fun s us long => ?reset⟩⟩
  case effects =>
    intro d only served
    have runs := exec_durCommands_served served k
    simp only [durCommands, List.forall_mem_cons] at runs
    obtain ⟨define, digest, reopen, silver, advance, lost, dissolve, -⟩ := runs
    refine ⟨fun empty ok => ?_, fun loading => ?_, fun sealed => ?_, fun empty ok => ?_, fun silvering => ?_, fun used => ?_, ?_⟩
    · exact completes_setDur (define.trans (congrArg _ (State.openRegion_opens empty ok _)))
    · exact completes_setDur (digest.trans (congrArg _ (if_pos loading)))
    · exact completes_setDur (reopen.trans (congrArg _ (if_pos sealed)))
    · exact completes_setDur (silver.trans (congrArg _ (State.openRegion_opens empty ok _)))
    · obtain ⟨t, run, entry, frame⟩ := completes_setDur (advance.trans (congrArg _ (State.cmdAdvance_advances silvering)))
      exact ⟨t, run, congrArg Dur.mark entry, frame, congrArg Dur.state entry⟩
    · exact completes_setDur (lost.trans (congrArg _ (if_neg used)))
    · exact completes_setDur dissolve
  case refusals =>
    intro d refused
    have runs := exec_durCommands_served served k
    simp only [durCommands, List.forall_mem_cons] at runs
    obtain ⟨define, digest, reopen, silver, advance, lost, -⟩ := runs
    refine ⟨fun closed => ⟨?_, ?_⟩, fun other => ?_, fun other => ?_, fun other => ?_, fun empty => ?_⟩
    · exact completes_durErr (define.trans (congrArg _ (State.openRegion_refused closed _)))
    · exact completes_durErr (silver.trans (congrArg _ (State.openRegion_refused closed _)))
    · exact completes_durErr (digest.trans (congrArg _ (if_neg other)))
    · exact completes_durErr (reopen.trans (congrArg _ (if_neg other)))
    · exact completes_durErr (advance.trans (congrArg _ (if_neg other)))
    · exact completes_durErr (lost.trans (congrArg _ (if_pos empty)))
  case codes =>
    have code : ∀ p ∈ durCommands k, p.1 ≠ 0 ∧ p.1 < 8 := by simp [durCommands]
    obtain ⟨some_, small⟩ := code p listed
    refine ⟨_, exec_durCommands_served served k p listed, _, exec_write_durCtl k open_ runs some_ small, fun j => ?_, rfl⟩
    rw [State.durCommand_entry (s := s) (u := s) rfl rfl some_]
    simp only [State.dur_setDur]
    split <;> rfl
  case words =>
    exact ⟨_, exec_write_durWord v open_ runs used at_ word, s.dur_setDur_same .., fun _ other => s.dur_setDur_ne _ _ other, rfl⟩
  case sealed =>
    obtain ⟨t, run, sealed, lost, -⟩ := exec_digestDone_sealing sealing
    exact ⟨t, run, sealed, lost⟩
  case verified =>
    obtain ⟨t, run, same, other, -⟩ := exec_digestDone_verifying verifying
    exact ⟨t, run, same, other⟩
  case reset =>
    refine ⟨_, exec_resetNLow s long, fun j => ?_⟩
    exact (State.dur_moduleReset _ j).trans (Dur.afterReset_eq _)

end Sys2Proof.Machine
end

section
/-! SUPPORT. An eave's stack that retrains or fails (R189): what the home queues' service and the gathers leave of an eave out of service and of the
fault that stands. -/
namespace Sys2Proof.Machine

open Sys2Proof

/-! ### What a fatal fault has settled -/

/-- What a fatal fault writes and a teardown starts with: GUT_FATAL, the teardown's phase and the bay's state. -/
def State.fault (s : State) : W64 × Phase × Sec := (s.gut.fatal, s.gut.phase, s.sec)

theorem TornDown.of_fault {s t : State} {code : Nat} (torn : TornDown s code) (same : t.fault = s.fault) : TornDown t code := by
  simp only [State.fault, Prod.mk.injEq] at same
  obtain ⟨fatal, phase, sec⟩ := same
  rw [TornDown, fatal, phase, sec]
  exact torn

section
variable (s : State)

theorem State.fault_of_declared {t : State} (declared : t.declared = s.declared) (sec : t.sec = s.sec) : t.fault = s.fault := by
  simp only [State.declared, Prod.mk.injEq] at declared
  obtain ⟨-, fatal, phase, -, -⟩ := declared
  rw [State.fault, fatal, phase, sec, State.fault]

theorem State.count_fault (e : Event) : (s.count e).fault = s.fault := s.fault_of_declared (s.count_declared e) (s.count_sec e)

theorem State.respond_fault (src : Nat) (f : Frame) : (s.respond src f).fault = s.fault :=
  s.fault_of_declared (s.respondTo_declared 0 src f) (s.respond_sec src f)

theorem State.refuse_declared (src : Nat) (h : Header) (status : Byte) : (s.refuse src h status).declared = s.declared := by
  have dropped : (s.drop h).declared = s.declared := s.count_declared _
  unfold State.refuse
  split
  · exact dropped
  · split
    · split
      · exact dropped
      · exact (State.count_declared _ _).trans dropped
    · split
      · exact dropped
      · exact s.respondTo_declared _ _ _

theorem State.refuse_fault (src : Nat) (h : Header) (status : Byte) : (s.refuse src h status).fault = s.fault :=
  s.fault_of_declared (s.refuse_declared src h status) (s.refuse_sec src h status)

/-- A frame taken out of the buffer leaves the eaves and the fault. -/
theorem State.dequeue_leaves {s t : State} {q : Nat} {e : Entry} (taken : s.dequeue q = some (e, t)) : t.eav = s.eav ∧ t.fault = s.fault := by
  unfold State.dequeue at taken
  split at taken
  · cases taken
  · next rest waits =>
    cases taken
    have unlinked := ((s.readEntry e).setQueue q ((s.queue q).keep rest)).unlink_declared q e
    have read : (s.readEntry e).eav = s.eav ∧ (s.readEntry e).fault = s.fault := by
      unfold State.readEntry
      split <;> exact ⟨rfl, rfl⟩
    obtain ⟨eav, fault⟩ := read
    refine ⟨Eq.trans ?_ eav, (State.fault_of_declared _ unlinked (State.unlink_sec ..)).trans fault⟩
    exact congrArg (fun d => d.2.2.2.1) unlinked

/-- What a group's course queue that is served can do: nothing, answer for an eave out of service, or put its head into a home queue. -/
theorem State.serveOne_cases (g c : Nat) : s.serveOne g c = s ∨ ∃ e u x, s.dequeue (agentQueue g c) = some (e, u) ∧
    ((u.eave e.eave).failed = true ∧ s.serveOne g c = (u.setGroup g x).refuse (agentSource g) e.frame.hdr stHomeFault ∨
      (u.eave e.eave).failed = false ∧ ∃ v, s.serveOne g c = ((u.setGroup g x).setEave e.eave v).countBundle e) := by
  unfold State.serveOne
  split
  · exact .inl rfl
  · next e u taken =>
    cases failed : (u.eave e.eave).failed with
    | true => exact .inr ⟨e, u, _, taken, .inl ⟨failed, if_pos failed⟩⟩
    | false => exact .inr ⟨e, u, _, taken, .inr ⟨failed, _, if_neg (ne_true_of_eq_false failed)⟩⟩

theorem State.serveOne_fault (g c : Nat) : (s.serveOne g c).fault = s.fault := by
  obtain idle | ⟨e, u, x, taken, ⟨-, answered⟩ | ⟨-, v, entered⟩⟩ := s.serveOne_cases g c
  · rw [idle]
  · rw [answered, State.refuse_fault, ← (State.dequeue_leaves taken).2]
    rfl
  · rw [entered, ← (State.dequeue_leaves taken).2]
    unfold State.countBundle
    split <;> rfl

theorem State.serve_fault (g n : Nat) : (s.serve g n).fault = s.fault := by
  induction n generalizing s with
  | zero => rfl
  | succ n ih =>
    unfold State.serve
    split
    · rfl
    · rw [ih, State.serveOne_fault]

theorem State.eaveMark_fault (ev : Nat → Event) (m : Mark × Nat) : (State.eaveMark ev s m).fault = s.fault := by
  unfold State.eaveMark
  dsimp only
  split
  · exact s.count_fault _
  · exact State.count_fault _ _
  · rfl

theorem State.endList_fault (g : Fin 4) (b : BList) (answer : List Frame) : (s.endList g b answer).fault = s.fault :=
  State.foldl_keeps State.fault _ (fun s f => s.respond_fault _ f) _ _

theorem State.tryList_fault (g : Fin 4) (b : BList) : (s.tryList g b).fault = s.fault := by
  unfold State.tryList
  split
  · rw [State.endList_fault, State.eaveMarks, State.foldl_keeps State.fault _ (State.eaveMark_fault · _), State.count_fault]
  · rfl

theorem State.settleLists_fault : s.settleLists.fault = s.fault :=
  State.foldl_keeps State.fault _ (fun s g => State.foldl_keeps State.fault _ (fun s b => s.tryList_fault g b) _ s) _ s

end

/-! ### What an eave serves -/

theorem State.eave_of_eav {s t : State} (same : t.eav = s.eav) (n : Nat) : t.eave n = s.eave n := by rw [State.eave, same, State.eave]

/-- What decides whether an eave serves, and what waits in its home queue. -/
def Eave.service (v : Eave) : Bool × Bool × Bool × List Entry := (v.ready, v.failed, v.retraining, v.homeQ)

section
variable (s : State) (n : Nat)

theorem State.setEave_service (m : Nat) (v : Eave) (same : v.service = (s.eave m).service) :
    ((s.setEave m v).eave n).service = (s.eave n).service := by
  rw [State.eave_setEave]
  split
  · next here => rw [here, same]
  · rfl

/-- EAV_ERR_FIRST loaded, or kept, and nothing else of the eave. -/
theorem Eave.first_eq (v : Eave) (i kind beat : Nat) : ∃ w, v.first i kind beat = { v with errFirst := w } := by
  unfold Eave.first
  split <;> exact ⟨_, rfl⟩

theorem Eave.first_service (v : Eave) (i kind beat : Nat) : (v.first i kind beat).service = v.service := by
  obtain ⟨w, loaded⟩ := v.first_eq i kind beat
  rw [loaded]
  rfl

theorem State.eaveMark_service (ev : Nat → Event) (m : Mark × Nat) : ((State.eaveMark ev s m).eave n).service = (s.eave n).service := by
  have noted (lo kind : Nat) := s.setEave_service n (m.2 / eaveShingles) (((s.eave (m.2 / eaveShingles)).bump lo 1).first m.2 kind s.beat)
    (Eave.first_service _ _ _ _)
  have counted (u : State) (e : Event) : (u.count e).eave n = u.eave n := State.eave_of_eav (u.count_eav e) n
  unfold State.eaveMark
  dsimp only
  split
  · rw [counted]
  · rw [counted, noted]
  · rw [noted]

theorem State.endList_service (g : Fin 4) (b : BList) (answer : List Frame) : ((s.endList g b answer).eave n).service = (s.eave n).service :=
  State.foldl_keeps (fun t : State => (t.eave n).service) _
    (fun s f => congrArg Eave.service (State.eave_of_eav (s.respond_eav _ f) n)) _ _

theorem State.tryList_service (g : Fin 4) (b : BList) : ((s.tryList g b).eave n).service = (s.eave n).service := by
  unfold State.tryList
  split
  · rw [State.endList_service, State.eaveMarks, State.foldl_keeps (fun t : State => (t.eave n).service) _ (fun s m => s.eaveMark_service n _ m)]
    exact congrArg Eave.service (State.eave_of_eav (s.count_eav _) n)
  · rfl

/-- Gathers that go on leave what an eave serves. -/
theorem State.settleLists_service : (s.settleLists.eave n).service = (s.eave n).service :=
  State.foldl_keeps (fun t : State => (t.eave n).service) _
    (fun s g => State.foldl_keeps (fun t : State => (t.eave n).service) _ (fun s b => s.tryList_service n g b) _ s) _ s

/-- No request enters the home queue of an eave out of service (R189). -/
theorem State.serveOne_failed (failed : (s.eave n).failed = true) (g c : Nat) : (s.serveOne g c).eave n = s.eave n := by
  obtain idle | ⟨e, u, x, taken, ⟨-, answered⟩ | ⟨serves, v, entered⟩⟩ := s.serveOne_cases g c
  · rw [idle]
  · rw [answered, ← State.eave_of_eav (State.dequeue_leaves taken).1, State.eave_of_eav (State.refuse_eav _ _ _ _)]
    rfl
  · have here := State.eave_of_eav (State.dequeue_leaves taken).1 n
    have other : n ≠ e.eave := fun same => by rw [← same, here, failed] at serves; cases serves
    rw [entered, ← here, State.eave_of_eav (State.countBundle_eav _ e), State.eave_setEave, if_neg other]
    rfl

theorem State.serve_failed (failed : (s.eave n).failed = true) (g k : Nat) : (s.serve g k).eave n = s.eave n := by
  induction k generalizing s with
  | zero => rfl
  | succ k ih =>
    unfold State.serve
    split
    · rfl
    · next c _ =>
      have one := s.serveOne_failed n failed g c
      rw [ih _ (by rw [one]; exact failed), one]

end

/-! ### An eave that fails -/

theorem State.mem_of_apart {s t : State} (same : t.apart = s.apart) : t.eav.mem = s.eav.mem := congrArg Prod.fst same

/-- An eave as it goes out of service. -/
def Eave.out (v : Eave) : Eave := { v with ready := false, failed := true, scrubRun := false, homeQ := [] }

/-- An eave that fails: a fatal fault, its requests answered, then what waits behind them served and the gathers looked at again. -/
theorem State.failEave_eq (s : State) (n : Fin 32) : ∃ ev, s.failEave n =
    (((s.eave n.val).homeQ.foldl (fun s e => s.refuse (agentSource (n.val / 8)) e.frame.hdr stHomeFault)
      ((s.setEave n.val (s.eave n.val).out).fatal 14 .module ev)).serveGroup (n.val / 8)).settleLists := ⟨_, rfl⟩

/-- An eave out of service (R189): it serves nothing, nothing waits in it, memory stays, and an admitted bay without a teardown in progress is torn
down. -/
theorem State.failEave_out (s : State) (n : Fin 32) :
    (((s.failEave n).eave n.val).failed = true ∧ ((s.failEave n).eave n.val).ready = false ∧ ((s.failEave n).eave n.val).homeQ = []) ∧
    (s.failEave n).eav.mem = s.eav.mem ∧ (s.admitted = true → s.gut.phase = .none → TornDown (s.failEave n) 14) := by
  refine ⟨?serves, State.mem_of_apart (s.failEave_apart n), fun bay calm => ?fault⟩
  all_goals
    obtain ⟨ev, fails⟩ := s.failEave_eq n
    rw [fails]
  case serves =>
    have broken := s.eave_setEave n.val n.val (s.eave n.val).out
    rw [if_pos rfl] at broken
    generalize s.setEave n.val (s.eave n.val).out = u at broken
    have eave : ((s.eave n.val).homeQ.foldl (fun s e => s.refuse (agentSource (n.val / 8)) e.frame.hdr stHomeFault)
        (u.fatal 14 .module ev)).eave n.val = (s.eave n.val).out :=
      (State.eave_of_eav ((State.foldl_keeps State.eav _ (fun s e => s.refuse_eav _ _ _) _ _).trans (u.fatal_eav _ _ _)) _).trans broken
    have service := State.settleLists_service (State.serveGroup ((s.eave n.val).homeQ.foldl
      (fun s e => s.refuse (agentSource (n.val / 8)) e.frame.hdr stHomeFault) (u.fatal 14 .module ev)) (n.val / 8)) n.val
    rw [State.serveGroup, State.serve_failed _ _ (by rw [eave]; rfl), eave] at service
    simp only [Eave.service, Prod.mk.injEq] at service
    obtain ⟨ready, failed, -, homeQ⟩ := service
    exact ⟨failed, ready, homeQ⟩
  case fault =>
    refine (State.fatal_torn (s.setEave n.val (s.eave n.val).out) 14 .module ev (by decide) bay calm).of_fault ?_
    rw [State.settleLists_fault, State.serveGroup, State.serve_fault]
    exact State.foldl_keeps State.fault _ (fun s e => s.refuse_fault _ _ _) _ _

/-! ### Gathers that wait -/

/-- An entry that differs from what an unlisted one reads is listed. -/
theorem Tab.mem_of_get_ne {α : Type} {d : α} {t : Tab α} {i : Nat} (listed : Tab.get d t i ≠ d) : (i, Tab.get d t i) ∈ t := by
  induction t with
  | nil => exact absurd rfl listed
  | cons p t ih =>
    obtain ⟨k, v⟩ := p
    by_cases here : k = i
    · simp [Tab.get, here]
    · rw [Tab.get, if_neg here] at listed ⊢
      exact List.mem_cons_of_mem _ (ih listed)

section
variable {s : State}

/-- While an eave retrains, no turn comes in its home queue. -/
theorem State.homeTurn_retraining {n : Fin 32} (retrains : (s.eave n.val).retraining = true) (i : Nat) (op : Byte) (ledger : Bool) :
    s.homeTurn n i op ledger = none := by
  unfold State.homeTurn
  dsimp only
  split
  · rfl
  · exact if_neg fun ⟨_, _, serves, _⟩ => by simp [retrains] at serves

/-- A gather one of whose pages an eave serves that retrains waits. -/
theorem State.tryList_held {g : Fin 4} {b : BList} {m off k : Nat} {w : Window} {es : List Nat} {ps : List (Window × Nat)}
    (entries : b.entries (b.hdr.poison ≠ 0) = .ok es) (pages : collectPages (s.pageCheck b.hdr) es = .ok ps) (page : (w, off) ∈ ps)
    (inside : k < pageBytes b.hdr / 256) (here : m = (eaveOf s.eav.hashCfg (w.moduleAddr (off + 256 * k))).1)
    (retrains : (s.eave m).retraining = true) : s.tryList g b = s := by
  have listed : (s.eav.eaves.any fun p => p.2.retraining) = true := by
    refine List.any_eq_true.mpr ⟨_, Tab.mem_of_get_ne (d := Eave.reset) fun unlisted => ?_, retrains⟩
    rw [State.eave, unlisted] at retrains
    cases retrains
  have held : s.listHeld b = true := by
    rw [State.listHeld, listed, Bool.true_and, entries]
    dsimp only
    rw [pages]
    refine List.any_eq_true.mpr ⟨(w, off), page, List.any_eq_true.mpr ⟨k, List.mem_range.mpr inside, ?_⟩⟩
    rw [← here]
    exact retrains
  exact if_neg (by rw [held]; simp)

theorem State.foldl_stays {β : Type} {f : State → β → State} {l : List β} (stays : ∀ x ∈ l, f s x = s) : l.foldl f s = s := by
  induction l with
  | nil => rfl
  | cons x l ih => rw [List.foldl_cons, stays x List.mem_cons_self, ih fun y mem => stays y (List.mem_cons_of_mem x mem)]

/-- Where no list is whole, none goes on. -/
theorem State.settleLists_partial (partial_ : ∀ g, g < 4 → ∀ b ∈ (s.group g).lists, b.whole = false) : s.settleLists = s :=
  State.foldl_stays fun g _ => State.foldl_stays fun b mem => if_neg (by rw [partial_ g.val g.isLt b mem]; simp)

end

/-! ### The commands (R189) -/

section
variable {s : State} {n : Fin 32}

theorem exec_stackRetraining (serves : (s.eave n.val).failed = false) :
    exec (.stackRetraining n) s = .next (s.setEave n.val { s.eave n.val with retraining := true }) :=
  congrArg Host.Outcome.next (if_neg (by rw [serves]; exact Bool.false_ne_true))

theorem exec_stackTrainingLost (serves : (s.eave n.val).failed = false) (retrains : (s.eave n.val).retraining = true) :
    exec (.stackTrainingLost n) s = .next (s.failEave n) := congrArg Host.Outcome.next (if_pos ⟨retrains, by rw [serves]; rfl⟩)

theorem State.toBeat_beat_le {b : Nat} (clock : s.tim.refclkOk = true) (due : s.tim.fifths ≤ 5120 * b) : (s.toBeat b).beat = b := by
  rcases Nat.lt_or_eq_of_le due with early | now
  · exact s.toBeat_beat b clock early
  · show (s.tim.toTime (b * 5120)).fifths / 5120 = b
    rw [Tim.toTime, if_neg (by omega), now]
    exact Nat.mul_div_cancel_left b (by decide)

theorem exec_homeQueueStopped {b : W64} (waits : (s.eave n.val).homeQ ≠ []) (clock : s.tim.refclkOk = true)
    (due : s.tim.fifths ≤ 5120 * b.toNat) (long : (s.eave n.val).lastDone + 1024 ≤ b.toNat) :
    exec (.homeQueueStopped n b) s = .next ((s.toBeat b.toNat).failEave n) :=
  congrArg Host.Outcome.next (if_pos ⟨waits, by rw [State.toBeat_beat_le clock due]; exact long⟩)

end

/-! ### The patrol scrub (R182, R198) -/

section
variable {s : State} {n : Fin 32}

theorem Store.disturb_writtenIn (m : Store) (i : Nat) (err : Shingle) : Store.WrittenIn i 1 m (m.disturb i err) := by
  unfold Store.disturb
  split
  · exact .refl m i 1
  · refine ⟨rfl, fun a out => ?_, fun _ _ => rfl⟩
    rw [get_writeCells, if_neg (by omega)]

/-- A visit that finds an unmarked word within two symbols of a codeword. -/
theorem State.scrubVisit_corrected (s : State) (n : Nat) (err : Shingle) {v : Shingle} : let i := n * eaveShingles + (s.eave n).scrubShingle
    let m := s.eav.store.disturb i err
    markedAt m i = false → decodeShingle (readShingle m i) = .corrected v → s.scrubVisit n err =
      (({ s with eav := { s.eav with mem := (storeShingle m i v false).mem } } : State).setEave n
        (((s.eave n).bump 16 1).first i 2 s.beat).scrubNext).count { eventOf 13 with addr := BitVec.ofNat 64 (maOfIndex s.eav.hashCfg i) } := by
  intro i m unmarked corrected
  have met : scrubShingle m i = (storeShingle m i v false, some .corrected) := by
    rw [scrubShingle, unmarked, if_neg Bool.false_ne_true, corrected]
  unfold State.scrubVisit
  dsimp only
  rw [show scrubShingle (s.eav.store.disturb (n * eaveShingles + (s.eave n).scrubShingle) err) (n * eaveShingles + (s.eave n).scrubShingle) =
    _ from met]

theorem exec_patrolScrub_visit {err : Shingle} (on : bitAt s.eav.scrubCfg 0 = true) (serves : (s.eave n.val).failed = false)
    (kept : (s.eave n.val).zeroizing = false) : exec (.patrolScrub n err 0) s = .next (s.scrubVisit n.val err) :=
  congrArg Host.Outcome.next (if_neg (by simp [State.stackCorr, on, serves, kept]))

theorem Eave.scrubNext_err (v : Eave) (i kind beat : Nat) :
    (v.first i kind beat).scrubNext.err = v.err ∧ (v.first i kind beat).scrubNext.scrubShingle = (v.scrubShingle + 1) % eaveShingles := by
  obtain ⟨w, loaded⟩ := v.first_eq i kind beat
  rw [loaded]
  exact ⟨rfl, rfl⟩

/-- A visit without a scrub counts what the stack's own code has corrected (log entry 93). -/
theorem exec_patrolScrub_off {err : Shingle} {k : W16} (off : bitAt s.eav.scrubCfg 0 = false) (some_ : k ≠ 0) : ∃ w e,
    exec (.patrolScrub n err k) s =
      .next ((s.setEave n.val { (s.eave n.val).bump 0 k.toNat with errFirst := w }).count e) := by
  obtain ⟨w, loaded⟩ := ((s.eave n.val).bump 0 k.toNat).first_eq (n.val * eaveShingles + (s.eave n.val).scrubShingle) 1 s.beat
  have corrected : s.stackCorr n.val k.toNat = (s.setEave n.val { (s.eave n.val).bump 0 k.toNat with errFirst := w }).count
      { eventOf 12 with
        addr := BitVec.ofNat 64 (maOfIndex s.eav.hashCfg (n.val * eaveShingles + (s.eave n.val).scrubShingle)), count := k.toNat } := by
    rw [← loaded]
    exact if_neg fun zero => some_ (BitVec.eq_of_toNat_eq zero)
  refine ⟨w, _, congrArg Host.Outcome.next ((congrArg (fun t : State => if !bitAt t.eav.scrubCfg 0 ∨ (t.eave n.val).failed ∨
    (t.eave n.val).zeroizing then t else t.scrubVisit n.val err) corrected).trans (if_pos (.inl ?_)))⟩
  rw [State.count_eav]
  exact congrArg (!·) off

end

/-- Settles O32: an eave out of service by `failEave_out`, gathers by `settleLists_service` and `tryList_held`, the scrub by its visit. -/
theorem stacksAndScrub : Obligations.StacksAndScrub := by
  refine ⟨fun s n serves => ⟨?retraining, ?retrained, ?held, ?lost, ?stopped⟩, fun s n => ⟨?visit, ?off⟩⟩
  case retraining =>
    refine ⟨_, exec_stackRetraining serves, fun i op led => State.homeTurn_retraining ?_ i op led, rfl, fun m other => ?_⟩
    · rw [State.eave_setEave, if_pos rfl]
    · rw [State.eave_setEave, if_neg other]
  case retrained =>
    let up := s.setEave n.val { s.eave n.val with retraining := false }
    have eave : up.eave n.val = { s.eave n.val with retraining := false } := (s.eave_setEave ..).trans (if_pos rfl)
    have service := up.settleLists_service n.val
    rw [eave] at service
    simp only [Eave.service, Prod.mk.injEq] at service
    obtain ⟨-, -, retraining, homeQ⟩ := service
    refine ⟨_, rfl, retraining, homeQ, State.mem_of_apart up.settleLists_apart, fun partial_ => ?_⟩
    show up.settleLists = _
    rw [State.settleLists_partial (s := up) partial_]
    rfl
  case held =>
    intro g b m w off k es ps entries pages page inside here retrains
    exact State.tryList_held entries pages page inside here retrains
  case lost =>
    intro retrains
    obtain ⟨⟨failed, ready, homeQ⟩, mem, torn⟩ := s.failEave_out n
    exact ⟨_, exec_stackTrainingLost serves retrains, failed, ready, homeQ, mem, torn⟩
  case stopped =>
    intro b waits clock due long
    obtain ⟨⟨failed, -, homeQ⟩, mem, torn⟩ := (s.toBeat b.toNat).failEave_out n
    exact ⟨_, exec_homeQueueStopped waits clock due long, failed, homeQ, mem, torn⟩
  case visit =>
    intro err v on serves kept i m unmarked corrected
    have visit := s.scrubVisit_corrected n.val err unmarked corrected
    let met : State := { s with eav := { s.eav with mem := (storeShingle m i v false).mem } }
    let next : Eave := (((s.eave n.val).bump 16 1).first i 2 s.beat).scrubNext
    have eav (e : Event) : ((met.setEave n.val next).count e).eav = (met.setEave n.val next).eav := State.count_eav _ e
    have eave (e : Event) : ((met.setEave n.val next).count e).eave n.val = next := by
      rw [State.eave, eav]
      exact (met.eave_setEave n.val n.val next).trans (if_pos rfl)
    obtain ⟨errs, moved⟩ := Eave.scrubNext_err ((s.eave n.val).bump 16 1) i 2 s.beat
    have mem (e : Event) : ((met.setEave n.val next).count e).eav.mem = (storeShingle m i v false).mem := congrArg Eav.mem (eav e)
    refine completes_of_eq (exec_patrolScrub_visit on serves kept) visit ⟨mem _, ?_, ?_, ?_, State.count_total _ _ Nat.one_ne_zero, State.count_pur _ _⟩
    · rw [mem]
      exact ((s.eav.store.disturb_writtenIn i err).trans (storeShingle_writtenIn m i v false)).2
    · rw [eave]
      exact errs
    · rw [eave]
      exact moved
  case off =>
    intro err k off some_
    obtain ⟨w, e, run⟩ := exec_patrolScrub_off (n := n) (err := err) off some_
    have eave := State.eave_of_eav (State.count_eav (s.setEave n.val { (s.eave n.val).bump 0 k.toNat with errFirst := w }) e) n.val
    rw [State.eave_setEave, if_pos rfl] at eave
    have moved := congrArg Eave.scrubShingle eave
    refine ⟨_, run, congrArg Eave.err eave, moved, ?_, State.count_pur _ _⟩
    rw [State.count_eav]
    rfl

end Sys2Proof.Machine
end

section
/-! SUPPORT. RELEASE and zeroization (R207, R278 to R281): what the start of a zeroization leaves, what a release has settled before it, the node that
acknowledges no DESTROY, and the end of a zeroization with and without an eave that cannot serve. -/
namespace Sys2Proof.Machine

open Sys2Proof

/-! ### The beginning of a zeroization (R278 steps 4 and 5, R207) -/

/-- An eave that begins to write zeros. -/
def Eave.beginZero (v : Eave) : Eave := { v with zeroizing := true, scrubRun := false, homeQ := [], errFirst := 0 }

theorem Eav.beginZero_eave (e : Eav) {n : Nat} (small : n < 32) :
    Tab.get Eave.reset e.beginZero.eaves n = (Tab.get Eave.reset e.eaves n).beginZero := by
  have eaves : e.beginZero.eaves = (List.range 32).foldl (fun t k => Tab.upd Eave.reset t k Eave.beginZero) e.eaves := by
    unfold Eav.beginZero
    dsimp only
    rfl
  rw [eaves, Tab.get_foldl_upd Eave.reset Eave.beginZero (fun _ => rfl), if_pos (List.mem_range.mpr small)]

/-- Reading a table that lists an entry for each number of a range. -/
theorem Tab.get_map_of_mem {α : Type} (d : α) (g : Nat → α) {l : List Nat} {n : Nat} (mem : n ∈ l) :
    Tab.get d (l.map fun k => (k, g k)) n = g n := by
  induction l with
  | nil => cases mem
  | cons k l ih =>
    rw [List.map_cons, Tab.get]
    split
    · next here => rw [here]
    · next other => exact ih ((List.mem_cons.mp mem).resolve_left (Ne.symm other))

/-- Every slot of Gable is ZEROIZING (R226). -/
theorem Gab.zeroize_slot (g : Gab) {n : Nat} (small : n < 256) : (g.zeroize.slot n).state = .zeroizing :=
  congrArg Slot.state (Tab.get_map_of_mem Slot.reset (fun _ => { Slot.reset with state := .zeroizing }) (List.mem_range.mpr small))

section
variable (s : State)

theorem State.emptyBuffer_queue (q : Nat) : (s.emptyBuffer.queue q).items = [] :=
  congrArg Queue.items (Tab.get_mapAll Queue.reset (fun x => { x with head := x.tail, items := [] }) s.pur.queues q rfl)

theorem State.beginZero_sec : s.beginZero.sec = s.sec.noKeys := s.beginZero_bay.1

theorem State.beginZero_jeb : s.beginZero.jeb = s.jeb := s.emptyBuffer_jeb.symm ▸ rfl

theorem State.beginZero_gut : s.beginZero.gut = s.gut.clearBay := by
  rw [State.beginZero, State.emptyBuffer_gut]

/-- Every key gone, the eaves and Gable's slots ZEROIZING, the sequencer, the lost nodes and every queue empty. -/
theorem State.beginZero_emptied : s.beginZero.keysGone = true ∧ (∀ n, n < 256 → (s.beginZero.gab.slot n).state = .zeroizing) ∧
    s.beginZero.gab.ready = false ∧ s.beginZero.trs.runs = [] ∧ s.beginZero.trs.insts = [] ∧ s.beginZero.trs.comms = [] ∧
    s.beginZero.pur.nodeLost = 0 ∧ (∀ n, n < 32 → (s.beginZero.eave n).zeroizing = true ∧ (s.beginZero.eave n).homeQ = []) ∧
    ∀ q, (s.beginZero.queue q).items = [] := by
  have gab : s.beginZero.gab = { s.gab.zeroize with ready := false, zeroizing := true, stallFirst := 0, refuseFirst := 0 } := by
    rw [State.beginZero, State.emptyBuffer_gab]
  have trs : s.beginZero.trs = { Trs.reset with ready := s.trs.ready } := by
    rw [State.beginZero, State.emptyBuffer_trs]
  obtain ⟨sec, eav⟩ := s.beginZero_bay
  have eave (n : Nat) (small : n < 32) : s.beginZero.eave n = (s.eave n).beginZero := by
    rw [State.eave, eav, s.eav.beginZero_eave small, State.eave]
  refine ⟨?_, fun n small => ?_, by rw [gab], by rw [trs]; rfl, by rw [trs]; rfl, by rw [trs]; rfl, rfl, fun n small => ?_,
    State.emptyBuffer_queue _⟩
  · rw [State.keysGone, sec, eav]
    rfl
  · rw [gab]
    exact s.gab.zeroize_slot small
  · rw [eave n small]
    exact ⟨rfl, rfl⟩

end

/-! ### RELEASE (R257, R278, R281) -/

section
variable (s : State)

theorem State.setBay_sec (st : BayState) : (s.setBay st).sec = { s.sec with state := st } := by
  unfold State.setBay
  split
  · next same => rw [← same]
  · rw [State.logEvent_sec]

theorem exec_release_unserved (idle : s.served = false) : exec .release s = .next s :=
  congrArg Host.Outcome.next (if_neg (ne_true_of_eq_false idle))

theorem exec_release (serves : s.served = true) : exec .release s = .next s.cmdRelease := congrArg Host.Outcome.next (if_pos serves)

theorem State.cmdRelease_refused (rest : s.sec.state = .free ∨ s.sec.state = .zeroizing) :
    s.cmdRelease = { s with sec := { s.sec with err := 1 } } := if_pos rest

theorem State.cmdRelease_waits {i : Install} (bay : s.sec.state ≠ .free) (holds : s.sec.state ≠ .zeroizing) (install : s.sec.install = some i)
    (keys : i.rotation = false) : s.cmdRelease = { s with sec := { s.sec with releaseDue := true } } := by
  unfold State.cmdRelease
  rw [if_neg (not_or.mpr ⟨bay, holds⟩), if_pos (by rw [install, Option.any_some, keys]; rfl)]
  rfl

theorem State.cmdRelease_starts (bay : s.sec.state ≠ .free) (holds : s.sec.state ≠ .zeroizing)
    (rotates : ∀ i, s.sec.install = some i → i.rotation = true) : s.cmdRelease = s.startRelease := by
  unfold State.cmdRelease
  rw [if_neg (not_or.mpr ⟨bay, holds⟩), if_neg]
  intro waits
  obtain ⟨i, install, keys⟩ := Option.any_eq_true _ _ |>.mp waits
  rw [rotates i install] at keys
  cases keys

/-- The bay as a release leaves it before the first DESTROY goes out: ZEROIZING with PENDING, and no teardown. -/
def State.releasing : State :=
  let was := s.sec.state
  let s := s.setSec fun x => { x with pending := true, busy := true, releaseDue := false, install := none, lifted := [] }
  let s := s.setBay .zeroizing
  let s : State := { s with gut := { s.gut with phase := .none, stopWait := [], resumeWait := [], toFence := [], endHeld := false } }
  if was = .running ∨ was = .teardown then { s with trs := s.trs.stop, gab := s.gab.zeroize, pur := s.pur.disarm } else s

theorem State.startRelease_eq : ∃ ports : List (Fin 144), s.startRelease = (ports.foldl State.sendDestroy s.releasing).afterDestroy := ⟨_, rfl⟩

/-- What of a release holds from its first step on: the bay's state, PENDING, the phase of a teardown and the Jalem block. -/
def State.release : BayState × Bool × Phase × Jeb := (s.sec.state, s.sec.pending, s.gut.phase, s.jeb)

theorem State.releasing_release : s.releasing.release = (.zeroizing, true, .none, s.jeb) := by
  unfold State.releasing
  dsimp only
  split
  all_goals
    simp only [State.release, State.setBay_sec, State.setBay_jeb, State.setSec_jeb]
    rfl

theorem State.sendDestroy_release (n : Fin 144) : (s.sendDestroy n).release = s.release := by
  rw [State.release, State.sendDestroy_gut, State.sendDestroy_jeb]
  rfl

/-- A step's end where the last DESTROY is acknowledged: nothing, or the beginning of the zeroization. -/
theorem State.afterDestroy_cases : s.afterDestroy = s ∧ (s.sec.state = .zeroizing → s.sec.destroyWait ≠ []) ∨
    s.afterDestroy = s.beginZero ∧ s.sec.destroyWait = [] := by
  unfold State.afterDestroy
  split
  · next last => exact .inr ⟨rfl, last.2⟩
  · next waits => exact .inl ⟨rfl, fun zeroes last => waits ⟨zeroes, last⟩⟩

theorem State.afterDestroy_release : s.afterDestroy.release = s.release := by
  obtain ⟨same, -⟩ | ⟨begins, -⟩ := s.afterDestroy_cases
  · rw [same]
  · rw [begins, State.release, s.beginZero_sec, s.beginZero_jeb, s.beginZero_gut]
    rfl

theorem State.startRelease_release : s.startRelease.release = (.zeroizing, true, .none, s.jeb) := by
  obtain ⟨ports, starts⟩ := s.startRelease_eq
  rw [starts, State.afterDestroy_release, State.foldl_keeps State.release _ (fun s n => s.sendDestroy_release n), State.releasing_release]

/-- Where a release awaits no DESTROY, the zeroization has begun. -/
theorem State.startRelease_begun (last : s.startRelease.sec.destroyWait = []) : ∃ u : State, s.startRelease = u.beginZero := by
  obtain ⟨ports, starts⟩ := s.startRelease_eq
  obtain ⟨same, waits⟩ | ⟨begins, -⟩ := (ports.foldl State.sendDestroy s.releasing).afterDestroy_cases
  · rw [same] at starts
    have zero := congrArg Prod.fst s.startRelease_release
    rw [starts] at zero last
    exact absurd last (waits zero)
  · exact ⟨_, starts.trans begins⟩

theorem State.gau_of_apart {s t : State} (same : t.apart = s.apart) : t.gau = s.gau := congrArg (fun a => a.2.2.1) same

end

/-! ### A DESTROY that no node acknowledges (R278, R280) -/

/-- The port of a node that does not acknowledge its DESTROY: held, the DESTROY owed. -/
def Port.unacknowledged (x : Port) : Port :=
  let y := x.hold x.train.fail
  { y with train := { y.train with destroyDue := true } }

section
variable (s : State) (n : Fin 144)

/-- A module port whose DESTROY stays owed, which is no longer awaited. -/
def State.unanswered : State :=
  (s.setSec fun x => { x with destroyWait := x.destroyWait.filter fun w => decide (w.1 ≠ n) }).updPort (.module n) Port.unacknowledged

/-- What is left to do for a node that acknowledges no DESTROY: its requests are answered and source 20 counts it. -/
theorem exec_destroyTimeout {tag : W16} (awaited : (n, tag) ∈ s.sec.destroyWait) : ∃ e : Event, e.src = 20 ∧ e.count = 1 ∧
    exec (.destroyTimeout n) s = .next (((s.unanswered n).answerLost n).count e).afterDestroy := by
  have any : (s.sec.destroyWait.any fun w => decide (w.1 = n)) = true := List.any_eq_true.mpr ⟨_, awaited, decide_eq_true rfl⟩
  exact ⟨{ eventOf 20 with node := BitVec.ofNat 8 ((s.unanswered n).partnerNode n) }, rfl, rfl,
    congrArg Host.Outcome.next (if_neg (by rw [any]; decide))⟩

/-- What answering for a lost node leaves: the security unit, the Jalem block and source 20. -/
def State.owed : Sec × Jeb × Src := (s.sec, s.jeb, Tab.get Src.zero s.gut.srcs 20)

theorem State.count_owed (e : Event) (other : 20 ≠ e.src) : (s.count e).owed = s.owed := by
  unfold State.count
  split
  · rfl
  · rw [State.owed, s.note_sec, s.note_jeb, s.note_src_ne e 0 0 20 other]
    rfl

theorem State.link_owed (f : Frame) (q : Nat) (a : Arrive) : (s.link f q a).owed = s.owed := by
  rw [State.owed, s.link_sec, s.link_jeb, s.link_gut]
  rfl

theorem State.unlink_owed (q : Nat) (e : Entry) : (s.unlink q e).owed = s.owed := by
  rw [State.owed, s.unlink_sec, s.unlink_jeb, s.unlink_gut]
  rfl

theorem State.respondTo_owed (spar src : Nat) (f : Frame) : (s.respondTo spar src f).owed = s.owed := by
  have counted : (if f.hdr.status = stPoisoned then s.count (requestEvent 1 f.hdr) else s).owed = s.owed := by
    split
    · exact s.count_owed _ (by simp [requestEvent])
    · rfl
  unfold State.respondTo
  dsimp only
  rw [← counted]
  split
  · exact State.link_owed _ _ _ _
  · split
    · exact State.link_owed _ _ _ _
    · rfl
  · exact State.count_owed _ _ (by simp [requestEvent])

theorem State.answerLost_owed : (s.answerLost n).owed = s.owed := by
  have answered (l : List Pend) (t : State) : (l.foldl (fun s e => s.respondError (agentSource agSoffit) e.hdr stTargetLost) t).owed = t.owed :=
    State.foldl_keeps State.owed _ (fun s e => s.respondTo_owed _ _ _) l t
  unfold State.answerLost
  dsimp only
  rw [State.foldl_keeps State.owed _ (fun t v => ?_), answered]
  · rfl
  · refine (State.foldl_keeps State.owed _ (fun t e => ?_) _ _).trans (State.foldl_keeps State.owed _ (fun s e => s.unlink_owed _ e) _ _)
    split
    · exact t.count_owed _ (by simp [requestEvent])
    · exact t.respondTo_owed _ _ _

/-- Events leave the configuration of their source. -/
theorem Src.take_cfg (c : Src) (b k : Nat) : (c.take b k).1.cfg = c.cfg := by
  unfold Src.take
  dsimp only
  unfold Src.expire
  repeat' split
  all_goals rfl

theorem State.note_cfg (e : Event) (sev code : Nat) :
    (Tab.get Src.zero (s.note e sev code).gut.srcs e.src).cfg = (Tab.get Src.zero s.gut.srcs e.src).cfg := by
  simp only [State.note, apply_ite State.gut, State.logEvent_gut, ite_self, Gut.record_srcs, Tab.get_put_same, Src.take_cfg]

/-- A source of operator scope keeps its count where the bay's are cleared (R279, R282). -/
theorem Gut.clearBay_operator (g : Gut) {i : Nat} (operator : bitAt (Tab.get Src.zero g.srcs i).cfg 24 = true) :
    Tab.get Src.zero g.clearBay.srcs i = Tab.get Src.zero g.srcs i :=
  (Tab.get_mapAll Src.zero (fun c => if bitAt c.cfg 24 then c else { Src.zero with cfg := c.cfg }) g.srcs i rfl).trans (if_pos operator)

theorem State.beginZero_train (m : Nat) : (s.beginZero.mport m).train = (s.mport m).train := by
  have port : s.beginZero.mport m = { (s.mport m).onSeal SealSt.unsealed with pendLog := [] } := by
    rw [State.mport, State.beginZero, State.emptyBuffer_ports]
    exact Tab.get_mapAll Port.reset (fun x => { x.onSeal SealSt.unsealed with pendLog := [] }) s.ports m rfl
  rw [port]
  rfl

/-- A state at the end of a step in which the last DESTROY may have gone: what the zeroization that follows leaves of it. -/
theorem State.afterDestroy_keeps : s.afterDestroy.sec.destroyWait = s.sec.destroyWait ∧ s.afterDestroy.jeb = s.jeb ∧
    (s.afterDestroy.mport n.val).train = (s.mport n.val).train ∧
    ∀ i, bitAt (Tab.get Src.zero s.gut.srcs i).cfg 24 = true ∨ s.afterDestroy.sec.destroyWait ≠ [] →
      Tab.get Src.zero s.afterDestroy.gut.srcs i = Tab.get Src.zero s.gut.srcs i := by
  obtain ⟨same, -⟩ | ⟨begins, last⟩ := s.afterDestroy_cases
  · rw [same]
    exact ⟨rfl, rfl, rfl, fun _ _ => rfl⟩
  · have waits : s.beginZero.sec.destroyWait = s.sec.destroyWait := by
      rw [s.beginZero_sec]
      rfl
    rw [begins, s.beginZero_gut, s.beginZero_train, waits]
    exact ⟨rfl, s.beginZero_jeb, rfl, fun i kept => s.gut.clearBay_operator (kept.resolve_right fun waiting => waiting last)⟩

/-- The port of a node that acknowledges no DESTROY is held, its DESTROY owed, and source 20 counts it. -/
theorem exec_destroyTimeout_holds {tag : W16} (awaited : (n, tag) ∈ s.sec.destroyWait) : Completes (.destroyTimeout n) s fun t =>
    (∀ w ∈ t.sec.destroyWait, w.1 ≠ n) ∧ (t.mport n.val).train.state = .held ∧ (t.mport n.val).train.destroyDue = true ∧
    (bitAt (Tab.get Src.zero s.gut.srcs 20).cfg 24 = true ∨ t.sec.destroyWait ≠ [] → Counted s t 20 1) ∧ t.eav.mem = s.eav.mem ∧
    t.jeb = s.jeb := by
  obtain ⟨e, source, one, run⟩ := exec_destroyTimeout s n awaited
  refine ⟨_, run, ?_⟩
  have owed := (s.unanswered n).answerLost_owed n
  have lines := congrFun ((((s.unanswered n).answerLost n).count_lines e).trans ((s.unanswered n).answerLost_lines n)) (.module n)
  have held : (s.unanswered n).port (.module n) = (s.port (.module n)).unacknowledged := State.port_updPort_same _ _ _
  simp only [State.owed, Prod.mk.injEq] at owed
  obtain ⟨sec, jeb, src⟩ := owed
  obtain ⟨waits, block, train, srcs⟩ := (((s.unanswered n).answerLost n).count e).afterDestroy_keeps n
  have counted := ((s.unanswered n).answerLost n).count_total e (by rw [one]; decide)
  have cfg := ((s.unanswered n).answerLost n).note_cfg e 0 0
  have trained : ((((s.unanswered n).answerLost n).count e).mport n.val).train = (s.port (.module n)).unacknowledged.train :=
    (congrArg Prod.fst lines).trans (congrArg Port.train held)
  rw [trained] at train
  rw [source, one, src] at counted
  rw [source, src] at cfg
  refine ⟨?_, congrArg Train.state train, congrArg Train.destroyDue train, fun kept => ?_, State.mem_of_apart ?_, ?_⟩
  · rw [waits, State.count_sec, sec]
    exact fun w mem => of_decide_eq_true (List.mem_filter.mp mem).2
  · have whole := srcs 20 (kept.imp_left fun operator => ?_)
    · rw [Counted, whole]
      exact counted
    · rw [State.count, if_neg (by rw [one]; decide), cfg]
      exact operator
  · rw [State.afterDestroy_apart, State.count_apart, State.answerLost_apart]
    exact State.updPort_apart _ _ _
  · rw [block, State.count_jeb, jeb]
    rfl

end

/-! ### The end of a zeroization (R207, R226, R278 to R280) -/

section
variable (s : State)

/-- What the end of a zeroization settles at once: the bay, the eaves, Gable and, as it was, the Jalem block. -/
def State.parts : Sec × Eav × Gab × Jeb := (s.sec, s.eav, s.gab, s.jeb)

theorem State.fence_parts (l : List (Fin 144)) : (l.foldl (fun s n => s.updPort (.module n) Port.fence) s).parts = s.parts :=
  State.foldl_keeps State.parts (fun s n => s.updPort (.module n) Port.fence) (fun _ _ => rfl) l s

theorem State.fence_laneIdle (l : List (Fin 144)) (n : Fin 144) :
    ((l.foldl (fun s n => s.updPort (.module n) Port.fence) s).mport n.val).laneIdle = (decide (n ∈ l) || (s.mport n.val).laneIdle) := by
  induction l generalizing s with
  | nil => rfl
  | cons m l ih =>
    rw [List.foldl_cons, ih]
    by_cases here : n = m
    · subst here
      have fenced : (s.updPort (.module n) Port.fence).mport n.val = (s.port (.module n)).fence :=
        s.port_updPort_same (.module n) Port.fence
      rw [fenced]
      simp [Port.fence]
    · have kept : (s.updPort (.module m) Port.fence).mport n.val = s.mport n.val :=
        s.port_updPort_ne (.module m) (.module n) _ fun same => here (PortRef.module.inj same)
      rw [kept]
      simp [here]

theorem Eav.dead_eq_false (e : Eav) (serve : ∀ p ∈ e.eaves, p.2.failed = false) (i : Nat) : e.dead i = false := by
  by_cases listed : Tab.get Eave.reset e.eaves (i / eaveShingles) = Eave.reset
  · exact congrArg Eave.failed listed
  · exact serve _ (Tab.mem_of_get_ne listed)

theorem Eav.failures_eq_nil {e : Eav} (serve : ∀ p ∈ e.eaves, p.2.failed = false) : e.failures = [] :=
  congrArg (List.map Prod.fst) (List.filter_eq_nil_iff.mpr fun p listed => by rw [serve p listed]; exact Bool.false_ne_true)

theorem Eav.failures_ne_nil {e : Eav} (dead : ∃ p ∈ e.eaves, p.2.failed = true) : e.failures ≠ [] := by
  obtain ⟨p, listed, failed⟩ := dead
  exact List.ne_nil_of_mem (List.mem_map.mpr ⟨p, List.mem_filter.mpr ⟨listed, failed⟩, rfl⟩)

/-- The bay zeroized: FREE with nothing of it left, every hip lane idle. -/
theorem State.endZero_free (serve : ∀ p ∈ s.eav.eaves, p.2.failed = false) :
    s.endZero.sec.state = .free ∧ s.endZero.eav.mem = Mem.empty ∧ s.endZero.eav.durs = [] ∧ s.endZero.sec.tag = 0 ∧ s.endZero.sec.shape = 0 ∧
    s.endZero.sec.pending = false ∧ s.endZero.sec.done = (s.sec.done || s.sec.pending) ∧ s.endZero.gab.slots = [] ∧
    (∀ n : Fin 144, portRole n.val = .hip → (s.endZero.mport n.val).laneIdle = true) ∧ s.endZero.jeb = s.jeb := by
  have kept := s.fence_parts (allPorts.filter fun n => decide (portRole n.val = .hip))
  simp only [State.parts, Prod.mk.injEq] at kept
  obtain ⟨sec, eav, -, jeb⟩ := kept
  unfold State.endZero
  simp only [State.setBay_sec, State.setBay_eav, State.setBay_gab, State.setBay_jeb, State.mport, State.setBay_ports, sec, eav, jeb,
    true_and, and_true]
  refine ⟨Eav.endZero_mem _ (s.eav.dead_eq_false serve), rfl, rfl, fun n hip => ?_⟩
  have listed : n ∈ allPorts.filter fun n => decide (portRole n.val = .hip) :=
    List.mem_filter.mpr ⟨List.mem_finRange n, decide_eq_true hip⟩
  have idle := s.fence_laneIdle (allPorts.filter fun n => decide (portRole n.val = .hip)) n
  rw [decide_eq_true listed, Bool.true_or] at idle
  exact idle

/-- The eaves that serve, and Gable, zero (R207, R226). -/
def State.partsZero : State := { s with eav := s.eav.endZero, gab := s.gab.cleared (s.sof.started && !s.pwr.off) }

theorem exec_zeroizationComplete (zeroes : s.sec.state = .zeroizing) (gone : s.keysGone = true) : exec .zeroizationComplete s = .next
    (if s.eav.failures ≠ [] then s.eav.failures.foldl State.unfinished s.partsZero else s.endZero) :=
  congrArg Host.Outcome.next (if_neg (by simp [zeroes, gone]))

/-! ### An eave that cannot serve (R280) -/

/-- Reading a table of which the entries at some numbers are left. -/
theorem Tab.get_filter_index {α : Type} (d : α) (p : Nat → Bool) (t : Tab α) (i : Nat) :
    Tab.get d (t.filter fun c => p c.1) i = if p i then Tab.get d t i else d := by
  induction t with
  | nil => simp [Tab.get]
  | cons c t ih =>
    obtain ⟨k, v⟩ := c
    by_cases here : k = i
    · subst here
      by_cases stays : p k = true
      · simp [stays, Tab.get]
      · rw [List.filter_cons, if_neg stays, ih, if_neg stays, if_neg stays]
    · rw [Tab.get, if_neg here, ← ih, List.filter_cons]
      split
      · rw [Tab.get, if_neg here]
      · rfl

theorem Eav.endZero_zeroizing (e : Eav) (n : Nat) : (Tab.get Eave.reset e.endZero.eaves n).zeroizing =
    ((Tab.get Eave.reset e.eaves n).zeroizing && (Tab.get Eave.reset e.eaves n).failed) :=
  congrArg Eave.zeroizing (Tab.get_mapAll Eave.reset (fun x => { x with
    zeroizing := x.zeroizing && x.failed, scrubRun := x.ready && bitAt e.scrubCfg 0 && !(x.zeroizing && x.failed) }) e.eaves n rfl)

theorem Eav.endZero_cells (e : Eav) (a : Nat) : Tab.get 0 e.endZero.mem.cells a = if e.dead (a / 36) then Tab.get 0 e.mem.cells a else 0 :=
  Tab.get_filter_index 0 (fun a => e.dead (a / 36)) e.mem.cells a

theorem Eav.endZero_marked (e : Eav) (i : Nat) : Tab.get false e.endZero.mem.marked i = (e.dead i && Tab.get false e.mem.marked i) :=
  (Tab.get_filter_index false e.dead e.mem.marked i).trans (by cases e.dead i <;> rfl)

theorem satAdd_zero {n : Nat} (x : BitVec n) : satAdd x 0 = x := by
  have bound := x.isLt
  rw [satAdd, Nat.add_zero, Nat.min_eq_left (by omega), BitVec.ofNat_toNat, BitVec.setWidth_eq]

/-- A counter that saturates, counted twice. -/
theorem satAdd_satAdd {n : Nat} (x : BitVec n) (a b : Nat) : satAdd (satAdd x a) b = satAdd x (a + b) := by
  have full := Nat.two_pow_pos n
  simp only [satAdd, BitVec.toNat_ofNat, Nat.mod_eq_of_lt (show min (x.toNat + a) (2 ^ n - 1) < 2 ^ n by omega)]
  congr 1
  omega

/-- The severe faults of the eaves that cannot finish, counted at source 20. -/
theorem State.unfinished_total (l : List Nat) : (Tab.get Src.zero (l.foldl State.unfinished s).gut.srcs 20).total =
    satAdd (Tab.get Src.zero s.gut.srcs 20).total l.length := by
  induction l generalizing s with
  | nil => exact (satAdd_zero _).symm
  | cons n l ih =>
    have one : (Tab.get Src.zero (s.unfinished n).gut.srcs 20).total = satAdd (Tab.get Src.zero s.gut.srcs 20).total 1 :=
      (s.note_total _ 1 0 20).trans (if_pos rfl)
    rw [List.foldl_cons, ih, one, satAdd_satAdd, List.length_cons, Nat.add_comm]

theorem State.unfinished_severe {l : List Nat} (fails : l ≠ []) : (Tab.get Src.zero (l.foldl State.unfinished s).gut.srcs 20).severe = true := by
  obtain serve | ⟨before, n, last⟩ := l.eq_nil_or_concat
  · exact absurd serve fails
  · rw [last, List.concat_eq_append, List.foldl_append]
    exact State.note_severe _ _ 0

theorem State.unfinished_parts (l : List Nat) : (l.foldl State.unfinished s).parts = s.parts :=
  State.foldl_keeps State.parts _ (fun s n => by
    rw [State.unfinished, State.parts, s.severe_sec, s.severe_eav, s.severe_gab, s.severe_jeb, State.parts]) l s

end

/-- Settles O49: RELEASE by its guards, its settled part and the zeroization it begins, the timeout by the port held and source 20, and the end of a
zeroization without and with an eave that cannot serve. -/
theorem releaseZeroizes : Obligations.ReleaseZeroizes := by
  refine ⟨fun s => exec_release_unserved s, fun s serves rest => (exec_release s serves).trans (congrArg Host.Outcome.next (s.cmdRelease_refused rest)),
    fun s i serves bay holds install keys => (exec_release s serves).trans (congrArg Host.Outcome.next (s.cmdRelease_waits bay holds install keys)),
    fun s serves bay holds rotates => ?starts, fun s n tag => exec_destroyTimeout_holds s n, fun s zeroes gone => ⟨fun serve => ?all, fun dead => ?some⟩⟩
  case starts =>
    have run := (exec_release s serves).trans (congrArg Host.Outcome.next (s.cmdRelease_starts bay holds rotates))
    have release := s.startRelease_release
    simp only [State.release, Prod.mk.injEq] at release
    obtain ⟨state, pending, phase, jeb⟩ := release
    refine ⟨_, run, state, pending, phase, jeb, State.mem_of_apart s.startRelease_apart, State.gau_of_apart s.startRelease_apart, fun last => ?_⟩
    obtain ⟨u, begun⟩ := s.startRelease_begun last
    rw [begun]
    exact u.beginZero_emptied
  case all =>
    exact ⟨_, (exec_zeroizationComplete s zeroes gone).trans (congrArg Host.Outcome.next (if_neg (not_not.mpr (Eav.failures_eq_nil serve)))),
      s.endZero_free serve⟩
  case some =>
    have fails := Eav.failures_ne_nil dead
    have kept := s.partsZero.unfinished_parts s.eav.failures
    simp only [State.parts, Prod.mk.injEq] at kept
    obtain ⟨sec, eav, gab, jeb⟩ := kept
    have total := s.partsZero.unfinished_total s.eav.failures
    refine ⟨_, (exec_zeroizationComplete s zeroes gone).trans (congrArg Host.Outcome.next (if_pos fails)), gab, sec, jeb, ?_, fun n => ?_, fun a => ?_,
      fun i => ?_, ?_, State.unfinished_severe _ fails⟩
    · rw [eav]
      rfl
    · rw [State.eave, eav]
      exact s.eav.endZero_zeroizing n
    · rw [eav]
      exact s.eav.endZero_cells a
    · rw [eav]
      exact s.eav.endZero_marked i
    · rw [Eav.failures, List.length_map] at total
      exact total

end Sys2Proof.Machine
end
